-- ==== Sys2Proof/Word.lean ====
section
/-!
DEFINITION. The plain words of the model: bytes, addresses and the ruler of time.
The ruler counts *ticks* of 1/3200 ns, so that a swept system-clock period (05 R193) is a whole number of ticks.
-/
namespace Sys2Proof

/-- One byte on a wire or in a store. -/
abbrev Byte := BitVec 8
/-- A 64-bit serial number (17 Table 17.2). -/
abbrev Serial := BitVec 64
/-- A MAC address. -/
abbrev Mac := BitVec 48
/-- An IPv4 address. -/
abbrev Ip4 := BitVec 32
/-- An instant or a length on the model's ruler, in ticks of 1/3200 ns. -/
abbrev Ticks := Nat

end Sys2Proof
end

