-- ==== Sys2Proof/Syntax.lean ====
section
/-!
DEFINITION. The commands of the PW64 (spec/opcode_table.json, one constructor per row of the table) and the operands
they bring: readings, received fields and the outcome of physical checks, which the part cannot hold (log 11, log 13).
-/
namespace Sys2Proof

/-- Orderable part (00 R1). -/
inductive Part | e | c
  deriving DecidableEq, Repr

/-- The two I/O banks (04 R130). -/
inductive Bank | weft | misc
  deriving DecidableEq, Repr

/-- What the two banks measure at a bring-up, in mV (04 R133). -/
structure BankMv where
  weft : Nat
  misc : Nat
  deriving DecidableEq, Repr

/-- A rail whose loss acts as a brown-out (04 R143). -/
inductive Rail | vcore | vddm
  deriving DecidableEq, Repr

/-- Power domain number, D0 to D11 (01 Table 1.5). -/
abbrev Dom := Fin 12
/-- Network port number, NET0 to NET3. -/
abbrev Port := Fin 4

/-- Selvedge link (09 R403); the numbers of k:HELLO byte 20 are N 0, E 1, S 2, W 3. -/
inductive Dir | n | e | s | w
  deriving DecidableEq, Repr

/-- A strap reading: 8 conversions, each in microvolts against the 1.200 V reference (03 R90). -/
structure Reading where
  conv : List Nat
  deriving DecidableEq, Repr

/-- The six digital live pins (03 Table 3.12). -/
inductive LivePin | selftest | ident | standby | mute | blank | arm
  deriving DecidableEq, Repr

/-- Injections in a row at which the MDLL's phase detector finds the ring's 40th edge and the injected edge apart by `ps`
picoseconds (05 R183). -/
structure Injections where
  count : Nat
  ps : Int
  deriving DecidableEq, Repr

/-- Why the slow crystal is replaced (05 Table 5.4): unconfirmed at 3 s, stopped, or its count of edges in 1 s. -/
inductive SlowCause
  | unconfirmed
  | stopped
  | rate (edges : Nat)
  deriving DecidableEq, Repr

/-- What the census reads on one weft port (13 R630, R631): the 1,120 bits at `WPnn_SDI` after the marker, and after its complement, at
10 MHz, the first of them most significant; and the phases of each working clock at which both confirmations pass. -/
structure CensusPort where
  marker : BitVec 1120
  complement : BitVec 1120
  phases62 : List Bool
  phases31 : List Bool
  phases15 : List Bool
  deriving DecidableEq, Repr

/-- A channel that a status read finds flagged: port, driver of its chain and channel of the driver (13 R650). -/
structure LedFlag where
  port : Fin 64
  driver : Nat
  channel : Nat
  deriving DecidableEq, Repr

/-- What SFDP discovery finds (19 R919): density as log2 of Mbit, 4 KiB erase, 1-1-4 read. -/
structure Sfdp where
  density : Nat
  erase4k : Bool
  read114 : Bool
  deriving DecidableEq, Repr

/-- The ten invisible tests, in the order of 06 Table 6.4. -/
inductive TestKind
  | scrub | led | marker | eye | strap | dac | rom | otp | ageing | sensors
  deriving DecidableEq, Repr

/-- The ten knot types (09 Table 9.3). -/
inductive KnotType | hello | pos | lead | beat | prepare | ready | commit | bright | fault | census
  deriving DecidableEq, Repr

/-- A block as it crosses a Selvedge lane: bit 0 of the header is sent first, then its bit 1, then payload bits 0 to 63, scrambled (09
R407, R408). -/
structure WireBlock where
  header : BitVec 2
  payload : BitVec 64
  deriving DecidableEq, Repr

/-- The blocks with which a knot arrives, in the order of the lane. The blocks since the last command that carried nothing (IDLE) need
not be listed: `before` holds the 58 payload bits that crossed the lane just before the first block, the latest as bit 0. -/
structure BlockRun where
  before : BitVec 58
  blocks : List WireBlock
  deriving DecidableEq, Repr

/-- The 63 faults (19 Table 19.3), in the order of their bits. -/
inductive FaultName
  | pwrBrownout | pwrDomain | pwrVled | clkUnlock | clkXtal | clkSlow
  | strapAmbig | strapReserved | strapConflict | strapChanged
  | netLink | netModule | netRing | netIpconflict | netQueue | netSdp
  | timeNomaster | timeStep | timeHoldover
  | svLink | svAlign | svPosition | svNolead
  | fpNostream | fpFormat | fpLate | fpAuth | fpOverload
  | memCorrected | memPoison | memTrain | xbHang
  | weftCensus | weftShort | weftContention | weftOpenled | weftSdo
  | mkOpen | mkShort | mkSupplyshort | mkGroupoff | mkThermal
  | audNonaudio | audUnderrun | audNosource
  | bobNoise | bobAuth | bobOverrun | cardProtocol | irEcho
  | lcResumed | lcRefused | keyVerify | keySlots | dbgActive
  | thWarn | thLimit | ageMargin
  | fmOverflow | fmDouble | seqRom | seqWatchdog | ldgAccess
  deriving DecidableEq, Repr

/-- Severity S0 to S3 (19 R899). -/
abbrev Sev := Fin 4

/-! ### Network payloads -/

/-- `unsupported` is a sampling outside 07 Table 7.5. -/
inductive Sampling | ycbcr422 | ycbcr444 | rgb | unsupported
  deriving DecidableEq, Repr
inductive Colorimetry | bt709 | bt2020 | bt2100
  deriving DecidableEq, Repr
inductive Tcs | sdr | pq | hlg
  deriving DecidableEq, Repr

/-- The parsed SDP attributes of a video flow (11 Table 11.2); `none` where the SDP omits one. -/
structure VideoFmt where
  sampling : Option Sampling
  depth : Option Nat
  width : Option Nat
  height : Option Nat
  rate : Option (Nat × Nat)
  colorimetry : Option Colorimetry
  tcs : Option Tcs
  bpm : Bool
  /-- Neither interlaced nor segmented-frame. -/
  progressive : Bool
  deriving DecidableEq, Repr

/-- The parsed attributes of an audio flow (15 R722): bits 16 or 24 of L16 or L24, rate, channels, packet time in µs. -/
structure AudioFmt where
  bits : Nat
  rate : Nat
  channels : Nat
  ptime : Nat
  channelOrder : Bool
  deriving DecidableEq, Repr

inductive SdpMedia
  | video (f : VideoFmt)
  | audio (f : AudioFmt)
  | anc
  deriving DecidableEq, Repr

/-- An SDP: its `c=` group, its `m=` port, the payload type of its `rtpmap` and the media it describes (07 R305, R306). -/
structure Sdp where
  group : Ip4
  port : Nat
  payloadType : Nat
  media : SdpMedia
  deriving DecidableEq, Repr

/-- The RTP header fields on which reception depends (07 R305). -/
structure RtpHead where
  version : Nat
  padding : Bool
  extension : Bool
  payloadType : Nat
  deriving DecidableEq, Repr

/-- A sample row data segment: field bit, source row, first pixel, its bytes (07 R310, 11 R520). -/
structure Srd where
  field : Bool
  row : Nat
  col : Nat
  data : List Byte
  deriving DecidableEq, Repr

/-- A video packet: SSRC, RTP timestamp, marker, extended sequence, segments, and the RTP payload the tag covers (18 R884). -/
structure VideoPkt where
  head : RtpHead
  ssrc : BitVec 32
  rtp : BitVec 32
  marker : Bool
  seq : BitVec 32
  srds : List Srd
  payload : List Byte
  deriving DecidableEq, Repr

/-- An audio packet: for each sample period the channel words, left-justified in 32 bits (15 R726). -/
structure AudioPkt where
  head : RtpHead
  ssrc : BitVec 32
  rtp : BitVec 32
  samples : List (List (BitVec 32))
  deriving DecidableEq, Repr

/-- An ancillary packet as its 10-bit words from DID to the checksum (18 R882). -/
structure AncPkt where
  head : RtpHead
  rtp : BitVec 32
  words : List (BitVec 10)
  deriving DecidableEq, Repr

inductive Media
  | video (p : VideoPkt)
  | audio (p : AudioPkt)
  | anc (p : AncPkt)
  deriving DecidableEq, Repr

/-- IGMP messages heard by the switch (07 R286, R288). -/
inductive Igmp
  | report (host : Ip4) (group : Ip4) (joins : Bool)
  | query (from_ : Ip4) (maxResponse : Ticks)
  deriving DecidableEq, Repr

/-- PTP messages as the transparent clock sees them (08 R356 to R359). -/
inductive PtpKind | sync (twoStep : Bool) | followUp | delayReq | other
  deriving DecidableEq, Repr

structure PtpRelay where
  kind : PtpKind
  domain : Nat
  source : BitVec 80
  seq : Nat
  correction : Int
  layer2 : Bool
  /-- The UDP checksum; 0 for none (08 R360). -/
  checksum : BitVec 16
  deriving DecidableEq, Repr

/-- The header of a SAP packet (RFC 2974): version, deletion, and whether its payload is compressed or encrypted (07 R305). -/
structure SapHead where
  version : Nat
  deletion : Bool
  coded : Bool
  deriving DecidableEq, Repr

inductive Body
  | ptp (p : PtpRelay)
  | arp (reply : Bool) (senderMac : Mac) (senderIp : Ip4) (targetIp : Ip4)
  | igmp (dst : Ip4) (m : Igmp)
  | sap (head : SapHead) (sdp : Sdp)
  | media (src : Ip4) (group : Ip4) (port : Nat) (m : Media)
  | status (group : Ip4)
  | ipv4 (dst : Ip4)
  | other
  deriving DecidableEq, Repr

/-- A received Ethernet frame (07 R273): its length counts destination address to FCS. -/
structure Frame where
  dst : Mac
  src : Mac
  vlan : Option Nat
  len : Nat
  fcsOk : Bool
  body : Body
  deriving DecidableEq, Repr

/-- The fault sequences that a link's receiver hears (IEEE 802.3; 07 R272). -/
inductive LinkFault | none | localFault | remoteFault
  deriving DecidableEq, Repr

/-- A ring-guard frame (07 Table 7.4). -/
structure Guard where
  lead : Bool
  looped : Bool
  flush : Bool
  hops : Nat
  wallId : Nat
  port : Port
  serial : Serial
  seq : Nat
  deriving DecidableEq, Repr

/-! ### Wall time payloads -/

/-- A PTP timestamp (08 Table 8.1). -/
structure PtpTime where
  sec : Nat
  ns : Nat
  deriving DecidableEq, Repr

/-- The common header of a PTP message as the slave reads it (08 R340). -/
structure PtpHeader where
  version : Nat
  minor : Nat
  sdoId : Nat
  domain : Nat
  udpPort : Nat
  toUs : Bool
  source : BitVec 80
  seq : Nat
  correction : Int
  deriving DecidableEq, Repr

/-- The data set an Announce carries, in the order the comparison of IEEE 1588 reads it (08 R341). -/
structure AnnounceSet where
  priority1 : Nat
  clockClass : Nat
  accuracy : Nat
  variance : Nat
  priority2 : Nat
  grandmaster : BitVec 64
  stepsRemoved : Nat
  logAnnounce : Int
  logSync : Int
  deriving DecidableEq, Repr

/-! ### Crossbar and memory -/

/-- A crossbar master by its number (12 R971). -/
abbrev Master := Fin 24

/-- What a read of a line finds beside what was last written there (12 Table 12.1). -/
inductive Upset | none | oneSymbol | uncorrectable | integrity
  deriving DecidableEq, Repr

/-! ### Weft pins -/

/-- A weft output pin: of a port (CLK, SDO) or of a group. -/
inductive WeftPin
  | port (p : Fin 64)
  | group (g : Fin 8)
  deriving DecidableEq, Repr

/-- A weft pin and the edges, by number, after which its level was not the driven one (13 R677). -/
structure PinEdges where
  pin : WeftPin
  edges : List Nat
  deriving DecidableEq, Repr

/-- A word or plane that a port shifted, by driver, and its echo (13 R677, Table 13.10). -/
structure EchoWord where
  sent : List (BitVec 16)
  back : List (BitVec 16)
  deriving DecidableEq, Repr

/-! ### Markers -/

/-- One measurement of a marker channel: ball voltage in mV and current in µA (14 R685). -/
structure MarkMeas where
  vs : Nat
  cur : Nat
  deriving DecidableEq, Repr

/-- Which dissipation measure is over or under its limit (14 R717). -/
inductive Thermal
  | channel (c : Fin 48) (powerUw : Nat)
  | total (powerUw : Nat)
  deriving DecidableEq, Repr

/-! ### Serial channels -/

/-- A received character with its ninth bit and flags (16 R765, R768). -/
structure RxChar where
  data : Byte
  ninth : Bool
  noise : Bool
  framing : Bool
  overrun : Bool
  deriving DecidableEq, Repr

/-- The character carries a flag. -/
def RxChar.flagged (c : RxChar) : Bool := c.noise || c.framing || c.overrun

/-- The character-level failures of an active card (16 R801, R803, R804). -/
inductive CardTimeout | atrGap | retransmission | workWaiting
  deriving DecidableEq, Repr

/-- The card's answer to GET RESPONSE (18 Table 18.4), with the outcome of the public-key validations. -/
structure CardReply where
  format : Byte
  reserved : Byte
  nC : List Byte
  qC : List Byte
  qS : List Byte
  deriving DecidableEq, Repr

/-- The ORDER data (18 Table 18.5). -/
structure CardOrder where
  format : Byte
  action : Byte
  epoch : Byte
  reserved : Byte
  target : Serial
  nT : List Byte
  check : BitVec 32
  wrapped : List Byte
  qNew : List Byte
  signature : List Byte
  deriving DecidableEq, Repr

/-- TAP instructions (02 R74, R83). -/
inductive TapIr | bypass | idcode | extest | taking | other
  deriving DecidableEq, Repr

/-! ### The commands -/

/-- The commands, in the order of spec/opcode_table.json. -/
inductive Instr
  -- power and bring-up
  | aonOn (banks : BankMv) (testEn : Bool)
  | fusePairDone (took : Bool) (tj : Int)
  | fuseSequenceTempWaitEnd (tj : Int)
  | d1d2SwitchOn (edges : Nat)
  | strapPass (ref : Nat) (readings : List Reading)
  | vinBrownout (firstFuse : Bool)
  | railBrownout (rail : Rail) (firstFuse : Bool)
  | brownoutRestart (banks : BankMv)
  | standbyBrownout
  | aonOff
  | resetNAssert
  | resetNRelease (banks : BankMv) (testEn : Bool)
  | bankRemeasure (bank : Bank) (mv : Nat)
  | domainSwitchOn
  | domainPowerGood (d : Dom)
  | domainSwitchTimeout (d : Dom)
  | domainRetry (d : Dom)
  | domainGateOff (d : Dom)
  | vcoreInitialSet (margins : List Nat) (dom : Dom)
  | ageingMeasure (margin : Nat) (dom : Dom)
  -- clock
  | mdllLock (run : List Injections)
  | bootCheckDone (romFlips sramFlips : List (Nat × Byte)) (flash : Option Sfdp) (sensorPf : Nat)
  | mdllLossOfLock (run : List Injections)
  | mdllLockTimeout (run : List Injections)
  | referenceEdgeMissing
  | referenceRecheck (edges : Nat)
  | slowCrystalConfirm (refPeriods : Nat)
  | slowClockFault (cause : SlowCause)
  | slowOscTrim
  | slowCrystalRecheck (refPeriods : Nat)
  | standbySlowCrystalStop (banks : BankMv)
  | seqWatchdogExpiry
  | dramTrainingDone (failed : Option (Fin 8))
  | weftCensusComplete (ports : List CensusPort)
  -- straps and live pins
  | strapRereadPass (ref : Nat) (readings : List Reading)
  | strapConfirmRead (pin : Fin 48) (reading : Reading)
  | liveStrapRead (ref : Nat) (scene bright : Reading)
  | livePinSample (pin : LivePin) (high : Bool) (banks : BankMv)
  -- self-test and sensors
  | selftestHold2s
  | selftestHold10s
  | invisibleSuiteDone
  | visibleStepAdvance
  | visibleSequenceEnd
  | testSliceAbandon (test : TestKind)
  | eyeMarginRead (lane : Fin 8) (margin : Nat)
  | dacSwapCalibrate (bank : Fin 5) (trimmed : Bool)
  | romCrcCheck (romFlips : List (Nat × Byte))
  | otpCheck (flipped : List Nat)
  | sensorRead (sites : List Int) (vin vled : Nat)
  | tempSiteIgnore (site : Fin 4)
  -- standby
  | standbyPowerDown (banks : BankMv)
  | cardDialogueStandbyLimit
  | nightStandbyDecision
  | timedWake (banks : BankMv)
  | slowListenerMatch (levels : List Bool)
  | wakeCheck (banks : BankMv)
  -- network
  | moduleInsert (port : Port)
  | moduleIdRead (port : Port) (bytes : List Byte)
  | moduleRemove (port : Port)
  | linkUp (port : Port) (fault : LinkFault)
  | linkDown (port : Port)
  | netLinkTimeout (port : Port)
  | portListenEnd (port : Port)
  | frameReceive (port : Port) (frame : Frame)
  | macAgeOut (mac : Mac)
  | mediaQueueRelease (port : Port) (group : Ip4)
  | launchTime (port : Port)
  | guardFrame (port : Port) (g : Guard)
  | guardSend
  | guardLift (port : Port)
  | flushFloodEnd
  | routerPortExpiry (port : Port)
  | igmpQuerySend
  | igmpStateReport (group : Ip4)
  | igmpQueryAnswer
  | sdpExpiry (group : Ip4) (udp : Nat)
  | netSdpTimeout (slot : Fin 256)
  | senderTimeout (slot : Fin 256)
  | arpProbe
  | addressClaim
  | positionalAddressRetry
  | statusRecordLaunch
  -- wall time
  | announce (port : Port) (h : PtpHeader) (a : AnnounceSet)
  | sync (port : Port) (h : PtpHeader) (twoStep : Bool) (origin : PtpTime)
  | followUp (h : PtpHeader) (origin : PtpTime)
  | followUpTimeout
  | delayReq
  | delayResp (h : PtpHeader) (requester : BitVec 80) (received : PtpTime) (logInterval : Int)
  | masterLoss
  | servoRangeTimeout
  | timeNomasterTimeout
  | followerStepTimeout
  | beatInconsistentTimeout
  | leadChangeHoldTimeout
  | reedBeat (flags : List LedFlag)
  | refreshStart
  | pickStart
  -- Selvedge links and discovery
  | blockLock (link : Dir) (headers : List (BitVec 2))
  | blockLockLoss (link : Dir) (headers : List (BitVec 2))
  | hello (link : Dir) (run : BlockRun)
  | helloSend
  | helloTimeout (link : Dir)
  | svLinkTimeout (link : Dir)
  | markReqSend (link : Dir)
  | markReq (link : Dir) (value : BitVec 16)
  | markRsp (link : Dir) (value : BitVec 16)
  | markBeat (link : Dir) (value : BitVec 16)
  | pos (link : Dir) (run : BlockRun)
  | posSend
  | census (link : Dir) (run : BlockRun)
  | censusSend
  | censusLapse (serial : Serial)
  | lead (link : Dir) (run : BlockRun)
  | leadSend
  | leadSettle
  | becomeActingLead
  | leadLost
  | noLeadTimeout
  | positionInconsistency (link : Dir)
  | beat (link : Dir) (run : BlockRun)
  | fault (link : Dir) (run : BlockRun)
  | faultKnotSend
  -- scenes
  | sceneChangeStart
  | prepareRepeat
  | prepare (link : Dir) (run : BlockRun)
  | readySend
  | ready (link : Dir) (run : BlockRun)
  | sceneDecision
  | commitRepeat
  | commit (link : Dir) (run : BlockRun)
  | commitEcho
  | echoPreparedCommit
  | commitDeadlineMiss
  | unsolicitedReady
  | streamLossTimeout (w : Fin 9)
  -- frame memory and crossbar
  | memRead (m : Master) (offset : Nat) (upset : Upset)
  | memWriteWhole (m : Master) (offset : Nat) (data : List Byte)
  | memWritePartial (m : Master) (offset : Nat) (data : List Byte) (upset : Upset)
  | scrubLine (upset : Upset)
  | xbTransaction (m : Master) (write : Bool) (address : Nat) (length : Nat)
  | xbHang (m : Master)
  -- weft ports and wear
  | weftPinTrip (pin : WeftPin) (edges : List Nat) (others : List PinEdges)
  | weftSdoMismatch (port : Fin 64) (echo : List EchoWord)
  | weftRetest (pin : WeftPin) (pass : Bool)
  | wearUpdate
  | wearFlush
  | ledgerProgramDone (ok : Bool)
  -- brightness
  | ambientConvert (picoamps : Nat)
  | ambientReport
  | brightTargetCompute
  | bright (link : Dir) (run : BlockRun)
  -- markers
  | markerUpdate (meas : List MarkMeas) (vled : Nat)
  | markerRetest (ch : Fin 48) (first second : MarkMeas) (vled : Nat)
  | supplyShortRetry (ch : Fin 48) (meas : List MarkMeas) (vled : Nat)
  | retryCountClear (ch : Fin 48)
  | markerThermalReduce (t : Thermal)
  | vledOutOfRange (vled : Nat)
  | vledRestore (vled : Nat)
  -- audio
  | nonAudioEnd (flow : Fin 4) (pair : Fin 8)
  | audioFetch
  | audioSenderTimeout (flow : Fin 4)
  | levelChangeApply (output : Fin 2) (channel : Fin 32)
  | audNosourceTimeout (flow : Fin 4)
  -- Bobbin bus and beacon
  | bobbinFrame (levels : List Bool) (lost : List Nat)
  | bobbinFrameGap
  | xon
  | xoff
  | xoffTimeout
  | answerSend (echo : List RxChar)
  | answerDrop
  | rollcallSlot (echo : List RxChar)
  | rollcallSend (echo : List RxChar)
  | rollcallResend (echo : List RxChar)
  | beaconFrame (lows : List (Nat × Nat))
  -- card and keys
  | cardPresent
  | ts (levels : List Bool)
  | tsTimeout
  | atrComplete (chars : List (BitVec 9))
  | ppsEcho (chars : List (BitVec 9))
  | cardCharacterTimeout (cause : CardTimeout)
  | cardRemoval
  | cardReactivate
  | select (chars : List (BitVec 9))
  | helloCertificate (chars : List (BitVec 9))
  | helloState (chars : List (BitVec 9))
  | getResponse (chars : List (BitVec 9))
  | order (chars : List (BitVec 9))
  | ledgerRetagDone
  | result (chars : List (BitVec 9))
  | dialogueTimeout
  | tapInstructionLoad (trstN : Bool) (ir : TapIr)
  -- faults
  | faultRaise (f : FaultName) (detail : BitVec 32)
  | faultClear (f : FaultName) (detail : BitVec 32)
  | faultHandlerEnd (sev : Sev)
  | handlerTimeout (sev : Sev)
  | s3HoldoffEnd (banks : BankMv)
  | ledgerMirror
  -- last rows
  | cardAbsenceConfirmed
  | memoryInitComplete
  | knotSequenceExpiry (orig : Serial) (t : KnotType)
  | posClaimExpiry (link : Dir)
  | leadClaimLapse
  | flowControlSend (echo : List RxChar)
  | buckPhaseChange (milliamps : Nat)
  deriving DecidableEq, Repr

end Sys2Proof
end

