-- ==== Sys2Proof/Config.lean ====
section
/-!
DEFINITION. What the spec leaves to the unit or to chance: free values. None has a body, so no statement can rest on a value
of theirs.
-/
namespace Sys2Proof.Config

/-- Free value (log 7): the n-th draw of entropy of the unit, a natural number. -/
opaque freeValue : Nat → Nat

/-- Free value (log 7): the portIdentity a tile of a serial number writes into its Delay_Req; the spec does not state it. -/
opaque portIdentity : Nat → BitVec 80

/-- Free value (log 72): where the buck's internal oscillator lies within its ± 10 % (04 R136). -/
opaque buckOscillator : Nat
/-- Free value (log 9): the sample-rate converter of 15 R729, as a function of the output rate, the position between source samples
in units of 1/fs of a source period, and the source samples around it; the spec bounds its response and states no coefficients. -/
opaque resample : Nat → Nat → List Int → Int

/-- Free value (log 8): the tile pixels (column, row) that a line of the toned frame store carries; the spec states no layout. -/
opaque tonedPixels : Nat → List (Nat × Nat)
/-- Free value (log 8): the blocks whose integrators a line of the wear region carries; the spec states no layout. -/
opaque wearBlocks : Nat → List Nat

/-- The keyed 32-bit integrity part of a line: its key, its 64 data bytes and its DRAM offset (12 R574; log 8). -/
opaque lineIntegrity : List Byte → List Byte → Nat → BitVec 32

/-- The four check symbols over GF(2^8) of 68 message symbols, in order (12 R574; log 8). -/
opaque eccPart : List Byte → BitVec 32

end Sys2Proof.Config
end

