-- ==== Sys2Proof/Machine/State.lean ====
section
/-!
DEFINITION. The state of the PW64, as plain data. The default of each field is its value before power (reset): what the
spec gives for reset, else the value that log 3 names. Domains D1 to D11 lose their structures at a bring-up (06 R222),
so a bring-up puts the defaults back; the structures of D0 keep what 06 Table 6.1 keeps.
-/
namespace Sys2Proof.Machine
open Sys2Proof

/-- A strap code, 0 to 15 (03 R87). -/
abbrev Code := Fin 16

/-! ### The unit, pins and straps (00, 02, 03) -/

/-- What the unit is by manufacture (log 4). -/
structure UnitId where
  /-- 00 R1. -/
  part : Part := .e
  /-- The mask ROM of 64 KiB (06 R227): bytes that differ from zero. The spec gives no image; this one is zero but for the CRC-32 that
  its last four bytes store (log 4). -/
  rom : List Host.Cell := [(65532, 0x51), (65533, 0x0B), (65534, 0x66), (65535, 0xBF)]
  deriving DecidableEq, Repr

/-- Debug pins (02 R70, R74, R83). -/
structure Pins where
  boundaryScan : Bool := false
  testEn : Bool := false
  tapIr : TapIr := .bypass
  deriving DecidableEq, Repr

/-- What one reading of a strap pin decides (03 R91). -/
inductive Decided
  | firm (c : Code)
  | marginal
  deriving DecidableEq, Repr

/-- The strap reader of D0 (03). -/
structure Straps where
  /-- Readings of the bring-up passes, empty until made (R94). -/
  pass1 : List Decided := []
  pass2 : List Decided := []
  /-- The strap reference lay in range at each pass (Table 3.13). -/
  ref1 : Bool := true
  ref2 : Bool := true
  /-- `t:strap_code` and `t:strap_pending` per pin (R101). -/
  code : List Code := List.replicate 48 15
  pend : List Code := List.replicate 48 15
  /-- The codes in use after defaults and conflicts (R95 to R99). -/
  inUse : List Code := List.replicate 48 15
  decided : Bool := false
  /-- Pins awaiting the second reading: pin, candidate, due instant (R100). -/
  recheck : List (Nat × Code × Ticks) := []
  /-- Codes confirmed as changed since the bring-up (R100). -/
  changedSeen : List (Nat × Code) := []
  marginalRun : List Nat := List.replicate 48 0
  refBad : Bool := false
  nextReread : Ticks := 0
  /-- The end of the last pass: its pull-ups are connected until then (R92). -/
  passEnd : Ticks := 0
  /-- `CS_BRIGHT`'s nearest code of pass 2, while the decision of 23 ms is to come (R98). -/
  decideDue : Option Code := none
  deriving DecidableEq, Repr

/-- Filter of one digital live pin: the accepted level, and a run of samples of the other level (03 R109). -/
structure PinFilter where
  level : Bool := true
  run : Nat := 0
  /-- Instant from which the next sample is due. -/
  next : Ticks := 0
  deriving DecidableEq, Repr

/-- Live straps and live pins (03). -/
structure Live where
  /-- Instant from which the next slot of the two live straps is due (R103). -/
  readNext : Ticks := 0
  sceneRun : Option (Code × Nat) := none
  /-- Readings since the last run of three (R105). -/
  sceneMiss : Nat := 0
  sceneCode : Code := 15
  /-- Accepted, handed to the heddle at the next beat (R104). -/
  sceneDue : Option Code := none
  brightRun : Option (Code × Nat) := none
  brightCode : Code := 15
  brightDue : Option Code := none
  /-- The code of `CS_BRIGHT` applied at the last beat. -/
  brightApplied : Code := 15
  selftest : PinFilter := {}
  ident : PinFilter := {}
  standby : PinFilter := {}
  mute : PinFilter := {}
  blank : PinFilter := {}
  arm : PinFilter := {}
  lowSince : Option Ticks := none
  acted : Bool := false
  /-- The visible sequence was refused at 2 s of this low period (06 R246). -/
  refusedNow : Bool := false
  identShown : Bool := false
  identDue : Option Bool := none
  /-- The canvas is blanked by `BLANK_N` and its release awaits a beat (10 R501). -/
  blanked : Bool := false
  deriving DecidableEq, Repr

/-! ### Power, domains, standby (04) -/

inductive Level | none | v18 | v33
  deriving DecidableEq, Repr

/-- One I/O bank (04 R133 to R135). -/
structure BankSt where
  level : Level := .none
  lost : Bool := false
  /-- The last measured band and the run of equal bands, or of readings outside the band. -/
  lastBand : Level := .none
  run : Nat := 0
  /-- Instant from which the next measurement is due (R134). -/
  next : Ticks := 0
  deriving DecidableEq, Repr

inductive DomPhase
  | off
  | switching (since : Ticks)
  | on
  | retention
  deriving DecidableEq, Repr

/-- One power domain (04 Table 4.3, R148, R151). -/
structure DomSt where
  phase : DomPhase := .off
  fails : Nat := 0
  heldOff : Bool := false
  retryAt : Option Ticks := none
  /-- Since when its off condition has held (R148). -/
  offSince : Option Ticks := none
  deriving DecidableEq, Repr

structure Pwr where
  aonOn : Bool := false
  /-- VIN is low and a brown-out restart is awaited (R144). -/
  vinLow : Bool := false
  bankW : BankSt := {}
  bankM : BankSt := {}
  buckOn : Bool := false
  phases : Fin 4 := 1
  /-- VCORE set point in 0.1 mV (R153). -/
  vcore : Nat := 8000
  /-- The rail on its way to the set point, in 0.1 mV, and its last move of 2.5 mV (R155). -/
  rail : Nat := 8000
  railAt : Ticks := 0
  /-- Least margin in 0.01 % and the domain that shows it (R154). -/
  margin : Nat := 0
  marginDom : Dom := 0
  vcoreSet : Bool := false
  lastStep : Option Ticks := none
  lastSwitchOn : Option Ticks := none
  ageNext : Option Ticks := none
  /-- D0 to D11; D0 is AON. -/
  dom : List DomSt := List.replicate 12 {}
  lane : List Bool := List.replicate 4 false
  deriving DecidableEq, Repr

/-- What puts a tile into standby (04 Table 4.4). -/
inductive StandbySource | pin | bobbin | night
  deriving DecidableEq, Repr

/-- When the entry beat falls (04 R161, 16 R785). -/
inductive EntryAt
  | nextBeat
  | afterInstant (t : Ticks)
  | beat (n : BitVec 32)
  deriving DecidableEq, Repr

inductive EntryStage | waiting | flushing
  deriving DecidableEq, Repr

/-- A standby entry under way (04 R161, R974). -/
structure Entry where
  source : StandbySource
  due : EntryAt
  stage : EntryStage := .waiting
  /-- Instant at which the wait for a card dialogue began (R171). -/
  waitSince : Option Ticks := none
  /-- B, once it has fallen. -/
  at_ : Ticks := 0
  /-- `STANDBY_N` was accepted high at or after B (R974). -/
  wakeAfter : Bool := false
  deriving DecidableEq, Repr

structure Standby where
  asleep : Bool := false
  source : Option StandbySource := none
  entry : Option Entry := none
  enteredAt : Option Ticks := none
  /-- Triggers ignored since the bring-up, and the cause of the last (R160, 05 R218): 1 markers, 2 slow clock. -/
  ignored : Nat := 0
  ignoredInterval : Bool := false
  ignoredCause : Nat := 0
  /-- Start of the unbroken conditions at the lead, and the last timed wake (R158, R159). -/
  nightSince : Option Ticks := none
  nightWoke : Option Ticks := none
  /-- A low of `STANDBY_N` was accepted since a Bobbin entry (R162). -/
  sawLow : Bool := false
  listenAddr : Option Byte := none
  /-- A frame the slow listener holds for D1 and D2 to check: destination, characters, end (16 R790, 04 R164). -/
  listened : Option (Byte × List Byte × Ticks) := none
  deriving DecidableEq, Repr

/-! ### Clock (05) -/

/-- A fractional divider: its accumulator and the output events since it started (R201). -/
structure Divider where
  acc : Nat := 0
  events : Nat := 0
  deriving DecidableEq, Repr

/-- The dividers of Table 5.2: `AUD_MCLK`, the TDM bit clocks, the Bobbin and beacon sample ticks, the card clock and its ETU, and the
weft scan. -/
structure Dividers where
  mclk : Divider := {}
  bclk : Divider := {}
  bob : Divider := {}
  bea : Divider := {}
  card : Divider := {}
  etu : Divider := {}
  scan : Divider := {}
  deriving DecidableEq, Repr

inductive Profile | off | tri025 | tri05 | tri1 | rounded05
  deriving DecidableEq, Repr

/-- What waits under R211: the confirmed slow crystal, or the internal oscillator with its fault detail. -/
inductive SlowDue
  | crystal
  | substitute (detail : BitVec 32)
  deriving DecidableEq, Repr

structure Clk where
  locked : Bool := false
  running : Bool := false
  /-- The 25.000 MHz oscillator is powered (R182), and its edges are there. -/
  oscOn : Bool := false
  refPresent : Bool := false
  /-- The count of R982 waits until the oscillator that AON started has run for 2 ms. -/
  refWait : Ticks := 0
  /-- System clocks since the last lock (R206). -/
  count : Nat := 0
  /-- Delay that the tuning loop has set for the running injection period and for the next, in DTC steps above the unswept
  period (R184). -/
  cell : Nat := 0
  cellNext : Nat := 0
  /-- A confirmation or substitution of the slow clock that waits for a strap pass or a fuse pair to end (R211). -/
  slowDue : Option SlowDue := none
  d2OnAt : Option Ticks := none
  /-- AON runs on the confirmed slow crystal (R180, R181). -/
  slowXtal : Bool := false
  /-- The internal oscillator stands in for a failed slow crystal (R217). -/
  substituted : Bool := false
  trimmed : Bool := false
  nextTrim : Option Ticks := none
  nextSlowCheck : Option Ticks := none
  refCheckAt : Option Ticks := none
  refGoodSince : Option Ticks := none
  profile : Profile := .off
  /-- Profile kept in D0 for S3 restarts (R214). -/
  kept : Option Profile := none
  /-- Injection index j and clocks into the injection period (R193, R198). -/
  j : Nat := 0
  sub : Nat := 0
  /-- Accumulated delay in steps (R194). -/
  dtc : Nat := 0
  /-- Carried remainder of the corrected increment (R200). -/
  carry : Nat := 0
  div : Dividers := {}
  lastUnlock : Option Ticks := none
  fallback : Bool := false
  /-- Error cycles of the last loss of lock (19 Table 19.3). -/
  errors : Nat := 0
  deriving DecidableEq, Repr

/-! ### Bring-up and self-test (06) -/

inductive BootKind | powerUp | resetN | brownout | s3 | wake
  deriving DecidableEq, Repr

structure Boot where
  kind : BootKind := .powerUp
  cause : Option FaultName := none
  ref : Ticks := 0
  inReset : Bool := false
  /-- The bring-up is in progress from its reference instant on. -/
  started : Bool := false
  shadowRead : Bool := false
  d1d2 : Bool := false
  remap : Bool := false
  dramTrained : Bool := false
  censusDone : Bool := false
  idleShown : Bool := false
  /-- The bring-up has ended: with the idle pattern, or with a census that placed no port (R239, R264). -/
  ended : Bool := false
  /-- The sequencer's last progress report, or the switch-on of D1 (R237). -/
  reportAt : Option Ticks := none
  /-- A wake check of standby runs D1 and D2 only (04 R163). -/
  checking : Bool := false
  deriving DecidableEq, Repr

/-- What a `SELFTEST_N` period asks for (03 R111). -/
inductive SelfAction | invisible | visible (force : Bool)
  deriving DecidableEq, Repr

inductive TestResult | pass | fail | aborted | refused
  deriving DecidableEq, Repr

/-- A result record: test number of byte 304, result, seconds mod 2^32 (19 Table 19.5). -/
structure ResultRec where
  test : Nat
  result : TestResult
  at_ : BitVec 32
  deriving DecidableEq, Repr

/-- One current-DAC bank (06 R243, R244): the DAC behind each output, the spare, and the output whose DAC is next. DAC numbers
run from 0; the last number is the spare's at first. -/
structure DacBank where
  map : List Nat := []
  spare : Nat := 0
  next : Nat := 0
  retired : List Nat := []
  stopped : Bool := false
  /-- The spare is trimmed and loaded and takes over at the next beat; the setting it is loaded with. -/
  ready : Bool := false
  loaded : Nat := 0
  lastSwap : Option Ticks := none
  deriving DecidableEq, Repr

/-- A bank of n outputs and one spare. -/
def DacBank.of (n : Nat) : DacBank := { map := List.range n, spare := n }

/-- A test of the requested suite (06 R247): DAC banks and lanes by number. -/
inductive SuiteItem
  | led | dac (bank : Nat) | rom | otp | eye (lane : Nat) | strap | sensors | ageing
  deriving DecidableEq, Repr

/-- A requested invisible suite: its start, what is still to run, the tests that have failed, and whether it ends at the next
slice boundary (06 R247, R260). -/
structure Suite where
  since : Ticks
  todo : List SuiteItem
  failed : List TestKind := []
  ending : Bool := false
  deriving DecidableEq, Repr

/-- The running visible sequence: step 1 to 6, sub-step, and the start of the sub-step (06 Table 6.5). -/
structure Visible where
  step : Nat
  sub : Nat
  since : Ticks
  failed : Bool := false
  /-- Status reads of the present step: they go through the rows and blocks (13 R674). -/
  reads : Nat := 0
  deriving DecidableEq, Repr

structure Test where
  held : Option SelfAction := none
  /-- An accepted visible action, started at the next beat (06 R248). -/
  visibleDue : Bool := false
  visible : Option Visible := none
  /-- The visible sequence ends at the next beat (06 R258); true gives ABORTED. -/
  endDue : Option Bool := none
  suite : Option Suite := none
  results : List ResultRec := []
  eye : List Nat := List.replicate 8 0
  /-- When the margin of each lane is due again, and the LED read (06 Table 6.4). -/
  eyeNext : List (Option Ticks) := List.replicate 8 none
  ledNext : Option Ticks := none
  dac : List DacBank := [.of 8, .of 12, .of 12, .of 12, .of 12]
  romNext : Option Ticks := none
  otpNext : Option Ticks := none
  sensorNext : Option Ticks := none
  /-- Slices abandoned and to be run again (06 R242). -/
  again : List TestKind := []
  deriving DecidableEq, Repr

/-! ### Keys and lifecycle (17) -/

inductive Phase | manufacture | blank | commissioned (e : Nat) | returned | retired
  deriving DecidableEq, Repr

/-- One-time fuses: the numbers of the programmed fuses, rising (17 R818). -/
structure Otp where
  /-- BLANK unit as shipped (log 4): serial number 1 (pair 0) and lifecycle record 0 done (pairs 1,344 and 1,345). -/
  fuse : List Nat := [0, 1, 2688, 2689, 2690, 2691]
  /-- The fuse shadow, read at a bring-up (06 R231). -/
  shadow : List Nat := []
  deriving DecidableEq, Repr

/-- The fuse sequences (17 R831, R834, R847, R848). -/
inductive SeqKind
  | complete
  | commission (slot : Nat) (epoch : Nat)
  | release (epoch : Nat)
  | returnOrder
  | retire
  | rotate (slot old : Nat)
  | destroy (slot : Nat)
  deriving DecidableEq, Repr

/-- Stages of a fuse sequence (17 R831, R847). -/
inductive SeqStage
  | flush | staging | intent | body | retag | destroyOld
  deriving DecidableEq, Repr

/-- A running fuse sequence: the pairs still to program in the present stage, in order. -/
structure FuseSeq where
  kind : SeqKind
  stage : SeqStage
  todo : List Nat
  /-- The image staged into a slot: the offsets that read 1. -/
  image : List Nat := []
  /-- Waiting for the junction to cool (20 R944). -/
  hot : Bool := false
  /-- Records and slots completed at a bring-up (17 R835). -/
  records : List Nat := []
  slots : List Nat := []
  deriving DecidableEq, Repr

/-- The key names of 17 Table 17.6. -/
inductive KeyName | memory | faultLog | wear | bobbin | status | wm | watermark (slot : Nat) | identity
  deriving DecidableEq, Repr

/-- The key swap due at the next beat: after a transition (17 R849), or after a rotation (R847). -/
inductive Swap | transition | rotation
  deriving DecidableEq, Repr

/-- A derived key in the key store (17 R844). -/
structure Key where
  name : KeyName
  bytes : List Byte
  deriving DecidableEq, Repr

structure Keys where
  phase : Phase := .manufacture
  /-- The active site root fails its check value at this bring-up (17 R860). -/
  rootBad : Bool := false
  seq : Option FuseSeq := none
  store : List Key := []
  swapDue : Option Swap := none
  debug : Bool := false
  deriving DecidableEq, Repr

/-! ### Faults, status record and ledger (19) -/

/-- An active fault with its instance key (R899, R906; log 5). -/
structure Active where
  f : FaultName
  key : Nat
  detail : BitVec 32
  since : Ticks
  deriving DecidableEq, Repr

/-- A raise, or a clear, that waits for or has a handler (R903 to R905). -/
structure Queued where
  f : FaultName
  key : Nat
  detail : BitVec 32
  cleared : Bool
  /-- Counter time and its origin when it arrived (log 20). -/
  sec : BitVec 32 := 0
  ns : BitVec 32 := 0
  ptp : Bool := false
  deriving DecidableEq, Repr

structure Handler where
  item : Queued
  prio : Sev
  started : Ticks
  deriving DecidableEq, Repr

/-- The hold-off of a handled S3 fault; no end where a condition ends it (Table 19.2). -/
structure Holdoff where
  f : FaultName
  until_ : Option Ticks
  double : Bool := false
  deriving DecidableEq, Repr

/-- A fault-ring entry (Table 19.4); its severity is the fault's. -/
structure RingEntry where
  f : FaultName
  cleared : Bool
  mirrored : Bool := false
  ptp : Bool
  bringUp : BitVec 8
  sec : BitVec 32
  ns : BitVec 32
  detail : BitVec 32
  deriving DecidableEq, Repr

structure Flt where
  active : List Active := []
  /-- Running handlers of S0 to S2, the one that acts first; lower ones pause (R904). -/
  handlers : List Handler := []
  queue : List Queued := []
  lost : BitVec 8 := 0
  lostSince : Nat := 0
  peak : Nat := 0
  /-- Oldest first. -/
  ring : List RingEntry := []
  bringUp : BitVec 8 := 0
  counts : List (BitVec 16) := List.replicate 4 0
  holdoff : Option Holdoff := none
  restarts : List Ticks := []
  /-- Safe state for an S3 fault, until the restart's idle pattern (R902, 06 Table 6.3). -/
  safe : Bool := false
  /-- Thermal shutdown (R925). -/
  thermal : Bool := false
  safeHold : Bool := false
  ringLost : BitVec 8 := 0
  /-- Last raise and count withheld of the faults raised at most once per period. -/
  rate : List (FaultName × Nat × Ticks × Nat) := []
  hangs : List (Master × Ticks) := []
  deriving DecidableEq, Repr

/-- What the ledger interface is doing (R926). -/
inductive LedgerOp | wear | faultLog | census | identity | retag
  deriving DecidableEq, Repr

/-- A fault-log record held in the flash (Table 19.10). -/
structure LogRec where
  entry : RingEntry
  seqNo : BitVec 32
  keyed : List Byte
  deriving DecidableEq, Repr

/-- A wear copy (R920, R921), and the wear key it is tagged under. -/
structure WearCopy where
  gen : Nat
  cols : Nat
  rows : Nat
  data : List Nat
  wall : BitVec 32
  keyed : List Byte
  deriving DecidableEq, Repr

/-- An identity record: density as log2 of Mbit, C, N, n_t, whether the fault-log key is a site key, epoch and check value (Table
19.10). -/
structure IdentityRec where
  density : Nat
  sectors : Nat
  copies : Nat
  gen : Nat
  serial : Serial
  done : Nat
  site : Bool
  epoch : Nat
  check : Nat
  keyed : List Byte
  deriving DecidableEq, Repr

/-- A census record: reset cause, `s:DRVCLASS` code, Lc, wall time, ports in the canvas and ports with a chain by bits, geometry and
the groups' working clocks (Table 19.10). -/
structure CensusRec where
  cause : Nat
  drv : Nat
  lc : Nat
  sec : BitVec 32
  canvas : BitVec 64
  chained : BitVec 64
  tileW : Nat
  tileH : Nat
  s : Nat
  m : Nat
  clocks : Nat
  keyed : List Byte
  deriving DecidableEq, Repr

structure Ledger where
  /-- Read at this bring-up and usable for writes (R919, R842). -/
  usable : Bool := false
  /-- 0 OK, or the detail of f:LDG_ACCESS. -/
  status : Nat := 0
  density : Nat := 0
  read114 : Bool := false
  /-- Contents of the fitted flash (log 4): erased. -/
  generation : Nat := 0
  log : List LogRec := []
  nextSeq : BitVec 32 := 0
  copies : List WearCopy := []
  copyCount : Nat := 0
  /-- Identity records, newest first; A and B hold the last two (Table 19.9). -/
  ids : List IdentityRec := []
  /-- The census history of 1,024 records, oldest first (Table 19.9). -/
  history : List CensusRec := []
  busy : Option LedgerOp := none
  /-- Operations that wait for the present one, in order. -/
  todo : List LedgerOp := []
  /-- Ring entries being mirrored, and the wear copy being written. -/
  mirroring : Nat := 0
  copy : Option WearCopy := none
  /-- Failures in a row per region, and regions no longer written (R926). -/
  fails : List (LedgerOp × Nat) := []
  stopped : List LedgerOp := []
  mirrors : List Ticks := []
  lastFlush : BitVec 32 := 0
  /-- The present key that fault-log records are tagged under. -/
  logKey : List Byte := []
  deriving DecidableEq, Repr

/-- The status record (19 Table 19.5, 07 R282). -/
structure StatusRec where
  seq : BitVec 32 := 0
  /-- Launch instants of the last second. -/
  sentAt : List Ticks := []
  withheld : Nat := 0
  /-- A record is due at once, and the kind bits of byte 1. -/
  due : List (BitVec 8) := []
  /-- Launch of the latest fault-triggered record (R328), and the second of the last periodic one. -/
  triggeredAt : Option Ticks := none
  lastWindow : Nat := 0
  /-- Interval counts of bytes 312 to 327, in order. -/
  counters : List Nat := List.replicate 16 0
  deriving DecidableEq, Repr

structure Sens where
  /-- Sites of the last reading, 1/16 °C, and sites ignored (20 R951). -/
  sites : List Int := []
  ignored : List (Fin 4) := []
  /-- Since when each site has differed from the mean of the others by more than 15 °C (R951). -/
  offSince : List (Option Ticks) := List.replicate 4 none
  tj : Int := 0
  vin : Nat := 0
  vled : Nat := 0
  warnRun : Nat := 0
  limitRun : Nat := 0
  shutRun : Nat := 0
  belowSince : Option Ticks := none
  /-- Highest readings with their instants, of the last 24 h (20 R947). -/
  day : List (Ticks × Int) := []
  deriving DecidableEq, Repr

/-! ### Network (07) -/

/-- Module class for the asymmetry tables (R269). -/
inductive ModClass | none | copper | shortReach | longReach | aoc
  deriving DecidableEq, Repr

/-- Lane mode (R265). -/
inductive LaneMode | base10 | base25 | base25Fec | base25Rs
  deriving DecidableEq, Repr

/-- Module of a port (R267 to R270). -/
inductive Module
  | absent
  /-- Inserted at an instant; failed reads so far; the next read's instant. -/
  | waiting (since : Ticks) (tries : Nat) (readAt : Ticks)
  | identified (is25 : Bool) (cls : ModClass)
  | failed
  | unsupported
  deriving DecidableEq, Repr

/-- Forwarding state of a port (R291, R294). -/
inductive Fwd
  | down
  | listening (since : Ticks)
  | forwarding
  deriving DecidableEq, Repr

structure PortSt where
  module : Module := .absent
  mode : Option LaneMode := none
  txDis : Bool := true
  linkUp : Option Ticks := none
  /-- The fault sequences heard on the link that is up (R272). -/
  fault : LinkFault := .none
  /-- The link came up before with this module (Table 7.9). -/
  carried : Bool := false
  fwd : Fwd := .down
  /-- Blocked by the ring guard since (R294). -/
  blocked : Option Ticks := none
  /-- Without a link since (R272, Table 7.9). -/
  noLinkSince : Option Ticks := none
  /-- Frames under the storm limit in the current second (R285). -/
  stormSec : Nat := 0
  stormCount : Nat := 0
  /-- A query was heard: a router port until 255 s after (R286). -/
  queryAt : Option Ticks := none
  /-- The video queue that the round robin serves (Table 7.2). -/
  drr : Nat := 0
  /-- Deficits of the video queues in bytes; a queue not listed has none. -/
  deficits : List (Nat × Nat) := []
  deriving DecidableEq, Repr

/-- Egress classes in order of service (Table 7.2). -/
inductive Klass | ptp | control | audio | ancillary | video | overflow | sap | other | status
  deriving DecidableEq, Repr

/-- UDP ports, DSCP and TTL of an originated datagram (R282). -/
structure UdpHead where
  srcPort : Nat
  dstPort : Nat
  dscp : Nat
  ttl : Nat
  deriving DecidableEq, Repr

/-- What an originated frame carries (R281). -/
inductive Orig
  | guard (g : Guard)
  | arp (reply : Bool) (sender target : Ip4) (dstMac : Mac)
  | igmpReport (group : Ip4) (join : Bool)
  /-- A general query: maximum response time in 0.1 s, robustness variable and interval in s (R288). -/
  | igmpQuery (maxResponse robustness interval : Nat)
  /-- Sequence, and the originTimestamp written as it leaves (08 R344): seconds and nanoseconds. -/
  | delayReq (seq : Nat) (origin : Nat × Nat)
  | statusRecord (udp : UdpHead) (bytes : List Byte) (src group : Ip4)
  deriving DecidableEq, Repr

inductive Payload
  | relayed (f : Frame)
  | guardRelay (g : Guard)
  | own (o : Orig)
  deriving DecidableEq, Repr

/-- A frame in an egress queue (R299 to R303). -/
structure QFrame where
  klass : Klass
  queue : Nat
  len : Nat
  payload : Payload
  /-- Launch time of an originated frame, in wall time (R303, 08 Table 8.1). -/
  launch : Option (BitVec 32) := none
  arrived : Ticks
  ingress : Option Port := none
  /-- The counter at arrival, in 2^-32 ns (08 R356). -/
  stamp : Int := 0
  deriving DecidableEq, Repr

/-- A media queue in use on a port (R300, R301). -/
structure MediaQ where
  port : Port
  group : Ip4
  queue : Nat
  klass : Klass
  last : Ticks
  /-- Packets of the last second: instant and bytes at the MAC layer, newest first. -/
  hist : List (Ticks × Nat)
  /-- The shaper: the instant to which the frames sent have used the shaped rate (R301). -/
  tat : Ticks := 0
  deriving DecidableEq, Repr

structure MacEntry where
  mac : Mac
  port : Port
  heard : Ticks
  deriving DecidableEq, Repr

/-- A group joined by the local port, and its report still to repeat (R287, R289). -/
structure Join where
  group : Ip4
  joined : Bool
  repeatAt : Option Ticks
  deriving DecidableEq, Repr

structure SdpEntry where
  sdp : Sdp
  announced : Ticks
  deriving DecidableEq, Repr

/-- The ring guard (R292 to R296). -/
structure RingGuard where
  seq : Nat := 0
  /-- Egress and ingress port of own returned frames, with the last return. -/
  returned : List (Port × Port × Ticks) := []
  /-- Last better guard frame with LOOPED (R293), and since when it silences without a break (R295). -/
  silencedAt : Option Ticks := none
  silencedSince : Option Ticks := none
  leadHeard : Option Ticks := none
  lastSend : Option Ticks := none
  /-- FLUSH frames still to send and the next instant (R295). -/
  flushLeft : Nat := 0
  flushAt : Ticks := 0
  floodUntil : Option Ticks := none
  deriving DecidableEq, Repr

/-- An address under claim: ARP frames sent so far and the instant of the next (R278). -/
structure AClaim where
  addr : Ip4
  frames : Nat := 0
  next : Ticks
  deriving DecidableEq, Repr

/-- Address claim by ARP (R277 to R280, R326). -/
structure AddrClaim where
  claimed : Option Ip4 := none
  claimedPositional : Bool := false
  /-- The provisional and the positional address under claim (R279, R326). -/
  prov : Option AClaim := none
  pos : Option AClaim := none
  /-- Offsets of the provisional address tried (R326). -/
  offset : Nat := 0
  exhausted : Bool := false
  defendedAt : Option Ticks := none
  positionalRetry : Option Ticks := none
  deriving DecidableEq, Repr

/-- A locked sender (R309). -/
structure Sender where
  ip : Ip4
  ssrc : BitVec 32
  heard : Ticks
  deriving DecidableEq, Repr

inductive FlowKind | video | audio | anc
  deriving DecidableEq, Repr

/-- A joined slot's flow (R307 to R316). -/
structure Flow where
  kind : FlowKind
  slot : Nat
  sdp : Option Sdp := none
  /-- A new SDP takes effect from the next source frame (R308). -/
  nextSdp : Option Sdp := none
  sender : Option Sender := none
  rtpSince : Option Ticks := none
  lastRtp : Option Ticks := none
  /-- Arrival of its first packet. -/
  firstRtp : Option Ticks := none
  /-- Packets of the last second: instant, bytes at the MAC layer and port, newest first (R314, R315). -/
  hist : List (Ticks × Nat × Port) := []
  /-- The port whose shuttle ingests the flow. -/
  port : Option Port := none
  /-- RTP timestamp, highest extended sequence number and packets of the source frame in progress (R310). -/
  frameRtp : Option (BitVec 32) := none
  topSeq : Option (BitVec 32) := none
  seen : List (BitVec 32) := []
  /-- Source frames begun, newest first, with the port of their first packet (R316). -/
  frames : List (BitVec 32 × Port) := []
  /-- RTP timestamp of a source frame discarded whole (08 R372, 07 R310). -/
  dropRtp : Option (BitVec 32) := none
  /-- Watermark packets kept, newest first: RTP timestamp and user data bytes (18 R883). -/
  marks : List (BitVec 32 × List Byte) := []
  deriving DecidableEq, Repr

structure Net where
  port : List PortSt := List.replicate 4 {}
  mac : List MacEntry := []
  /-- Port, group and reporting host (R286). -/
  hosts : List (Port × Ip4 × Ip4) := []
  /-- Last query from a lower address (R288) and the next general query. -/
  lowerQuery : Option Ticks := none
  nextQuery : Option Ticks := none
  joins : List Join := []
  answerBy : Option Ticks := none
  queue : List (List QFrame) := List.replicate 4 []
  mediaQ : List MediaQ := []
  guard : RingGuard := {}
  addr : AddrClaim := {}
  /-- Control register of the two-wire bus switch (R266). -/
  busSwitch : Byte := 0
  sdp : List SdpEntry := []
  flows : List Flow := []
  deriving DecidableEq, Repr

/-! ### Wall time (08) -/

inductive Servo | listen | acquire | track | holdover | freerun
  deriving DecidableEq, Repr

/-- A foreign master (R341): identity, last data set, instants of its last Announces, ingress port. -/
structure Foreign where
  id : BitVec 80
  set_ : AnnounceSet
  heard : List Ticks
  port : Port
  deriving DecidableEq, Repr

/-- The selected master (R341 to R343, R385). -/
structure Master_ where
  id : BitVec 80
  set_ : AnnounceSet
  lastAnnounce : Ticks
  lastSync : Ticks
  deriving DecidableEq, Repr

/-- A two-step Sync awaiting its Follow_Up (R342): sequence, t2 (2^-32 ns), correction (2^-16 ns), instant. -/
structure PendSync where
  seq : Nat
  t2 : Int
  corr : Int
  at_ : Ticks
  deriving DecidableEq, Repr

/-- An announced step (R353, R981). -/
structure StepAnn where
  beat : BitVec 32
  amountNs : Int
  fromLead : Serial
  deriving DecidableEq, Repr

/-- A beat measurement (R378): θ_B and the arrival r in 2^-32 ns, and the knot's origin flag. -/
structure BeatMeas where
  theta : Int
  at_ : Int
  origin : Bool
  deriving DecidableEq, Repr

structure TimeSt where
  sec : BitVec 64 := 0
  ns : BitVec 30 := 0
  frac : BitVec 32 := 0
  /-- The counter runs from the switch-on of D3 (R333). -/
  running : Bool := false
  /-- Servo terms in ns per second (R335, R349). -/
  y : Rat := 0
  yInt : Rat := 0
  /-- y_int as a tile in HOLDOVER measures it of its master (R382). -/
  yMeas : Option Rat := none
  servo : Servo := .listen
  synced : Bool := false
  everSynced : Bool := false
  ptpOrigin : Bool := false
  masters : List Foreign := []
  master : Option Master_ := none
  slavePort : Option Port := none
  slaveHeard : Ticks := 0
  /-- (t1, tms) of the Syncs of ACQUIRE, newest first, in 2^-32 ns (R348). -/
  acq : List (Int × Int) := []
  pend : List PendSync := []
  lastTms : Option Int := none
  lastT2 : Option Int := none
  delaySeq : Nat := 0
  /-- Outstanding Delay_Req, newest first: sequence, t3 once it has left, and the tms before it. -/
  delayOut : List (Nat × Option Int × Option Int) := []
  /-- logMessageInterval of the last Delay_Resp (R343). -/
  delayLog : Option Int := none
  unanswered : Nat := 0
  delayMean : Int := 0
  delayMeanSet : Bool := false
  nextDelayReq : Option Ticks := none
  /-- Accepted d, newest first, and rejections in a row (R346). -/
  dFilter : List Int := []
  dReject : Nat := 0
  /-- Measurements still needed on a new slave port, and since (R396). -/
  portHold : Option (Nat × Ticks) := none
  theta : Int := 0
  run200 : Nat := 0
  runMicro : Nat := 0
  runMilli : Nat := 0
  /-- The step found, with its instant, while the servo holds (R351, R980). -/
  stepNeed : Option (Int × Ticks) := none
  stepAnn : Option StepAnn := none
  /-- A follower applies its own step at its next beat (R353). -/
  ownStep : Bool := false
  beatMeas : List BeatMeas := []
  /-- Syncs in a row with θ and θ_B within 200 ns (R381); knots in a row of R380. -/
  agree : Nat := 0
  apart : Nat := 0
  inconsistentSince : Option Ticks := none
  leadHold : Option Ticks := none
  limitSince : Option Ticks := none
  ppmSince : Option Ticks := none
  firstLink : Option Ticks := none
  /-- Residence of two-step Syncs: egress port, domain, source, sequence, 2^-16 ns, instant (R357). -/
  residence : List (Port × Nat × BitVec 80 × Nat × Int × Ticks) := []
  /-- Index of the last beat emitted and the next to emit, and its instant (R365, R367). -/
  beat : Option Nat := none
  nextBeat : Nat := 0
  beatAt : Ticks := 0
  /-- The refresh of the present frame under way (R368). -/
  refresh : Option Nat := none
  /-- A step has been applied that the audio block has yet to follow (R394, 15 R737). -/
  stepped : Bool := false
  deriving DecidableEq, Repr

/-! ### Selvedge links and discovery (09) -/

/-- What a queued `k:BEAT` takes from the departure of the link's own MARK BEAT: nothing, the lead's mark time (R454), or its
accumulated delay, raised by the departure less the value held here, the arrival less the link delay in 2^-32 ns (R455). -/
inductive BeatFill
  | asIs
  | markTime
  | residence (since : Int)
  deriving DecidableEq, Repr

/-- A knot on a link's transmit queue (R426). -/
structure QKnot where
  type : KnotType
  bytes : List Byte
  fill : BeatFill
  deriving DecidableEq, Repr

/-- Kinds of MARK (Table 9.1). -/
inductive MarkKind | req | rsp | beat
  deriving DecidableEq, Repr

/-- A MARK that waits for the next block boundary; an RSP holds t2, in 2^-32 ns (R434). -/
structure OutMark where
  kind : MarkKind
  value : BitVec 16
  since : Int
  deriving DecidableEq, Repr

/-- A block before the scrambler: its header class and its payload bytes (R407, R409). -/
structure Block where
  control : Bool
  bytes : List Byte
  deriving DecidableEq, Repr

/-- The fields of a received `k:HELLO` that the tile keeps (Table 9.4). -/
structure Hello where
  port : Nat
  role : Nat
  known : Bool
  fixed : Bool
  candidate : Bool
  lead : Bool
  standalone : Bool
  held : Bool
  row : Int
  col : Int
  reqAnswered : BitVec 16
  turnaround : Nat
  leadSerial : Serial
  hops : Nat
  wallId : Nat
  serial : Serial
  deriving DecidableEq, Repr

/-- A claim received in `k:POS` (R438). -/
structure Claim where
  seed : Serial
  fixed : Bool
  hops : Nat
  row : Int
  col : Int
  at_ : Ticks
  deriving DecidableEq, Repr

structure Link where
  locked : Bool := false
  /-- The hunt: candidate bit offset within a block, and valid headers in a row at it (R411). -/
  offset : Nat := 0
  hunt : Nat := 0
  /-- Whether each of the latest 64 headers was invalid, newest first (R412). -/
  window : List Bool := []
  /-- The last 58 payload bits received and sent, the latest as bit 0 (R408; log 89). -/
  descr : BitVec 58 := 0
  scr : BitVec 58 := 0
  /-- The knot under way in reception (R414, R417). -/
  rx : Option (List Byte) := none
  /-- The rest of the knot being sent, the marks that wait, the time to the next block boundary and the block on the lane (R410,
  R414, R415). -/
  out : List Block := []
  marks : List OutMark := []
  blockLeft : Ticks := 0
  line : WireBlock := ⟨0, 0⟩
  /-- Own MARK BEAT sent last: its value and its departure in 2^-32 ns (R454, R455). -/
  beatOut : Option (BitVec 16 × Int) := none
  /-- Instants of the latest valid `k:HELLO` with matching WALLID and port, newest first (R430). -/
  hellos : List Ticks := []
  partner : Option Hello := none
  lastHello : Option Ticks := none
  joined : Option Ticks := none
  everJoined : Bool := false
  unjoinedSince : Option Ticks := none
  crossed : Bool := false
  reqSeq : BitVec 16 := 0
  /-- MARK REQ outstanding: value and t1; and the value and t4 - t1 awaiting the turnaround (R434). -/
  req : Option (BitVec 16 × Int) := none
  reqAt : Option Ticks := none
  rtt : Option (BitVec 16 × Int) := none
  /-- Last REQ answered: value and t3 - t2 in 2^-16 ns (R434). -/
  answered : BitVec 16 × Nat := (0, 0)
  /-- Accepted d in 2^-32 ns, newest first, at most 16; accepted since joined; rejections in a row (R435). -/
  delays : List Int := []
  accepted : Nat := 0
  rejects : Nat := 0
  crcSec : Nat := 0
  crcCount : Nat := 0
  crcRun : Nat := 0
  queue : List QKnot := []
  diffSince : Option Ticks := none
  claim : Option Claim := none
  deriving DecidableEq, Repr

/-- The chosen claim (R438): its seed, hops, own relative position and arriving link. -/
structure Choice where
  seed : Serial
  fixed : Bool
  hops : Nat
  row : Int
  col : Int
  via : Option Dir
  deriving DecidableEq, Repr

/-- Census values of a tile at the lead (R440, R441). -/
structure CensusEntry where
  serial : Serial
  row : Int
  col : Int
  tileW : Nat
  tileH : Nat
  fixed : Bool
  ports : Nat
  role : Nat
  drv : Nat
  heard : Ticks
  lapsed : Bool := false
  deriving DecidableEq, Repr

/-- The lead's results (R440). -/
structure Results where
  rowOff : Int := 0
  colOff : Int := 0
  rows : Nat := 1
  cols : Nat := 1
  fixed : Bool := false
  dups : List Serial := []
  changedAt : Ticks := 0
  /-- SETTLED is set, and a settled `k:LEAD` has been sent (R443, 10 R484). -/
  settled : Bool := false
  sentSettled : Bool := false
  deriving DecidableEq, Repr

/-- The latest `k:LEAD` of the acting lead as a tile keeps it (R442 to R444). -/
structure LeadView where
  serial : Serial
  cls : Nat
  settled : Bool
  fixed : Bool
  rows : Nat
  cols : Nat
  tileW : Nat
  tileH : Nat
  rowOff : Int
  colOff : Int
  refresh : Nat
  latency : Nat
  heard : Ticks
  deriving DecidableEq, Repr

/-- The geometry of the latest settled `k:LEAD` (R444, R446). -/
structure Settled where
  rows : Nat
  cols : Nat
  tileW : Nat
  tileH : Nat
  rowOff : Int
  colOff : Int
  fixed : Bool
  refresh : Nat
  latency : Nat
  deriving DecidableEq, Repr

inductive Role
  | idle
  | claiming (since : Ticks)
  | acting
  deriving DecidableEq, Repr

/-- A fault event of the wall (R428). -/
structure WallFault where
  code : BitVec 16
  sev : Nat
  cleared : Bool
  row : Nat
  col : Nat
  sec : BitVec 32
  deriving DecidableEq, Repr

/-- The first MARK BEAT of a value (R455): value, link and arrival r in 2^-32 ns. -/
structure MarkSeen where
  value : BitVec 16
  link : Dir
  arrival : Int
  deriving DecidableEq, Repr

structure Sv where
  n : Link := {}
  e : Link := {}
  s : Link := {}
  w : Link := {}
  deriving DecidableEq, Repr

structure Disc where
  choice : Option Choice := none
  lastPos : Option Ticks := none
  lastCensus : Option Ticks := none
  censusDue : Bool := false
  table : List CensusEntry := []
  results : Results := {}
  page : Nat := 0
  lead : Option LeadView := none
  settled : Option Settled := none
  /-- Next duplicate page expected, whether listed in the running cycle, and the last complete cycle's verdict (R442). -/
  nextPage : Nat := 0
  inCycle : Bool := false
  verdict : Option Bool := none
  /-- `k:LEAD` heard per serial, and claims relayed: class, serial, instant (R448, R449). -/
  heardLeads : List (Nat × Serial × Ticks) := []
  relayedClaims : List (Nat × Serial × Ticks) := []
  /-- `k:LEAD` with RESIGN still to send (R452). -/
  resign : Nat := 0
  role : Role := .idle
  parent : Option Dir := none
  parentLead : Option Serial := none
  leadHops : Option Nat := none
  position : Option (Nat × Nat) := none
  /-- Next sequence number of each knot type, in the order of Table 9.3 (R424). -/
  seqOut : List (BitVec 32) := List.replicate 10 0
  seen : List (Serial × KnotType × BitVec 32 × Ticks) := []
  lastLeadSent : Option Ticks := none
  lastHelloSent : Option Ticks := none
  faultHeld : List QKnot := []
  faultSent : List Ticks := []
  wallFaults : List WallFault := []
  markSeen : Option MarkSeen := none
  /-- The 16 values seen before it, newest first (R455; log 90). -/
  markPast : List (BitVec 16) := []
  firstJoin : Option Ticks := none
  d5On : Option Ticks := none
  deriving DecidableEq, Repr

/-! ### Scenes, windows and the frame path (10, 11) -/

/-- Window service states (09 R422, 12 R599); `absent` is the value 15 of `k:READY`. -/
inductive WState | served | delayed2 | delayed4 | refused | absent
  deriving DecidableEq, Repr

/-- Reasons (09 R422). -/
inductive Reason | none | ingest | memory | scaler | port
  deriving DecidableEq, Repr

/-- A half-open rectangle of canvas or source pixels (10 R470). -/
structure Rect where
  x0 : Nat
  y0 : Nat
  x1 : Nat
  y1 : Nat
  deriving DecidableEq, Repr

/-- The three values that form a scene (10 R475). -/
structure SceneKey where
  scene : Code
  table : Code
  ofs : Code
  deriving DecidableEq, Repr

/-- The committed scene (10 R492, R503). -/
structure Committed where
  ident : BitVec 32
  key : SceneKey
  agreed : List (WState × Reason)
  commitBeat : BitVec 32
  at_ : Ticks
  deriving DecidableEq, Repr

/-- A prepared scene (10 R489, R493, R512). -/
structure Prepared where
  ident : BitVec 32
  key : SceneKey
  lead : Serial
  deadline : BitVec 32
  first : Ticks
  answered : Bool := false
  /-- Commit beat and agreed states, once a `k:COMMIT` has been taken. -/
  commit : Option (BitVec 32 × List (WState × Reason)) := none
  /-- Prepared from an echo, or from a commit whose beat has passed (R493, R512). -/
  echo : Bool := false
  /-- The beat at which an echoed scene is committed, once its preparation has ended (R493). -/
  due : Option (BitVec 32) := none
  own : List (WState × Reason)
  deriving DecidableEq, Repr

/-- The lead's change in progress (10 R484 to R491). -/
structure Change where
  ident : BitVec 32
  key : SceneKey
  p0 : Ticks
  deadline : BitVec 32
  awaited : List Serial
  readies : List (Serial × List (WState × Reason))
  nextRepeat : Ticks
  /-- D, C and the repeats of `k:COMMIT` already flooded. -/
  decided : Option (Ticks × BitVec 32 × Nat) := none
  agreed : List (WState × Reason) := []
  deriving DecidableEq, Repr

/-- The format in force on a window and the origin of its colour (11 R516 to R518): effective values, and whether each
came from `s:COLOUR`. -/
structure WinFormat where
  sampling : Sampling
  depth : Nat
  width : Nat
  height : Nat
  rateN : Nat
  rateD : Nat
  colorimetry : Colorimetry
  tcs : Tcs
  colFromStrap : Bool
  progressive : Bool
  tcsFromStrap : Bool
  bpm : Bool
  deriving DecidableEq, Repr

/-- Verdict of a source frame (11 R557 to R560). -/
inductive Verdict | undecided | accepted | rejectedAuth | rejectedMissing
  deriving DecidableEq, Repr

/-- The source of a frame: slot, sender address and SSRC (07 R309, 11 R549). -/
structure Source where
  slot : Nat
  ip : Ip4
  ssrc : BitVec 32
  deriving DecidableEq, Repr

/-- One of the three buffers of a window (12 R586, R587). -/
structure Buffer where
  used : Bool := false
  src : Source := ⟨0, 0, 0⟩
  /-- RTP timestamp, media time in 2^-32 ns of the counter (08 R372), and E of 18 R885. -/
  rtp : BitVec 32 := 0
  media : Int := 0
  ext : Int := 0
  format : Option WinFormat := none
  /-- The deckle, the DRAM offset of its first line and the pitch. -/
  rect : Rect := ⟨0, 0, 0, 0⟩
  addr : Nat := 0
  pitch : Nat := 0
  /-- Received pgroup runs of lines not yet whole: deckle line, first pixel column, bytes (07 R313). -/
  segs : List (Nat × Nat × List Byte) := []
  /-- Deckle lines written to frame memory. -/
  lines : List Nat := []
  /-- The marker bit, or a packet of the next frame, has come (07 R310). -/
  ended : Bool := false
  /-- Complete at the last beat (11 R540). -/
  ready : Bool := false
  /-- Packets by rising extended sequence number, as the tag needs them (18 R884, R886). -/
  packets : List VideoPkt := []
  verdict : Verdict := .undecided
  deriving DecidableEq, Repr

/-- A source frame as shown: its deckle lines after concealment, and what was concealed (11 R551, R552). -/
structure Shot where
  src : Source
  format : WinFormat
  rect : Rect
  lines : List (List Byte)
  /-- Lines missing, and (line, pgroup) poisoned. -/
  missing : List Nat
  bad : List (Nat × Nat)
  deriving DecidableEq, Repr

/-- A window's output: frame A, and frame B with its weight in 1/16 (11 R539). -/
structure Picture where
  a : Shot
  b : Option (Shot × Nat)
  deriving DecidableEq, Repr

/-- What a window shows at the last beat (10 Table 10.4, 11). -/
inductive Showing
  | fallback
  | pattern
  /-- Buffers A and B selected and the blend weight in 1/16; a frozen or held output keeps its last selection. -/
  | source (a : Nat) (b : Option Nat) (w : Nat)
  deriving DecidableEq, Repr

/-- A window of the committed scene on this tile (10, 11). -/
structure Win where
  touches : Bool := false
  slot : Option Nat := none
  rect : Rect := ⟨0, 0, 0, 0⟩
  part : Rect := ⟨0, 0, 0, 0⟩
  format : Option WinFormat := none
  /-- Beat B at which the running priming began, and whether it freezes (11 R546, R547). -/
  prime : Option (Nat × Bool) := none
  showing : Showing := .fallback
  /-- Its output; none while it shows no source. -/
  out : Option Picture := none
  held : Bool := false
  concealing : Bool := false
  untagged : Bool := false
  /-- Frame-rate conversion by blend (R541). -/
  blend : Bool := false
  buffers : List Buffer := List.replicate 3 {}
  base : Nat := 0
  /-- The source whose frames are candidates from the last cut (11 R549). -/
  cutSource : Option Source := none
  lastComplete : Option Ticks := none
  completeSince : Option Ticks := none
  lateLines : Nat := 0
  heldBeats : Nat := 0
  rejectRun : Nat := 0
  rejects : Nat := 0
  acceptSince : Option Ticks := none
  noStream : Bool := false
  authFall : Bool := false
  /-- The tile's own admission is more restrictive than the agreed state (12 R604). -/
  ownFall : Bool := false
  /-- Frames wait for the first complete one after a key swap (17 R849). -/
  afterSwap : Bool := false
  /-- Its ancillary entry came at the commit: untagged until its first tag verifies (07 R321). -/
  tagWait : Bool := false
  deriving DecidableEq, Repr

structure Scene where
  committed : Option Committed := none
  prepared : Option Prepared := none
  change : Option Change := none
  /-- Count of the lead's changes (R487). -/
  counter : BitVec 16 := 0
  /-- The lead's latest `k:COMMIT` body and the next echo (R493). -/
  latest : Option (BitVec 32 × BitVec 32 × List (WState × Reason)) := none
  echoAt : Option Ticks := none
  /-- A change is wanted: the case of R484 that asked for it. -/
  wanted : Bool := false
  /-- A re-admission is wanted (R484 (d)). -/
  readmit : Bool := false
  offered : Option Code := none
  /-- The code was handed to the acting lead and no change has started for it yet (R484 (a), R507). -/
  handed : Bool := false
  /-- The states of each tile's last `k:READY` (12 R607), and the values of the last `k:PREPARE` heard. -/
  lastReadies : List (Serial × List (WState × Reason)) := []
  heardKey : Option (BitVec 32 × SceneKey) := none
  win : List Win := List.replicate 9 {}
  /-- Windows of the prepared scene (R489). -/
  prepWin : List Win := []
  /-- A picture has been shown since the bring-up (08 R386). -/
  shown : Bool := false
  deriving DecidableEq, Repr

/-! ### Frame memory, crossbar, admission (12) -/

/-- Status of a line whose tag is not valid (12 Table 12.1; log 8). -/
inductive LineBad | oneSymbol | uncorrectable | integrity | poison
  deriving DecidableEq, Repr

structure Mem where
  /-- Bytes that differ from an unlisted byte, by rising DRAM offset (log 14). -/
  bytes : List Host.Cell := []
  /-- Lines not valid, by rising line number. -/
  bad : List (Nat × LineBad) := []
  ready : Bool := false
  /-- A running initialisation ends at (17 R849). -/
  initUntil : Option Ticks := none
  /-- Poisoning events of the last second: channel and instant (Table 12.8). -/
  events : List (Fin 8 × Ticks) := []
  /-- The last read's data and flag, as its master receives them (Table 12.1). -/
  lastRead : Option (Master × Nat × List Byte × Bool) := none
  /-- The recorded partial-write poisoning: writer and offset (R580). -/
  lastMergeFail : Option (Master × Nat) := none
  scrubAt : Nat := 0
  scrubPoison : Nat := 0
  scrubCorrected : Nat := 0
  scrubDone : BitVec 32 := 0
  /-- Lines poisoned and corrected in the running pass. -/
  runPoison : Nat := 0
  runCorrected : Nat := 0
  deckleB : Bool := false
  deriving DecidableEq, Repr

/-- Crossbar targets (12 R591). -/
inductive Target
  | dch (c : Fin 8) | sb (b : Fin 4) | rom | otp | ctrl | ldgspi | unmapped
  deriving DecidableEq, Repr

/-- An outstanding piece (12 R588 to R594). -/
structure Piece where
  master : Master
  ident : Nat
  pooled : Bool
  target : Target
  address : Nat
  length : Nat
  write : Bool
  issued : Ticks
  deriving DecidableEq, Repr

/-- Working SRAM, banks SB0 to SB3 of 256 KiB each (06 R228, Table 12.9): bytes that differ from zero, by rising offset from SB0. -/
structure Sram where
  bytes : List Host.Cell := []
  /-- The boot controller has written zeros with valid check bits everywhere (06 R228). -/
  zeroed : Bool := false
  deriving DecidableEq, Repr

/-- A request that waits for an identifier of its master (12 R588). -/
structure HeldPiece where
  master : Master
  write : Bool
  address : Nat
  length : Nat
  deriving DecidableEq, Repr

structure Xb where
  pend : List Piece := []
  /-- Pieces that their masters may not issue yet, oldest first (R588). -/
  held : List HeldPiece := []
  nextId : Nat := 0
  /-- Master granted last per target (round robin, R591). -/
  granted : List (Target × Master) := []
  /-- Master, address and data of the last piece read from ROM, SRAM or the fuse shadow (12 Table 12.5). -/
  lastRead : Option (Master × Nat × List Byte) := none
  /-- Recorded hang: master, address, QoS (R594). -/
  lastHang : Option (Master × Nat × Nat) := none
  deriving DecidableEq, Repr

structure Adm where
  /-- Own result of the last beat and of the last `k:READY` (R605). -/
  own : List (WState × Reason) := []
  lastReady : List (WState × Reason) := []
  diffSince : Option Ticks := none
  /-- Per window, when its agreed state last became more restrictive (R606). -/
  restrictedAt : List (Option Ticks) := List.replicate 9 none
  /-- Domains or scalers withdrawn after a hang for one beat (Table 12.10). -/
  masterReset : List Master := []
  deriving DecidableEq, Repr

/-! ### Weft ports, wear, brightness (13) -/

/-- Working clock of a port or group (R630). -/
inductive WClock | none | c62 | c31 | c15
  deriving DecidableEq, Repr

/-- Why a pin or port is blanked (Table 13.10). -/
inductive WBlank | sdo | short | contention
  deriving DecidableEq, Repr

/-- One weft port (R630 to R634, R677 to R680). -/
structure WPort where
  chain : Nat := 0
  clock : WClock := .none
  phase : Nat := 0
  inCanvas : Bool := false
  hiZ : Bool := false
  /-- Echo mismatch found; next re-census (Table 13.10). -/
  sdo : Option Ticks := none
  /-- Consecutive words or planes whose echo mismatched. -/
  echoRun : Nat := 0
  trip : Option (WBlank × Ticks) := none
  deriving DecidableEq, Repr

/-- One weft group (R632, R654, R678). -/
structure WGroup where
  clock : WClock := .none
  code : Nat := 255
  gain : Nat := 255
  clips : Nat := 0
  hiZ : Bool := false
  trip : Option (WBlank × Ticks) := none
  /-- A pass was found and the group returns at the next beat. -/
  restore : Bool := false
  /-- Per-pick depth n and refresh depth k' at the group's clock (R637 to R641). -/
  n : Nat := 0
  kp : Nat := 0
  /-- Configuration words last written to the drivers (R645). -/
  cfg1 : BitVec 16 := 0
  cfg2 : BitVec 16 := 0
  deriving DecidableEq, Repr

/-- Geometry fixed by the census (R625 to R629). -/
structure WGeom where
  tileW : Nat
  tileH : Nat
  np : Nat
  bandW : Nat
  bandH : Nat
  scan : Nat
  columns : Bool
  deriving DecidableEq, Repr

/-- Scan figures fixed by the census (R636 to R638); the gap g in units of 0.5 µs. -/
structure WTiming where
  m : Nat
  g : Nat
  n : Nat
  d : Nat
  k : Nat
  deriving DecidableEq, Repr

/-- A status read in progress: row, block and kind next, false for open (R650). -/
structure WRead where
  /-- Start of the cycle under way. -/
  since : Option Ticks := none
  row : Nat := 0
  block : Nat := 0
  kind : Bool := false
  /-- A channel of the cycle was flagged for the third time in a row. -/
  failed : Bool := false
  deriving DecidableEq, Repr

/-- Consecutive reads, 3 at most, that found a channel of a row flagged open or short (Table 13.10). -/
structure LedRun where
  port : Nat
  driver : Nat
  channel : Nat
  row : Nat
  short : Bool
  n : Nat
  deriving DecidableEq, Repr

/-- A toned tile pixel: tile column and row, port, place in the band, and z of its three channels (R652, R653). -/
structure Lit where
  x : Nat
  y : Nat
  port : Nat
  bx : Nat
  by_ : Nat
  z : Rat × Rat × Rat
  deriving DecidableEq, Repr

structure Weft where
  port : List WPort := List.replicate 64 {}
  group : List WGroup := List.replicate 8 {}
  geom : Option WGeom := none
  timing : Option WTiming := none
  chainLen : Nat := 0
  /-- The pick under way: refresh, row, start instant (R635), and the clock count at which its active part began. -/
  pick : Option (Nat × Nat × Ticks) := none
  activeAt : Option Nat := none
  /-- Units for which the channels of its row are lit, by band row and tile column: red, green, blue (R639, R640). -/
  lit : List (List (Nat × Nat × Nat)) := []
  read : WRead := {}
  /-- The frame loaded last into the back banks; VSYNC issued for it (R643, R646). -/
  loaded : Option Nat := none
  /-- Its codes by tile row and column: red, green, blue (R652, R659). -/
  panel : List (List (Nat × Nat × Nat)) := []
  /-- The frame in the toned frame store, and the integrators before it (R652, R660). -/
  toned : List Lit := []
  wearWas : List Nat := []
  /-- Lines of the toned frame store that a weft read found poisoned in the frame (R673). -/
  dark : List Nat := []
  /-- Channels flagged open since the census, as the details of `f:WEFT_OPENLED` name them. -/
  openSeen : List (BitVec 32) := []
  /-- Channels off in every row until the next bring-up, flagged short: port, driver, channel (Table 13.10). -/
  shortSeen : List (Nat × Nat × Nat) := []
  ledRun : List LedRun := []
  /-- Integrators per block in units of 2^-24 and wear factors per block (R660, R661). -/
  wear : List Nat := []
  wblk : List Rat := []
  wearNext : Option Ticks := none
  flushNext : Option Ticks := none
  flushing : Bool := false
  /-- A census runs again on these ports (R983, Table 2.13). -/
  recensus : List (Fin 64) := []
  deriving DecidableEq, Repr

inductive AmbRange | na100 | ua1 | ua10 | ua100
  deriving DecidableEq, Repr

structure Amb where
  sensor : Bool := false
  range : AmbRange := .na100
  discard : Nat := 0
  /-- Last kept conversions in units of 1/16 lux, newest first, at most 10 (R664). -/
  last : List Nat := []
  reportNext : Option Ticks := none
  /-- The next conversion (R662). -/
  convertNext : Option Ticks := none
  deriving DecidableEq, Repr

structure Bri where
  /-- Latest REPORT of each tile: serial, value (none: no measurement), instant (R665). -/
  reports : List (Serial × Option Nat × Ticks) := []
  /-- The lead's ramp value and the next computation. -/
  ramp : Option Rat := none
  nextCompute : Option Ticks := none
  /-- TARGET values awaiting their beat (R667). -/
  due : List (BitVec 32 × Nat) := []
  /-- Agreed brightness in use in units of 2^-16; none before the first TARGET (14 R696). -/
  agreed : Option Nat := none
  own : Nat := 65536
  deriving DecidableEq, Repr

/-! ### Markers (14) -/

/-- A quarter's reference: samples being gathered, or formed (R713); mV. -/
inductive Reference
  | gathering (samples : List Nat)
  | formed (mv : Nat)
  deriving DecidableEq, Repr

structure Chan where
  q : Nat := 0
  /-- Runs of the open, lamp-short and supply-short conditions (R712). -/
  openRun : Nat := 0
  shortRun : Nat := 0
  supplyRun : Nat := 0
  refs : List Reference := List.replicate 4 (.gathering [])
  openF : Bool := false
  shortF : Bool := false
  latched : Bool := false
  limited : Bool := false
  retries : Nat := 0
  passes : Nat := 0
  nextRetry : Option Ticks := none
  nextRetest : Option Ticks := none
  /-- The millisecond of wall time of its last re-test (R709). -/
  retestMs : Option Nat := none
  /-- Off after its 8th failed retry, until `RESET_N` or power-up (R714). -/
  dead : Bool := false
  lastSupply : Option Ticks := none
  /-- Since when its retries have passed (Table 14.5). -/
  supplyOkSince : Option Ticks := none
  openClearSince : Option Ticks := none
  shortClearSince : Option Ticks := none
  halved : Bool := false
  overSince : Option Ticks := none
  underSince : Option Ticks := none
  deriving DecidableEq, Repr

structure MGroup where
  /-- Switched off whole for a fault (R715). -/
  off : Bool := false
  /-- Every failed channel has passed; lit from the next whole millisecond (R715). -/
  restore : Bool := false
  deriving DecidableEq, Repr

structure Mk where
  on : Bool := false
  chan : List Chan := List.replicate 48 {}
  group : List MGroup := List.replicate 12 {}
  nextMs : Option Nat := none
  totalOver : Option Ticks := none
  totalUnder : Option Ticks := none
  /-- Since when the total halves the non-regulated channels, and whether it halves the regulated ones too (R717). -/
  reducedSince : Option Ticks := none
  /-- A `MARKER_UPDATE` has set the channels since the bring-up: AON holds nothing any more (R702, 05 R216). -/
  ran : Bool := false
  regReduced : Bool := false
  vledOut : Bool := false
  /-- Since when every measurement of VLED has been below 2.8 V or above 17.5 V, and since when within 3.0 V to 17 V (R685, 04 Table
  4.9). -/
  vledBadSince : Option Ticks := none
  vledGoodSince : Option Ticks := none
  deriving DecidableEq, Repr

/-! ### Audio (15) -/

/-- One sample period in a flow's ring: media sample index, its sender, and the non-audio pairs at ingest; its words stand
in the ring's line of frame memory (15 R726, 12 Table 12.3). -/
structure RingLine where
  index : Int
  ip : Ip4
  ssrc : BitVec 32
  nonAudio : List Nat := []
  deriving DecidableEq, Repr

structure AFlow where
  slot : Nat
  /-- Its ring in frame memory, 0 to 3; none while all four are taken (R741). -/
  region : Option (Fin 4) := none
  ring : List RingLine := []
  sender : Option Sender := none
  nonAudio : List Nat := []
  /-- Media sample index of the last preamble per non-audio pair (R749). -/
  sincePre : List (Nat × Int) := []
  /-- Highest media sample index received. -/
  top : Option Int := none
  late : Nat := 0
  discarded : Nat := 0
  lastSample : Option Ticks := none
  goodSince : Option Ticks := none
  noSource : Bool := false
  /-- Output samples of the running route start still to replace (R730). -/
  startLeft : Nat := 64
  /-- The sender whose samples the output plays; another makes a route start (R730). -/
  playing : Option (Ip4 × BitVec 32) := none
  selectedAt : Ticks := 0
  deriving DecidableEq, Repr

/-- A gain ramp under way (R740): sample i of R, upward or downward, and the gain it started from. -/
structure Ramp where
  up : Bool
  i : Nat
  r : Nat
  deriving DecidableEq, Repr

/-- Why an output is muted (R742, R747, 06 R248). -/
inductive MuteCause | pin | safe | standby | selftest
  deriving DecidableEq, Repr

structure AOut where
  level : Nat := 0
  /-- A level change not yet applied, per channel: level, deadline, channels applied (R744). -/
  pendLevel : Option (Nat × Ticks × List Nat) := none
  chanLevel : List Nat := List.replicate 32 0
  ramp : Option Ramp := none
  mute : List MuteCause := []
  invalid : Nat := 0
  lastSign : List (Option Bool) := List.replicate 32 none
  /-- Validity collected per data slot since its page was sent (R739), and the last frame's slot words. -/
  valid : List Bool := List.replicate 32 true
  frame : List Nat := []
  /-- The slot words of the frame before, whose last bits an offset carries over (R732). -/
  prev : List Nat := []
  deriving DecidableEq, Repr

/-- What a position carries at one output sample (R722, R730, R746, R749): source audio; a gap, bridged by fades; a route
start; invalid zero that ends in a ramp up; or nothing assigned. -/
inductive SampleSt | good | missing | start | silent | unassigned
  deriving DecidableEq, Repr

/-- One output sample fetched 2 ms ahead: its index, and per position its 32-bit source value and what it carries (R728). -/
structure Fetched where
  index : Int
  val : List Int
  st : List SampleSt
  deriving DecidableEq, Repr

/-- How the TDM clocks stand to their grid: on it, completing a bit-clock period after a time step, or low until the new grid's next
falling edge (R737). -/
inductive Grid | on | finishing | waiting
  deriving DecidableEq, Repr

structure Aud where
  flows : List AFlow := []
  /-- Flows of the next route, ingested ahead of the switch (R741). -/
  nextFlows : List AFlow := []
  clocks : Bool := false
  /-- The sample fetched next. -/
  m : Option Int := none
  /-- Fetched samples whose edge has not come. -/
  pipe : List Fetched := []
  /-- Samples since the last gap, per position, up to 33 (R746). -/
  gap : List Nat := List.replicate 64 33
  /-- Ramps of the positions; a downward one stays at its end until the position ramps up (R741, R749). -/
  posRamp : List (Option Ramp) := List.replicate 64 none
  /-- The route to switch to: slots, and the sample index of the switch point once a commit beat is known (R741). -/
  switchTo : Option (List Nat × Option Int) := none
  outA : AOut := {}
  outB : AOut := {}
  grid : Grid := .on
  /-- The first frame of the grid, and the frame whose words `outA` and `outB` hold. -/
  firstFrame : Int := 0
  frameAt : Option Int := none
  deriving DecidableEq, Repr

/-! ### Serial channels (16) -/

/-- A Bobbin frame after unescaping (Table 16.2). -/
structure BFrame where
  dest : Byte
  src : Byte
  type : Nat
  seq : BitVec 32
  body : List Byte
  tag : List Byte
  /-- The end of its last character. -/
  at_ : Ticks
  deriving DecidableEq, Repr

/-- An answer due: destination, type, body, and the request's end (R777). -/
structure Answer where
  dest : Byte
  type : Nat
  body : List Byte
  reqEnd : Ticks
  /-- An XOFF came while it was due: it may start later than 32 character times (R807). -/
  delayed : Bool := false
  deriving DecidableEq, Repr

/-- What a transmitter sends: the levels of its bits, and the instant of the first start bit (R768, R779, R792). -/
structure Sending where
  start : Ticks
  bits : List Bool
  deriving DecidableEq, Repr

structure Bob where
  muted : Bool := true
  waiting : List BFrame := []
  xoffUntil : Option Ticks := none
  xoffSent : Bool := false
  seqOut : BitVec 32 := 0
  seqIn : List (Byte × BitVec 32) := []
  answer : Option Answer := none
  /-- Roll-call window: number, first, last, start (R787). -/
  window : Option (Nat × Nat × Nat × Ticks) := none
  rollNo : BitVec 8 := 0
  rollNext : Option Ticks := none
  resendAt : Option Ticks := none
  answered : List Byte := []
  flagged : List Byte := []
  noise : List Ticks := []
  collisions : Nat := 0
  xoffCount : Nat := 0
  lastChar : Option Ticks := none
  partial_ : Bool := false
  tx : Option Sending := none
  deriving DecidableEq, Repr

structure Bea where
  page : Nat := 0
  rotation : BitVec 8 := 0
  /-- Fault pages still to send (R794). -/
  extra : List Nat := []
  bad : Nat := 0
  good : Nat := 0
  echoFault : Bool := false
  tx : Option Sending := none
  /-- End of the last frame sent. -/
  lastEnd : Option Ticks := none
  deriving DecidableEq, Repr

/-- Stages of the card port (16 Table 16.5, 18 Table 18.2). -/
inductive CardStage
  | absent
  | awaitTs
  | awaitAtr
  | awaitPps (ta1 : Byte)
  | ready
  | ended
  deriving DecidableEq, Repr

structure Card where
  stage : CardStage := .absent
  activated : Ticks := 0
  direct : Bool := true
  fi : Nat := 372
  di : Nat := 1
  guard : Nat := 0
  wi : Nat := 10
  /-- A first protocol failure has fallen since the insertion (Table 16.8), and a dialogue was begun (18 R863). -/
  failed : Bool := false
  begun : Bool := false
  retryAt : Option Ticks := none
  /-- `CARD_IO` was driven low by a deactivation (R805); an activation releases it again (Table 16.5). -/
  ioLow : Bool := false
  /-- Start of the last deactivation, whose four steps lie 10 µs apart (R805). -/
  endedAt : Option Ticks := none
  /-- What the PW64 sends on `CARD_IO`. -/
  tx : Option Sending := none
  deriving DecidableEq, Repr

/-- The dialogue with a Belnan card (18). -/
structure Dlg where
  /-- Last step of Table 18.2 completed, 0 to 6. -/
  step : Nat := 0
  nT : List Byte := []
  reply : Option CardReply := none
  order : Option CardOrder := none
  /-- Outcome decided and not yet sent. -/
  outcome : Option Nat := none
  /-- `t:card`: step, action, outcome, status word, check value (R898). -/
  recStep : Nat := 0
  recAction : Nat := 0
  recOutcome : BitVec 8 := 255
  recSw : BitVec 16 := 0
  recCheck : BitVec 32 := 0
  deriving DecidableEq, Repr

/-! ### What leaves the part (log 15) -/

inductive Sent
  | frame (port : Port) (p : Payload)
  | knot (link : Dir) (bytes : List Byte)
  | markReq (link : Dir) (value : BitVec 16)
  | markRsp (link : Dir) (value : BitVec 16)
  | markBeat (link : Dir) (value : BitVec 16)
  | bobbin (dest : Byte) (chars : List Byte)
  | xon
  | xoff
  | beacon (bytes : List Byte)
  | apdu (cmd : List Byte) (data : List Byte)
  | ppsRequest (bytes : List Byte)
  /-- The PW64 drives `CARD_IO` low from 10.5 to 12 ETU after the start of a character (16 R803). -/
  | cardError
  /-- The control register of the two-wire bus switch is written, and a module's bytes 0 to 95 are read (07 R266, R267). -/
  | busSwitch (value : Byte)
  | moduleRead (port : Port)
  | frameLoad (k : Nat)
  | driverConfig (g : Fin 8) (w1 w2 : BitVec 16)
  deriving DecidableEq, Repr

/-! ### The whole state -/

structure State where
  /-- Instant on the model's ruler (log 1). -/
  now : Ticks := 0
  /-- Commands that wait, first in, first out. -/
  pending : List Instr := []
  /-- Free values drawn so far: the model's own field (log 7). -/
  fresh : Nat := 0
  /-- What has left the part, newest first (log 15). -/
  sent : List Sent := []
  unit : UnitId := {}
  pins : Pins := {}
  straps : Straps := {}
  live : Live := {}
  pwr : Pwr := {}
  standby : Standby := {}
  clk : Clk := {}
  boot : Boot := {}
  test : Test := {}
  otp : Otp := {}
  keys : Keys := {}
  flt : Flt := {}
  ldg : Ledger := {}
  status : StatusRec := {}
  sens : Sens := {}
  net : Net := {}
  time : TimeSt := {}
  sv : Sv := {}
  disc : Disc := {}
  scene : Scene := {}
  mem : Mem := {}
  xb : Xb := {}
  sram : Sram := {}
  adm : Adm := {}
  weft : Weft := {}
  amb : Amb := {}
  bri : Bri := {}
  mark : Mk := {}
  aud : Aud := {}
  bob : Bob := {}
  bea : Bea := {}
  card : Card := {}
  dlg : Dlg := {}
  deriving DecidableEq, Repr

/-- The part before power: AON off, every field at its default. `AON_ON` begins the first bring-up (log 2). -/
def State.reset : State := {}

/-- Why a step stops. -/
inductive Fault
  /-- Raised by `SENSOR_READ` on a reading beyond the absolute maximum ratings of 20 Table 20.1, beyond which the spec
  specifies nothing (00 R17, 20 R927; log 10). Safe: the model stops where the part may be damaged. -/
  | beyondAbsoluteMaximum
  deriving DecidableEq, Repr

/-- Why a step is refused. -/
inductive Refusal
  /-- Answered only by an arm of `exec` whose command has no meaning in the model yet. Safe: nothing is claimed. -/
  | notModelled (mnemonic : String)
  deriving DecidableEq, Repr

end Sys2Proof.Machine
end

