-- ==== Sys2Proof/Machine/Ops.lean ====
section
/-!
DEFINITION. Shared operations over plain parts of the state: units of time, lists, bytes, domains, the time counter and
beats, and what has been sent.
-/
namespace Sys2Proof.Machine
open Sys2Proof

/-! ### Units of the ruler (log 1) -/

/-- n nanoseconds in ticks. -/
def nsT (n : Nat) : Ticks := 3200 * n
def usT (n : Nat) : Ticks := 3200000 * n
def msT (n : Nat) : Ticks := 3200000000 * n
def secT (n : Nat) : Ticks := 3200000000000 * n

/-- Whether `d` ticks have passed since a stored instant; never, when nothing is stored. -/
def passed (now : Ticks) (since : Option Ticks) (d : Ticks) : Bool :=
  match since with
  | none => false
  | some t => t + d ≤ now

/-- Whether a stored due instant has come. -/
def dueBy (now : Ticks) (t : Option Ticks) : Bool := passed now t 0

/-- Keeps an instant already stored, else stores the present one. -/
def holdSince (now : Ticks) (t : Option Ticks) : Option Ticks :=
  match t with
  | some x => some x
  | none => some now

/-! ### Lists -/

/-- Replaces the element at an index. -/
def updAt {α : Type} (l : List α) (i : Nat) (f : α → α) : List α :=
  match l, i with
  | [], _ => []
  | x :: xs, 0 => f x :: xs
  | x :: xs, n + 1 => x :: updAt xs n f

def sumNat (l : List Nat) : Nat := l.foldl (· + ·) 0
def sumInt (l : List Int) : Int := l.foldl (· + ·) 0
def sumRat (l : List Rat) : Rat := l.foldl (· + ·) 0
def maxNat (l : List Nat) : Nat := l.foldl max 0

/-- Insertion into a list kept in order of `le`. -/
def insertBy {α : Type} (le : α → α → Bool) (x : α) : List α → List α
  | [] => [x]
  | y :: ys => if le x y then x :: y :: ys else y :: insertBy le x ys

/-- Sorting by insertion. -/
def sortBy {α : Type} (le : α → α → Bool) (l : List α) : List α := l.foldr (insertBy le) []

/-- The first element of least measure. -/
def leastBy {α : Type} (m : α → Int) : List α → Option α
  | [] => none
  | x :: xs =>
    match leastBy m xs with
    | none => some x
    | some y => if m x ≤ m y then some x else some y

/-- Keeps the newest `n` of a list that has its newest first. -/
def keep {α : Type} (n : Nat) (l : List α) : List α := l.take n

/-- The element under the lower median position of a list of numbers (14 R712, 13 R665); 0 of nothing. -/
def lowerMedian (l : List Nat) : Nat :=
  (sortBy (fun a b => decide (a ≤ b)) l).getD ((l.length - 1) / 2) 0

/-! ### Bytes, in network order (00 R7) -/

/-- `n` bytes of a number, most significant first. -/
def beBytes : Nat → Nat → List Byte
  | 0, _ => []
  | n + 1, v => BitVec.ofNat 8 (v / 256 ^ n) :: beBytes n v

/-- The number of bytes given most significant first. -/
def beNat (l : List Byte) : Nat := l.foldl (fun a b => a * 256 + b.toNat) 0

/-- Two's complement of `n` bytes. -/
def beInt (n : Nat) (v : Int) : List Byte := beBytes n (v % (256 ^ n : Nat)).toNat

/-- The signed number of bytes given most significant first. -/
def beSigned (l : List Byte) : Int :=
  let v := beNat l
  let m := 256 ^ l.length
  if 2 * v < m then v else (v : Int) - m

/-- `n` bytes from offset `o`. -/
def slice (l : List Byte) (o n : Nat) : List Byte := (l.drop o).take n

/-- A field of `n` bytes at offset `o`. -/
def fieldAt (l : List Byte) (o n : Nat) : Nat := beNat (slice l o n)
def signedAt (l : List Byte) (o n : Nat) : Int := beSigned (slice l o n)
def byteAt (l : List Byte) (o : Nat) : Nat := (l.getD o 0).toNat
def bitAt (v i : Nat) : Bool := v / 2 ^ i % 2 == 1
def b2n (b : Bool) : Nat := if b then 1 else 0

/-- The signed 32-bit compare of 08 R361: (a - b) mod 2^32 in two's complement. -/
def cmp32 (a b : BitVec 32) : Int := (a - b).toInt
/-- `a` is later than `b` (08 R361). -/
def later32 (a b : BitVec 32) : Bool := decide (0 < cmp32 a b)

/-- One step of CRC-32 over a bit position (IEEE 802.3, reflected). -/
def crcBit (c : BitVec 32) : BitVec 32 :=
  if c.getLsbD 0 then (c >>> 1) ^^^ 0xEDB88320#32 else c >>> 1

def crcByte (c : BitVec 32) (b : Byte) : BitVec 32 :=
  let x := c ^^^ b.setWidth 32
  crcBit (crcBit (crcBit (crcBit (crcBit (crcBit (crcBit (crcBit x)))))))

/-- CRC-32 of IEEE 802.3 (06 R227, 09 R416, 14 R693; log 16). -/
def crc32 (l : List Byte) : BitVec 32 := ~~~ (l.foldl crcByte 0xFFFFFFFF#32)

/-- Byte of a list of cells; 0 where none is listed. -/
def cellAt (l : List Host.Cell) (a : Nat) : Byte := match l.find? (fun c => c.1 == a) with | some c => c.2 | none => 0

/-- The bytes 0 to n - 1 of a store as a check reads them, some of them read as another value. -/
def readsAs (l : List Host.Cell) (wrong : List (Nat × Byte)) (n : Nat) : List Byte :=
  (List.range n).map (fun a => match wrong.find? (fun c => c.1 == a) with | some c => c.2 | none => cellAt l a)

/-- The ROM passes: the CRC-32 over bytes 0 to 65,531 is the value stored in bytes 65,532 to 65,535 (06 R227). -/
def romPasses (wrong : List (Nat × Byte)) (s : State) : Bool :=
  let l := readsAs s.unit.rom wrong 65536
  (crc32 (l.take 65532)).toNat == beNat (l.drop 65532)

/-- FCS-16 of RFC 1662 (16 R793; log 16). -/
def fcsBit (c : BitVec 16) : BitVec 16 :=
  if c.getLsbD 0 then (c >>> 1) ^^^ 0x8408#16 else c >>> 1

def fcs16 (l : List Byte) : BitVec 16 :=
  ~~~ (l.foldl (fun c b =>
    fcsBit (fcsBit (fcsBit (fcsBit (fcsBit (fcsBit (fcsBit (fcsBit (c ^^^ b.setWidth 16))))))))) 0xFFFF#16)

/-! ### Updates of one part of the state -/

def modPwr (f : Pwr → Pwr) (s : State) : State := { s with pwr := f s.pwr }
def modClk (f : Clk → Clk) (s : State) : State := { s with clk := f s.clk }
def modBoot (f : Boot → Boot) (s : State) : State := { s with boot := f s.boot }
def modTest (f : Test → Test) (s : State) : State := { s with test := f s.test }
def modOtp (f : Otp → Otp) (s : State) : State := { s with otp := f s.otp }
def modKeys (f : Keys → Keys) (s : State) : State := { s with keys := f s.keys }
def modFlt (f : Flt → Flt) (s : State) : State := { s with flt := f s.flt }
def modLdg (f : Ledger → Ledger) (s : State) : State := { s with ldg := f s.ldg }
def modStatus (f : StatusRec → StatusRec) (s : State) : State := { s with status := f s.status }
def modSens (f : Sens → Sens) (s : State) : State := { s with sens := f s.sens }
def modNet (f : Net → Net) (s : State) : State := { s with net := f s.net }
def modTime (f : TimeSt → TimeSt) (s : State) : State := { s with time := f s.time }
def modSv (f : Sv → Sv) (s : State) : State := { s with sv := f s.sv }
def modDisc (f : Disc → Disc) (s : State) : State := { s with disc := f s.disc }
def modScene (f : Scene → Scene) (s : State) : State := { s with scene := f s.scene }
def modMem (f : Mem → Mem) (s : State) : State := { s with mem := f s.mem }
def modXb (f : Xb → Xb) (s : State) : State := { s with xb := f s.xb }
def modAdm (f : Adm → Adm) (s : State) : State := { s with adm := f s.adm }
def modWeft (f : Weft → Weft) (s : State) : State := { s with weft := f s.weft }
def modAmb (f : Amb → Amb) (s : State) : State := { s with amb := f s.amb }
def modBri (f : Bri → Bri) (s : State) : State := { s with bri := f s.bri }
def modMark (f : Mk → Mk) (s : State) : State := { s with mark := f s.mark }
def modAud (f : Aud → Aud) (s : State) : State := { s with aud := f s.aud }
def modBob (f : Bob → Bob) (s : State) : State := { s with bob := f s.bob }
def modBea (f : Bea → Bea) (s : State) : State := { s with bea := f s.bea }
def modCard (f : Card → Card) (s : State) : State := { s with card := f s.card }
def modDlg (f : Dlg → Dlg) (s : State) : State := { s with dlg := f s.dlg }
def modStandby (f : Standby → Standby) (s : State) : State := { s with standby := f s.standby }
def modStraps (f : Straps → Straps) (s : State) : State := { s with straps := f s.straps }
def modLive (f : Live → Live) (s : State) : State := { s with live := f s.live }
def modPins (f : Pins → Pins) (s : State) : State := { s with pins := f s.pins }

/-! ### Free values and outputs (log 7, log 15) -/

/-- The next free value, below `bound`, and the state that has drawn it. -/
def draw (s : State) (bound : Nat) : Nat × State :=
  (Config.freeValue s.fresh % bound, { s with fresh := s.fresh + 1 })

/-- `n` bytes of entropy. -/
def drawBytes (s : State) (n : Nat) : List Byte × State :=
  (beBytes n (Config.freeValue s.fresh), { s with fresh := s.fresh + 1 })

/-- Adds to what has left the part. -/
def emit (s : State) (o : Sent) : State := { s with sent := o :: s.sent }

/-- The boot controller writes zero data with valid check bits to every location of SB0 to SB3 (06 R228). -/
def zeroSram (s : State) : State := { s with sram := { bytes := [], zeroed := true } }

/-! ### Domains (04) -/

def domAt (s : State) (d : Nat) : DomSt := s.pwr.dom.getD d {}

/-- The domain is on (04 Table 4.3). -/
def domOn (s : State) (d : Nat) : Bool := decide ((domAt s d).phase = .on)

def setDom (s : State) (d : Nat) (f : DomSt → DomSt) : State :=
  modPwr (fun z => { z with dom := updAt z.dom d f }) s

/-- The tile runs: the system clock is on and it is not in standby (04 Table 4.3, 05 R216). -/
def runs (s : State) : Bool := s.clk.running && !s.standby.asleep

/-! ### The serial number in use: OTP pairs 0 to 63 of the shadow (17 Table 17.2) -/

/-- How a pair reads (17 R818): 0, half or 1. -/
inductive PairRead | zero | half | one
  deriving DecidableEq, Repr

def pairRead (fuses : List Nat) (p : Nat) : PairRead :=
  match fuses.contains (2 * p), fuses.contains (2 * p + 1) with
  | true, true => .one
  | false, false => .zero
  | _, _ => .half

/-- Every rule of 17 reads a half pair as 1 (R818). -/
def pairBit (fuses : List Nat) (p : Nat) : Bool := decide (pairRead fuses p ≠ .zero)

/-- A field of `m` pairs from pair `q`: pair q + i carries bit i (17 R819). -/
def pairField (fuses : List Nat) (q m : Nat) : Nat :=
  (List.range m).foldl (fun a i => if pairBit fuses (q + i) then a + 2 ^ i else a) 0

def serialOf (s : State) : Serial := BitVec.ofNat 64 (pairField s.otp.shadow 0 64)
/-- The low 32 bits of the serial number (07 R275, R277). -/
def serialLow (s : State) : Nat := (serialOf s).toNat % 2 ^ 32

/-! ### The time counter (08 R332 to R334) -/

/-- The counter in units of 2^-32 ns. -/
def counterF (t : TimeSt) : Int :=
  ((t.sec.toNat * 1000000000 + t.ns.toNat) * 4294967296 + t.frac.toNat : Nat)

/-- The counter set to a value in units of 2^-32 ns; the seconds stay within their 64 bits. -/
def setCounterF (t : TimeSt) (v : Int) : TimeSt :=
  let n := v.toNat
  let nsAll := n / 4294967296
  { t with
    frac := BitVec.ofNat 32 n
    ns := BitVec.ofNat 30 (nsAll % 1000000000)
    sec := BitVec.ofNat 64 (nsAll / 1000000000) }

/-- Nanoseconds to units of 2^-32 ns. -/
def nsF (n : Int) : Int := n * 4294967296
/-- Wall time in whole nanoseconds: seconds × 10^9 + nanoseconds (14 R691). -/
def wallNs (s : State) : Nat := s.time.sec.toNat * 1000000000 + s.time.ns.toNat
def counterOf (s : State) : Int := counterF s.time

/-- Frame rate N and D of a code of `s:REFRESH` (08 Table 8.7). -/
def beatRate (code : Nat) : Nat × Nat :=
  match code with
  | 0 => (24, 1) | 1 => (25, 1) | 2 => (30, 1) | 3 => (48, 1) | 4 => (50, 1) | 5 => (60, 1)
  | 6 => (100, 1) | 7 => (120, 1)
  | 8 => (24000, 1001) | 9 => (30000, 1001) | 10 => (60000, 1001) | 11 => (120000, 1001)
  | _ => (60, 1)

/-- t_k truncated to 2^-32 ns (08 R365, R366). -/
def beatTime (nd : Nat × Nat) (k : Nat) : Int :=
  ((k * nd.2 * 1000000000 * 4294967296) / nd.1 : Nat)

/-- Beat index of a wall time in 2^-32 ns: floor(T × N ÷ D) (08 R365). -/
def beatIndex (nd : Nat × Nat) (t : Int) : Nat :=
  (t * nd.1 / (nd.2 * 1000000000 * 4294967296 : Nat)).toNat

/-- The first beat whose time is at or after `t`. -/
def beatAtOrAfter (nd : Nat × Nat) (t : Int) : Nat :=
  let k := beatIndex nd t
  if t ≤ beatTime nd k then k else k + 1

/-- The first beat whose time is after `t` (08 R367). -/
def beatAfter (nd : Nat × Nat) (t : Int) : Nat :=
  let k := beatIndex nd t
  if t < beatTime nd k then k else k + 1

/-- Frame period in units of 2^-32 ns, rounded down. -/
def periodF (nd : Nat × Nat) : Int := ((nd.2 * 1000000000 * 4294967296) / nd.1 : Nat)

/-- Beat number of an index (08 Table 8.1). -/
def beatNo (k : Nat) : BitVec 32 := BitVec.ofNat 32 k

/-- The present beat index, that of the last beat emitted. -/
def beatNow (s : State) : Nat := s.time.beat.getD 0

/-- The present instant is that of the last beat emitted. -/
def atBeat (s : State) : Bool := s.time.beat.isSome && s.time.beatAt == s.now

/-- Index of a received beat number (08 R364). -/
def resolveBeat (s : State) (n : BitVec 32) : Int :=
  (beatNow s : Int) + cmp32 n (beatNo (beatNow s))

/-! ### Links by direction (09) -/

def linkOf (s : State) (d : Dir) : Link :=
  match d with
  | .n => s.sv.n | .e => s.sv.e | .s => s.sv.s | .w => s.sv.w

def setLink (s : State) (d : Dir) (l : Link) : State :=
  match d with
  | .n => modSv (fun z => { z with n := l }) s
  | .e => modSv (fun z => { z with e := l }) s
  | .s => modSv (fun z => { z with s := l }) s
  | .w => modSv (fun z => { z with w := l }) s

def modLink (s : State) (d : Dir) (f : Link → Link) : State := setLink s d (f (linkOf s d))

def dirs : List Dir := [.n, .e, .s, .w]

/-- Number of a port in `k:HELLO` byte 20 (09 Table 9.4). -/
def dirNo (d : Dir) : Nat := match d with | .n => 0 | .e => 1 | .s => 2 | .w => 3

/-- The complement of a link: N with S, E with W (09 R430). -/
def opposite (d : Dir) : Dir := match d with | .n => .s | .s => .n | .e => .w | .w => .e

def joinedDirs (s : State) : List Dir := dirs.filter (fun d => (linkOf s d).joined.isSome)
def anyJoined (s : State) : Bool := !(joinedDirs s).isEmpty

/-! ### Network ports -/

def netPort (s : State) (p : Port) : PortSt := s.net.port.getD p.val {}
def setNetPort (s : State) (p : Port) (f : PortSt → PortSt) : State :=
  modNet (fun z => { z with port := updAt z.port p.val f }) s
def ports : List Port := [0, 1, 2, 3]

end Sys2Proof.Machine
end

