-- ==== Sys2Proof/Machine/Blocks.lean ====
section
/-!
DEFINITION. The 66-bit blocks of a Selvedge lane: headers, the scrambler, block lock, and a knot as blocks (09 R407 to R417).
-/
namespace Sys2Proof.Machine
open Sys2Proof

/-! ### Headers (R407) -/

inductive HeaderClass | data | control | invalid
  deriving DecidableEq, Repr

/-- Bit 0 is the bit sent first. -/
def headerClass (h : BitVec 2) : HeaderClass :=
  match h.getLsbD 0, h.getLsbD 1 with
  | false, true => .data
  | true, false => .control
  | _, _ => .invalid

def headerOf (control : Bool) : BitVec 2 := if control then 1 else 2

def validHeader (h : BitVec 2) : Bool := !decide (headerClass h = .invalid)

/-! ### The scrambler x^58 + x^39 + 1 (R408) -/

/-- The bit s_(n-39) xor s_(n-58) of a register that holds s_(n-1) as bit 0. -/
def scrTap (r : BitVec 58) : Bool := r.getLsbD 38 != r.getLsbD 57

/-- The register after one more bit on the lane. -/
def scrShift (r : BitVec 58) (b : Bool) : BitVec 58 := (r <<< 1) ||| (if b then 1 else 0)

/-- s_n = d_n xor s_(n-39) xor s_(n-58). -/
def scramble : BitVec 58 → List Bool → BitVec 58 × List Bool
  | r, [] => (r, [])
  | r, d :: rest =>
    let b := d != scrTap r
    let x := scramble (scrShift r b) rest
    (x.1, b :: x.2)

/-- d_n = s_n xor s_(n-39) xor s_(n-58). -/
def descramble : BitVec 58 → List Bool → BitVec 58 × List Bool
  | r, [] => (r, [])
  | r, b :: rest =>
    let x := descramble (scrShift r b) rest
    (x.1, (b != scrTap r) :: x.2)

/-! ### Payloads: byte i is bits 8i to 8i + 7, least significant first -/

def byteBits (b : Byte) : List Bool := (List.range 8).map b.getLsbD

def bitsNat : List Bool → Nat
  | [] => 0
  | b :: rest => b2n b + 2 * bitsNat rest

/-- The bytes of a list of bits. -/
def bitsBytes (l : List Bool) : Nat → List Byte
  | 0 => []
  | n + 1 => BitVec.ofNat 8 (bitsNat (l.take 8)) :: bitsBytes (l.drop 8) n

def payloadBits (p : BitVec 64) : List Bool := (List.range 64).map p.getLsbD

/-- A block leaves: its payload scrambled, its header not. -/
def sendBlockBits (r : BitVec 58) (b : Block) : BitVec 58 × WireBlock :=
  let x := scramble r (b.bytes.flatMap byteBits)
  (x.1, ⟨headerOf b.control, BitVec.ofNat 64 (bitsNat x.2)⟩)

/-- A block arrives: the register after it, and its eight payload bytes. -/
def receiveBits (r : BitVec 58) (w : WireBlock) : BitVec 58 × List Byte :=
  let x := descramble r (payloadBits w.payload)
  (x.1, bitsBytes x.2 8)

/-! ### Block types (Table 9.1) -/

def idleBlock : Block := ⟨true, 0x1E :: List.replicate 7 0⟩

def markNo (k : MarkKind) : Byte := match k with | .req => 1 | .rsp => 2 | .beat => 3

def markBlock (k : MarkKind) (v : BitVec 16) : Block :=
  ⟨true, [0x4B, markNo k] ++ beBytes 2 v.toNat ++ [0, 0, 0, 0]⟩

/-- Data blocks of the bytes after a START, the last padded with 0x00. -/
def dataBlocks (l : List Byte) : Nat → List Block
  | 0 => []
  | n + 1 => ⟨false, (l.take 8) ++ List.replicate (8 - (l.take 8).length) 0⟩ :: dataBlocks (l.drop 8) n

/-- A knot as one START and ceil((L - 7) / 8) data blocks (R414). -/
def knotBlocks (b : List Byte) : List Block :=
  ⟨true, 0x78 :: b.take 7⟩ :: dataBlocks (b.drop 7) ((b.length - 7 + 7) / 8)

/-! ### Block lock (R411, R412) -/

/-- One header of the hunt: an invalid one moves the candidate offset by a bit, 64 valid ones in a row lock. -/
def huntHeader (l : Link) (h : BitVec 2) : Link :=
  if l.locked then l
  else if validHeader h then
    if 63 ≤ l.hunt then { l with locked := true, hunt := 0, window := [] } else { l with hunt := l.hunt + 1 }
  else { l with hunt := 0, offset := (l.offset + 1) % 66 }

/-- One header after lock. -/
def watchHeader (h : BitVec 2) (l : Link) : Link := { l with window := ((!validHeader h) :: l.window).take 64 }

/-- 16 or more of the latest 64 headers are invalid. -/
def lockFails (l : Link) : Bool := 16 ≤ (l.window.filter id).length

/-- Headers of a locked lane, until lock fails. -/
def watchHeaders : List (BitVec 2) → Link → Link
  | [], l => l
  | h :: rest, l => let l := watchHeader h l; if lockFails l then l else watchHeaders rest l

/-! ### A knot in reception (R414 to R417) -/

/-- The knot under way is whole: its L-th byte has come; a length outside 24 to 512 ends it at once (R416). -/
def knotWhole (b : List Byte) : Bool :=
  let n := fieldAt b 2 2
  decide (n < 24) || decide (512 < n) || decide (n ≤ b.length)

/-- The knot under way has grown: it goes on, or ends after its L-th byte. -/
def grown (b : List Byte) (l : Link) : Link × Option (List Byte) :=
  if knotWhole b then ({ l with rx := none }, some (b.take (fieldAt b 2 2))) else ({ l with rx := some b }, none)

/-- One valid block: a START begins a knot and abandons one under way, a data block continues it, and every other block leaves it as it
is; a block with an invalid header carries nothing (R415, R417; log 89). -/
def readBlock (w : WireBlock) (l : Link) : Link × Option (List Byte) :=
  let x := receiveBits l.descr w
  let l := { l with descr := x.1 }
  match headerClass w.header with
  | .control => if byteAt x.2 0 = 0x78 then grown (x.2.drop 1) l else (l, none)
  | .data =>
    match l.rx with
    | some b => grown (b ++ x.2) l
    | none => (l, none)
  | .invalid => (l, none)

/-- Blocks up to the one that ends a knot, or up to the loss of lock. -/
def readLane : List WireBlock → Link → Link × Option (List Byte)
  | [], l => (l, none)
  | w :: rest, l =>
    let l := watchHeader w.header l
    if lockFails l then (l, none)
    else
      match readBlock w l with
      | (l, some b) => (l, some b)
      | (l, none) => readLane rest l

/-! ### Sending (R410, R415, R426) -/

/-- A block of 66 bits at 3.125 Gb/s lasts 21.12 ns (R403, R459). -/
def blockTicks : Ticks := 67584

/-- A block goes onto the lane. -/
def putBlock (b : Block) (l : Link) : Link :=
  let x := sendBlockBits l.scr b
  { l with scr := x.1, line := x.2 }

/-- A MARK leaves at an instant of the counter (R434, R454, R455). -/
def departed (m : OutMark) (at_ : Int) (l : Link) : Link :=
  match m.kind with
  | .req => { l with req := some (m.value, at_) }
  | .rsp => { l with answered := (m.value, ((at_ - m.since) / 65536).toNat) }
  | .beat => { l with beatOut := some (m.value, at_) }

end Sys2Proof.Machine
end

