-- ==== Sys2Proof/Machine/Crypto.lean ====
section
/-!
DEFINITION. The hash, cipher and elliptic-curve functions that chapters 17 to 19 name by their standards (log 6). Words,
field elements and scalars are natural numbers.
-/
namespace Sys2Proof.Machine
open Sys2Proof

/-! ### SHA-256 (FIPS 180-4) and HMAC (FIPS 198-1) -/

def rotr32 (n x : Nat) : Nat := (x >>> n ||| x <<< (32 - n)) % 4294967296

/-- The 64 round constants. -/
def shaK : List Nat :=
  [0x428A2F98, 0x71374491, 0xB5C0FBCF, 0xE9B5DBA5, 0x3956C25B, 0x59F111F1, 0x923F82A4, 0xAB1C5ED5] ++
  [0xD807AA98, 0x12835B01, 0x243185BE, 0x550C7DC3, 0x72BE5D74, 0x80DEB1FE, 0x9BDC06A7, 0xC19BF174] ++
  [0xE49B69C1, 0xEFBE4786, 0x0FC19DC6, 0x240CA1CC, 0x2DE92C6F, 0x4A7484AA, 0x5CB0A9DC, 0x76F988DA] ++
  [0x983E5152, 0xA831C66D, 0xB00327C8, 0xBF597FC7, 0xC6E00BF3, 0xD5A79147, 0x06CA6351, 0x14292967] ++
  [0x27B70A85, 0x2E1B2138, 0x4D2C6DFC, 0x53380D13, 0x650A7354, 0x766A0ABB, 0x81C2C92E, 0x92722C85] ++
  [0xA2BFE8A1, 0xA81A664B, 0xC24B8B70, 0xC76C51A3, 0xD192E819, 0xD6990624, 0xF40E3585, 0x106AA070] ++
  [0x19A4C116, 0x1E376C08, 0x2748774C, 0x34B0BCB5, 0x391C0CB3, 0x4ED8AA4A, 0x5B9CCA4F, 0x682E6FF3] ++
  [0x748F82EE, 0x78A5636F, 0x84C87814, 0x8CC70208, 0x90BEFFFA, 0xA4506CEB, 0xBEF9A3F7, 0xC67178F2]

structure Sha where
  a : Nat
  b : Nat
  c : Nat
  d : Nat
  e : Nat
  f : Nat
  g : Nat
  h : Nat
  deriving DecidableEq, Repr

def shaStart : Sha := ⟨0x6A09E667, 0xBB67AE85, 0x3C6EF372, 0xA54FF53A, 0x510E527F, 0x9B05688C, 0x1F83D9AB, 0x5BE0CD19⟩

/-- The message with its padding. -/
def shaPad (m : List Byte) : List Byte :=
  m ++ 0x80#8 :: List.replicate ((119 - m.length % 64) % 64) 0 ++ beBytes 8 (8 * m.length)

/-- The next word of the schedule, from the words so far, newest first. -/
def shaWord (w : List Nat) : Nat :=
  let x := w.getD 14 0
  let y := w.getD 1 0
  (w.getD 15 0 + (rotr32 7 x ^^^ rotr32 18 x ^^^ x >>> 3) + w.getD 6 0 + (rotr32 17 y ^^^ rotr32 19 y ^^^ y >>> 10)) % 4294967296

/-- The 64 words of a block. -/
def shaSchedule (block : List Byte) : List Nat :=
  ((List.range 48).foldl (fun w _ => shaWord w :: w) ((List.range 16).map (fun i => fieldAt block (4 * i) 4)).reverse).reverse

def shaRound (s : Sha) (kw : Nat × Nat) : Sha :=
  let ch := (s.e &&& s.f) ^^^ ((4294967295 ^^^ s.e) &&& s.g)
  let maj := (s.a &&& s.b) ^^^ (s.a &&& s.c) ^^^ (s.b &&& s.c)
  let t := s.h + (rotr32 6 s.e ^^^ rotr32 11 s.e ^^^ rotr32 25 s.e) + ch + kw.1 + kw.2
  let u := (rotr32 2 s.a ^^^ rotr32 13 s.a ^^^ rotr32 22 s.a) + maj
  ⟨(t + u) % 4294967296, s.a, s.b, s.c, (s.d + t) % 4294967296, s.e, s.f, s.g⟩

def shaBlock (s : Sha) (block : List Byte) : Sha :=
  let r := (shaK.zip (shaSchedule block)).foldl shaRound s
  let add (x y : Nat) : Nat := (x + y) % 4294967296
  ⟨add s.a r.a, add s.b r.b, add s.c r.c, add s.d r.d, add s.e r.e, add s.f r.f, add s.g r.g, add s.h r.h⟩

/-- The first `n` blocks of `k` bytes. -/
def blocksOf (k : Nat) : Nat → List Byte → List (List Byte)
  | 0, _ => []
  | n + 1, l => l.take k :: blocksOf k n (l.drop k)

/-- SHA-256 of a message. -/
def sha256 (m : List Byte) : List Byte :=
  let p := shaPad m
  let s := (blocksOf 64 (p.length / 64) p).foldl shaBlock shaStart
  [s.a, s.b, s.c, s.d, s.e, s.f, s.g, s.h].flatMap (beBytes 4)

/-- HMAC-SHA-256 of a key and a message. -/
def hmac (key m : List Byte) : List Byte :=
  let k := if 64 < key.length then sha256 key else key
  let k := k ++ List.replicate (64 - k.length) 0
  sha256 (k.map (· ^^^ 0x5C#8) ++ sha256 (k.map (· ^^^ 0x36#8) ++ m))

/-! ### AES (FIPS 197) -/

/-- A substitution table: 16 rows of 16 bytes. -/
def aesTable (rows : List Nat) (b : Byte) : Byte :=
  BitVec.ofNat 8 (rows.getD (b.toNat / 16) 0 >>> (8 * (15 - b.toNat % 16)))

def aesSub : Byte → Byte := aesTable
  [0x637C777BF26B6FC53001672BFED7AB76, 0xCA82C97DFA5947F0ADD4A2AF9CA472C0,
   0xB7FD9326363FF7CC34A5E5F171D83115, 0x04C723C31896059A071280E2EB27B275,
   0x09832C1A1B6E5AA0523BD6B329E32F84, 0x53D100ED20FCB15B6ACBBE394A4C58CF,
   0xD0EFAAFB434D338545F9027F503C9FA8, 0x51A3408F929D38F5BCB6DA2110FFF3D2,
   0xCD0C13EC5F974417C4A77E3D645D1973, 0x60814FDC222A908846EEB814DE5E0BDB,
   0xE0323A0A4906245CC2D3AC629195E479, 0xE7C8376D8DD54EA96C56F4EA657AAE08,
   0xBA78252E1CA6B4C6E8DD741F4BBD8B8A, 0x703EB5664803F60E613557B986C11D9E,
   0xE1F8981169D98E949B1E87E9CE5528DF, 0x8CA1890DBFE6426841992D0FB054BB16]
def aesInvSub : Byte → Byte := aesTable
  [0x52096AD53036A538BF40A39E81F3D7FB, 0x7CE339829B2FFF87348E4344C4DEE9CB,
   0x547B9432A6C2233DEE4C950B42FAC34E, 0x082EA16628D924B2765BA2496D8BD125,
   0x72F8F66486689816D4A45CCC5D65B692, 0x6C704850FDEDB9DA5E154657A78D9D84,
   0x90D8AB008CBCD30AF7E45805B8B34506, 0xD02C1E8FCA3F0F02C1AFBD0301138A6B,
   0x3A9111414F67DCEA97F2CFCEF0B4E673, 0x96AC7422E7AD3585E2F937E81C75DF6E,
   0x47F11A711D29C5896FB7620EAA18BE1B, 0xFC563E4BC6D279209ADBC0FE78CD5AF4,
   0x1FDDA8338807C731B11210592780EC5F, 0x60517FA919B54A0D2DE57A9F93C99CEF,
   0xA0E03B4DAE2AF5B0C8EBBB3C83539961, 0x172B047EBA77D626E169146355210C7D]

/-- Multiplication by x in the field of AES. -/
def xtime (b : Byte) : Byte := if b.getLsbD 7 then (b <<< 1) ^^^ 0x1B#8 else b <<< 1

/-- Multiplication by a constant below 16. -/
def gfMul (n : Nat) (b : Byte) : Byte :=
  (if bitAt n 0 then b else 0) ^^^ (if bitAt n 1 then xtime b else 0) ^^^ (if bitAt n 2 then xtime (xtime b) else 0) ^^^
    (if bitAt n 3 then xtime (xtime (xtime b)) else 0)

def xorBytes (a b : List Byte) : List Byte := List.zipWith (· ^^^ ·) a b

/-- The next word of the key schedule of a key of nk words, from the words so far, newest first. -/
def aesKeyWord (nk : Nat) (w : List (List Byte)) : List Byte :=
  let i := w.length
  let t := w.getD 0 []
  let t := if i % nk = 0 then
      xorBytes ((t.drop 1 ++ t.take 1).map aesSub) [([1, 2, 4, 8, 16, 32, 64, 128, 0x1B, 0x36] : List Byte).getD (i / nk - 1) 0, 0, 0, 0]
    else if 6 < nk ∧ i % nk = 4 then t.map aesSub else t
  xorBytes (w.getD (nk - 1) []) t

/-- The round keys of a key of 16 or 32 bytes. -/
def aesKeys (key : List Byte) : List (List Byte) :=
  let nk := if key.length ≤ 16 then 4 else 8
  let k := key.take (4 * nk) ++ List.replicate (4 * nk - key.length) 0
  let w := (List.range (4 * (nk + 7) - nk)).foldl (fun w _ => aesKeyWord nk w :: w) (blocksOf 4 nk k).reverse
  (List.range (nk + 7)).map (fun r => (List.range 4).flatMap (fun c => w.reverse.getD (4 * r + c) []))

/-- Row r of the state moves by `d` times r columns. -/
def shiftRows (d : Nat) (s : List Byte) : List Byte := (List.range 16).map (fun i => s.getD ((i + 4 * d * (i % 4)) % 16) 0)

/-- Each column times a circulant. -/
def mixColumns (m : List Nat) (s : List Byte) : List Byte :=
  (List.range 16).map (fun i => (List.range 4).foldl (fun a j => a ^^^ gfMul (m.getD ((j + 4 - i % 4) % 4) 0) (s.getD (i / 4 * 4 + j) 0)) 0)

def aesLast (k s : List Byte) : List Byte := xorBytes (shiftRows 1 (s.map aesSub)) k
def aesRound (s k : List Byte) : List Byte := xorBytes (mixColumns [2, 3, 1, 1] (shiftRows 1 (s.map aesSub))) k

/-- One block under a key. -/
def aesEncrypt (key block : List Byte) : List Byte :=
  let ks := aesKeys key
  let inner := (ks.drop 1).take (ks.length - 2)
  aesLast (ks.getLastD []) (inner.foldl aesRound (xorBytes block (ks.headD [])))

def aesInvRound (s k : List Byte) : List Byte := mixColumns [14, 11, 13, 9] (xorBytes ((shiftRows 3 s).map aesInvSub) k)

def aesDecrypt (key block : List Byte) : List Byte :=
  let ks := (aesKeys key).reverse
  let inner := (ks.drop 1).take (ks.length - 2)
  xorBytes ((shiftRows 3 (inner.foldl aesInvRound (xorBytes block (ks.headD [])))).map aesInvSub) (ks.getLastD [])

/-! ### CMAC (RFC 4493), GMAC (SP 800-38D) and key unwrap (RFC 3394) -/

/-- A CMAC subkey from the one before. -/
def cmacDouble (b : List Byte) : List Byte :=
  let v := beNat b
  beBytes 16 ((2 * v % 2 ^ 128) ^^^ (if 2 ^ 127 ≤ v then 0x87 else 0))

/-- AES-128 CMAC of a key and a message. -/
def cmac (key m : List Byte) : List Byte :=
  let k1 := cmacDouble (aesEncrypt key (List.replicate 16 0))
  let n := max 1 ((m.length + 15) / 16)
  let last := m.drop (16 * (n - 1))
  let mn := if last.length = 16 then xorBytes last k1
    else xorBytes (last ++ 0x80#8 :: List.replicate (15 - last.length) 0) (cmacDouble k1)
  aesEncrypt key (xorBytes mn ((blocksOf 16 (n - 1) m).foldl (fun x b => aesEncrypt key (xorBytes x b)) (List.replicate 16 0)))

/-- The product of two blocks in GHASH. -/
def ghashMul (x y : Nat) : Nat :=
  ((List.range 128).foldl (fun (zv : Nat × Nat) i =>
    (if bitAt x (127 - i) then zv.1 ^^^ zv.2 else zv.1,
     if zv.2 % 2 = 1 then zv.2 / 2 ^^^ (0xE1 <<< 120) else zv.2 / 2)) (0, y)).1

/-- The AES-128 GCM tag of a key, a 12-byte IV and the authenticated data, with no plaintext. -/
def gmac (key iv aad : List Byte) : List Byte :=
  let h := beNat (aesEncrypt key (List.replicate 16 0))
  let n := (aad.length + 15) / 16
  let padded := aad ++ List.replicate (16 * n - aad.length) 0
  let y := (blocksOf 16 n padded).foldl (fun a b => ghashMul (a ^^^ beNat b) h) 0
  let y := ghashMul (y ^^^ (8 * aad.length) <<< 64) h
  xorBytes (beBytes 16 y) (aesEncrypt key (iv ++ [0, 0, 0, 1]))

/-- One step of the unwrap: register and blocks at t = n × j + i. -/
def unwrapStep (kek : List Byte) (n : Nat) (x : List Byte × List (List Byte)) (t : Nat) : List Byte × List (List Byte) :=
  let i := (t - 1) % n
  let b := aesDecrypt kek (xorBytes x.1 (beBytes 8 t) ++ x.2.getD i [])
  (b.take 8, x.2.set i (b.drop 8))

/-- The key of a wrapped key under a KEK; none where the initial value does not come out. -/
def keyUnwrap (kek wrapped : List Byte) : Option (List Byte) :=
  let n := wrapped.length / 8 - 1
  let r := ((List.range (6 * n)).map (fun i => 6 * n - i)).foldl (unwrapStep kek n) (wrapped.take 8, blocksOf 8 n (wrapped.drop 8))
  if r.1 = List.replicate 8 0xA6#8 then some r.2.flatten else none

/-! ### P-256 (FIPS 186-4) -/

def p256P : Nat := 0xFFFFFFFF00000001000000000000000000000000FFFFFFFFFFFFFFFFFFFFFFFF
def p256B : Nat := 0x5AC635D8AA3A93E7B3EBBD55769886BC651D06B0CC53B0F63BCE3C3E27D2604B
def p256Order : Nat := 0xFFFFFFFF00000000FFFFFFFFFFFFFFFFBCE6FAADA7179E84F3B9CAC2FC632551

/-- A point by its Jacobian coordinates; z is 0 at infinity. -/
structure EcPoint where
  x : Nat
  y : Nat
  z : Nat
  deriving DecidableEq, Repr

def p256G : EcPoint :=
  ⟨0x6B17D1F2E12C4247F8BCE6E563A440F277037D812DEB33A0F4A13945D898C296, 0x4FE342E2FE1A7F9B8EE7EB4A7C0F9E162BCE33576B315ECECBB6406837BF51F5, 1⟩

/-- b to the power e modulo m, for e below 2^256. -/
def powMod (m b e : Nat) : Nat :=
  (List.range 256).foldl (fun a i => let q := a * a % m; if bitAt e (255 - i) then q * b % m else q) 1

def subMod (a b : Nat) : Nat := (a + (p256P - b % p256P)) % p256P

def ecDouble (p : EcPoint) : EcPoint :=
  if p.z = 0 ∨ p.y = 0 then ⟨1, 1, 0⟩
  else
    let yy := p.y * p.y % p256P
    let s := 4 * p.x * yy % p256P
    let zz := p.z * p.z % p256P
    let m := 3 * subMod p.x zz * ((p.x + zz) % p256P) % p256P
    let x := subMod (m * m) (2 * s)
    ⟨x, subMod (m * subMod s x) (8 * (yy * yy)), 2 * p.y * p.z % p256P⟩

def ecAdd (p q : EcPoint) : EcPoint :=
  if p.z = 0 then q
  else if q.z = 0 then p
  else
    let pz := p.z * p.z % p256P
    let qz := q.z * q.z % p256P
    let u1 := p.x * qz % p256P
    let u2 := q.x * pz % p256P
    let s1 := p.y * q.z * qz % p256P
    let s2 := q.y * p.z * pz % p256P
    if u1 = u2 then (if s1 = s2 then ecDouble p else ⟨1, 1, 0⟩)
    else
      let h := subMod u2 u1
      let r := subMod s2 s1
      let hh := h * h % p256P
      let hhh := h * hh % p256P
      let v := u1 * hh % p256P
      let x := subMod (r * r) (hhh + 2 * v)
      ⟨x, subMod (r * subMod v x) (s1 * hhh), h * p.z * q.z % p256P⟩

/-- k times a point, for k below 2^256. -/
def ecMul (k : Nat) (p : EcPoint) : EcPoint :=
  (List.range 256).foldl (fun a i => let d := ecDouble a; if bitAt k (255 - i) then ecAdd d p else d) ⟨1, 1, 0⟩

/-- The affine x coordinate. -/
def ecX (p : EcPoint) : Nat := let i := powMod p256P p.z (p256P - 2); p.x * (i * i % p256P) % p256P

/-- A point of 65 bytes, uncompressed. -/
def ecPoint (q : List Byte) : EcPoint := ⟨fieldAt q 1 32, fieldAt q 33 32, 1⟩

/-- The full public-key validation of SP 800-56A; the cofactor is 1, so that every point of the curve has the group's order. -/
def ecPointOk (q : List Byte) : Bool :=
  let p := ecPoint q
  q.length == 65 && byteAt q 0 == 4 && decide (p.x < p256P) && decide (p.y < p256P) &&
    p.y * p.y % p256P == (p.x * p.x * p.x + (p256P - 3) * p.x + p256B) % p256P

/-- The ECC CDH primitive: the x coordinate of a scalar times a public point. -/
def ecdh (d q : List Byte) : List Byte := beBytes 32 (ecX (ecMul (beNat d) (ecPoint q)))

/-- ECDSA verification of a public key, a SHA-256 digest and a signature r ‖ s. -/
def ecdsaVerify (q digest sig : List Byte) : Bool :=
  let r := fieldAt sig 0 32
  let s := fieldAt sig 32 32
  let w := powMod p256Order s (p256Order - 2)
  let x := ecAdd (ecMul (beNat digest * w % p256Order) p256G) (ecMul (r * w % p256Order) (ecPoint q))
  decide (0 < r) && decide (r < p256Order) && decide (0 < s) && decide (s < p256Order) && x.z != 0 && ecX x % p256Order == r

/-- ECDSA signature r ‖ s under a scalar, of a SHA-256 digest, with the per-signature secret (n mod (q - 1)) + 1 of a nonce n. -/
def ecdsaSign (d digest nonce : List Byte) : List Byte :=
  let k := beNat nonce % (p256Order - 1) + 1
  let r := ecX (ecMul k p256G) % p256Order
  beBytes 32 r ++ beBytes 32 (powMod p256Order k (p256Order - 2) * (beNat digest + r * beNat d) % p256Order)

end Sys2Proof.Machine
end

