-- ==== Sys2Proof/Machine/Reals.lean ====
section
/-!
DEFINITION. The real functions of the spec's formulas, to within 2^-80 of their exact values (log 9), by fixed-point numbers
with 128 fraction bits. Cosine is exact at every rational number of turns at which it is rational; powers are exact at whole
exponents.
-/
namespace Sys2Proof.Machine
open Sys2Proof

def fxOne : Int := 2 ^ 128
/-- 2π, ln 2 and 1 ÷ ln 2 in units of 2^-128. -/
def fxTwoPi : Int := 2138057168129933495719360746323741566601
def fxLn2 : Int := 235865763225513294137944142764154484399
def fxLog2e : Int := 490923683258796565746369346286093237521

def toFx (x : Rat) : Int := (x * (2 ^ 128 : Nat)).floor
def ofFx (i : Int) : Rat := (i : Rat) / (2 ^ 128 : Nat)
def fxMul (a b : Int) : Int := a * b / fxOne

/-- e to a fixed-point power between 0 and 1: the first 40 terms of the series. -/
def fxExp (t : Int) : Int :=
  ((List.range 40).foldl (fun (x : Int × Int) i => (x.1 + x.2, fxMul x.2 t / ((i : Int) + 1))) (0, fxOne)).1

/-- 2 to a power. -/
def exp2 (x : Rat) : Rat :=
  let n := x.floor
  let f := ofFx (fxExp (fxMul (toFx (x - n)) fxLn2))
  if n < 0 then f / (2 ^ (-n).toNat : Nat) else f * (2 ^ n.toNat : Nat)

/-- e to a power. -/
def expE (x : Rat) : Rat := exp2 (x * ofFx fxLog2e)

/-- 110 bits of the base-2 logarithm of a fixed-point number from 1 to 2, by squaring. -/
def fxLogBits (m : Int) : Int :=
  ((List.range 110).foldl (fun (x : Int × Int) i =>
    let q := fxMul x.1 x.1
    if 2 * fxOne ≤ q then (q / 2, x.2 + 2 ^ (127 - i)) else (q, x.2)) (m, 0)).2

/-- The base-2 logarithm of a positive number. -/
def log2R (x : Rat) : Rat :=
  let e : Int := (x.num.toNat.log2 : Int) - (x.den.log2 : Int)
  let m := if e < 0 then x * (2 ^ (-e).toNat : Nat) else x / (2 ^ e.toNat : Nat)
  let e := if m < 1 then e - 1 else e
  let m := if m < 1 then 2 * m else m
  (e : Rat) + ofFx (fxLogBits (toFx m))

/-- A number that is not negative to a power; 0 to a positive power is 0. -/
def powR (x e : Rat) : Rat :=
  if x ≤ 0 then (if e = 0 then 1 else 0)
  else if e.den = 1 then (if e < 0 then 1 / x ^ (-e.num).toNat else x ^ e.num.toNat)
  else exp2 (e * log2R x)

/-- The cosine of a fixed-point angle from 0 to a quarter turn: the first 24 terms of the series. -/
def fxCos (t : Int) : Int :=
  let tt := fxMul t t
  ((List.range 24).foldl (fun (x : Int × Int) i =>
    (x.1 + x.2, -(fxMul x.2 tt) / (((2 * i + 1) * (2 * i + 2) : Nat) : Int))) (0, fxOne)).1

/-- Between 0 and a quarter turn. -/
def cosQuarter (r : Rat) : Rat :=
  if r = 0 then 1 else if r = 1 / 6 then 1 / 2 else if r = 1 / 4 then 0 else ofFx (fxCos (fxMul (toFx r) fxTwoPi))

/-- The cosine of a number of turns (1 is a whole turn). -/
def cosTurn (x : Rat) : Rat :=
  let r := x - x.floor
  let r := if 1 / 2 < r then 1 - r else r
  if 1 / 4 < r then -cosQuarter (1 / 2 - r) else cosQuarter r

/-- sin(πx) ÷ (πx) at a number other than 0. -/
def sincPi (y : Rat) : Rat := cosTurn (y / 2 - 1 / 4) / (ofFx fxTwoPi / 2 * y)

end Sys2Proof.Machine
end

