-- ==== Sys2Proof/Machine/Operands.lean ====
section
/-!
DEFINITION. What the strap codes in use mean (03 Tables 3.4 to 3.10), and how a reading decides a code (03 R86 to R91).
-/
namespace Sys2Proof.Machine
open Sys2Proof

/-! ### Pin indexes (03 R93, 02 Table 2.4) -/

def pinRole : Nat := 0
def pinWall0 : Nat := 1
def pinWall1 : Nat := 2
def pinPosX : Nat := 3
def pinPosY : Nat := 4
def pinDrv : Nat := 5
def pinChain : Nat := 6
def pinScan : Nat := 7
def pinTileW : Nat := 8
def pinTileH : Nat := 9
def pinMap : Nat := 10
def pinRefresh : Nat := 11
def pinGrey : Nat := 12
def pinBright : Nat := 13
def pinNight : Nat := 14
def pinAmb : Nat := 15
def pinIscale : Nat := 16
def pinWear : Nat := 17
def pinPeak : Nat := 18
def pinMklay0 : Nat := 19
def pinMklay1 : Nat := 20
def pinMkreg : Nat := 21
def pinMkcur : Nat := 22
def pinMkfall : Nat := 23
def pinNetmode : Nat := 24
def pinPtpdom : Nat := 25
def pinPtpprof : Nat := 26
def pinMcbase0 : Nat := 27
def pinMcbase1 : Nat := 28
def pinIpmode : Nat := 29
def pinLatency : Nat := 30
def pinModclass : Nat := 31
def pinScene : Nat := 32
def pinLaytab : Nat := 33
def pinLayofs : Nat := 34
def pinFrc : Nat := 35
def pinColour : Nat := 36
def pinFallback : Nat := 37
def pinAuth : Nat := 38
def pinTdmfmt : Nat := 39
def pinTdmofs : Nat := 40
def pinAudrate : Nat := 41
def pinAudsrc : Nat := 42
def pinAudramp : Nat := 43
def pinBobrate : Nat := 44
def pinBeacon : Nat := 45
def pinSweep : Nat := 46
def pinPower : Nat := 47

/-- A live strap pin (03 R103). -/
def isLivePin (p : Nat) : Bool := p == pinScene || p == pinBright

/-- The codes listed for a pin's field; any other code is reserved (03 R114). The pins of two-pin fields take part in
their field's list (03 R97). -/
def listed (p c : Nat) : Bool :=
  c == 15 ||
  (if p == pinRole then c ≤ 2
   else if p == pinDrv then c ≤ 3
   else if p == pinChain then c ≤ 12
   else if p == pinScan then c ≤ 5
   else if p == pinMap then c ≤ 7
   else if p == pinRefresh then c ≤ 11
   else if p == pinGrey then c ≤ 5
   else if p == pinAmb then c ≤ 4
   else if p == pinWear then c ≤ 3
   else if p == pinPeak then c ≤ 13
   else if p == pinMklay1 then c ≤ 11
   else if p == pinMkreg then c ≤ 12
   else if p == pinMkfall then c ≤ 2
   else if p == pinNetmode then c ≤ 3
   else if p == pinPtpprof then c ≤ 2
   else if p == pinIpmode then c == 1
   else if p == pinLatency then c ≤ 7
   else if p == pinModclass then c ≤ 4
   else if p == pinFrc then c ≤ 1
   else if p == pinColour then c ≤ 3 || (8 ≤ c && c ≤ 11)
   else if p == pinFallback then c ≤ 2
   else if p == pinAuth then c ≤ 2
   else if p == pinTdmfmt then c ≤ 13
   else if p == pinAudrate then c ≤ 2
   else if p == pinAudsrc then c ≤ 10
   else if p == pinAudramp then c ≤ 2
   else if p == pinBobrate then c ≤ 4
   else if p == pinBeacon then c ≤ 5
   else if p == pinSweep then c ≤ 4
   else if p == pinPower then c ≤ 3
   else true)

/-! ### Readings (03 R87, R90, R91), in microvolts -/

/-- The mean of the conversions of a reading. -/
def readingMean (r : Reading) : Nat := if r.conv.length = 0 then 0 else sumNat r.conv / r.conv.length

/-- Eight times the mean, exact: the sum of the conversions (R90). -/
def readingSum (r : Reading) : Nat := sumNat r.conv

def readingSpan (r : Reading) : Nat :=
  match r.conv with
  | [] => 0
  | x :: xs => xs.foldl max x - xs.foldl min x

/-- Distance of a reading, times 8, from the target of code `c` (80 mV apart). -/
def distance8 (r : Reading) (c : Nat) : Nat :=
  let t := c * 80000 * 8
  if readingSum r ≤ t then t - readingSum r else readingSum r - t

/-- The code of nearest target; the lower code on a tie (R106). -/
def nearestCode (r : Reading) : Code :=
  (List.finRange 16).foldl (fun best c => if distance8 r c.val < distance8 r best.val then c else best) 0

/-- What a reading decides (R91): firm within 30 mV of a target, with conversions that span at most 16 mV. -/
def decideReading (r : Reading) : Decided :=
  let c := nearestCode r
  if readingSum r > 1240000 * 8 || readingSpan r > 16000 || distance8 r c.val > 30000 * 8 then .marginal
  else .firm c

/-- The strap reference lies within 1.150 V to 1.250 V (03 Table 3.13), in microvolts. -/
def refInRange (uv : Nat) : Bool := 1150000 ≤ uv && uv ≤ 1250000

/-! ### Fields in use -/

/-- The code in use of a pin (03 R99). -/
def code (s : State) (p : Nat) : Nat := (s.straps.inUse.getD p 15).val

def wallId (s : State) : Nat := (16 * code s pinWall1 + code s pinWall0 + 1) % 256
def mcBase (s : State) : Nat := (16 * code s pinMcbase1 + code s pinMcbase0 + 1) % 256
def roleCode (s : State) : Nat := code s pinRole
def standalone (s : State) : Bool := roleCode s == 0
/-- Eligible as lead (09 R447). -/
def eligible (s : State) : Bool := roleCode s == 1 || roleCode s == 15
/-- Both `s:POSX` and `s:POSY` are fixed (09 R437). -/
def fixedPos (s : State) : Bool := code s pinPosX != 15 && code s pinPosY != 15

def refreshND (s : State) : Nat × Nat := beatRate (code s pinRefresh)
def beatF (s : State) (k : Nat) : Int := beatTime (refreshND s) k
/-- Refreshes per frame of `s:GREY` (03 Table 3.4). -/
def greyM (c : Nat) : Nat :=
  match c with | 0 => 8 | 1 => 16 | 2 => 32 | 3 => 64 | 4 => 96 | 5 => 128 | _ => 64
def latencyFrames (s : State) : Nat := if code s pinLatency = 15 then 3 else code s pinLatency + 1

def scanOf (c : Nat) : Nat :=
  match c with | 0 => 1 | 1 => 2 | 2 => 4 | 3 => 8 | 4 => 16 | 5 => 32 | _ => 16
def chainOf (c : Nat) : Option Nat :=
  [1, 2, 4, 8, 12, 16, 20, 24, 32, 40, 48, 56, 64][c]?
def tileOf (c : Nat) : Option Nat := if c = 15 then none else some (64 * (c + 1))
/-- Driver classes (03 Table 3.4, 13 Table 13.1). -/
inductive DrvClass | s16 | g16 | g48 | c48
  deriving DecidableEq, Repr
def drvClass (s : State) : DrvClass :=
  match code s pinDrv with | 0 => .s16 | 1 => .g16 | 2 => .g48 | 3 => .c48 | _ => .g16
def isClassS (s : State) : Bool := decide (drvClass s = .s16)
/-- Channels per driver and drivers per unit (13 Table 13.2). -/
def drvChannels (c : DrvClass) : Nat := match c with | .s16 => 16 | .g16 => 16 | .g48 => 48 | .c48 => 48
def drvPerUnit (c : DrvClass) : Nat := match c with | .s16 => 3 | .g16 => 3 | .g48 => 1 | .c48 => 1
/-- Ports named by `s:PORTMAP` and whether the bands are columns (03 Table 3.4). -/
def portMap (s : State) : Option Nat × Bool :=
  match code s pinMap with
  | 0 => (some 8, false) | 1 => (some 16, false) | 2 => (some 32, false) | 3 => (some 64, false)
  | 4 => (some 8, true) | 5 => (some 16, true) | 6 => (some 32, true) | 7 => (some 64, true)
  | _ => (none, false)

def iscale (s : State) : Nat := if code s pinIscale = 15 then 16 else code s pinIscale + 1
/-- W of `s:WEAR` in percent (03 Table 3.5). -/
def wearPct (s : State) : Nat :=
  match code s pinWear with | 0 => 0 | 1 => 5 | 2 => 10 | 3 => 20 | _ => 10
def peakLum (s : State) : Nat :=
  [200, 300, 400, 600, 800, 1000, 1500, 2000, 3000, 4000, 5000, 6000, 8000, 10000].getD (code s pinPeak) 1000
/-- 2^((code - 14)/2) of full in units of 2^-16: exact for even codes, the rounded value for odd ones (03 Table 3.5). -/
def brightUnits (c : Nat) : Nat :=
  [512, 724, 1024, 1448, 2048, 2896, 4096, 5793, 8192, 11585, 16384, 23170, 32768, 46341, 65536].getD c 65536
def nightUnits (s : State) : Nat := if code s pinNight = 15 then 4096 else brightUnits (code s pinNight)
def ambFull (c : Nat) : Nat :=
  match c with | 0 => 300 | 1 => 1000 | 2 => 5000 | 3 => 20000 | 4 => 60000 | _ => 1000

/-- Formed marker groups G and channels C (14 R687, 03 Table 3.11). -/
def mkLayout (s : State) : Nat × Nat :=
  if code s pinMklay1 = 15 then (0, 0)
  else
    let g := code s pinMklay1 + 1
    let c := if code s pinMklay0 = 15 then 48 / g else code s pinMklay0 + 1
    (min g (48 / c), c)
def mkGroups (s : State) : Nat := (mkLayout s).1
def mkChannels (s : State) : Nat := (mkLayout s).2
/-- Regulated groups (14 R688). -/
def mkRegulated (s : State) : Nat :=
  match code s pinMkreg with
  | 15 => 0
  | 0 => mkGroups s
  | c => min c (mkGroups s)
/-- I_fs in mA (03 Table 3.6). -/
def mkFullMa (s : State) : Nat := if code s pinMkcur = 15 then 20 else 4 * (code s pinMkcur + 1)

def ptpDomain (s : State) : Nat :=
  if code s pinPtpdom = 15 then (if code s pinPtpprof = 0 || code s pinPtpprof = 1 then 0 else 127)
  else code s pinPtpdom

/-- Frame-rate of `s:AUDRATE` in Hz, `s:AUDRAMP` in samples (03 Table 3.9). -/
def audRate (s : State) : Nat :=
  match code s pinAudrate with | 0 => 44100 | 2 => 96000 | _ => 48000
def audRamp (s : State) : Nat :=
  match code s pinAudramp with | 0 => 256 | 2 => 4096 | _ => 1024
/-- Slots, slot width and sample width of `s:TDMFMT` (15 Table 15.1). -/
def tdmFmt (c : Nat) : Nat × Nat × Nat :=
  match c with
  | 0 => (2, 32, 24) | 1 => (4, 32, 24) | 2 => (8, 32, 24) | 3 => (16, 32, 24) | 4 => (32, 32, 24)
  | 5 => (2, 16, 16) | 6 => (4, 16, 16) | 7 => (8, 16, 16) | 8 => (16, 16, 16) | 9 => (32, 16, 16)
  | 10 => (2, 24, 24) | 11 => (4, 24, 24) | 12 => (8, 24, 24) | 13 => (16, 24, 24)
  | _ => (8, 32, 24)
def tdmSlots (s : State) : Nat := (tdmFmt (code s pinTdmfmt)).1
/-- Data offset and status slot of `s:TDMOFS`. -/
def tdmOfs (c : Nat) : Nat × Bool :=
  if c ≤ 7 then (c, false) else if c ≤ 14 then (c - 8, true) else (1, false)
def tdmStatus (s : State) : Bool := (tdmOfs (code s pinTdmofs)).2

/-- Bobbin running rate in Bd (03 Table 3.10). -/
def bobRate (s : State) : Nat :=
  match code s pinBobrate with | 0 => 250000 | 1 => 500000 | 3 => 2000000 | 4 => 3000000 | _ => 1000000
def beaconRate (s : State) : Nat :=
  match code s pinBeacon with
  | 0 => 0 | 2 => 19200 | 3 => 38400 | 4 => 57600 | 5 => 115200 | _ => 9600

/-- Sweep profile of a code of `s:SWEEP` (03 Table 3.10). -/
def sweepOf (c : Nat) : Profile :=
  match c with | 0 => .off | 1 => .tri025 | 2 => .tri05 | 3 => .tri1 | 4 => .rounded05 | _ => .tri05

def powerCode (s : State) : Nat := if code s pinPower = 15 then 2 else code s pinPower

/-- Divider I and F of a running channel (16 Table 16.1), in system clocks. -/
def bobDivider (rate : Nat) : Nat × Nat :=
  match rate with
  | 250000 => (250, 0) | 500000 => (125, 0) | 1000000 => (62, 128) | 2000000 => (31, 64) | 3000000 => (20, 213)
  | 9600 => (6510, 107) | 19200 => (3255, 53) | 38400 => (1627, 155) | 57600 => (1085, 18) | _ => (542, 137)

end Sys2Proof.Machine
end

