-- ==== Sys2Proof/Machine/Fuses.lean ====
section
/-!
DEFINITION. One-time fuses: the layout of the OTP, the states of slots, the lifecycle phase, what a bring-up completes
(17 R815 to R836), and the derivation of the keys (17 R837 to R842).
-/
namespace Sys2Proof.Machine
open Sys2Proof

/-! ### Layout (17 Table 17.2, Table 17.3) -/

def slotBase (s : Nat) : Nat := 1408 + 640 * s
def recIntent (r : Nat) : Nat := 1344 + 2 * r
def recState (r : Nat) : Nat := 1345 + 2 * r

/-- Inserts a fuse number into a rising list. -/
def insFuse (x : Nat) : List Nat → List Nat
  | [] => [x]
  | y :: ys => if x < y then x :: y :: ys else if x = y then y :: ys else y :: insFuse x ys

/-- Programs both fuses of a pair (R833). -/
def programPair (fuses : List Nat) (p : Nat) : List Nat := insFuse (2 * p + 1) (insFuse (2 * p) fuses)
def programPairs (fuses : List Nat) (ps : List Nat) : List Nat := ps.foldl programPair fuses

/-- A pair that reads a full 1. -/
def pairFull (fuses : List Nat) (p : Nat) : Bool := decide (pairRead fuses p = .one)

/-! ### Slots (R822 to R827) -/

inductive SlotState | empty | pending | active | void
  deriving DecidableEq, Repr

/-- Some pair of the slot does not read 0. -/
def slotUsed (fuses : List Nat) (s : Nat) : Bool :=
  fuses.any (fun f => 2 * slotBase s ≤ f && f < 2 * slotBase (s + 1))

/-- R822. -/
def slotState (fuses : List Nat) (s : Nat) : SlotState :=
  if !slotUsed fuses s then .empty
  else if pairBit fuses (slotBase s + 2) then .void
  else if pairBit fuses (slotBase s + 1) then .active
  else .pending

def slotsIn (fuses : List Nat) (st : SlotState) : List Nat :=
  (List.range 16).filter (fun s => decide (slotState fuses s = st))

def emptySlots (fuses : List Nat) : Nat := (slotsIn fuses .empty).length

/-- The slot of the active site root: the ACTIVE slot of highest index (R827). -/
def activeSlot (fuses : List Nat) : Option Nat := (slotsIn fuses .active).getLast?

/-- The pairs of a destruction in order: VOID first, then every other pair in ascending offset (R825). -/
def destroyPairs (s : Nat) : List Nat :=
  (slotBase s + 2) :: ((List.range 640).filter (fun o => o != 2)).map (fun o => slotBase s + o)

/-- A field of `n` bytes from pair `q`, most significant byte first. -/
def fuseBytes (fuses : List Nat) (q n : Nat) : List Byte := beBytes n (pairField fuses q (8 * n))

def slotEpoch (fuses : List Nat) (s : Nat) : Nat := pairField fuses (slotBase s + 4) 4
def slotCheck (fuses : List Nat) (s : Nat) : Nat := pairField fuses (slotBase s + 8) 32
def slotRoot (fuses : List Nat) (s : Nat) : List Byte := fuseBytes fuses (slotBase s + 40) 32
def slotAuthority (fuses : List Nat) (s : Nat) : List Byte := fuseBytes fuses (slotBase s + 296) 32
def deviceRoot (fuses : List Nat) : List Byte := fuseBytes fuses 64 32
def deviceCertificate (fuses : List Nat) : List Byte := fuseBytes fuses 320 128
def deviceRootPairs : List Nat := (List.range 256).map (fun i => 64 + i)

/-- Check value of a site root: the leftmost 32 bits of its SHA-256 (R823). -/
def checkValue (root : List Byte) : Nat := beNat ((sha256 root).take 4)

/-- The offsets that read 1 when a field of `m` pairs at `o` holds `v`. -/
def onesAt (o m v : Nat) : List Nat := ((List.range m).filter (fun i => bitAt v i)).map (fun i => o + i)

/-- The offsets a staging programs, in order (R824). -/
def stagingImage (epoch check : Nat) (root hash : List Byte) : List Nat :=
  0 :: (onesAt 4 4 epoch ++ onesAt 8 32 check ++ onesAt 40 256 (beNat root) ++ onesAt 296 256 (beNat hash))

/-- Every pair of a slot reads exactly the staged value (R826). -/
def stagedExact (fuses : List Nat) (s : Nat) (image : List Nat) : Bool :=
  (List.range 640).all (fun o =>
    decide (pairRead fuses (slotBase s + o) = if image.contains o then .one else .zero))

/-- A pair of the device root or of a slot's root, which reads as 0 through the crossbar (R820). -/
def rootPair (p : Nat) : Bool :=
  (decide (64 ≤ p) && decide (p < 320)) ||
  (List.range 16).any (fun n => decide (slotBase n + 40 ≤ p) && decide (p < slotBase n + 296))

/-- Byte i of the fuse shadow as the crossbar reads it: fuse k in byte k ÷ 8, bit k mod 8 (R818, R820). -/
def shadowByte (fuses : List Nat) (i : Nat) : Byte :=
  BitVec.ofNat 8 ((List.range 8).foldl (fun a k =>
    if fuses.contains (8 * i + k) && !rootPair ((8 * i + k) / 2) then a + 2 ^ k else a) 0)

/-! ### Phase (R829, R836, R839) -/

/-- A record is done when its state pair reads 1. -/
def recDone (fuses : List Nat) (r : Nat) : Bool := pairBit fuses (recState r)

/-- n_t: the number of lifecycle records that are done (R839). -/
def recordsDone (fuses : List Nat) : Nat := ((List.range 19).filter (recDone fuses)).length

/-- The epochs whose COMMISSION is done, rising. -/
def epochsDone (fuses : List Nat) : List Nat :=
  ((List.range 8).map (· + 1)).filter (fun e => recDone fuses (2 * e - 1))

/-- The phase read from the records (R836). -/
def phaseOf (fuses : List Nat) : Phase :=
  if recDone fuses 18 then .retired
  else if recDone fuses 17 then .returned
  else
    match (epochsDone fuses).getLast? with
    | some e => if recDone fuses (2 * e) then .blank else .commissioned e
    | none => if recDone fuses 0 then .blank else .manufacture

/-- The epoch a COMMISSION takes (R829). -/
def nextEpoch (fuses : List Nat) : Nat :=
  match (((List.range 8).map (· + 1)).filter (fun e => pairBit fuses (recIntent (2 * e - 1)))).getLast? with
  | none => 1
  | some e => e + 1

/-- Phase coded as 18 Table 18.3, and the epoch or 0. -/
def phaseCode (p : Phase) : Nat :=
  match p with
  | .manufacture => 0 | .blank => 1 | .commissioned _ => 2 | .returned => 3 | .retired => 4

def phaseEpoch (p : Phase) : Nat := match p with | .commissioned e => e | _ => 0

/-! ### Completion at a bring-up (R834; log 19) -/

/-- The new slot of an interrupted COMMISSION: the PENDING slot of highest index, or, once its ACTIVE marker has been
programmed, the ACTIVE slot of highest index (log 19). -/
def commissionSlot (fuses : List Nat) : Option Nat :=
  match (slotsIn fuses .pending).getLast? with
  | some s => some s
  | none => activeSlot fuses

/-- The pairs of one interrupted record that do not read a full 1, in order (R834 step 1; R853 for a half intent). -/
def recordPlan (fuses : List Nat) (r : Nat) : List Nat :=
  let isCommission := r % 2 == 1 && r < 17
  let fresh := if isCommission then commissionSlot fuses else none
  let doomed := if r = 0 then [] else
    (slotsIn fuses .active ++ slotsIn fuses .pending).filter (fun s => some s != fresh)
  let doomed := sortBy (fun a b => decide (a ≤ b)) doomed
  let after := match fresh with | some s => [slotBase s + 1] | none => []
  ([recIntent r] ++ doomed.flatMap destroyPairs ++ (if r = 18 then deviceRootPairs else []) ++ after ++ [recState r]).filter
    (fun p => !pairFull fuses p)

/-- What a bring-up has to complete: pairs, records and slots (R834, R835). -/
def completionPlan (fuses : List Nat) : List Nat × List Nat × List Nat :=
  let records := (List.range 19).filter (fun r => pairBit fuses (recIntent r) && !pairFull fuses (recState r))
  let step1 := records.foldl (fun (a : List Nat × List Nat) r =>
    let p := recordPlan a.1 r
    (programPairs a.1 p, a.2 ++ p)) (fuses, [])
  let f1 := step1.1
  let voids := (slotsIn f1 .void).filter (fun s => (destroyPairs s).any (fun p => !pairFull f1 p))
  let p2 := voids.flatMap (fun s => (destroyPairs s).filter (fun p => !pairFull f1 p))
  let pend := slotsIn f1 .pending
  let p3 := pend.flatMap destroyPairs
  let surplus := (slotsIn f1 .active).dropLast
  let p4 := surplus.flatMap destroyPairs
  (step1.2 ++ p2 ++ p3 ++ p4, records, voids ++ pend ++ surplus)

/-! ### Roots and keys (R816, R837 to R842) -/

def testRoot : List Byte := List.replicate 32 0xA5#8

/-- The device-tree root in force (Table 17.1, R816). -/
def deviceTreeRoot (s : State) : List Byte :=
  if s.keys.debug then testRoot
  else match s.keys.phase with
    | .blank | .commissioned _ => deviceRoot s.otp.shadow
    | _ => testRoot

/-- The site-tree root in force; none without one (Table 17.1, R816, R860). -/
def siteTreeRoot (s : State) : Option (List Byte) :=
  if s.keys.debug then some testRoot
  else match s.keys.phase with
    | .manufacture | .returned => some testRoot
    | .commissioned _ =>
      if s.keys.rootBad then none
      else (activeSlot s.otp.shadow).map (slotRoot s.otp.shadow)
    | _ => none

/-- The tile has site keys (R841). -/
def hasSiteKeys (s : State) : Bool := (siteTreeRoot s).isSome

/-- The digits of a number in decimal, as ASCII (R838). -/
def decimal (n : Nat) : List Byte :=
  let d (k : Nat) : Byte := BitVec.ofNat 8 (48 + n / k % 10)
  if n < 10 then [d 1] else if n < 100 then [d 10, d 1] else [d 100, d 10, d 1]

/-- One iteration of SP 800-108 counter mode; `bits` is L (R837). -/
def derive (parent label context : List Byte) (bits : Nat) : List Byte :=
  (hmac parent (beBytes 4 1 ++ label ++ [0] ++ context ++ beBytes 4 bits)).take (bits / 8)

/-- Labels (Table 17.5). -/
def labelSite : List Byte := [0x50, 0x57, 0x36, 0x34, 0x2F, 0x73, 0x69, 0x74, 0x65]
def labelWall (w : Nat) : List Byte := [0x77, 0x61, 0x6C, 0x6C, 0x3A] ++ decimal w
def labelWm : List Byte := [0x77, 0x6D]
def labelSlot (n : Nat) : List Byte := [0x73, 0x6C, 0x6F, 0x74, 0x3A] ++ decimal n
def labelBob : List Byte := [0x62, 0x6F, 0x62]
def labelTel : List Byte := [0x74, 0x65, 0x6C]
def labelMem : List Byte := [0x6D, 0x65, 0x6D]
def labelLdg : List Byte := [0x6C, 0x64, 0x67]
def labelId : List Byte := [0x69, 0x64]

def serialBytes (s : State) : List Byte := beBytes 8 (serialOf s).toNat
def wallKey (s : State) (root : List Byte) : List Byte :=
  derive (derive root labelSite [] 256) (labelWall (wallId s)) [] 256

/-- The engine that a key is delivered to over the key bus, by the key's attribute (R844, Table 17.6); a parent key goes to none. -/
inductive KeyEngine | shuttles | uart | statusSigner | memoryControllers | ledger | ecc
  deriving DecidableEq, Repr

def engineOfKey : KeyName → Option KeyEngine
  | .watermark _ => some .shuttles
  | .bobbin => some .uart
  | .status => some .statusSigner
  | .memory => some .memoryControllers
  | .faultLog | .wear => some .ledger
  | .identity => some .ecc
  | .wm => none

/-- The key of a name in the key store (R844). -/
def storedKey (s : State) (k : KeyName) : Option (List Byte) :=
  (s.keys.store.find? (fun x => decide (x.name = k))).map Key.bytes

/-- The key of a name in Table 17.6 under the roots in force; none where it does not exist or is withheld. A watermark key
derives from the K_wm the key store holds, so that no two site roots' keys stand at once (18 R896). -/
def keyValue (s : State) (k : KeyName) : Option (List Byte) :=
  let nt := [BitVec.ofNat 8 (recordsDone s.otp.shadow)]
  match k with
  | .memory => some (derive (deviceTreeRoot s) labelMem (serialBytes s ++ nt) 128)
  | .faultLog =>
    match siteTreeRoot s with
    | some r => some (derive (wallKey s r) labelLdg [] 128)
    | none => some (derive (deviceTreeRoot s) labelLdg (serialBytes s ++ nt) 128)
  | .wear =>
    if s.keys.debug || decide (s.keys.phase = .manufacture) || decide (s.keys.phase = .retired) then none
    else some (derive (deviceRoot s.otp.shadow) labelLdg (serialBytes s) 128)
  | .bobbin => (siteTreeRoot s).map (fun r => derive (wallKey s r) labelBob [] 128)
  | .status => (siteTreeRoot s).map (fun r => derive (wallKey s r) labelTel [] 128)
  | .wm => (siteTreeRoot s).map (fun r => derive (wallKey s r) labelWm [] 256)
  | .watermark n => (storedKey s .wm).map (fun k => derive k (labelSlot n) [] 128)
  | .identity => some (derive (deviceTreeRoot s) labelId (serialBytes s) 256)

/-- The keys of a list of names that exist, as key-store entries. -/
def deriveKeys (s : State) (names : List KeyName) : List Key :=
  names.filterMap (fun k => (keyValue s k).map (fun b => ⟨k, b⟩))

/-- Keys that stand only at times: a watermark key while its group is joined, the identity source while a card is active. -/
def heldOnly (k : KeyName) : Bool := match k with | .watermark _ | .identity => true | _ => false

/-- Destroys every key and derives the set of the roots in force: every key of Table 17.6 that stands always, then those
held before (R843, R845, R846, R849). -/
def rederive (s : State) : State :=
  let marks := (s.keys.store.map Key.name).filter heldOnly
  let s := modKeys (fun z => { z with store := deriveKeys s [.memory, .faultLog, .wear, .bobbin, .status, .wm] }) s
  modKeys (fun z => { z with store := z.store ++ deriveKeys s marks }) s

def zeroKey : List Byte := List.replicate 16 0

/-- The status key, or 16 zero bytes without site keys (18 R889). -/
def statusKey (s : State) : List Byte := (storedKey s .status).getD zeroKey
/-- The Bobbin key, or 16 zero bytes without site keys (18 R889). -/
def bobbinKey (s : State) : List Byte := (storedKey s .bobbin).getD zeroKey

end Sys2Proof.Machine
end

