-- ==== Sys2Proof/Machine/Layouts.lean ====
section
/-!
DEFINITION. The layout catalogue and the scene tables (10 R470 to R478, Tables 10.1 and 10.2), and the canvas (R468, R469).
-/
namespace Sys2Proof.Machine
open Sys2Proof

/-- Window rectangles x0, y0, x1, y1 of a layout in 24ths of the canvas (Table 10.1). -/
def layoutRects (n : Nat) : List (Nat × Nat × Nat × Nat) :=
  match n with
  | 0 => [(0, 0, 24, 24)]
  | 1 => [(0, 0, 12, 24), (12, 0, 24, 24)]
  | 2 => [(0, 0, 24, 12), (0, 12, 24, 24)]
  | 3 => [(0, 0, 12, 12), (12, 0, 24, 12), (0, 12, 12, 24), (12, 12, 24, 24)]
  | 4 => [(0, 0, 18, 24), (18, 0, 24, 8), (18, 8, 24, 16), (18, 16, 24, 24)]
  | 5 => [(0, 0, 24, 18), (0, 18, 8, 24), (8, 18, 16, 24), (16, 18, 24, 24)]
  | 6 => [(0, 0, 24, 21), (0, 21, 24, 24)]
  | 7 => [(0, 0, 24, 3), (0, 3, 24, 24)]
  | 8 => (List.range 3).map (fun i => (8 * i, 0, 8 * (i + 1), 24))
  | 9 => (List.range 3).map (fun i => (0, 8 * i, 24, 8 * (i + 1)))
  | 10 => (List.range 6).map (fun i => (8 * (i % 3), 12 * (i / 3), 8 * (i % 3 + 1), 12 * (i / 3 + 1)))
  | 11 => (List.range 9).map (fun i => (8 * (i % 3), 8 * (i / 3), 8 * (i % 3 + 1), 8 * (i / 3 + 1)))
  | 12 => [(0, 0, 24, 24), (18, 0, 24, 6)]
  | 13 => [(0, 0, 24, 24), (0, 18, 6, 24)]
  | _ => [(0, 0, 24, 24)]

/-- Row of a scene table: layout and base per scene; L15 has no base (Table 10.2). -/
def sceneRow (t : Nat) : List (Nat × Nat) :=
  match t with
  | 0 =>
    [(0, 0), (1, 0), (2, 0), (3, 0), (4, 0), (5, 0), (6, 0), (7, 0), (8, 0), (9, 0), (10, 0), (11, 0), (12, 0), (13, 0), (14, 0), (15, 0)]
  | 1 =>
    [(1, 0), (1, 2), (1, 4), (1, 6), (1, 8), (1, 10), (1, 12), (1, 14), (2, 0), (2, 2), (2, 4), (2, 6), (2, 8), (2, 10), (2, 12), (2, 14)]
  | 2 =>
    [(3, 0), (3, 4), (3, 8), (3, 12), (8, 0), (8, 3), (8, 6), (8, 9), (9, 0), (9, 3), (9, 6), (9, 9), (10, 0), (10, 6), (11, 0), (0, 0)]
  | 3 =>
    [(4, 0), (4, 4), (4, 8), (4, 12), (5, 0), (5, 4), (5, 8), (5, 12), (6, 0), (6, 2), (6, 4), (6, 6), (7, 0), (7, 2), (7, 4), (7, 6)]
  | 4 =>
    [(12, 0), (12, 2), (12, 4), (12, 6), (12, 8), (12, 10), (12, 12), (12, 14), (13, 0), (13, 2), (13, 4), (13, 6), (13, 8), (13, 10), (13, 12), (13, 14)]
  | 5 =>
    [(8, 0), (8, 3), (8, 6), (8, 9), (8, 12), (8, 15), (8, 2), (8, 5), (9, 0), (9, 3), (9, 6), (9, 9), (9, 12), (9, 15), (9, 2), (9, 5)]
  | 6 =>
    [(10, 0), (10, 6), (10, 12), (10, 2), (10, 8), (10, 14), (10, 4), (10, 10), (11, 0), (11, 9), (11, 2), (11, 11), (11, 4), (11, 13), (11, 6), (11, 15)]
  | 7 =>
    [(14, 0), (14, 2), (14, 4), (14, 6), (14, 8), (14, 10), (14, 12), (14, 14), (0, 0), (0, 1), (0, 2), (0, 3), (0, 4), (0, 5), (0, 6), (15, 0)]
  | 8 =>
    [(1, 8), (1, 10), (1, 12), (1, 14), (1, 0), (1, 2), (1, 4), (1, 6), (2, 8), (2, 10), (2, 12), (2, 14), (2, 0), (2, 2), (2, 4), (2, 6)]
  | 9 =>
    [(3, 8), (3, 12), (3, 0), (3, 4), (8, 8), (8, 11), (8, 14), (8, 1), (9, 8), (9, 11), (9, 14), (9, 1), (10, 8), (10, 14), (11, 8), (0, 8)]
  | 10 =>
    [(4, 8), (4, 12), (4, 0), (4, 4), (5, 8), (5, 12), (5, 0), (5, 4), (6, 8), (6, 10), (6, 12), (6, 14), (7, 8), (7, 10), (7, 12), (7, 14)]
  | 11 =>
    [(12, 8), (12, 10), (12, 12), (12, 14), (12, 0), (12, 2), (12, 4), (12, 6), (13, 8), (13, 10), (13, 12), (13, 14), (13, 0), (13, 2), (13, 4), (13, 6)]
  | 12 =>
    [(8, 8), (8, 11), (8, 14), (8, 1), (8, 4), (8, 7), (8, 10), (8, 13), (9, 8), (9, 11), (9, 14), (9, 1), (9, 4), (9, 7), (9, 10), (9, 13)]
  | 13 =>
    [(10, 8), (10, 14), (10, 4), (10, 10), (10, 0), (10, 6), (10, 12), (10, 2), (11, 8), (11, 1), (11, 10), (11, 3), (11, 12), (11, 5), (11, 14), (11, 7)]
  | 14 =>
    [(14, 8), (14, 10), (14, 12), (14, 14), (14, 0), (14, 2), (14, 4), (14, 6), (0, 8), (0, 9), (0, 10), (0, 11), (0, 12), (0, 13), (0, 14), (15, 0)]
  | _ =>
    [(0, 0), (0, 1), (0, 2), (0, 3), (0, 4), (0, 5), (0, 6), (0, 7), (0, 8), (0, 9), (0, 10), (0, 11), (0, 12), (0, 13), (0, 14), (0, 0)]

/-- The lead's scene, table and offset (R475, 03 Table 3.8): the code handed last, or the one decided at the bring-up. -/
def ownKey (s : State) : SceneKey :=
  { scene := s.scene.offered.getD s.live.sceneCode, table := Fin.ofNat 16 (code s pinLaytab)
    ofs := if code s pinLayofs = 15 then 0 else Fin.ofNat 16 (code s pinLayofs + 1) }

/-- Cell (t, s). -/
def sceneCell (k : SceneKey) : Nat × Nat := (sceneRow k.table.val).getD k.scene.val (15, 0)
def layoutOf (k : SceneKey) : Nat := (sceneCell k).1
def countOf (k : SceneKey) : Nat := (layoutRects (layoutOf k)).length

/-- The slot of window wi; `tile` is the tile index of L14 (R476). -/
def slotOf (k : SceneKey) (tile i : Nat) : Option Nat :=
  match layoutOf k with
  | 15 => none
  | 14 => some (16 * k.ofs.val + ((sceneCell k).2 + tile) % 16)
  | _ => some (16 * k.ofs.val + ((sceneCell k).2 + i) % 16)

/-- The tile's canvas is its own cell: standalone, or with no joined link (R468). -/
def ownCanvas (s : State) : Bool := standalone s || !anyJoined s

/-- Tile width and height in use (R468, R469). -/
def cellSize (s : State) : Nat × Nat :=
  match ownCanvas s, s.disc.settled with
  | false, some g => (g.tileW, g.tileH)
  | _, _ => match s.weft.geom with | some g => (g.tileW, g.tileH) | none => (0, 0)

/-- Wall rows and columns in use. -/
def wallSize (s : State) : Nat × Nat :=
  match ownCanvas s, s.disc.settled with
  | false, some g => (g.rows, g.cols)
  | _, _ => (1, 1)

/-- The tile's cell; none while its position is not known. -/
def tilePlace (s : State) : Option (Nat × Nat) :=
  if ownCanvas s then s.disc.position.map (fun _ => (0, 0)) else s.disc.position

/-- Canvas width and height (R468). -/
def canvasSize (s : State) : Nat × Nat := ((wallSize s).2 * (cellSize s).1, (wallSize s).1 * (cellSize s).2)

/-- The tile's rectangle of the canvas (R469). -/
def tileRect (s : State) : Option Rect :=
  (tilePlace s).map (fun p => ⟨p.2 * (cellSize s).1, p.1 * (cellSize s).2, (p.2 + 1) * (cellSize s).1, (p.1 + 1) * (cellSize s).2⟩)

/-- Tile index row × columns + column (R476). -/
def tileIndex (s : State) : Nat := match tilePlace s with | some p => p.1 * (wallSize s).2 + p.2 | none => 0

def interRect (a b : Rect) : Rect := ⟨max a.x0 b.x0, max a.y0 b.y0, min a.x1 b.x1, min a.y1 b.y1⟩
def rectW (r : Rect) : Nat := r.x1 - r.x0
def rectH (r : Rect) : Nat := r.y1 - r.y0
def rectArea (r : Rect) : Nat := rectW r * rectH r

/-- Window wi of a scene on the canvas; in L14 the tile's own cell (R470, R473). -/
def windowRect (s : State) (k : SceneKey) (i : Nat) : Rect :=
  if layoutOf k = 14 then (tileRect s).getD ⟨0, 0, 0, 0⟩
  else
    let f := (layoutRects (layoutOf k)).getD i (0, 0, 0, 0)
    let c := canvasSize s
    ⟨c.1 * f.1 / 24, c.2 * f.2.1 / 24, c.1 * f.2.2.1 / 24, c.2 * f.2.2.2 / 24⟩

/-- The tile part (R479); empty where the position is not known. -/
def windowPart (s : State) (k : SceneKey) (i : Nat) : Rect :=
  match tileRect s with | some t => interRect (windowRect s k i) t | none => ⟨0, 0, 0, 0⟩

end Sys2Proof.Machine
end

