-- ==== Sys2Proof/Machine/Views.lean ====
section
/-!
DEFINITION. Values that records and other blocks read from the picture, marker and sensor state.
-/
namespace Sys2Proof.Machine
open Sys2Proof

/-- Layout and window count of the committed scene; L15 before the first. -/
def layoutNo (s : State) : Nat := match s.scene.committed with | some c => layoutOf c.key | none => 15
def windowCount (s : State) : Nat := match s.scene.committed with | some c => countOf c.key | none => 0
/-- Pattern of a marker group by scene number (Table 14.3). -/
def scenePattern (scene : Nat) (regulated : Bool) : Nat :=
  if regulated then (match scene with | 13 => 3 | 14 => 14 | _ => 0)
  else [0, 1, 9, 2, 3, 10, 4, 5, 6, 11, 12, 13, 8, 3, 15, 0].getD scene 0

/-- Safe state: for an S3 fault, for the thermal shutdown, or safe hold (19 R902, R910, R925). -/
def safeState (s : State) : Bool := s.flt.safe || s.flt.thermal || s.flt.safeHold

/-! ### Markers (14) -/

def chanAt (s : State) (nn : Nat) : Chan := s.mark.chan.getD nn {}
def mgroupAt (s : State) (g : Nat) : MGroup := s.mark.group.getD g {}

/-- The formed group of a channel (14 R686, R687). -/
def groupOfChan (s : State) (nn : Nat) : Option Nat :=
  let c := mkChannels s
  if c = 0 then none else if nn / c < mkGroups s then some (nn / c) else none

/-- The channels of a formed group. -/
def chansOf (s : State) (g : Nat) : List Nat := (List.range (mkChannels s)).map (fun j => g * mkChannels s + j)
def regulated (s : State) (g : Nat) : Bool := g < mkRegulated s

/-- The pattern of a group (14 R695). -/
def mkPattern (s : State) (i : Nat) : Nat :=
  scenePattern (match s.scene.committed with | some c => c.key.scene.val | none => 15) (regulated s i)

/-- The setting at which AON holds a regulated group in an S3 restart (14 R701, R702). -/
def fallQ (s : State) : Nat := match code s pinMkfall with | 0 => 0 | 1 => 128 | _ => 255

/-- A brown-out turns every channel off until the restart's idle pattern (14 R704). -/
def brownHeld (s : State) : Bool :=
  s.pwr.vinLow || (match s.flt.holdoff with | some h => decide (h.f = .pwrBrownout) | none => false) ||
  (decide (s.boot.kind = .brownout) && !s.mark.on)

/-- AON holds the regulated groups: safe state with the system clock stopped, or before `JQ1` runs again after an S3 restart (14
R702, 05 R216). -/
def aonHolds (s : State) : Bool :=
  (safeState s && (!s.clk.running || !s.mark.on)) || (decide (s.boot.kind = .s3) && !s.mark.ran)

/-- The setting q that a channel shows (14 R681, R702 to R704). -/
def markerSetting (s : State) (nn : Nat) : Nat :=
  match groupOfChan s nn with
  | none => 0
  | some g =>
    if s.standby.asleep || brownHeld s then 0
    else if aonHolds s then (if regulated s g && !(mgroupAt s g).off then fallQ s else 0)
    else if s.clk.running && domOn s 11 then (chanAt s nn).q
    else 0

/-- A reduction of 14 R717 concerns a channel of a group. -/
def groupReduced (s : State) (g : Nat) : Bool :=
  (s.mark.reducedSince.isSome && (!regulated s g || s.mark.regReduced)) || (chansOf s g).any (fun n => (chanAt s n).halved)

/-- State of a group in `t:mk_group`: 0 UNFORMED, 1 LIT, 2 FAULT_OFF, 3 SAFE, 4 REDUCED; a formed group that is dark for
another reason reads SAFE. -/
def mkStateCode (s : State) (i : Nat) : Nat :=
  if mkGroups s ≤ i then 0
  else if (mgroupAt s i).off then 2
  else if safeState s || !s.mark.on || s.mark.vledOut || s.standby.asleep then 3
  else if groupReduced s i then 4
  else 1

/-- The group's setting: that of its first channel. -/
def mkGroupQ (s : State) (i : Nat) : Nat := if mkGroups s ≤ i then 0 else markerSetting s (i * mkChannels s)

/-! ### Other values -/

/-- The mean of the last kept conversions, in 1/16 lux; none without a sensor or before the first (13 R663, R664). -/
def ambientNow (s : State) : Option Nat :=
  if s.amb.sensor && !s.amb.last.isEmpty then some (sumNat s.amb.last / s.amb.last.length) else none
/-- The tile's own Bobbin address, 1 + (n mod 253) of its index in the wall; none while its position is not known (16 R769). -/
def ownAddress (s : State) : Option Byte :=
  s.disc.position.map (fun p =>
    BitVec.ofNat 8 (1 + (p.1 * (match s.disc.settled with | some g => g.cols | none => 1) + p.2) % 253))
/-- The latest θ_B in 2^-32 ns (08 R378). -/
def thetaB (s : State) : Int := match s.time.beatMeas with | m :: _ => m.theta | [] => 0

end Sys2Proof.Machine
end

