-- ==== Sys2Proof/Machine/Flags.lean ====
section
/-!
DEFINITION. The faults as 19 Table 19.3 lists them, and what the status pins show: `STATE`, `READY`, `SYNCED`, `FAULT_N`
and `LOCKF` as functions of the state.
-/
namespace Sys2Proof.Machine
open Sys2Proof

/-! ### The fault catalogue (19 Table 19.3) -/

/-- One row: bit, code, severity, visible effect. -/
structure FaultRow where
  bit : Nat
  code : Nat
  sev : Sev
  vis : Bool
  deriving DecidableEq, Repr

def faultRow : FaultName → FaultRow
  | .pwrBrownout => ⟨0, 0x0101, 3, true⟩
  | .pwrDomain => ⟨1, 0x0102, 2, true⟩
  | .pwrVled => ⟨2, 0x0103, 1, true⟩
  | .clkUnlock => ⟨3, 0x0201, 3, true⟩
  | .clkXtal => ⟨4, 0x0202, 3, true⟩
  | .clkSlow => ⟨5, 0x0203, 1, false⟩
  | .strapAmbig => ⟨6, 0x0301, 1, false⟩
  | .strapReserved => ⟨7, 0x0302, 1, false⟩
  | .strapConflict => ⟨8, 0x0303, 1, false⟩
  | .strapChanged => ⟨9, 0x0304, 0, false⟩
  | .netLink => ⟨10, 0x0401, 1, false⟩
  | .netModule => ⟨11, 0x0402, 1, false⟩
  | .netRing => ⟨12, 0x0403, 1, false⟩
  | .netIpconflict => ⟨13, 0x0404, 1, false⟩
  | .netQueue => ⟨14, 0x0405, 0, false⟩
  | .netSdp => ⟨15, 0x0406, 1, false⟩
  | .timeNomaster => ⟨16, 0x0501, 1, false⟩
  | .timeStep => ⟨17, 0x0502, 1, true⟩
  | .timeHoldover => ⟨18, 0x0503, 1, false⟩
  | .svLink => ⟨19, 0x0601, 1, false⟩
  | .svAlign => ⟨20, 0x0602, 0, false⟩
  | .svPosition => ⟨21, 0x0603, 2, true⟩
  | .svNolead => ⟨22, 0x0604, 1, false⟩
  | .fpNostream => ⟨23, 0x0701, 1, true⟩
  | .fpFormat => ⟨24, 0x0702, 1, true⟩
  | .fpLate => ⟨25, 0x0703, 0, false⟩
  | .fpAuth => ⟨26, 0x0704, 1, true⟩
  | .fpOverload => ⟨27, 0x0705, 1, true⟩
  | .memCorrected => ⟨28, 0x0801, 0, false⟩
  | .memPoison => ⟨29, 0x0802, 1, false⟩
  | .memTrain => ⟨30, 0x0803, 3, true⟩
  | .xbHang => ⟨31, 0x0804, 2, false⟩
  | .weftCensus => ⟨32, 0x0901, 1, true⟩
  | .weftShort => ⟨33, 0x0902, 2, true⟩
  | .weftContention => ⟨34, 0x0903, 2, true⟩
  | .weftOpenled => ⟨35, 0x0904, 0, false⟩
  | .weftSdo => ⟨36, 0x0905, 1, true⟩
  | .mkOpen => ⟨37, 0x0A01, 1, false⟩
  | .mkShort => ⟨38, 0x0A02, 1, false⟩
  | .mkSupplyshort => ⟨39, 0x0A03, 2, true⟩
  | .mkGroupoff => ⟨40, 0x0A04, 1, true⟩
  | .mkThermal => ⟨41, 0x0A05, 1, true⟩
  | .audNonaudio => ⟨42, 0x0B01, 0, false⟩
  | .audUnderrun => ⟨43, 0x0B02, 0, false⟩
  | .audNosource => ⟨44, 0x0B03, 0, false⟩
  | .bobNoise => ⟨45, 0x0C01, 0, false⟩
  | .bobAuth => ⟨46, 0x0C02, 1, false⟩
  | .bobOverrun => ⟨47, 0x0C03, 0, false⟩
  | .cardProtocol => ⟨48, 0x0C04, 1, false⟩
  | .irEcho => ⟨49, 0x0C05, 0, false⟩
  | .lcResumed => ⟨50, 0x0D01, 1, false⟩
  | .lcRefused => ⟨51, 0x0D02, 1, false⟩
  | .keyVerify => ⟨52, 0x0D03, 1, false⟩
  | .keySlots => ⟨53, 0x0D04, 1, false⟩
  | .dbgActive => ⟨54, 0x0D05, 1, false⟩
  | .thWarn => ⟨55, 0x0E01, 1, false⟩
  | .thLimit => ⟨56, 0x0E02, 2, true⟩
  | .ageMargin => ⟨57, 0x0E03, 1, false⟩
  | .fmOverflow => ⟨58, 0x0F01, 1, false⟩
  | .fmDouble => ⟨59, 0x0F02, 3, true⟩
  | .seqRom => ⟨60, 0x0F03, 3, true⟩
  | .seqWatchdog => ⟨61, 0x0F04, 3, true⟩
  | .ldgAccess => ⟨62, 0x0F05, 1, false⟩

/-- The codes of Table 19.3; every other number is reserved. -/
def faultCodes : List Nat :=
  [0x0101, 0x0102, 0x0103, 0x0201, 0x0202, 0x0203, 0x0301, 0x0302, 0x0303, 0x0304, 0x0401] ++
  [0x0402, 0x0403, 0x0404, 0x0405, 0x0406, 0x0501, 0x0502, 0x0503, 0x0601, 0x0602, 0x0603] ++
  [0x0604, 0x0701, 0x0702, 0x0703, 0x0704, 0x0705, 0x0801, 0x0802, 0x0803, 0x0804, 0x0901] ++
  [0x0902, 0x0903, 0x0904, 0x0905, 0x0A01, 0x0A02, 0x0A03, 0x0A04, 0x0A05, 0x0B01, 0x0B02] ++
  [0x0B03, 0x0C01, 0x0C02, 0x0C03, 0x0C04, 0x0C05, 0x0D01, 0x0D02, 0x0D03, 0x0D04, 0x0D05] ++
  [0x0E01, 0x0E02, 0x0E03, 0x0F01, 0x0F02, 0x0F03, 0x0F04, 0x0F05]

def faultBit (f : FaultName) : Nat := (faultRow f).bit
def faultCode (f : FaultName) : Nat := (faultRow f).code
def sevOf (f : FaultName) : Sev := (faultRow f).sev
def faultVisible (f : FaultName) : Bool := (faultRow f).vis

/-- The instance a raise or clear concerns: the low byte of the detail where it names a port, pin, slot, window, channel,
master, link, group or address, else one instance per fault (R899, R906; log 5). -/
def faultKey (f : FaultName) (detail : BitVec 32) : Nat :=
  let low := detail.toNat % 256
  match f with
  | .strapAmbig | .strapReserved | .strapConflict | .netLink | .netSdp | .fpNostream | .fpFormat | .fpAuth
  | .memPoison | .xbHang | .weftCensus | .weftShort | .weftContention | .weftSdo | .mkOpen | .mkShort
  | .mkSupplyshort | .mkGroupoff | .mkThermal | .bobAuth => low
  | .netModule => low % 4
  | .svLink => low
  | .svPosition | .svNolead => low
  | .fpOverload => low / 16
  | .ageMargin => if low < 128 then 0 else low
  | .netRing => low
  | .netIpconflict => low
  | _ => 0

def activeKey (s : State) (f : FaultName) (key : Nat) : Bool :=
  s.flt.active.any (fun a => decide (a.f = f) && a.key == key)

/-- Some instance of the fault is active. -/
def isActive (s : State) (f : FaultName) : Bool := s.flt.active.any (fun a => decide (a.f = f))

/-! ### Safe state, picture and status pins (06 R239 to R241, 19 R902, R911) -/

def inCanvas (s : State) (p : Nat) : Bool := (s.weft.port.getD p {}).inCanvas
/-- The census has placed at least one port in the canvas. -/
def anyCanvas (s : State) : Bool := s.weft.port.any WPort.inCanvas

/-- The census ended with no port in the canvas (R264). -/
def noCanvas (s : State) : Bool := s.boot.censusDone && !anyCanvas s

/-- The bring-up has reached the idle pattern, or has ended without one (R264, R911). -/
def broughtUp (s : State) : Bool := s.boot.ended

/-- A window on this tile shows received content; a frozen one counts (Table 6.3). -/
def winShows (w : Win) : Bool :=
  w.touches && (match w.showing with | .source _ _ _ => true | _ => false)
def showsContent (s : State) : Bool := s.scene.win.any winShows

/-- The position is known; a standalone tile knows its own (09 R444, R453). -/
def positionKnown (s : State) : Bool := s.disc.position.isSome

/-- A condition of 01 R32. -/
def mayShow (s : State) : Bool :=
  (s.time.synced && positionKnown s) || (decide (s.time.servo = .holdover) && positionKnown s) || standalone s

def restrictive (st : WState) : Bool :=
  match st with | .delayed2 | .delayed4 | .refused => true | _ => false

/-- Condition of `STATE` code 4 beside shown content (Table 6.3, R901). -/
def degraded (s : State) : Bool :=
  s.flt.active.any (fun a => faultVisible a.f && (sevOf a.f == 1 || sevOf a.f == 2)) ||
  (match s.scene.committed with | none => false | some c => c.agreed.any (fun x => restrictive x.1))

/-- The code on `STATE2` to `STATE0` (06 Table 6.3); a domain held off shows 4 whether or not content is shown (04 R177; log 69). -/
def stateCode (s : State) : Nat :=
  if !s.pwr.aonOn || s.boot.inReset || !s.boot.shadowRead then 0
  else if s.standby.asleep then 5
  else if safeState s then 6
  else if s.keys.debug || s.test.visible.isSome then 7
  else if !broughtUp s then 1
  else if s.pwr.dom.any DomSt.heldOff then 4
  else if showsContent s && degraded s then 4
  else if showsContent s then 3
  else 2

/-- `READY` (06 R240, R241, 19 R912). -/
def ready (s : State) : Bool :=
  s.boot.idleShown && anyCanvas s && mayShow s && s.clk.running && !s.standby.asleep &&
  (stateCode s == 2 || stateCode s == 3 || stateCode s == 4)

/-- `SYNCED` as a pin (08 R350, 19 R910, R912). -/
def syncedPin (s : State) : Bool := s.time.synced && s.clk.running && !s.standby.asleep

/-- `FAULT_N` is driven low (19 R911). -/
def faultLow (s : State) : Bool :=
  s.pwr.aonOn && !s.standby.asleep &&
  (!broughtUp s || s.flt.active.any (fun a => 2 ≤ (sevOf a.f).val) || safeState s) ||
  (s.standby.asleep && s.flt.active.any (fun a => 2 ≤ (sevOf a.f).val))

/-- How `LOCKF` is driven (05 R188 to R190); boundary-scan cells drive it too (02 R73, R83). -/
inductive LockPin | sinks | pulsesEachInjection | pulsesAtErrors | released | scan
  deriving DecidableEq, Repr

/-- Boundary-scan cells have the pins: not while AON is off, `RESET_N` low or in standby, which return them to their reset states (02
R71, R79). -/
def scanned (s : State) : Bool := s.pins.boundaryScan && s.pwr.aonOn && !s.boot.inReset && !s.standby.asleep

def lockPin (s : State) : LockPin :=
  if !s.pwr.aonOn then .released
  else if scanned s then .scan
  else if !s.clk.refPresent || !domOn s 2 then .sinks
  else if s.clk.locked then .pulsesAtErrors
  else .pulsesEachInjection

/-- Regulated marker groups forbid standby unless `s:MKFALL` is 0 (04 R160). -/
def regulatedForbids (s : State) : Bool := mkRegulated s != 0 && code s pinMkfall != 0

/-- `s:POWER` gating is enabled (04 R148). -/
def gating (s : State) : Bool := powerCode s != 0

/-- A test number of byte 304 (19 Table 19.5). -/
def testNo : TestKind → Nat
  | .scrub => 1 | .led => 2 | .marker => 3 | .eye => 4 | .strap => 5 | .dac => 6 | .rom => 7 | .otp => 8
  | .ageing => 9 | .sensors => 10
def testSuite : Nat := 16
def testVisible : Nat := 17

def resultNo : TestResult → Nat
  | .pass => 0 | .fail => 1 | .aborted => 2 | .refused => 3

/-- Adds a result record at the present wall time (06 R251). -/
def addResult (n : Nat) (r : TestResult) (s : State) : State :=
  modTest (fun z => { z with
      results := z.results ++ [⟨n, r, BitVec.ofNat 32 s.time.sec.toNat⟩] }) s

/-- The test an item of the suite belongs to. -/
def itemTest : SuiteItem → TestKind
  | .led => .led | .dac _ => .dac | .rom => .rom | .otp => .otp | .eye _ => .eye | .strap => .strap
  | .sensors => .sensors | .ageing => .ageing

/-- A requested suite waits for an item (06 R247). -/
def suiteWants (s : State) (i : SuiteItem) : Bool :=
  match s.test.suite with | some q => q.todo.contains i | none => false

/-- A test has run: within a suite it is done, and recorded with the last item of its kind; in service only a failure is
recorded (06 R251). -/
def noteTest (i : SuiteItem) (failed : Bool) (s : State) : State :=
  match s.test.suite with
  | some q =>
    if q.todo.contains i then
      let todo := q.todo.filter (fun j => !decide (j = i))
      let bad := if failed then itemTest i :: q.failed else q.failed
      let s := modTest (fun z => { z with suite := some { q with todo := todo, failed := bad } }) s
      if todo.any (fun j => decide (itemTest j = itemTest i)) then s
      else addResult (testNo (itemTest i)) (if bad.contains (itemTest i) then .fail else .pass) s
    else if failed then addResult (testNo (itemTest i)) .fail s else s
  | none => if failed then addResult (testNo (itemTest i)) .fail s else s

/-- A slice of a test was abandoned and is to be run again (06 R242). -/
def runsAgain (s : State) (t : TestKind) : Bool := s.test.again.contains t

/-- The test has been run again. -/
def ranAgain (t : TestKind) (s : State) : State :=
  modTest (fun z => { z with again := z.again.filter (fun x => !decide (x = t)) }) s

end Sys2Proof.Machine
end

