-- ==== Sys2Proof/Machine/Record.lean ====
section
/-!
DEFINITION. The 512-byte status record (19 R915 to R918, Tables 19.4 to 19.8), its pages and subsets.
-/
namespace Sys2Proof.Machine
open Sys2Proof

/-- A signed value held to `n` bytes by saturation. -/
def satInt (n : Nat) (v : Int) : List Byte :=
  let m : Int := 256 ^ n / 2
  beInt n (if v < -m then -m else if m - 1 < v then m - 1 else v)

def satNat (n : Nat) (v : Nat) : List Byte := beBytes n (min v (256 ^ n - 1))

/-- One byte of the flags of a list, the first in bit 7. -/
def bits8 (l : List Bool) : Nat := l.foldl (fun a b => 2 * a + b2n b) 0

/-- Eight bytes with bit p set where `f p`. -/
def bits64 (f : Nat → Bool) : List Byte :=
  beBytes 8 ((List.range 64).foldl (fun a p => if f p then a + 2 ^ p else a) 0)

def zeros (n : Nat) : List Byte := List.replicate n 0

/-- Byte 2 of a ring entry (Table 19.4). -/
def ringByte2 (e : RingEntry) : Nat :=
  (sevOf e.f).val + 32 * b2n e.ptp + 64 * b2n e.mirrored + 128 * b2n e.cleared

/-- A ring entry as its 16 bytes (Table 19.4). -/
def ringBytes (e : RingEntry) : List Byte :=
  beBytes 2 (faultCode e.f) ++ beBytes 1 (ringByte2 e) ++ beBytes 1 e.bringUp.toNat ++
  beBytes 4 e.sec.toNat ++ beBytes 4 e.ns.toNat ++ beBytes 4 e.detail.toNat

/-- The low byte shown in records: the detail's, but the count of `f:CLK_UNLOCK` saturates at 255 (Table 19.3). -/
def shownLow (f : FaultName) (detail : BitVec 32) : Nat :=
  if f = .clkUnlock then min detail.toNat 255 else detail.toNat % 256

/-! ### Fields -/

/-- Seconds since the bring-up's reference instant, on the ruler. -/
def uptime (s : State) : Nat := (s.now - s.boot.ref) / secT 1

def resetCause (s : State) : Nat :=
  match s.boot.kind with | .powerUp => 0 | .resetN => 1 | .brownout => 2 | .s3 => 3 | .wake => 4

def slotStateNo (st : SlotState) : Nat :=
  match st with | .empty => 0 | .pending => 1 | .active => 2 | .void => 3

/-- The check value of the active site root; 0 if none. -/
def activeCheck (s : State) : Nat :=
  match activeSlot s.otp.shadow with | some k => slotCheck s.otp.shadow k | none => 0

def laneNo (m : Option LaneMode) : Nat :=
  match m with | some .base25 => 1 | some .base25Fec => 2 | some .base25Rs => 3 | _ => 0

def portByte (s : State) (p : Port) : Nat :=
  let q := netPort s p
  let present := match q.module with | .absent => false | _ => true
  let listening := match q.fwd with | .listening _ => true | _ => false
  128 * b2n present + 64 * b2n q.linkUp.isSome + 16 * laneNo q.mode + 8 * b2n (s.time.slavePort == some p) +
  4 * b2n q.blocked.isSome + 2 * b2n listening

/-- The parent link (09 R425, R440). -/
def linkByte (s : State) (d : Dir) : Nat :=
  let l := linkOf s d
  128 * b2n l.locked + 64 * b2n l.joined.isSome + 32 * b2n l.crossed + 16 * b2n (8 ≤ l.accepted) +
  8 * b2n (s.disc.parent == some d)

def servoNo (v : Servo) : Nat :=
  match v with | .listen => 0 | .acquire => 1 | .track => 2 | .holdover => 3 | .freerun => 4

def profileNo (p : Profile) : Nat :=
  match p with | .off => 0 | .tri025 => 1 | .tri05 => 2 | .tri1 => 3 | .rounded05 => 4

def wstateNo (st : WState) : Nat :=
  match st with | .served => 0 | .delayed2 => 1 | .delayed4 => 2 | .refused => 3 | .absent => 15
def reasonNo (r : Reason) : Nat :=
  match r with | .none => 0 | .ingest => 1 | .memory => 2 | .scaler => 3 | .port => 4

def wclockNo (c : WClock) : Nat := match c with | .none => 0 | .c62 => 1 | .c31 => 2 | .c15 => 3

/-- Working clocks of the weft groups, 2 bits each (Table 19.5). -/
def groupClocks (s : State) : Nat := (List.range 8).foldl (fun a g => a + wclockNo (s.weft.group.getD g {}).clock * 4 ^ g) 0

/-- Window entry (Table 19.6). -/
def windowEntry (s : State) (i : Nat) : List Byte :=
  if windowCount s ≤ i then zeros 4
  else
    let w := s.scene.win.getD i {}
    let agreed := (match s.scene.committed with | some c => c.agreed.getD i (.served, .none) | none => (.served, .none))
    let st := if w.prime.isSome then 4 else wstateNo agreed.1
    let colour := match w.format with
      | none => 0
      | some f =>
        64 * (match f.colorimetry with | .bt709 => 0 | .bt2020 => 1 | .bt2100 => 2) +
        16 * (match f.tcs with | .sdr => 0 | .pq => 1 | .hlg => 2) + 8 * b2n f.colFromStrap + 4 * b2n f.tcsFromStrap
    beBytes 1 (w.slot.getD 0) ++ beBytes 1 (16 * st + reasonNo agreed.2) ++ beBytes 1 colour ++
    beBytes 1 (bits8 [w.ownFall, w.noStream, w.authFall, w.held, w.concealing, w.untagged, w.blend, w.touches])

/-- `MKGi` in `t:mk_group`. -/
def groupEntry (s : State) (i : Nat) : List Byte :=
  beBytes 1 (16 * mkPattern s i + 8 * b2n (i < mkRegulated s) + mkStateCode s i) ++ beBytes 1 (mkGroupQ s i)

def muteByte (s : State) (o : AOut) : Nat :=
  bits8 [o.mute.any (fun c => decide (c = .pin)),
    o.mute.any (fun c => decide (c = .safe) || decide (c = .standby) || decide (c = .selftest)),
    o.ramp.isSome, s.aud.flows.any (fun f => 0 < f.startLeft), tdmStatus s, false, false, false]

def lastResult (s : State) : List Byte :=
  match s.test.results.getLast? with
  | none => zeros 6
  | some r => beBytes 1 r.test ++ beBytes 1 (resultNo r.result) ++ beBytes 4 r.at_.toNat

/-- Faults active, one bit each (`t:fault_active`). -/
def activeBits (s : State) : List Byte := bits64 (fun b => s.flt.active.any (fun a => faultBit a.f == b))

/-- One of the 8 latest ring entries in 6 bytes (`t:fault_last`). -/
def lastEntry (e : RingEntry) : List Byte :=
  beBytes 2 (faultCode e.f) ++ beBytes 1 (ringByte2 e) ++ beBytes 1 (shownLow e.f e.detail) ++ beBytes 2 (e.sec.toNat % 65536)

/-- Counted restarts in the last 10 min. -/
def restartsRecent (s : State) : Nat := (s.flt.restarts.filter (fun t => s.now < t + secT 600)).length

/-! ### Detail pages (Table 19.7) -/

def chanByte (c : Chan) : Nat :=
  16 * c.retries + 8 * b2n c.latched + 4 * b2n c.shortF + 2 * b2n c.openF + b2n c.halved

/-- Audio format of a rendered flow (15 R722). -/
def flowAudio (s : State) (a : AFlow) : Option AudioFmt :=
  (s.net.flows.find? (fun n => decide (n.kind = .audio) && n.slot == a.slot)).bind (fun n =>
    n.sdp.bind (fun d => match d.media with | .audio x => some x | _ => none))

def flowEntry (s : State) (f : Nat) : List Byte :=
  match s.aud.flows[f]? with
  | none => zeros 12
  | some a =>
    let fmt := flowAudio s a
    let l24 := match fmt with | some x => x.bits == 24 | none => false
    let us := match fmt with | some x => x.ptime == 125 | none => false
    let ch := match fmt with | some x => x.channels | none => 0
    let ord := match fmt with | some x => x.channelOrder | none => false
    let ssrc := match a.sender with | some d => d.ssrc.toNat | none => 0
    beBytes 1 a.slot ++ beBytes 1 (128 * b2n l24 + 64 * b2n us) ++ beBytes 1 ch ++ beBytes 1 (b2n ord) ++
    beBytes 4 ssrc ++ satNat 2 a.late ++ satNat 2 a.discarded

/-- Bytes with bit a set where the list holds a, lowest addresses last. -/
def bits256 (l : List Byte) : List Byte :=
  beBytes 32 (l.foldl (fun a b => if a / 2 ^ b.toNat % 2 == 1 then a else a + 2 ^ b.toNat) 0)

def isLead (s : State) : Bool := decide (s.disc.role = .acting) || standalone s

def ledgerCopies (s : State) : List Byte := satNat 2 s.ldg.copyCount

def wallFaultEntry (s : State) (w : Option WallFault) : List Byte :=
  match w with
  | none => zeros 6
  | some w =>
    let age := (BitVec.ofNat 32 s.time.sec.toNat - w.sec).toNat / 60
    beBytes 2 w.code.toNat ++ beBytes 1 w.row ++ beBytes 1 w.col ++ beBytes 1 (w.sev + 128 * b2n w.cleared) ++ satNat 1 age

/-- Bytes 408 to 503 of record n, page n mod 8 (R917). -/
def detailPage (s : State) (page : Nat) : List Byte :=
  match page with
  | 0 =>
    (List.range 48).flatMap (fun i => beBytes 1 (16 * (s.straps.code.getD i 15).val + (s.straps.pend.getD i 15).val)) ++
    (List.range 16).flatMap (fun i =>
      if 9 ≤ i then zeros 3
      else
        let w := s.scene.win.getD i {}
        satNat 1 w.lateLines ++ satNat 1 w.heldBeats ++ satNat 1 w.rejects)
  | 1 =>
    (List.range 48).flatMap (fun i => beBytes 1 (chanByte (s.mark.chan.getD i {}))) ++
    (List.range 4).flatMap (flowEntry s)
  | 2 =>
    (List.range 64).flatMap (fun p => beBytes 1 (s.weft.port.getD p {}).chain) ++
    (List.range 32).flatMap (fun k =>
      beBytes 1 ((s.weft.port.getD (2 * k) {}).phase % 16 + 16 * ((s.weft.port.getD (2 * k + 1) {}).phase % 16)))
  | 3 =>
    (if isLead s then bits256 s.bob.answered ++ bits256 s.bob.flagged else zeros 64) ++
    beBytes 1 s.ldg.status ++ beBytes 1 s.ldg.density ++ ledgerCopies s ++ beBytes 4 s.ldg.lastFlush.toNat ++
    beBytes 4 (s.ldg.log.filter (fun r => r.keyed == s.ldg.logKey)).length ++ beBytes 4 s.mem.scrubDone.toNat ++ beBytes 4 s.mem.scrubCorrected ++
    beBytes 4 s.mem.scrubPoison ++ zeros 8
  | p => (List.range 16).flatMap (fun i => wallFaultEntry s (s.disc.wallFaults[16 * (p - 4) + i]?))

/-! ### The record (Table 19.5) -/

/-- Bytes 0 to 59: format, identity, keys, card and position. -/
def recIdentity (s : State) (kind : Nat) (seqNo : BitVec 32) : List Byte :=
  beBytes 1 1 ++ beBytes 1 kind ++ beBytes 4 seqNo.toNat ++ beBytes 8 (serialOf s).toNat ++
  beBytes 6 s.time.sec.toNat ++ beBytes 4 s.time.ns.toNat ++
  beBytes 1 (stateCode s + 8 * b2n (ready s) + 16 * b2n (syncedPin s) + 32 * b2n (faultLow s) + 64 * b2n (safeState s)) ++
  beBytes 1 (resetCause s) ++
  beBytes 2 (match s.boot.kind, s.boot.cause with | .s3, some f => faultCode f | _, _ => 0) ++
  beBytes 4 (uptime s) ++
  beBytes 1 (phaseCode s.keys.phase) ++ beBytes 1 (phaseEpoch s.keys.phase) ++ beBytes 1 (recordsDone s.otp.shadow) ++
  beBytes 1 (128 * b2n (hasSiteKeys s) + 64 * b2n s.keys.debug + 32 * b2n (!s.live.arm.level) +
    emptySlots s.otp.shadow) ++
  beBytes 4 ((List.range 16).foldl (fun a k => a + slotStateNo (slotState s.otp.shadow k) * 4 ^ k) 0) ++
  beBytes 4 (activeCheck s) ++
  beBytes 1 (16 * s.dlg.recStep + s.dlg.recAction) ++ beBytes 1 s.dlg.recOutcome.toNat ++ beBytes 2 s.dlg.recSw.toNat ++
  beBytes 4 s.dlg.recCheck.toNat ++
  beBytes 1 (match s.disc.position with | some p => p.1 | none => 0) ++
  beBytes 1 (match s.disc.position with | some p => p.2 | none => 0) ++
  beBytes 1 (match s.disc.settled with | some g => g.rows | none => 0) ++
  beBytes 1 (match s.disc.settled with | some g => g.cols | none => 0) ++
  beBytes 1 (wallId s) ++
  beBytes 1 (128 * b2n (decide (s.disc.role = .acting)) + 64 * b2n (positionKnown s) +
    32 * b2n (match s.disc.settled with | some g => g.fixed | none => false) + 16 * b2n (standalone s) + roleCode s) ++
  beBytes 2 (if isLead s then 0 else s.disc.leadHops.getD 0xFFFF)

/-- Bytes 60 to 123: network, time and scene. -/
def recNetwork (s : State) : List Byte :=
  beBytes 8 (if decide (s.disc.role = .acting) then (serialOf s).toNat
    else match s.disc.lead with | some l => l.serial.toNat | none => 0) ++
  beBytes 4 (match s.net.addr.claimed with | some a => a.toNat | none => 0) ++
  ports.flatMap (fun p => beBytes 1 (portByte s p)) ++
  dirs.flatMap (fun d => beBytes 1 (linkByte s d)) ++
  (List.range 8).flatMap (fun i => beBytes 1 (s.test.eye.getD i 0)) ++
  beBytes 1 (servoNo s.time.servo) ++ beBytes 1 (code s pinPtpprof) ++ beBytes 1 (ptpDomain s) ++
  beBytes 1 (128 * b2n s.time.ptpOrigin + (match s.time.slavePort with | some p => p.val | none => 15)) ++
  beBytes 1 (profileNo s.clk.profile) ++ beBytes 1 (code s pinRefresh) ++
  beBytes 8 (match s.time.master with | some m => m.set_.grandmaster.toNat | none => 0) ++
  satInt 4 ((if decide (s.time.servo = .holdover) then thetaB s else s.time.theta) / 4294967296) ++
  satInt 2 (s.time.yInt / 10).floor ++
  (match s.scene.committed with
    | none => zeros 4
    | some c => beBytes 1 c.key.scene.val ++ beBytes 1 c.key.table.val ++ beBytes 1 c.key.ofs.val ++ beBytes 1 (layoutNo s)) ++
  beBytes 4 (match s.scene.committed with | some c => c.ident.toNat | none => 0) ++
  beBytes 4 (match s.scene.prepared with | some c => c.ident.toNat | none => 0) ++
  beBytes 4 (match s.scene.committed with | some c => c.commitBeat.toNat | none => 0)

/-- Bytes 124 to 187: the 16 window entries (R503, R916). -/
def recWindows (s : State) : List Byte := (List.range 16).flatMap (windowEntry s)

/-- Bytes 188 to 267: weft ports, brightness and marker groups. -/
def recPanel (s : State) : List Byte :=
  bits64 (inCanvas s) ++
  bits64 (fun p => let w := s.weft.port.getD p {}; w.sdo.isSome || w.trip.isSome || w.hiZ) ++
  beBytes 1 s.weft.chainLen ++ beBytes 1 (match s.weft.timing with | some t => t.m | none => 0) ++
  beBytes 2 (groupClocks s) ++
  (match s.weft.timing with
    | none => zeros 4
    | some t => beBytes 1 t.g ++ beBytes 1 t.n ++ beBytes 1 t.k ++ beBytes 1 t.d) ++
  satNat 2 s.weft.openSeen.length ++ zeros 6 ++
  beBytes 4 (match ambientNow s with | some v => v | none => 0xFFFFFFFF) ++
  beBytes 4 (s.bri.agreed.getD s.bri.own) ++
  (List.range 8).flatMap (fun g => let w := s.weft.group.getD g {}; beBytes 1 w.code ++ satNat 1 w.clips) ++
  (List.range 12).flatMap (groupEntry s)

/-- Data slots per output: Nu (15 R725). -/
def tdmData (s : State) : Nat := if tdmStatus s then tdmSlots s - 1 else tdmSlots s

/-- Positions of rendered channels from 2 × Nu upward (15 R725). -/
def droppedPositions (s : State) : Nat :=
  sumNat (s.aud.flows.mapIdx (fun f a =>
    let ch := match flowAudio s a with | some x => x.channels | none => 0
    ((List.range ch).filter (fun c => 2 * tdmData s ≤ 16 * f + c)).length))

/-- Bytes 268 to 335: audio, sensors, self-test, counters and the Bobbin bus. -/
def recSound (s : State) : List Byte :=
  (List.range 4).flatMap (fun f => beBytes 1 (match s.aud.flows[f]? with | some a => a.slot | none => 0xFF)) ++
  beBytes 1 s.aud.outA.level ++ beBytes 1 s.aud.outB.level ++
  beBytes 1 (muteByte s s.aud.outA) ++ beBytes 1 (muteByte s s.aud.outB) ++
  satNat 2 s.aud.outA.invalid ++ satNat 2 s.aud.outB.invalid ++
  beBytes 4 ((List.range 4).foldl (fun a f => match s.aud.flows[f]? with
    | none => a
    | some x => x.nonAudio.foldl (fun b i => b + 2 ^ (8 * f + i)) a) 0) ++
  satNat 1 (droppedPositions s) ++ zeros 3 ++
  beInt 2 s.sens.tj ++ satNat 2 s.sens.vin ++ satNat 2 (s.sens.vled / 10) ++ satNat 2 s.pwr.vcore ++
  beBytes 2 (Config.freeValue (s.fresh + s.status.seq.toNat)) ++
  beBytes 2 ((List.range 12).foldl (fun a n => if domOn s n then a + 2 ^ n else a) 0) ++
  beBytes 2 ((List.range 12).foldl (fun a n => if (domAt s n).heldOff then a + 2 ^ n else a) 0) ++
  satNat 1 (s.pwr.margin / 10) ++
  beBytes 1 ((List.range 5).foldl (fun a b => if (s.test.dac.getD b {}).retired.isEmpty then a else a + 2 ^ b) 0) ++
  lastResult s ++
  beBytes 1 (128 * b2n s.standby.ignoredInterval + 32 * s.standby.ignoredCause) ++ satNat 1 s.standby.ignored ++
  (List.range 16).flatMap (fun i => satNat 1 (s.status.counters.getD i 0)) ++
  beBytes 1 (match ownAddress s with | some a => a.toNat | none => 0xFF) ++
  beBytes 1 s.bob.rollNo.toNat ++ satNat 1 s.bob.answered.length ++ satNat 1 s.bob.flagged.length ++
  beBytes 1 (match s.bob.flagged with | [] => 0xFF | a :: l => l.foldl (fun m x => min m x.toNat) a.toNat) ++
  satNat 1 s.bob.collisions ++ satNat 1 s.bob.xoffCount ++ zeros 1

/-- Bytes 336 to 403: faults. -/
def recFaults (s : State) : List Byte :=
  activeBits s ++
  (List.range 4).flatMap (fun i => beBytes 2 (s.flt.counts.getD i 0).toNat) ++
  beBytes 1 s.flt.lost.toNat ++ satNat 1 (restartsRecent s) ++ satNat 1 s.flt.peak ++ beBytes 1 s.flt.ringLost.toNat ++
  (List.range 8).flatMap (fun i => match s.flt.ring.reverse[i]? with | some e => lastEntry e | none => zeros 6)

/-- Record bytes 0 to 503. -/
def recordBody (s : State) (kind : Nat) (seqNo : BitVec 32) : List Byte :=
  recIdentity s kind seqNo ++ recNetwork s ++ recWindows s ++ recPanel s ++ recSound s ++ recFaults s ++
  beBytes 1 (seqNo.toNat % 8) ++ zeros 3 ++ detailPage s (seqNo.toNat % 8)

/-- The signature of bytes 504 to 511 (18 R890, R889). -/
def signRecord (s : State) (body : List Byte) : List Byte := body ++ (cmac (statusKey s) body).take 8

/-- Byte 1: the kind bits with time origin and safe state. -/
def kindByte (s : State) (kind : BitVec 8) : Nat := kind.toNat + 8 * b2n s.time.ptpOrigin + 16 * b2n (safeState s)

/-- The signed record with the present sequence number. -/
def statusRecord (s : State) (kind : BitVec 8) : List Byte :=
  signRecord s (recordBody s (kindByte s kind) s.status.seq)

/-! ### Beacon pages and `b:STATUS` (Table 19.8) -/

def recordNow (s : State) : List Byte := recordBody s (kindByte s 0) s.status.seq

def beaconPage (s : State) (page : Nat) : List Byte :=
  let r := recordNow s
  match page with
  | 0 => slice r 0 60
  | 1 => slice r 60 64
  | 2 => slice r 124 64
  | 3 => slice r 336 68
  | 4 => slice r 188 80
  | _ => slice r 268 68

def statusSubset (s : State) : List Byte :=
  let r := recordNow s
  slice r 0 32 ++ slice r 52 8 ++ slice r 108 16 ++ slice r 124 64 ++ slice r 336 8

/-- Adds to one of the interval counts of bytes 312 to 327. -/
def countUp (i : Nat) (n : Nat) (s : State) : State :=
  modStatus (fun z => { z with counters := updAt z.counters i (· + n) }) s

def ctOversize : Nat := 0
def ctFcs : Nat := 1
def ctRunt : Nat := 2
def ctKnot : Nat := 3
def ctFollowUp : Nat := 4
def ctOffPort : Nat := 5
def ctAhead : Nat := 6
def ctField : Nat := 7
def ctCorrected : Nat := 8
def ctPoisoned : Nat := 9
def ctHang : Nat := 10
def ctMarginal : Nat := 11
def ctBobbin : Nat := 12
def ctAudio : Nat := 13
def ctQuery : Nat := 14

end Sys2Proof.Machine
end

