-- ==== Sys2Proof/Machine/Knots.lean ====
section
/-!
DEFINITION. Knots as bytes (09 R414 to R422, Tables 9.2 to 9.4): building, reading, queueing on a link and flooding.
-/
namespace Sys2Proof.Machine
open Sys2Proof

/-! ### Bodies (Table 9.4) -/

structure PosBody where
  seed : Serial
  fixed : Bool
  hops : Nat
  row : Int
  col : Int
  deriving DecidableEq, Repr

structure LeadBody where
  claim : Bool
  resign : Bool
  settled : Bool
  fixed : Bool
  last : Bool
  cls : Nat
  page : Nat
  rows : Nat
  cols : Nat
  tileW : Nat
  tileH : Nat
  rowOff : Int
  colOff : Int
  refresh : Nat
  latency : Nat
  dups : List Serial
  deriving DecidableEq, Repr

structure BeatBody where
  ptp : Bool
  servo : Nat
  refresh : Nat
  beat : BitVec 32
  sec : Nat
  ns : Nat
  frac : Nat
  delay : Int
  step : Bool
  stepBeat : BitVec 32
  stepNs : Int
  deriving DecidableEq, Repr

structure PrepareBody where
  ident : BitVec 32
  scene : Nat
  table : Nat
  ofs : Nat
  deadline : BitVec 32
  deriving DecidableEq, Repr

/-- `k:READY`: identifier, n, and the state and reason bytes of w0 to w8. -/
structure ReadyBody where
  ident : BitVec 32
  n : Nat
  states : List (Nat × Nat)
  deriving DecidableEq, Repr

structure CommitBody where
  ident : BitVec 32
  beat : BitVec 32
  n : Nat
  states : List (Nat × Nat)
  deriving DecidableEq, Repr

structure BrightBody where
  target : Bool
  night : Bool
  value : Nat
  beat : BitVec 32
  deriving DecidableEq, Repr

structure FaultBody where
  code : Nat
  sev : Nat
  cleared : Bool
  row : Nat
  col : Nat
  sec : BitVec 32
  deriving DecidableEq, Repr

structure CensusBody where
  row : Int
  col : Int
  tileW : Nat
  tileH : Nat
  fixed : Bool
  candidate : Bool
  ports : Nat
  role : Nat
  drv : Nat
  deriving DecidableEq, Repr

/-- The knot header without its length (Table 9.2). -/
structure Head where
  wall : Nat
  hops : Nat
  orig : Serial
  seqNo : BitVec 32
  deriving DecidableEq, Repr

/-! ### Building -/

def knotCode (t : KnotType) : Nat :=
  match t with
  | .hello => 1 | .pos => 2 | .lead => 3 | .beat => 4 | .prepare => 5 | .ready => 6 | .commit => 7 | .bright => 8
  | .fault => 9 | .census => 10

/-- Route of a type: link-local 0, flood 1, upstream 2; a TARGET of `k:BRIGHT` floods and a REPORT goes upstream. -/
def knotRoute (t : KnotType) (target : Bool) : Nat :=
  match t with
  | .hello | .pos => 0
  | .lead | .beat | .prepare | .commit | .fault => 1
  | .ready | .census => 2
  | .bright => if target then 1 else 2

def flag (b : Bool) (i : Nat) : Nat := if b then 2 ^ i else 0

/-- A whole knot: header, body and CRC (R416, R419). -/
def encodeKnot (t : KnotType) (target : Bool) (h : Head) (body : List Byte) : List Byte :=
  let front := beBytes 1 (knotCode t) ++ beBytes 1 1 ++ beBytes 2 (24 + body.length) ++ beBytes 1 h.wall ++
    beBytes 1 (64 * knotRoute t target) ++ beBytes 1 h.hops ++ beBytes 1 0 ++ beBytes 8 h.orig.toNat ++
    beBytes 4 h.seqNo.toNat ++ body
  front ++ beBytes 4 (crc32 front).toNat

def posBytes (b : PosBody) : List Byte :=
  beBytes 8 b.seed.toNat ++ beBytes 1 (flag b.fixed 7) ++ beBytes 1 0 ++ beBytes 2 b.hops ++ beInt 2 b.row ++ beInt 2 b.col

def helloBytes (h : Hello) : List Byte :=
  beBytes 1 h.port ++ beBytes 1 h.role ++
  beBytes 1 (flag h.known 7 + flag h.fixed 6 + flag h.candidate 5 + flag h.lead 4 + flag h.standalone 3 + flag h.held 2) ++
  beBytes 1 0 ++ beInt 2 h.row ++ beInt 2 h.col ++ beBytes 2 h.reqAnswered.toNat ++ beBytes 4 h.turnaround ++
  beBytes 8 h.leadSerial.toNat ++ beBytes 2 h.hops

def leadBytes (b : LeadBody) : List Byte :=
  beBytes 1 (flag b.claim 7 + flag b.resign 6 + flag b.settled 5 + flag b.fixed 4 + flag b.last 3) ++ beBytes 1 b.cls ++
  beBytes 2 b.page ++ beBytes 2 b.rows ++ beBytes 2 b.cols ++ beBytes 2 b.tileW ++ beBytes 2 b.tileH ++
  beInt 2 b.rowOff ++ beInt 2 b.colOff ++ beBytes 1 b.dups.length ++ beBytes 1 b.refresh ++ beBytes 1 b.latency ++
  beBytes 1 0 ++ b.dups.flatMap (fun x => beBytes 8 x.toNat)

def beatBytes (b : BeatBody) : List Byte :=
  beBytes 1 (flag b.ptp 7 + b.servo) ++ beBytes 1 b.refresh ++ beBytes 2 0 ++ beBytes 4 b.beat.toNat ++ beBytes 6 b.sec ++
  beBytes 4 b.ns ++ beBytes 2 b.frac ++ beInt 8 b.delay ++ beBytes 1 (flag b.step 7) ++ beBytes 3 0 ++
  beBytes 4 b.stepBeat.toNat ++ beInt 8 b.stepNs

def prepareBytes (b : PrepareBody) : List Byte :=
  beBytes 4 b.ident.toNat ++ beBytes 1 b.scene ++ beBytes 1 b.table ++ beBytes 1 b.ofs ++ beBytes 1 0 ++
  beBytes 4 b.deadline.toNat

/-- The state and reason bytes of w0 to w8; 0 beyond the list. -/
def statesBytes (l : List (Nat × Nat)) : List Byte :=
  (List.range 9).flatMap (fun i => let x := l.getD i (0, 0); beBytes 1 x.1 ++ beBytes 1 x.2)

def readyBytes (b : ReadyBody) : List Byte :=
  beBytes 4 b.ident.toNat ++ beBytes 1 b.n ++ beBytes 3 0 ++ statesBytes b.states

def commitBytes (b : CommitBody) : List Byte :=
  beBytes 4 b.ident.toNat ++ beBytes 4 b.beat.toNat ++ beBytes 1 b.n ++ beBytes 3 0 ++ statesBytes b.states

def brightBytes (b : BrightBody) : List Byte :=
  beBytes 1 (b2n b.target) ++ beBytes 1 (flag b.night 7) ++ beBytes 2 0 ++ beBytes 4 b.value ++ beBytes 4 b.beat.toNat

def faultBytes (b : FaultBody) : List Byte :=
  beBytes 2 b.code ++ beBytes 1 b.sev ++ beBytes 1 (flag b.cleared 7) ++ beBytes 2 b.row ++ beBytes 2 b.col ++
  beBytes 4 b.sec.toNat

def censusBytes (b : CensusBody) : List Byte :=
  beInt 2 b.row ++ beInt 2 b.col ++ beBytes 2 b.tileW ++ beBytes 2 b.tileH ++
  beBytes 1 (flag b.fixed 7 + flag b.candidate 6) ++ beBytes 1 b.ports ++ beBytes 1 b.role ++ beBytes 1 b.drv

/-! ### Reading (R416, R420) -/

/-- The length a type must have; `k:LEAD` by its count n. -/
def knotLength (t : KnotType) (b : List Byte) : Nat :=
  match t with
  | .hello => 48 | .pos => 40 | .lead => 44 + 8 * byteAt b 36 | .beat => 68 | .prepare => 36 | .ready => 50
  | .commit => 54 | .bright => 36 | .fault => 36 | .census => 36

/-- The CRC of a knot passes. -/
def crcOk (b : List Byte) : Bool := (crc32 (b.take (b.length - 4))).toNat == fieldAt b (b.length - 4) 4

/-- A knot's length lies within 24 to 512 (R416). -/
def knotSized (b : List Byte) : Bool := 24 ≤ b.length && b.length ≤ 512 && fieldAt b 2 2 == b.length

/-- Length, CRC, type and the route and length of its type (R416, R420). A kind of `k:BRIGHT` that is reserved is judged by `bodyOk`. -/
def knotFormOk (t : KnotType) (b : List Byte) : Bool :=
  knotSized b && knotLength t b == b.length && crcOk b && byteAt b 0 == knotCode t &&
  (byteAt b 5 / 64 == knotRoute t (byteAt b 20 == 1) || (decide (t = .bright) && decide (2 ≤ byteAt b 20)))

/-- A state byte of `k:READY`, and of `k:COMMIT` without the value 15 (R422). -/
def stateByteOk (commit : Bool) (n : Nat) : Bool := n ≤ 3 || (n == 15 && !commit)

/-- The state and reason bytes of n windows from byte o. -/
def statesOk (commit : Bool) (b : List Byte) (o n : Nat) : Bool :=
  1 ≤ n && n ≤ 9 && (List.range n).all (fun i => stateByteOk commit (byteAt b (o + 2 * i)) && byteAt b (o + 1 + 2 * i) ≤ 4)

/-- No field holds a reserved value (00 R13): ports, roles and codes, rank classes, servo states, kinds, severities, fault codes, and
the states and reasons of R422. Version 0x01 alone, and the counts n within their range, are taken so too; so is a scene, table or
offset byte above 15, which is no strap code (log 88). -/
def bodyOk (t : KnotType) (b : List Byte) : Bool :=
  byteAt b 1 == 1 &&
  (match t with
  | .hello => byteAt b 20 ≤ 3 && listed pinRole (byteAt b 21)
  | .pos => true
  | .lead => byteAt b 21 ≤ 2 && byteAt b 36 ≤ 8 && listed pinRefresh (byteAt b 37) && listed pinLatency (byteAt b 38)
  | .beat => [0, 1, 2, 4].contains (byteAt b 20 % 8) && listed pinRefresh (byteAt b 21)
  | .prepare => byteAt b 24 ≤ 15 && listed pinLaytab (byteAt b 25) && byteAt b 25 ≤ 15 && listed pinLayofs (byteAt b 26) && byteAt b 26 ≤ 15
  | .ready => statesOk false b 28 (byteAt b 24)
  | .commit => statesOk true b 32 (byteAt b 28)
  | .bright => byteAt b 20 ≤ 1
  | .fault => byteAt b 22 ≤ 3 && faultCodes.contains (fieldAt b 20 2)
  | .census => listed pinRole (byteAt b 30) && listed pinDrv (byteAt b 31))

/-- A knot is used: its form passes, and no field holds a reserved value. -/
def knotOk (t : KnotType) (b : List Byte) : Bool := knotFormOk t b && bodyOk t b

def headOf (b : List Byte) : Head :=
  { wall := byteAt b 4, hops := byteAt b 6, orig := BitVec.ofNat 64 (fieldAt b 8 8), seqNo := BitVec.ofNat 32 (fieldAt b 16 4) }

/-- The header of a knot of type `t` that passes; none of one that is discarded. -/
def readKnot (t : KnotType) (b : List Byte) : Option Head := if knotOk t b then some (headOf b) else none

def readHello (b : List Byte) : Hello :=
  let f := byteAt b 22
  { port := byteAt b 20, role := byteAt b 21, known := bitAt f 7, fixed := bitAt f 6, candidate := bitAt f 5, lead := bitAt f 4
    standalone := bitAt f 3, held := bitAt f 2, row := signedAt b 24 2, col := signedAt b 26 2
    reqAnswered := BitVec.ofNat 16 (fieldAt b 28 2), turnaround := fieldAt b 30 4
    leadSerial := BitVec.ofNat 64 (fieldAt b 34 8), hops := fieldAt b 42 2
    wallId := byteAt b 4, serial := BitVec.ofNat 64 (fieldAt b 8 8) }

def readPos (b : List Byte) : PosBody :=
  { seed := BitVec.ofNat 64 (fieldAt b 20 8), fixed := bitAt (byteAt b 28) 7, hops := fieldAt b 30 2
    row := signedAt b 32 2, col := signedAt b 34 2 }

def readLead (b : List Byte) : LeadBody :=
  let f := byteAt b 20
  { claim := bitAt f 7, resign := bitAt f 6, settled := bitAt f 5, fixed := bitAt f 4, last := bitAt f 3
    cls := byteAt b 21, page := fieldAt b 22 2, rows := fieldAt b 24 2, cols := fieldAt b 26 2
    tileW := fieldAt b 28 2, tileH := fieldAt b 30 2, rowOff := signedAt b 32 2, colOff := signedAt b 34 2
    refresh := byteAt b 37, latency := byteAt b 38
    dups := (List.range (byteAt b 36)).map (fun i => BitVec.ofNat 64 (fieldAt b (40 + 8 * i) 8)) }

def readBeat (b : List Byte) : BeatBody :=
  { ptp := bitAt (byteAt b 20) 7, servo := byteAt b 20 % 8, refresh := byteAt b 21, beat := BitVec.ofNat 32 (fieldAt b 24 4)
    sec := fieldAt b 28 6, ns := fieldAt b 34 4, frac := fieldAt b 38 2, delay := signedAt b 40 8
    step := bitAt (byteAt b 48) 7, stepBeat := BitVec.ofNat 32 (fieldAt b 52 4), stepNs := signedAt b 56 8 }

def readPrepare (b : List Byte) : PrepareBody :=
  { ident := BitVec.ofNat 32 (fieldAt b 20 4), scene := byteAt b 24, table := byteAt b 25, ofs := byteAt b 26
    deadline := BitVec.ofNat 32 (fieldAt b 28 4) }

def readStates (b : List Byte) (o : Nat) : List (Nat × Nat) :=
  (List.range 9).map (fun i => (byteAt b (o + 2 * i), byteAt b (o + 1 + 2 * i)))

def readReady (b : List Byte) : ReadyBody :=
  { ident := BitVec.ofNat 32 (fieldAt b 20 4), n := byteAt b 24, states := readStates b 28 }

def readCommit (b : List Byte) : CommitBody :=
  { ident := BitVec.ofNat 32 (fieldAt b 20 4), beat := BitVec.ofNat 32 (fieldAt b 24 4), n := byteAt b 28
    states := readStates b 32 }

def readBright (b : List Byte) : BrightBody :=
  { target := byteAt b 20 == 1, night := bitAt (byteAt b 21) 7, value := fieldAt b 24 4, beat := BitVec.ofNat 32 (fieldAt b 28 4) }

def readFault (b : List Byte) : FaultBody :=
  { code := fieldAt b 20 2, sev := byteAt b 22, cleared := bitAt (byteAt b 23) 7, row := fieldAt b 24 2, col := fieldAt b 26 2
    sec := BitVec.ofNat 32 (fieldAt b 28 4) }

def readCensus (b : List Byte) : CensusBody :=
  { row := signedAt b 20 2, col := signedAt b 22 2, tileW := fieldAt b 24 2, tileH := fieldAt b 26 2
    fixed := bitAt (byteAt b 28) 7, candidate := bitAt (byteAt b 28) 6, ports := byteAt b 29, role := byteAt b 30
    drv := byteAt b 31 }

/-- State and reason values (R422); a knot with another value is not used (`bodyOk`). -/
def wstateOf (n : Nat) : WState :=
  match n with | 0 => .served | 1 => .delayed2 | 2 => .delayed4 | 15 => .absent | _ => .refused
def reasonOf (n : Nat) : Reason :=
  match n with | 1 => .ingest | 2 => .memory | 3 => .scaler | 4 => .port | _ => .none

/-! ### Link queues (R426) and routes (R423 to R425) -/

/-- Place in the order of service; 0 goes first. -/
def knotRank (t : KnotType) : Nat :=
  match t with
  | .beat => 0 | .lead => 1 | .commit => 2 | .prepare => 3 | .ready => 4 | .hello => 5 | .pos => 6 | .bright => 7
  | .census => 8 | .fault => 9

/-- Removes the newest element of a rank from a list that has its oldest first. -/
def dropNewest (r : Nat) (l : List QKnot) : List QKnot :=
  match l.reverse.findIdx? (fun q => knotRank q.type == r) with
  | none => l
  | some i => (l.reverse.eraseIdx i).reverse

/-- Adds a knot to a queue of 256; a full queue discards the newest of the lowest priority (R426). -/
def enqueueKnot (l : List QKnot) (q : QKnot) : List QKnot × Bool :=
  if l.length < 256 then (l ++ [q], false)
  else (dropNewest (maxNat ((l ++ [q]).map (fun x => knotRank x.type))) (l ++ [q]), true)

/-- Queues a knot on a link. -/
def queueOn (s : State) (d : Dir) (q : QKnot) : State :=
  let r := enqueueKnot (linkOf s d).queue q
  let s := modLink s d (fun l => { l with queue := r.1 })
  if r.2 then countUp ctKnot 1 s else s

def sendOn (s : State) (d : Dir) (t : KnotType) (b : List Byte) : State := queueOn s d ⟨t, b, .asIs⟩

/-- Queues a knot on every joined link but one. -/
def floodKnot (s : State) (except : Option Dir) (q : QKnot) : State :=
  ((joinedDirs s).filter (fun d => some d != except)).foldl (fun st d => queueOn st d q) s

def floodBut (s : State) (except : Option Dir) (t : KnotType) (b : List Byte) : State := floodKnot s except ⟨t, b, .asIs⟩

/-- The knot that a link sends next, and the rest of its queue: the highest priority, the oldest of it first (R426). -/
def nextKnot (l : List QKnot) : Option (QKnot × List QKnot) :=
  match l with
  | [] => none
  | q :: rest =>
    let r := rest.foldl (fun m x => min m (knotRank x.type)) (knotRank q.type)
    let i := l.findIdx (fun x => knotRank x.type == r)
    some (l.getD i q, l.eraseIdx i)

/-- The next sequence number of a type (R424). -/
def seqOut (s : State) (t : KnotType) : BitVec 32 := s.disc.seqOut.getD (knotCode t - 1) 0

def bumpSeq (s : State) (t : KnotType) : State :=
  modDisc (fun z => { z with seqOut := updAt z.seqOut (knotCode t - 1) (· + 1) }) s

def ownHead (s : State) (t : KnotType) : Head := ⟨wallId s, 0, serialOf s, seqOut s t⟩

/-- An own knot of the next sequence number. -/
def ownKnot (s : State) (t : KnotType) (target : Bool) (body : List Byte) : List Byte :=
  encodeKnot t target (ownHead s t) body

/-- No flooded knot is originated within 500 ms of the bring-up's reference instant (R424). -/
def mayFlood (s : State) : Bool := s.boot.ref + msT 500 ≤ s.now

/-- Originates a flooded knot. -/
def originFlood (s : State) (t : KnotType) (body : List Byte) : State :=
  if mayFlood s then bumpSeq (floodBut s none t (ownKnot s t true body)) t else s

/-- Sends an own upstream knot to the parent; without one it is discarded (R425). -/
def originUp (s : State) (t : KnotType) (body : List Byte) : State :=
  match s.disc.parent with
  | none => s
  | some d => bumpSeq (sendOn s d t (ownKnot s t false body)) t

/-- The reserved bits of a relayed type: each byte that holds some, with the bits that stand (Tables 9.2 and 9.4); state and reason
bytes past n carry 0. -/
def reservedBits (t : KnotType) (b : List Byte) : List (Nat × Byte) :=
  let body : List (Nat × Byte) := match t with
    | .hello => [(22, 0xFC), (23, 0)]
    | .pos => [(28, 0x80), (29, 0)]
    | .lead => [(20, 0xF8), (39, 0)]
    | .beat => [(20, 0x87), (22, 0), (23, 0), (48, 0x80), (49, 0), (50, 0), (51, 0)]
    | .prepare => [(27, 0)]
    | .ready => [(25, 0), (26, 0), (27, 0)] ++ (List.range (18 - 2 * byteAt b 24)).map (fun i => (28 + 2 * byteAt b 24 + i, 0))
    | .commit => [(29, 0), (30, 0), (31, 0)] ++ (List.range (18 - 2 * byteAt b 28)).map (fun i => (32 + 2 * byteAt b 28 + i, 0))
    | .bright => [(21, 0x80), (22, 0), (23, 0)]
    | .fault => [(23, 0x80)]
    | .census => [(28, 0xC0)]
  (5, 0xC0) :: (7, 0) :: body

/-- Bytes followed by their CRC (R416). -/
def withCrc (front : List Byte) : List Byte := front ++ beBytes 4 (crc32 front).toNat

/-- A knot with its hops raised by 1, its reserved bits 0 and its CRC made anew (R424, 00 R11). -/
def hopped (t : KnotType) (b : List Byte) : List Byte :=
  let front := updAt (b.take (b.length - 4)) 6 (· + 1)
  withCrc ((reservedBits t b).foldl (fun l x => updAt l x.1 (· &&& x.2)) front)

/-- The bytes of a knot from byte o replaced, its CRC made anew. -/
def knotWith (b : List Byte) (o : Nat) (l : List Byte) : List Byte :=
  withCrc (b.take o ++ l ++ (b.take (b.length - 4)).drop (o + l.length))

/-- Mark time of Table 9.4, from a counter value. -/
def markTimeBytes (c : Int) : List Byte :=
  let n := c.toNat
  beBytes 6 (n / 4294967296 / 1000000000) ++ beBytes 4 (n / 4294967296 % 1000000000) ++ beBytes 2 (n % 4294967296 / 65536)

/-- A knot as it leaves on a link whose own MARK BEAT has departed (R454, R455). -/
def filled (l : Link) (q : QKnot) : List Byte :=
  match q.fill, l.beatOut with
  | .markTime, some (_, t) => knotWith q.bytes 28 (markTimeBytes t)
  | .residence since, some (_, t) => knotWith q.bytes 40 (beInt 8 (signedAt q.bytes 40 8 + (t - since) / 65536))
  | _, _ => q.bytes

/-- The entry of an originator and type in the flooding table. -/
def seenSeq (s : State) (o : Serial) (t : KnotType) : Option (BitVec 32) :=
  (s.disc.seen.find? (fun e => e.1 == o && decide (e.2.1 = t))).map (fun e => e.2.2.1)

/-- A flooded knot is later than the last seen of its originator and type (R424). -/
def isLaterKnot (s : State) (h : Head) (t : KnotType) : Bool :=
  if h.orig = serialOf s then false
  else match seenSeq s h.orig t with | none => true | some q => later32 h.seqNo q

/-- Enters a pair, the least recently used leaving a full table of 1,024 (R424); the most recent stand first. -/
def noteSeen (s : State) (h : Head) (t : KnotType) : State :=
  let rest := s.disc.seen.filter (fun e => !(e.1 == h.orig && decide (e.2.1 = t)))
  modDisc (fun z => { z with seen := ((h.orig, t, h.seqNo, s.now) :: rest).take 1024 }) s

/-- A pair whose knot has arrived again is the one used most recently. -/
def touchSeen (s : State) (h : Head) (t : KnotType) : State :=
  modDisc (fun z =>
    let mine (e : Serial × KnotType × BitVec 32 × Ticks) : Bool := e.1 == h.orig && decide (e.2.1 = t)
    { z with seen := (z.seen.filter mine).map (fun e => (e.1, e.2.1, e.2.2.1, s.now)) ++ z.seen.filter (fun e => !mine e) }) s

/-- Relays a flooded knot on every other joined link (R424). -/
def relayFlood (s : State) (d : Dir) (t : KnotType) (b : List Byte) : State :=
  if byteAt b 6 == 255 then s else floodBut s (some d) t (hopped t b)

/-- Relays an upstream knot to the parent (R425). -/
def relayUp (s : State) (t : KnotType) (b : List Byte) : State :=
  match s.disc.parent with
  | none => s
  | some d => if byteAt b 6 == 255 then s else sendOn s d t (hopped t b)

/-- Counts a CRC discard of a link by the second (Table 9.7). -/
def noteCrc (now : Ticks) (l : Link) : Link :=
  let q := now / secT 1
  if q = l.crcSec then { l with crcCount := l.crcCount + 1 }
  else if q = l.crcSec + 1 && 10 ≤ l.crcCount then { l with crcSec := q, crcCount := 1, crcRun := l.crcRun + 1 }
  else { l with crcSec := q, crcCount := 1, crcRun := 0 }

/-- A knot is discarded and counted (R416, R420); one that only holds a reserved value is as if it had not arrived (00 R13). -/
def discardKnot (d : Dir) (t : KnotType) (b : List Byte) (s : State) : State :=
  if knotFormOk t b then s
  else countUp ctKnot 1 (if crcOk b || !knotSized b then s else modLink s d (noteCrc s.now))

/-- Outcome of a flooded knot's arrival on a joined link: acted on, or not. -/
inductive FloodIn
  | ignored (s : State)
  | taken (s : State) (h : Head)

/-- Receives a flooded knot without relaying it: a knot that fails is counted; one of another wall, on a link not joined, or
already seen is not acted on (R416, R420, R424, R430). -/
def acceptFlood (s : State) (d : Dir) (t : KnotType) (b : List Byte) : FloodIn :=
  match readKnot t b with
  | none => .ignored (discardKnot d t b s)
  | some h =>
    if (linkOf s d).joined.isNone || h.wall != wallId s then .ignored s
    else if isLaterKnot s h t then .taken (noteSeen s h t) h
    else .ignored (touchSeen s h t)

/-- Receives a flooded knot and relays one that is acted on. -/
def receiveFlood (s : State) (d : Dir) (t : KnotType) (b : List Byte) : FloodIn :=
  match acceptFlood s d t b with
  | .ignored s => .ignored s
  | .taken s h => .taken (relayFlood s d t b) h

/-! ### `k:FAULT` at its origin (R428) -/

/-- Keeps the latest 64 fault events of the wall, newest first. -/
def noteWallFault (s : State) (w : WallFault) : State :=
  modDisc (fun z => { z with wallFaults := (w :: z.wallFaults).take 64 }) s

def faultSentRecently (s : State) : Nat := (s.disc.faultSent.filter (fun t => s.now < t + secT 1)).length

/-- Originates one `k:FAULT` body. -/
def sendFaultBody (s : State) (body : List Byte) : State :=
  let s := modDisc (fun z => { z with
    faultSent := (s.now :: z.faultSent).filter (fun t => s.now < t + secT 1) }) s
  bumpSeq (floodBut s none .fault (ownKnot s .fault true body)) .fault

/-- A `k:FAULT` falls due: it is sent, or held beyond 4 per second; the oldest of 17 held is discarded. -/
def originFault (f : FaultName) (cleared : Bool) (s : State) : State :=
  if !domOn s 5 || !s.clk.running then s
  else
    let p := s.disc.position.getD (0, 0)
    let sec := BitVec.ofNat 32 s.time.sec.toNat
    let w : WallFault := ⟨BitVec.ofNat 16 (faultCode f), (sevOf f).val, cleared, p.1, p.2, sec⟩
    let body := faultBytes ⟨faultCode f, (sevOf f).val, cleared, p.1, p.2, sec⟩
    let s := noteWallFault s w
    if s.disc.faultHeld.isEmpty && faultSentRecently s < 4 && mayFlood s then sendFaultBody s body
    else if s.disc.faultHeld.length < 16 then
      modDisc (fun z => { z with faultHeld := z.faultHeld ++ [⟨.fault, body, .asIs⟩] }) s
    else
      countUp ctKnot 1 (modDisc (fun z => { z with faultHeld := z.faultHeld.tail ++ [⟨.fault, body, .asIs⟩] }) s)

end Sys2Proof.Machine
end

