-- ==== Sys2Proof/Machine/Egress.lean ====
section
/-!
DEFINITION. The egress queues of the ports (07 R299 to R304, Table 7.2), the ports a multicast reaches (R284, R286), and
the launch of a status record (R282, R328).
-/
namespace Sys2Proof.Machine
open Sys2Proof

/-! ### Groups and addresses (07 Table 7.3, R275) -/

def ip4 (a b c d : Nat) : Ip4 := BitVec.ofNat 32 (((a * 256 + b) * 256 + c) * 256 + d)
def videoGroup (s : State) (n : Nat) : Ip4 := ip4 239 64 (mcBase s) n
def audioGroup (s : State) (n : Nat) : Ip4 := ip4 239 65 (mcBase s) n
def ancGroup (s : State) (n : Nat) : Ip4 := ip4 239 66 (mcBase s) n
def statusGroup (s : State) : Ip4 := ip4 239 67 (mcBase s) (wallId s)
def ptpGroup : Ip4 := ip4 224 0 1 129
def sapGroup : Ip4 := ip4 239 255 255 255
def octet (a : Ip4) (i : Nat) : Nat := a.toNat / 256 ^ (3 - i) % 256

/-- The tile's own MAC address (R275). -/
def ownMac (s : State) : Mac := BitVec.ofNat 48 (0x025A * 2 ^ 32 + serialLow s)

/-! ### Ports (R286, R291, R294) -/

def portUp (s : State) (p : Port) : Bool := (netPort s p).linkUp.isSome

/-- A port that forwards: up, past its listening time and not blocked. -/
def portForwards (s : State) (p : Port) : Bool :=
  let q := netPort s p
  q.linkUp.isSome && decide (q.fwd = .forwarding) && q.blocked.isNone

/-- A port on which a query was heard in the last 255 s (R286). -/
def isRouterPort (s : State) (p : Port) : Bool :=
  match (netPort s p).queryAt with | none => false | some t => s.now < t + secT 255

def flooding (s : State) : Bool :=
  match s.net.guard.floodUntil with | none => false | some t => s.now < t

/-- The local port has joined a group. -/
def joinedLocal (s : State) (g : Ip4) : Bool := s.net.joins.any (fun j => j.group == g && j.joined)

def groupRegistered (s : State) (g : Ip4) : Bool := s.net.hosts.any (fun h => h.2.1 == g) || joinedLocal s g

/-- Whether snooping sends a group to a port (R286, R296). -/
def groupTo (s : State) (g : Ip4) (p : Port) : Bool :=
  isRouterPort s p || s.net.hosts.any (fun h => h.1 == p && h.2.1 == g) || (flooding s && groupRegistered s g)

/-! ### Queues (Table 7.2, R300 to R302) -/

def kib (n : Nat) : Nat := 1024 * n

/-- Tail-drop limit of a queue of a class, in bytes. -/
def queueLimit (k : Klass) : Nat :=
  match k with
  | .ptp | .control => kib 64
  | .audio | .ancillary | .video => kib 192
  | .overflow => kib 512
  | .sap | .other | .status => kib 128

/-- The number of a queue outside the media queues. -/
def fixedQueue (k : Klass) : Nat :=
  match k with | .ptp => 0 | .control => 1 | .overflow => 252 | .sap => 253 | .other => 254 | .status => 255 | _ => 2

def portQueue (s : State) (p : Port) : List QFrame := s.net.queue.getD p.val []
def setPortQueue (s : State) (p : Port) (l : List QFrame) : State :=
  modNet (fun z => { z with queue := updAt z.queue p.val (fun _ => l) }) s

def queueBytes (l : List QFrame) (q : Nat) : Nat := sumNat ((l.filter (fun f => f.queue == q)).map QFrame.len)
def bufferBytes (s : State) : Nat := sumNat (s.net.queue.map (fun l => sumNat (l.map QFrame.len)))

/-- The buffer holds 6 MiB; above 90 % only queues 0 and 1 accept (R302). -/
def bufferTight (s : State) : Bool := 9 * kib 6144 < 10 * bufferBytes s

/-- Puts a frame on a port's queue; a frame beyond the limit is dropped whole (R302). The flag says it was dropped. -/
def enqueueFrame (s : State) (p : Port) (f : QFrame) : State × Bool :=
  let l := portQueue s p
  if queueLimit f.klass < queueBytes l f.queue + f.len ||
      kib 6144 < bufferBytes s + f.len || (bufferTight s && 2 ≤ f.queue) then (s, true)
  else (setPortQueue s p (l ++ [f]), false)

/-- Wall time in the format of a launch time (08 Table 8.1). -/
def launchNow (s : State) : BitVec 32 := BitVec.ofInt 32 (counterOf s / 4294967296)

/-- A launch time has come, by the signed compare of 08 R361; a step moves it with wall time (08 R393). -/
def launched (s : State) (t : BitVec 32) : Bool := decide (0 ≤ cmp32 (launchNow s) t)

/-- Originates a frame on one port with a launch time (R303). -/
def originFrame (s : State) (p : Port) (k : Klass) (len : Nat) (launch : BitVec 32) (o : Orig) : State :=
  (enqueueFrame s p ⟨k, fixedQueue k, len, .own o, some launch, s.now, none, 0⟩).1

/-- Originates a multicast frame on every port of a list. -/
def originOn (s : State) (ps : List Port) (k : Klass) (len : Nat) (launch : BitVec 32) (o : Orig) : State :=
  ps.foldl (fun st p => originFrame st p k len launch o) s

/-- The storm limit of a port: 10,000 frames in a second, in fixed seconds of the ruler (R285; DESIGN CHOICE, log 81). -/
def stormPass (p : Port) (s : State) : Bool × State :=
  let q := netPort s p
  let sec := s.now / secT 1
  let n := if q.stormSec = sec then q.stormCount else 0
  if n < 10000 then (true, setNetPort s p (fun x => { x with stormSec := sec, stormCount := n + 1 })) else (false, s)

/-- Something that the storm limit counts leaves for a port, where the limit lets it. -/
def limitedBy (p : Port) (f : State → State) (s : State) : State :=
  match stormPass p s with
  | (true, s) => f s
  | (false, s) => s

def forwardingPorts (s : State) : List Port := ports.filter (portForwards s)

/-! ### Service (R299, R301, R303) -/

def klassRank (k : Klass) : Nat :=
  match k with
  | .ptp => 0 | .control => 1 | .audio => 2 | .ancillary => 3 | .video => 4 | .overflow => 4 | .sap => 5 | .other => 6
  | .status => 7

/-- Preamble and minimum gap beside the frame itself (R314). -/
def macBytes (len : Nat) : Nat := len + 20

/-- Bytes of a flow on a queue over the last 1 s. -/
def queueRate (now : Ticks) (m : MediaQ) : Nat := sumNat ((m.hist.filter (fun e => now < e.1 + secT 1)).map Prod.snd)

/-- Bits per second to which a media queue is shaped: 1.25 times its rate, not below 10 Mb/s (R301). -/
def shapedRate (now : Ticks) (m : MediaQ) : Nat := max (10 * queueRate now m) 10000000

/-- Burst credit of 16 KiB as time at the shaped rate. -/
def burstTime (now : Ticks) (m : MediaQ) : Ticks := kib 16 * 8 * secT 1 / shapedRate now m

def mediaQOf (s : State) (p : Port) (q : Nat) : Option MediaQ :=
  s.net.mediaQ.find? (fun m => m.port == p && m.queue == q)

/-- The shaper holds a media frame back while its credit is spent. -/
def shaperHolds (s : State) (p : Port) (f : QFrame) : Bool :=
  match mediaQOf s p f.queue with
  | none => false
  | some m => s.now + burstTime s.now m < m.tat

/-- A frame may leave: its launch instant has come and no shaper holds it. -/
def mayLeave (s : State) (p : Port) (f : QFrame) : Bool :=
  (match f.launch with | none => true | some t => launched s t) && !shaperHolds s p f

/-- The shaper's account after a frame has left. -/
def chargeShaper (s : State) (p : Port) (f : QFrame) : State :=
  modNet (fun z => { z with mediaQ := z.mediaQ.map (fun m =>
      if m.port == p && m.queue == f.queue then
        { m with tat := max s.now m.tat + macBytes f.len * 8 * secT 1 / shapedRate s.now m } else m) }) s

/-- The oldest frame of a queue that may leave, with its place on the port. -/
def queueHead (s : State) (p : Port) (q : Nat) : Option (Nat × QFrame) :=
  let l := portQueue s p
  match l.findIdx? (fun f => f.queue == q) with
  | none => none
  | some i => (l[i]?).bind (fun f => if mayLeave s p f then some (i, f) else none)

/-- The queues of one rank that have a frame to send, in ascending order. -/
def readyQueues (s : State) (p : Port) (rank : Nat) : List Nat :=
  let qs := ((portQueue s p).filter (fun f => klassRank f.klass == rank)).map QFrame.queue
  (List.range 256).filter (fun q => qs.contains q && (queueHead s p q).isSome)

/-- The round robin's quantum of a video queue: 2,000 bytes, a whole frame, for every 10 Mb/s of its shaped rate, so that the queues
share in proportion to their rates; the overflow queue counts as 10 Mb/s (DESIGN CHOICE, log 82). -/
def quantum (s : State) (p : Port) (q : Nat) : Nat :=
  match mediaQOf s p q with
  | none => 2000
  | some m => 2000 * shapedRate s.now m / 10000000

def deficitOf (s : State) (p : Port) (q : Nat) : Nat :=
  match (netPort s p).deficits.find? (fun d => d.1 == q) with | some d => d.2 | none => 0

def setDeficit (p : Port) (q n : Nat) (s : State) : State :=
  setNetPort s p (fun x => { x with drr := q, deficits := (q, n) :: x.deficits.filter (fun d => d.1 != q) })

/-- Video by deficit round robin: the queue under service goes on while its deficit covers its head, else the next one in turn takes
its quantum (Table 7.2). A queue without a frame keeps no deficit. -/
def pickVideo (p : Port) (ready : List Nat) (s : State) : Option (Nat × State) :=
  let s := setNetPort s p (fun x => { x with deficits := x.deficits.filter (fun d => (portQueue s p).any (fun f => f.queue == d.1)) })
  let cur := (netPort s p).drr
  let goOn := match (if ready.contains cur then queueHead s p cur else none) with
    | some h => if h.2.len ≤ deficitOf s p cur then some (h.1, setDeficit p cur (deficitOf s p cur - h.2.len) s) else none
    | none => none
  match goOn with
  | some r => some r
  | none =>
    match (ready.filter (fun q => cur < q) ++ ready.filter (fun q => q ≤ cur)).head? with
    | none => none
    | some q => (queueHead s p q).map (fun h => (h.1, setDeficit p q (deficitOf s p q + quantum s p q - h.2.len) s))

/-- The first rank with something to send. -/
def firstRank (s : State) (p : Port) : Option Nat := (List.range 8).find? (fun r => !(readyQueues s p r).isEmpty)

/-- The frame to send next: the classes in order, the audio and ancillary queues oldest frame first, video in turn (R299). -/
def pickFrame (s : State) (p : Port) : Option (Nat × State) :=
  match firstRank s p with
  | none => none
  | some 4 => pickVideo p (readyQueues s p 4) s
  | some r => (leastBy (fun i => ((i : Nat) : Int)) ((readyQueues s p r).filterMap (fun q => (queueHead s p q).map Prod.fst))).map (fun i => (i, s))

/-! ### Transparent clock (08 R336, R337, R356 to R360) -/

/-- Receive and transmit latency of a port to its connector, in 0.1 ns (Tables 8.2 and 8.3, R337). -/
def phyLatency (m : Option LaneMode) : Nat × Nat :=
  match m with
  | some .base10 => (528, 384)
  | some .base25 => (282, 192)
  | some .base25Fec => (896, 216)
  | some .base25Rs => (1824, 448)
  | none => (0, 0)

/-- The class of a port's module: `s:MODCLASS` when not 15, else that of its identification (07 R269). -/
def moduleClass (s : State) (p : Port) : Nat :=
  if code s pinModclass != 15 then code s pinModclass
  else match (netPort s p).module with
    | .identified _ .copper => 1
    | .identified _ .shortReach => 2
    | .identified _ .longReach => 3
    | .identified _ .aoc => 4
    | _ => 0

def moduleLatency (c : Nat) : Nat × Nat :=
  match c with | 1 => (5, 5) | 2 => (25, 15) | 3 => (40, 20) | 4 => (30, 30) | _ => (0, 0)

def rxLatencyF (s : State) (p : Port) : Int :=
  ((phyLatency (netPort s p).mode).1 + (moduleLatency (moduleClass s p)).1) * 4294967296 / 10

def txLatencyF (s : State) (p : Port) : Int :=
  ((phyLatency (netPort s p).mode).2 + (moduleLatency (moduleClass s p)).2) * 4294967296 / 10

/-- Residence of a frame that leaves `p` now, in 2^-16 ns to the nearest (R356). -/
def residenceOf (s : State) (p : Port) (f : QFrame) : Int :=
  match f.ingress with
  | none => 0
  | some q => (counterOf s + txLatencyF s p - (f.stamp - rxLatencyF s q) + 32768) / 65536

/-- A correctionField with an addition (R359). -/
def addCorrection (c d : Int) : Int := if c = 2 ^ 63 - 1 then c else min (c + d) (2 ^ 63 - 1)

/-- The kept residence times that are younger than 1 s. -/
def freshResidence (s : State) (l : List (Port × Nat × BitVec 80 × Nat × Int × Ticks)) :
    List (Port × Nat × BitVec 80 × Nat × Int × Ticks) := l.filter (fun e => s.now < e.2.2.2.2.2 + secT 1)

/-- Keeps the residence of a two-step Sync; 64 entries per egress port, the oldest dropped (R357). -/
def keepResidence (p : Port) (m : PtpRelay) (r : Int) (s : State) : State :=
  let l := freshResidence s s.time.residence
  let own := (l.filter (fun e => e.1 == p && !(e.2.1 == m.domain && e.2.2.1 == m.source && e.2.2.2.1 == m.seq))).take 63
  let others := l.filter (fun e => e.1 != p)
  modTime (fun z => { z with residence := (p, m.domain, m.source, m.seq, r, s.now) :: own ++ others }) s

/-- The kept residence that matches a Follow_Up leaving `p`. -/
def residenceFor (s : State) (p : Port) (m : PtpRelay) : Option Int :=
  ((freshResidence s s.time.residence).find? (fun e =>
    e.1 == p && e.2.1 == m.domain && e.2.2.1 == m.source && e.2.2.2.1 == m.seq)).map (fun e => e.2.2.2.2.1)

/-- 16-bit ones' complement addition. -/
def addOnes (a b : Nat) : Nat := let n := a + b; if 65535 < n then n - 65535 else n

/-- RFC 1624: the checksum after words of the datagram have changed; 0 stays 0 (R360). -/
def updateChecksum (c : BitVec 16) (old new : List Nat) : BitVec 16 :=
  if c = 0 then 0
  else
    let n := (old.zip new).foldl (fun a w => addOnes (addOnes a (65535 - w.1)) w.2) (65535 - c.toNat)
    BitVec.ofNat 16 (65535 - n)

/-- The words of a correctionField. -/
def corrWords (c : Int) : List Nat :=
  let v := (BitVec.ofInt 64 c).toNat
  [v / 2 ^ 48, v / 2 ^ 32 % 65536, v / 65536 % 65536, v % 65536]

/-- A message with a residence added, and its checksum with it (R357, R359, R360). -/
def withResidence (m : PtpRelay) (d : Int) : PtpRelay :=
  let c := addCorrection m.correction d
  { m with correction := c, checksum := updateChecksum m.checksum (corrWords m.correction) (corrWords c) }

/-- A relayed PTP message as it leaves a port (R357, R358). -/
def relayPtp (p : Port) (f : QFrame) (g : Frame) (m : PtpRelay) (s : State) : State × Frame :=
  let put (d : Int) : Frame := { g with body := .ptp (withResidence m d) }
  if m.layer2 then (s, g)
  else
    match m.kind with
    | .sync false => (s, put (residenceOf s p f))
    | .delayReq => (s, put (residenceOf s p f))
    | .sync true => (keepResidence p m (residenceOf s p f) s, g)
    | .followUp =>
      match residenceFor s p m with
      | some r => (s, put r)
      | none => (countUp ctFollowUp 1 s, g)
    | .other => (s, g)

/-- The seconds and nanoseconds of a PTP timestamp (08 R332, R363). -/
def ptpStamp (t : Int) : Nat × Nat :=
  let ns := (t / 4294967296).toNat
  (ns / 1000000000 % 2 ^ 48, ns % 1000000000)

/-- The own Delay_Req leaves: t3 is its connector-referenced egress timestamp, kept whole and written truncated (08 R344). -/
def stampDelayReq (p : Port) (q : Nat) (s : State) : State × Payload :=
  let t3 := counterOf s + txLatencyF s p
  (modTime (fun z => { z with delayOut := z.delayOut.map (fun x => if x.1 == q then (q, some t3, x.2.2) else x) }) s,
    .own (.delayReq q (ptpStamp t3)))

/-- What leaves of a frame, and what its leaving notes. A tagged frame leaves as it came (R274). -/
def leavePayload (p : Port) (f : QFrame) (s : State) : State × Payload :=
  match f.payload with
  | .relayed g =>
    if g.vlan.isSome then (s, f.payload)
    else match g.body with
      | .ptp m => let r := relayPtp p f g m s; (r.1, .relayed r.2)
      | _ => (s, f.payload)
  | .own (.delayReq q _) => stampDelayReq p q s
  | _ => (s, f.payload)

/-- A frame leaves a port. -/
def leaveFrame (s : State) (p : Port) (i : Nat) : State :=
  match (portQueue s p)[i]? with
  | none => s
  | some f =>
    let r := leavePayload p f (chargeShaper (setPortQueue s p ((portQueue s p).eraseIdx i)) p f)
    emit r.1 (.frame p r.2)

def isGuard (f : QFrame) : Bool := match f.payload with | .guardRelay _ => true | .own (.guard _) => true | _ => false

/-- A listening or blocked port drops everything but guard frames (R291). -/
def dropHeld (s : State) (p : Port) : State :=
  if portForwards s p then s else setPortQueue s p ((portQueue s p).filter isGuard)

/-- The port sends frames: its link is up, and no fault sequence is heard on it (R272). -/
def portSends (s : State) (p : Port) : Bool := portUp s p && decide ((netPort s p).fault = .none)

/-- What the transmitter of a powered port sends beside frames: remote fault while its own receiver has no link, and idle while the
other side reports one (IEEE 802.3; R272). -/
inductive LineSignal | frames | remoteFault | idle
  deriving DecidableEq, Repr

def lineSignal (s : State) (p : Port) : LineSignal :=
  if !portUp s p || decide ((netPort s p).fault = .localFault) then .remoteFault
  else if decide ((netPort s p).fault = .remoteFault) then .idle
  else .frames

/-- One frame leaves a port, in the order of service (R299). -/
def servePort (s : State) (p : Port) : State :=
  if !portSends s p then s
  else
    let s := dropHeld s p
    match pickFrame s p with | none => s | some r => leaveFrame r.2 p r.1

/-! ### Status records (R282, R328, 19 R915) -/

/-- Bytes of a status-record frame: 512 with UDP, IPv4, Ethernet and FCS. -/
def recordFrameLen : Nat := 512 + 8 + 20 + 18

/-- From port 50620 to port 50620, DSCP 0, TTL 16 (R282). -/
def recordUdp : UdpHead := ⟨50620, 50620, 0, 16⟩

def sentLastSecond (s : State) : Nat := (s.status.sentAt.filter (fun t => s.now < t + secT 1)).length

/-- Status records are formed and sent: the system clock runs, the tile is not in standby, and D1 and D3 are on. -/
def recordsRun (s : State) : Bool := runs s && domOn s 1 && domOn s 3

/-- Builds, signs and launches a record at once; beyond 10 in any 1 s it is withheld (R282). -/
def launchRecord (kind : BitVec 8) (s : State) : State :=
  if !recordsRun s then s
  else if 10 ≤ sentLastSecond s then modStatus (fun z => { z with withheld := z.withheld + 1 }) s
  else
    let bytes := statusRecord s kind
    let src := s.net.addr.claimed.getD 0
    let s1 := originOn s ((forwardingPorts s).filter (groupTo s (statusGroup s))) .status recordFrameLen (launchNow s)
      (.statusRecord recordUdp bytes src (statusGroup s))
    modStatus (fun z => { z with
        seq := z.seq + 1
        sentAt := (s.now :: s.status.sentAt).filter (fun t => s.now < t + secT 1)
        triggeredAt := if kind.getLsbD 0 then some s.now else z.triggeredAt }) s1

end Sys2Proof.Machine
end

