-- ==== Sys2Proof/Machine/FaultOps.lean ====
section
/-!
DEFINITION. Raising and clearing faults: the ring, handlers and the queue, safe state, hold-offs and safe hold
(19 R899 to R914, Tables 19.1 and 19.2).
-/
namespace Sys2Proof.Machine
open Sys2Proof

/-! ### Ring and counts (R913, R905) -/

/-- Writes an entry; a full ring of 256 loses its oldest, counted when not yet mirrored (R913, R914). -/
def addEntry (e : RingEntry) (s : State) : State :=
  match s.flt.ring with
  | [] => modFlt (fun z => { z with ring := [e] }) s
  | old :: rest =>
    if s.flt.ring.length < 256 then modFlt (fun z => { z with ring := z.ring ++ [e] }) s
    else modFlt (fun z => { z with
      ring := rest ++ [e]
      ringLost := if old.mirrored || z.ringLost == 255 then z.ringLost else z.ringLost + 1 }) s

/-- The entry of a raise or clear at the present counter time (Table 19.4). -/
def entryNow (f : FaultName) (cleared : Bool) (detail : BitVec 32) (s : State) : RingEntry :=
  { f := f, cleared := cleared, ptp := s.time.ptpOrigin, bringUp := s.flt.bringUp
    sec := BitVec.ofNat 32 s.time.sec.toNat, ns := BitVec.ofNat 32 s.time.ns.toNat, detail := detail }

def writeRing (f : FaultName) (cleared : Bool) (detail : BitVec 32) (s : State) : State :=
  addEntry (entryNow f cleared detail s) s

/-- `t:fault_count`, saturating. -/
def countRaise (f : FaultName) (s : State) : State :=
  modFlt (fun z => { z with
      counts := updAt z.counts (sevOf f).val (fun c => if c == 0xFFFF#16 then c else c + 1) }) s

def setActive (f : FaultName) (key : Nat) (detail : BitVec 32) (s : State) : State :=
  if sevOf f = 0 then s else modFlt (fun z => { z with active := z.active ++ [⟨f, key, detail, s.now⟩] }) s

def unsetActive (f : FaultName) (key : Nat) (s : State) : State :=
  modFlt (fun z => { z with active := z.active.filter (fun a => !(decide (a.f = f) && a.key == key)) }) s

/-- Bookkeeping of a raise: it is active and counted, and an open LED is kept for bytes 212 and 213. -/
def noteRaise (f : FaultName) (key : Nat) (detail : BitVec 32) (s : State) : State :=
  let s := countRaise f (setActive f key detail s)
  if f = .weftOpenled && !s.weft.openSeen.contains detail then
    modWeft (fun z => { z with openSeen := z.openSeen ++ [detail] }) s
  else s

/-! ### Handlers and the queue (R903 to R905) -/

/-- Priority of a raise or a clear: a clear has that of S0. -/
def prioOf (q : Queued) : Sev := if q.cleared then 0 else sevOf q.f

/-- A raise or clear as it arrives. -/
def arrival (f : FaultName) (key : Nat) (detail : BitVec 32) (cleared : Bool) (s : State) : Queued :=
  { f := f, key := key, detail := detail, cleared := cleared
    sec := BitVec.ofNat 32 s.time.sec.toNat, ns := BitVec.ofNat 32 s.time.ns.toNat, ptp := s.time.ptpOrigin }

/-- The ring entry of a raise or clear that has arrived (log 20). -/
def writeQueued (q : Queued) (s : State) : State :=
  addEntry { f := q.f, cleared := q.cleared, ptp := q.ptp, bringUp := s.flt.bringUp, sec := q.sec, ns := q.ns, detail := q.detail } s

/-- What a handler does when it starts: the ring entry and the effects of Table 19.1. -/
def handle (q : Queued) (s : State) : State :=
  let s := writeQueued q s
  let s := if sevOf q.f = 0 then s else launchRecord 1 s
  let s := if sevOf q.f = 2 then originFault q.f q.cleared s else s
  if sevOf q.f = 0 || q.cleared then s else modBea (fun z => { z with extra := [3, 0] }) s

/-- Every running handler has a lower priority. -/
def preempts (p : Sev) (s : State) : Bool := s.flt.handlers.all (fun h => h.prio < p)

/-- A handler of S3 runs from the raise to the start of its restart (R903). -/
def s3Runs (s : State) : Bool := s.flt.holdoff.isSome

/-- Submits a raise or clear of S0 to S2: handled at once, queued, or lost (R904, R905). -/
def submit (q : Queued) (s : State) : State :=
  if !s.clk.running then writeQueued q s
  else if preempts (prioOf q) s && !s3Runs s then
    handle q (modFlt (fun z => { z with handlers := ⟨q, prioOf q, s.now⟩ :: z.handlers }) s)
  else if s.flt.queue.length < 16 then
    modFlt (fun z => { z with
        queue := z.queue ++ [q]
        peak := max z.peak (z.queue.length + 1) }) s
  else
    modFlt (fun z => { z with
        lost := if z.lost == 255 then 255 else z.lost + 1
        lostSince := z.lostSince + 1 }) s

/-- Index of the queued item to serve: highest priority first, then in order of arrival (R905). -/
def bestQueued (l : List Queued) : Option Nat :=
  leastBy (fun i => ((3 - ((l[i]?).elim 0 prioOf).val) * 32 + i : Nat)) (List.range l.length)

/-- Serves the next queued item when it may start, and raises `f:FM_OVERFLOW` for what was lost (R905). -/
def serveQueue (s : State) : State :=
  match bestQueued s.flt.queue with
  | none => s
  | some i =>
    match s.flt.queue[i]? with
    | none => s
    | some q =>
      if preempts (prioOf q) s && !s3Runs s then
        let n := s.flt.lostSince
        let s := handle q (modFlt (fun z => { z with
          queue := z.queue.eraseIdx i
          lostSince := 0
          handlers := ⟨q, prioOf q, s.now⟩ :: z.handlers }) s)
        if n == 0 || activeKey s .fmOverflow 0 then s
        else submit (arrival .fmOverflow 0 (BitVec.ofNat 32 n) false s) (noteRaise .fmOverflow 0 (BitVec.ofNat 32 n) s)
      else s

/-! ### Audio mutes (15 R740, R742, R747, R757) -/

/-- A ramp down to gain 0 over r samples, from the present gain. -/
def rampDown (r : Nat) (o : AOut) : AOut :=
  match o.ramp with
  | none => if o.mute.isEmpty then { o with ramp := some ⟨false, 0, r⟩ } else o
  | some p =>
    if p.up then { o with ramp := some ⟨false, (p.r - p.i) * r / p.r, r⟩ }
    else if r < p.r then { o with ramp := some ⟨false, p.i * r / p.r, r⟩ } else o

/-- A ramp up to gain 1 over r samples, from the present gain. -/
def rampUp (r : Nat) (o : AOut) : AOut :=
  match o.ramp with
  | none => { o with ramp := some ⟨true, 0, r⟩ }
  | some p => if p.up then o else { o with ramp := some ⟨true, (p.r - p.i) * r / p.r, r⟩ }

def muteOut (c : MuteCause) (r : Nat) (o : AOut) : AOut :=
  if o.mute.contains c then o
  else
    let o := rampDown r o
    { o with mute := c :: o.mute }

def unmuteOut (c : MuteCause) (r : Nat) (o : AOut) : AOut :=
  let l := o.mute.filter (fun x => !decide (x = c))
  if o.mute.contains c && l.isEmpty then rampUp r { o with mute := l } else { o with mute := l }

def onOutputs (f : AOut → AOut) (s : State) : State :=
  modAud (fun z => { z with outA := f z.outA, outB := f z.outB }) s

/-- Mutes both outputs with a ramp of r samples, or at once while the clocks stand still (R747, 05 R216). -/
def muteAll (c : MuteCause) (r : Nat) (s : State) : State :=
  if s.aud.clocks then onOutputs (muteOut c r) s
  else onOutputs (fun o => { o with mute := if o.mute.contains c then o.mute else c :: o.mute, ramp := none }) s

def unmuteAll (c : MuteCause) (r : Nat) (s : State) : State :=
  if s.aud.clocks then onOutputs (unmuteOut c r) s
  else onOutputs (fun o => { o with mute := o.mute.filter (fun x => !decide (x = c)), ramp := none }) s

/-! ### Safe state (R902), self-tests (06 R260) -/

/-- A requested suite that is to end does so at the present slice boundary, ABORTED; the tests it has completed are recorded
already (R260, 03 R124), and a record is sent at once (R252). -/
def endSuite (s : State) : State :=
  match s.test.suite with
  | some q => if q.ending then launchRecord 4 (addResult testSuite .aborted (modTest (fun z => { z with suite := none }) s)) else s
  | none => s

/-- A requested suite ends at its next slice boundary (R260, 03 R124). -/
def abortSuite (s : State) : State :=
  modTest (fun z => { z with suite := z.suite.map (fun q => { q with ending := true }) }) s

/-- Ends a running visible sequence as ABORTED, with its record (R252, R260). -/
def abortVisible (s : State) : State :=
  if s.test.visible.isSome || s.test.visibleDue then
    let s := if s.test.visible.isSome then launchRecord 4 (addResult testVisible .aborted s) else s
    onOutputs (fun o => { o with mute := o.mute.filter (fun x => !decide (x = .selftest)) })
      (modTest (fun z => { z with visible := none, visibleDue := false, endDue := none }) s)
  else s

/-- Safe state and standby entry end the self-tests: the visible sequence at once, the suite at its next slice boundary, which a
stopped clock makes the present one (R260). -/
def abortTests (s : State) : State := abortSuite (abortVisible s)

/-- The outputs go to safe state: tests end, audio is muted over 64 samples; canvas and markers follow `safeState`. -/
def enterSafe (s : State) : State := muteAll .safe 64 (abortTests s)

/-- The ledger interface makes no write until the next bring-up has read the headers; a flush is abandoned (R914, R924). -/
def ledgerStop (s : State) : State :=
  { s with ldg := { s.ldg with usable := false, busy := none, todo := [], mirroring := 0, copy := none }, weft := { s.weft with flushing := false } }

/-! ### Stopping the system clock and losing the core (05 R216, 04 R142) -/

/-- The system clock stops: the TDM pins go low with no ramp and frame memory is in retention (R216, 04 Table 4.3); a suite that
is to end has no later slice. -/
def stopClock (s : State) : State :=
  let s := endSuite s
  let s := { s with clk := { s.clk with running := false }, aud := { s.aud with clocks := false } }
  let s := onOutputs (fun o => { o with ramp := none }) s
  if domOn s 6 then setDom s 6 (fun d => { d with phase := .retention }) else s

/-- What AON keeps of the markers: groups switched off for a fault, and channels off after their 8th retry (14 R707, R714). -/
def keptMarks (m : Mk) : Mk :=
  { chan := m.chan.map (fun c => if c.dead then { dead := true, latched := true, retries := c.retries } else {})
    group := m.group.map (fun g => { off := g.off }) }

/-- The state of domains D1 to D11 is lost (R142, 06 R222). Kept are what stands in D0, the Bobbin sequences among it (16
R775, R783), in the fuses, in the ledger flash and, per port, the module found there (07 R318). -/
def clearCore (s : State) : State :=
  { s with
    test := {}
    keys := { s.keys with store := [], swapDue := none, rootBad := false }
    flt := { s.flt with handlers := [], rate := [], hangs := [], peak := 0 }
    ldg := { s.ldg with
      usable := false, busy := none, todo := [], mirroring := 0, copy := none, status := 0, fails := [], stopped := [], mirrors := []
      density := 0, read114 := false }
    status := { seq := s.status.seq }
    sens := {}
    net := { port := s.net.port.map (fun p => { module := p.module, mode := p.mode, txDis := p.txDis, carried := p.carried }) }
    time := {}
    sv := {}
    disc := {}
    scene := {}
    mem := {}
    xb := {}
    adm := {}
    weft := {}
    amb := {}
    bri := {}
    mark := keptMarks s.mark
    aud := {}
    bob := { seqOut := s.bob.seqOut, seqIn := s.bob.seqIn }
    bea := {}
    card := {}
    dlg := {} }

/-- All buck phases stop and D1 to D11 lose their state (R142). -/
def loseCore (s : State) : State :=
  let s := clearCore (modClk (fun z => { z with running := false, locked := false }) s)
  modPwr (fun z => { z with
      buckOn := false
      dom := z.dom.mapIdx (fun i d => if i = 0 then d else {})
      lane := List.replicate 4 false
      vcoreSet := false
      margin := 0
      marginDom := 0 }) s

/-! ### S3 faults (R907 to R910, Table 19.2) -/

/-- Hold-off of a fault: its length, or none where a condition ends it. -/
def holdoffOf (f : FaultName) : Option Ticks :=
  match f with
  | .pwrBrownout | .clkXtal => none
  | .clkUnlock => some (msT 1)
  | .fmDouble => some (secT 2)
  | _ => some (msT 100)

/-- Its restart is counted (Table 19.2). -/
def holdCounted (f : FaultName) : Bool := !decide (f = .pwrBrownout)

/-- Counted restarts within 10 min before an instant (R909). -/
def restartsBefore (s : State) (t : Ticks) : Nat := (s.flt.restarts.filter (fun r => t < r + secT 600)).length

/-- Safe hold: the system clock is stopped without a time limit (R910). -/
def enterSafeHold (s : State) : State :=
  stopClock (modFlt (fun z => { z with safeHold := true, safe := true, holdoff := none }) s)

/-- The outputs go to safe state and the ledger interface stops writing (R902, R914). -/
def s3Safe (s : State) : State :=
  let s := ledgerStop (enterSafe (modFlt (fun z => { z with safe := true }) s))
  modBoot (fun z => { z with started := false }) s

/-- The hold-off of an S3 fault begins, or safe hold in its place (R908, R909). -/
def beginHold (f : FaultName) (s : State) : State :=
  match (holdoffOf f).map (fun d => s.now + d) with
  | some t =>
    if holdCounted f && 3 ≤ restartsBefore s t then enterSafeHold s
    else modFlt (fun z => { z with holdoff := some ⟨f, some t, decide (f = .fmDouble)⟩ }) s
  | none => modFlt (fun z => { z with holdoff := some ⟨f, none, false⟩ }) s

/-- The clock faults stop the system clock; a brown-out loses the core (05 R216, 04 R142). -/
def s3Action (f : FaultName) (s : State) : State :=
  match f with
  | .clkUnlock => stopClock (modClk (fun z => { z with locked := false }) s)
  | .clkXtal => stopClock (modClk (fun z => { z with
      locked := false, refPresent := false, refCheckAt := some (s.now + msT 100), refGoodSince := none }) s)
  | .pwrBrownout => loseCore s
  | _ => s

/-- An S3 fault is handled: ring, safe state, record and `k:FAULT` (Table 19.1), then its hold-off. -/
def handleS3 (f : FaultName) (detail : BitVec 32) (s : State) : State :=
  let s := writeRing f false detail (noteRaise f (faultKey f detail) detail s)
  let s := originFault f false (launchRecord 1 (s3Safe s))
  let s := modBea (fun z => { z with extra := [3, 0] }) s
  s3Action f (beginHold f s)

/-- In safe hold, in standby and in reset an S3 fault is written to the ring with no other effect (R924, R975, R979). -/
def s3RingOnly (s : State) : Bool := s.flt.safeHold || s.standby.asleep || s.boot.inReset

/-- `f:FM_DOUBLE` takes over (R907). -/
def takeOver (detail : BitVec 32) (s : State) : State := handleS3 .fmDouble detail s

def raiseS3 (f : FaultName) (detail : BitVec 32) (s : State) : State :=
  if s3RingOnly s then writeRing f false detail (noteRaise f (faultKey f detail) detail s)
  else
    match s.flt.holdoff with
    | none => handleS3 f detail s
    | some h =>
      if h.double then writeRing f false detail s
      else if f = .fmDouble then takeOver detail s
      else
        let s := writeRing f false detail (noteRaise f (faultKey f detail) detail s)
        takeOver 0 (s3Action f s)

/-! ### The two operations every block uses -/

/-- A fault is raised (R899 to R907). A raise of an active instance has no effect (R906). -/
def raise (f : FaultName) (detail : BitVec 32) (s : State) : State :=
  let key := faultKey f detail
  if activeKey s f key then s
  else if sevOf f = 3 then raiseS3 f detail s
  else submit (arrival f key detail false s) (noteRaise f key detail s)

/-- The detail an active instance was raised with. -/
def activeDetail (s : State) (f : FaultName) (key : Nat) : BitVec 32 :=
  match s.flt.active.find? (fun a => decide (a.f = f) && a.key == key) with | some a => a.detail | none => 0

/-- A fault instance is cleared: it is no longer active, and a cleared entry is written with S0 priority (R905). -/
def clearKey (f : FaultName) (key : Nat) (s : State) : State :=
  if activeKey s f key then
    let d := activeDetail s f key
    submit (arrival f key d true s) (unsetActive f key s)
  else s

def clearFault (f : FaultName) (detail : BitVec 32) (s : State) : State := clearKey f (faultKey f detail) s

/-- Clears every instance of a fault. -/
def clearAll (f : FaultName) (s : State) : State :=
  ((s.flt.active.filter (fun a => decide (a.f = f))).map Active.key).foldl (fun st k => clearKey f k st) s

/-- Raises an event at most once per period and instance; what falls between is counted only. -/
def raiseLimited (f : FaultName) (key : Nat) (period : Ticks) (detail : BitVec 32) (s : State) : State :=
  match s.flt.rate.find? (fun r => decide (r.1 = f) && r.2.1 == key) with
  | some r =>
    if s.now < r.2.2.1 + period then
      modFlt (fun z => { z with rate := z.rate.map (fun x =>
          if decide (x.1 = f) && x.2.1 == key then (x.1, x.2.1, x.2.2.1, x.2.2.2 + 1) else x) }) s
    else
      raise f detail (modFlt (fun z => { z with
        rate := (f, key, s.now, 0) :: z.rate.filter (fun x => !(decide (x.1 = f) && x.2.1 == key)) }) s)
  | none => raise f detail (modFlt (fun z => { z with rate := (f, key, s.now, 0) :: z.rate }) s)

/-- D0 writes a raise of its own to the ring directly, with no handler (03 R98, R979). -/
def raiseDirect (f : FaultName) (detail : BitVec 32) (s : State) : State :=
  if activeKey s f (faultKey f detail) then s
  else writeRing f false detail (noteRaise f (faultKey f detail) detail s)

/-- Every fault still queued is written to the ring in queue order, and the queue is emptied (R977). -/
def flushQueue (s : State) : State :=
  let s := s.flt.queue.foldl (fun st q => writeQueued q st) s
  modFlt (fun z => { z with queue := [], handlers := [] }) s

/-- Every active fault ends with a cleared entry (R978). -/
def endActive (s : State) : State :=
  let s := s.flt.active.foldl (fun st a => writeRing a.f true a.detail st) s
  modFlt (fun z => { z with active := [] }) s

end Sys2Proof.Machine
end

