-- ==== Sys2Proof/Machine/BringOps.lean ====
section
/-!
DEFINITION. What every bring-up does at its reference instant (06 R221 to R235, 19 R977, R978, 04 R133, 17 R834).
-/
namespace Sys2Proof.Machine
open Sys2Proof

/-! ### Bank levels (04 R133 to R135, R976) -/

/-- The band of a bank reading in mV (R133). -/
def bandOf (mv : Nat) : Level :=
  if 1650 ≤ mv && mv ≤ 1950 then .v18 else if 3050 ≤ mv && mv ≤ 3550 then .v33 else .none

def bankSt (s : State) (b : Bank) : BankSt := match b with | .weft => s.pwr.bankW | .misc => s.pwr.bankM
def setBank (b : Bank) (x : BankSt) (s : State) : State :=
  match b with
  | .weft => modPwr (fun z => { z with bankW := x }) s
  | .misc => modPwr (fun z => { z with bankM := x }) s

/-- Detail of `f:PWR_DOMAIN` for a bank (19 Table 19.3). -/
def bankDetail (b : Bank) : BitVec 32 := match b with | .weft => 16 | .misc => 17

/-- The bank's pins can be used: its level is set and it is not lost. -/
def bankUsable (s : State) (b : Bank) : Bool := decide ((bankSt s b).level ≠ .none) && !(bankSt s b).lost

/-- A bank is measured at a reference instant; outside both levels it raises `f:PWR_DOMAIN` (R133, R134). -/
def measureBank (b : Bank) (mv : Nat) (s : State) : State :=
  let l := bandOf mv
  let s := setBank b { level := l, lost := false, lastBand := l, run := 0, next := s.now + msT 10 } s
  if l = .none then raise .pwrDomain (bankDetail b) s else s

def measureBanks (m : BankMv) (s : State) : State := measureBank .misc m.misc (measureBank .weft m.weft s)

/-- `f:PWR_DOMAIN` clears when no domain is held off and no bank is outside both levels or lost (R976). -/
def settlePower (s : State) : State :=
  if s.pwr.dom.any DomSt.heldOff || !bankUsable s .weft || !bankUsable s .misc then s else clearAll .pwrDomain s

/-! ### Fuses at a bring-up (06 R231, 17 R834 to R836) -/

/-- Some pair of the shadow reads half (R818). -/
def halfPairs (fuses : List Nat) : List Nat :=
  (fuses.filter (fun f => decide (pairRead fuses (f / 2) = .half))).map (fun f => f / 2)

/-- The slot a pair lies in, or 0. -/
def slotOfPair (p : Nat) : Nat := if 1408 ≤ p && p < 11648 then (p - 1408) / 640 else 0

/-- `f:KEY_VERIFY` for a pair (19 Table 19.3: [7:4] 0 OTP pair, [3:0] slot). -/
def verifyPair (p : Nat) (s : State) : State := raise .keyVerify (BitVec.ofNat 32 (slotOfPair p)) s

/-- The phase is read, and a pair left half is reported (R836, 06 Table 6.6). -/
def readPhase (s : State) : State :=
  let s := modKeys (fun z => { z with phase := phaseOf s.otp.shadow }) s
  match halfPairs s.otp.shadow with
  | [] => s
  | p :: _ => verifyPair p s

/-- The shadow is read and what an interruption left is planned; with nothing to complete the phase is read (R834). -/
def readFuses (s : State) : State :=
  let s := { s with
    otp := { s.otp with shadow := s.otp.fuse }
    boot := { s.boot with shadowRead := true } }
  let plan := completionPlan s.otp.shadow
  if plan.1.isEmpty then readPhase (modKeys (fun z => { z with seq := none }) s)
  else modKeys (fun z => { z with
    phase := phaseOf s.otp.shadow
    seq := some { kind := .complete, stage := .body, todo := plan.1, records := plan.2.1, slots := plan.2.2 } }) s

/-! ### D0 at a bring-up (Table 6.1) -/

/-- What of the ledger flash is not lost with power (log 4). -/
def flashOnly (l : Ledger) : Ledger :=
  { generation := l.generation, log := l.log, nextSeq := l.nextSeq, copies := l.copies, ids := l.ids, history := l.history
    lastFlush := l.lastFlush, logKey := l.logKey }

/-- The part without AON: everything but fuses, flash, unit and pins is lost (R145). -/
def aonLost (s : State) : State :=
  { now := s.now, pending := s.pending, fresh := s.fresh, sent := s.sent, unit := s.unit
    otp := { fuse := s.otp.fuse }, ldg := flashOnly s.ldg }

/-- D0 state cleared by `RESET_N`: all but the fault ring, the slow-clock selection and the fuse shadow (R235); what the
ring still has to receive, the count since power-up and the bring-up number stay with it (R977, R978; log 20). -/
def resetD0 (s : State) : State :=
  { s with
    straps := {}
    live := {}
    standby := {}
    clk := { slowXtal := s.clk.slowXtal, substituted := s.clk.substituted, trimmed := s.clk.trimmed
             nextTrim := s.clk.nextTrim, nextSlowCheck := s.clk.nextSlowCheck
             oscOn := s.clk.oscOn, refPresent := s.clk.refPresent, refWait := s.clk.refWait }
    status := {}
    mark := {}
    bob := {}
    pins := { testEn := s.pins.testEn }
    pwr := { s.pwr with bankW := {}, bankM := {}, lastStep := none, lastSwitchOn := none }
    keys := { s.keys with debug := false }
    flt := { active := s.flt.active, queue := s.flt.queue, ring := s.flt.ring, bringUp := s.flt.bringUp
             counts := s.flt.counts }
    net := { port := List.replicate 4 {} } }

/-- A wake and a brown-out restart begin with standby left; a new bring-up counts ignored triggers afresh (R160). -/
def leaveStandby (s : State) : State :=
  { s with standby := { nightWoke := s.standby.nightWoke, listenAddr := s.standby.listenAddr } }

/-- Detail of the slow-clock substitution in force: as raised, or that the crystal has stopped (05 R219). -/
def slowDetail (s : State) : BitVec 32 := if activeKey s .clkSlow 0 then activeDetail s .clkSlow 0 else 1

/-- The slow-clock substitution that D0 keeps is raised again (R978). -/
def reraiseKept (d : BitVec 32) (s : State) : State :=
  let s := if s.clk.substituted then raise .clkSlow d s else s
  if s.keys.debug then raise .dbgActive 0 s else s

/-- `TEST_EN` is sampled at power-up and at a release of `RESET_N`: high enables debug, low ends it (02 R70, 17 R851). -/
def sampleTestEn (high : Bool) (s : State) : State :=
  { s with pins := { s.pins with testEn := high, tapIr := .bypass, boundaryScan := false }, keys := { s.keys with debug := high } }

/-- Each port's module is read afresh except after an S3 or brown-out restart (07 R318). -/
def forgetModules (kind : BootKind) (s : State) : State :=
  match kind with
  | .s3 | .brownout => s
  | _ => modNet (fun z => { z with port := List.replicate 4 {} }) s

/-- The digital live pins are sampled afresh: a pin held low is a new assertion (03 R80, R110). -/
def freshPins (l : Live) : Live :=
  { l with
    readNext := 0, selftest := {}, ident := {}, standby := {}, mute := {}, blank := {}, arm := {}
    lowSince := none, acted := false, refusedNow := false, identShown := false, identDue := none, blanked := false }

/-- AON starts the 25.000 MHz oscillator where it does not run; it has to run 2 ms before the count (05 R182, R982). -/
def startOscillator (now : Ticks) (c : Clk) : Clk :=
  if c.oscOn then c else { c with oscOn := true, refPresent := true, refWait := now + msT 2 }

/-- The reference instant of a bring-up (06 R221, R222; 19 R977, R978). -/
def beginBringUp (kind : BootKind) (cause : Option FaultName) (banks : BankMv) (s : State) : State :=
  let d := slowDetail s
  let s := flushQueue s
  let s := modFlt (fun z => { z with bringUp := z.bringUp + 1 }) s
  let s := endActive s
  let s := forgetModules kind (leaveStandby (clearCore s))
  let s := { s with
    live := freshPins s.live
    boot := { kind := kind, cause := cause, ref := s.now, started := true }
    clk := { startOscillator s.now s.clk with
      locked := false, running := false, d2OnAt := none, refCheckAt := none, refGoodSince := none, j := 0, sub := 0, dtc := 0, carry := 0
      count := 0, cell := 0, cellNext := 0 }
    straps := { s.straps with pass1 := [], pass2 := [], decided := false, decideDue := none, recheck := [], changedSeen := []
                              marginalRun := List.replicate 48 0, refBad := false, nextReread := s.now + secT 60 }
    flt := { s.flt with holdoff := none, safe := s.flt.safe && (decide (kind = .s3) || decide (kind = .brownout))
                        safeHold := false, thermal := false }
    pwr := { s.pwr with
      vinLow := false, buckOn := false, vcore := 8000, rail := 8000, margin := 0, marginDom := 0, vcoreSet := false, lastStep := none, lastSwitchOn := none, ageNext := none
      phases := 1, lane := List.replicate 4 false
      dom := s.pwr.dom.mapIdx (fun i _ => if i = 0 then { phase := .on } else {}) } }
  let s := if kind = .resetN then modFlt (fun z => { z with restarts := [] }) s else s
  readFuses (measureBanks banks (reraiseKept d s))

/-- The sequencer reports progress (06 R237; log 70). -/
def reportProgress (s : State) : State := modBoot (fun z => { z with reportAt := some s.now }) s

/-- The bring-up has reached the idle pattern, or has ended without a port in the canvas: safe state ends (Table 6.3). -/
def endSafe (s : State) : State :=
  if s.flt.safe && !s.flt.thermal then
    unmuteAll .safe (audRamp s) (modFlt (fun z => { z with safe := false }) s)
  else s

end Sys2Proof.Machine
end

