-- ==== Sys2Proof/Machine/Power.lean ====
section
/-!
DEFINITION. Power, domains and VCORE (04): the commands from `AON_ON` to `AGEING_MEASURE` that are not the fuses' or the
clock's, and `BUCK_PHASE_CHANGE`. A timed command before its instant, or one for which nothing is due, leaves the state
as it is (log 12).
-/
namespace Sys2Proof.Machine
open Sys2Proof

abbrev Out := Host.Outcome State Fault Refusal

/-! ### AON, RESET_N and brown-out (R141 to R145, 06 R235) -/

/-- R141: AON switches on and a power-up bring-up begins; its number is 0. The 25.000 MHz oscillator runs from here on (05
R182). -/
def execAonOn (banks : BankMv) (testEn : Bool) (s : State) : Out :=
  if s.pwr.aonOn then .next s
  else
    let s := aonLost s
    let s := { s with
      pwr := { s.pwr with aonOn := true }, flt := { s.flt with bringUp := 255 }
      clk := { s.clk with oscOn := true, refPresent := true } }
    .next (beginBringUp .powerUp none banks (sampleTestEn testEn s))

/-- R145: AON switches off; the fault ring and all other D0 state are lost. -/
def execAonOff (s : State) : Out := .next (aonLost s)

/-- A brown-out aborts the fuse pulse in progress (R142, 17 R853): the first fuse of the pair may have been programmed, the
second has not. -/
def abortFuse (firstFuse : Bool) (s : State) : State :=
  match s.keys.seq with
  | none => s
  | some q =>
    let s := modKeys (fun z => { z with seq := none }) s
    match q.todo with
    | [] => s
    | p :: _ => if firstFuse && !q.hot then modOtp (fun z => { z with fuse := insFuse (2 * p) z.fuse }) s else s

/-- `f:PWR_BROWNOUT` with its rail: fuse pulse, fault, and the loss of D1 to D11 (R142, R143). -/
def brownout (detail : BitVec 32) (firstFuse : Bool) (s : State) : State :=
  let s := modPwr (fun z => { z with vinLow := true }) s
  loseCore (raise .pwrBrownout detail (abortFuse firstFuse s))

/-- R142; in standby R975 applies in its place. -/
def execVinBrownout (firstFuse : Bool) (s : State) : Out :=
  if !s.pwr.aonOn || s.standby.asleep then .next s else .next (brownout 0 firstFuse s)

/-- A rail falls while the check of a wake frame runs the buck: the ring entry, and the check ends (R143, R975). -/
def checkBrownout (detail : BitVec 32) (s : State) : State :=
  let s := loseCore (raise .pwrBrownout detail s)
  { s with boot := { s.boot with checking := false, d1d2 := false }, standby := { s.standby with listened := none } }

/-- R143: VCORE or VDDM low for 10 µs while the buck runs. -/
def execRailBrownout (rail : Rail) (firstFuse : Bool) (s : State) : Out :=
  if !s.pwr.buckOn then .next s
  else if s.standby.asleep then .next (checkBrownout (match rail with | .vcore => 1 | .vddm => 2) s)
  else .next (brownout (match rail with | .vcore => 1 | .vddm => 2) firstFuse s)

/-- R975: in standby D0 writes the ring entry and takes no other action. -/
def execStandbyBrownout (s : State) : Out :=
  if s.standby.asleep then .next (raise .pwrBrownout 0 s) else .next s

/-- An S3 restart begins: counted restarts note their start (19 R908, R909). -/
def s3Restart (f : FaultName) (banks : BankMv) (s : State) : State :=
  let s := if holdCounted f then modFlt (fun z => { z with restarts := s.now :: z.restarts }) s else s
  beginBringUp .s3 (some f) banks s

/-- R144: VIN has stayed above 1.70 V for 10 ms. -/
def execBrownoutRestart (banks : BankMv) (s : State) : Out :=
  if !s.pwr.aonOn || !s.pwr.vinLow then .next s
  else
    let s := modPwr (fun z => { z with vinLow := false }) s
    if s.flt.safeHold || s.standby.asleep || s.boot.inReset then .next s
    else
      match s.flt.holdoff with
      | some h =>
        if h.f = .pwrBrownout then .next (beginBringUp .brownout none banks s)
        else if (match h.until_ with | some t => decide (t ≤ s.now) | none => false) then
          .next (if 3 ≤ restartsBefore s s.now then enterSafeHold s else s3Restart h.f banks s)
        else .next s
      | none => .next (beginBringUp .brownout none banks s)

/-- A pair being programmed is completed before the reset (02 R79, 17 R853). -/
def completePair (s : State) : State :=
  match s.keys.seq with
  | none => s
  | some q =>
    let s := modKeys (fun z => { z with seq := none }) s
    match q.todo with
    | [] => s
    | p :: _ => if q.hot then s else modOtp (fun z => { z with
        fuse := programPair z.fuse p, shadow := programPair z.shadow p }) s

/-- R235: all state in D1 to D11 and all D0 state but the ring, the slow-clock selection and the shadow is cleared; a
hold-off and safe hold end (19 R910, R924). -/
def execResetNAssert (s : State) : Out :=
  if !s.pwr.aonOn || s.boot.inReset then .next s
  else
    let s := loseCore (completePair s)
    let s := resetD0 s
    .next { s with boot := { kind := s.boot.kind, cause := s.boot.cause, ref := s.boot.ref, inReset := true, shadowRead := true } }

/-- R235, 02 R70: at the release `TEST_EN` is sampled and a bring-up of kind 1 begins; it waits for a pending brown-out. -/
def execResetNRelease (banks : BankMv) (testEn : Bool) (s : State) : Out :=
  if !s.boot.inReset then .next s
  else
    let s := sampleTestEn testEn (modBoot (fun z => { z with inReset := false }) s)
    if s.pwr.vinLow then .next s else .next (beginBringUp .resetN none banks s)

/-! ### Banks (R134, R135) -/

/-- One more measurement of a bank outside both levels, or lost: 3 equal ones in a band set or return it. -/
def bankWaits (b : Bank) (want : Level → Bool) (mv : Nat) (s : State) : State × Bool :=
  let x := bankSt s b
  let l := bandOf mv
  let run := if l = .none || !want l then 0 else if l = x.lastBand then x.run + 1 else 1
  if run = 3 then (setBank b { x with level := l, lost := false, lastBand := l, run := 0 } s, true)
  else (setBank b { x with lastBand := l, run := run } s, false)

/-- Every port is censused again when VIO_W returns (02 Table 2.13). -/
def recensusAll (s : State) : State :=
  modWeft (fun z => { z with recensus := List.finRange 64 }) s

/-- R134, R135: a bank is measured every 10 ms, one outside both levels or lost as well as one in use. -/
def execBankRemeasure (bank : Bank) (mv : Nat) (s : State) : Out :=
  if !s.pwr.aonOn || s.standby.asleep || s.boot.inReset || s.now < (bankSt s bank).next then .next s
  else
    let s := setBank bank { bankSt s bank with next := s.now + msT 10 } s
    let x := bankSt s bank
    if x.level = .none || x.lost then
      let r := bankWaits bank (fun l => decide (x.level = .none) || decide (l = x.level)) mv s
      if r.2 then
        let s := settlePower r.1
        .next (if bank = .weft && s.boot.censusDone then recensusAll s else s)
      else .next r.1
    else if bandOf mv = x.level then .next (setBank bank { x with run := 0 } s)
    else if x.run + 1 = 3 then
      .next (raise .pwrDomain (bankDetail bank) (setBank bank { x with lost := true, run := 0, lastBand := .none } s))
    else .next (setBank bank { x with run := x.run + 1 } s)

/-! ### Domains (R148 to R151, R176, Table 4.3) -/

def modulePresent (s : State) (p : Port) : Bool := match (netPort s p).module with | .absent => false | _ => true

/-- Any window is prepared, primed, served or delayed (Table 4.3, D7); none is in safe state (Table 4.6). -/
def windowsActive (s : State) : Bool :=
  !safeState s && (s.scene.prepared.isSome || s.scene.win.any (fun w => w.prime.isSome) ||
  (match s.scene.committed with
    | none => false
    | some c => c.agreed.any (fun x => !decide (x.1 = .refused) && !decide (x.1 = .absent))))

/-- The canvas shows the idle pattern, a fallback, L15 or the locate display (Table 4.3, D8). -/
def canvasActive (s : State) : Bool := !safeState s && !noCanvas s

def portsInHalf (s : State) (high : Bool) : Bool :=
  (List.range 32).any (fun i => inCanvas s (if high then 32 + i else i))

/-- The *on when* condition of a domain (Table 4.3, R148, R149). -/
def needed (s : State) (d : Nat) : Bool :=
  !gating s ||
  (match d with
    | 4 => ports.any (modulePresent s)
    | 7 => windowsActive s
    | 8 => (windowsActive s || canvasActive s) && !noCanvas s
    | 9 => !s.boot.censusDone || portsInHalf s false || s.weft.recensus.any (fun p => p.val < 32)
    | 10 => !s.boot.censusDone || portsInHalf s true || s.weft.recensus.any (fun p => 32 ≤ p.val)
    | _ => true)

/-- Order of switch-on: D6, D7, D8, then ascending (R150). -/
def switchOrder : List Nat := [6, 7, 8, 3, 4, 5, 9, 10, 11]

def anySwitching (s : State) : Bool :=
  s.pwr.dom.any (fun d => match d.phase with | .switching _ => true | _ => false)

/-- One switch-on at a time, 100 µs apart and 1 ms after a VCORE step (R150, R176). -/
def maySwitch (s : State) : Bool :=
  s.clk.running && s.boot.remap && !s.standby.asleep && !s.flt.safeHold && !anySwitching s &&
  (match s.pwr.lastSwitchOn with | none => true | some t => t + usT 100 ≤ s.now) &&
  (match s.pwr.lastStep with | none => true | some t => t + msT 1 ≤ s.now)

def isOff (s : State) (d : Nat) : Bool :=
  match (domAt s d).phase with | .off => true | .retention => true | _ => false

/-- The domain to switch on next: needed, off, not held off and not waiting for its retry. -/
def nextDomain (s : State) : Option Nat :=
  switchOrder.find? (fun d => needed s d && isOff s d && !(domAt s d).heldOff && (domAt s d).retryAt.isNone)

def startSwitch (d : Nat) (s : State) : State :=
  let s := setDom s d (fun x => { x with phase := .switching s.now, retryAt := none, offSince := none })
  let s := modPwr (fun z => { z with lastSwitchOn := some s.now }) s
  if d = 1 then reportProgress s
  else if d = 2 then modClk (fun z => { z with d2OnAt := some s.now, cell := 0, cellNext := 0 }) s
  else s

/-- D1 or D2, which AON switches outside the sequencer's order (06 Table 6.2). -/
def isCoreDom (d : Nat) : Bool := d == 1 || d == 2

def execDomainSwitchOn (s : State) : Out :=
  if maySwitch s then match nextDomain s with | none => .next s | some d => .next (startSwitch d s)
  else .next s

/-- R151: no power-good within 1 ms. The first failure is retried after 10 ms; a second holds the domain off. -/
def execDomainSwitchTimeout (d : Dom) (s : State) : Out :=
  match (domAt s d).phase with
  | .switching t =>
    if s.now < t + msT 1 then .next s
    else if (domAt s d).heldOff || 1 ≤ (domAt s d).fails then
      .next (raise .pwrDomain (BitVec.ofNat 32 d.val)
        (setDom s d (fun x => { x with phase := .off, heldOff := true, fails := 2, retryAt := some (s.now + secT 10) })))
    else .next (setDom s d (fun x => { x with phase := .off, fails := 1, retryAt := some (s.now + msT 10) }))
  | _ => .next s

/-- R151: the retry after 10 ms, or every 10 s of a domain held off. D1 and D2 do not wait for the sequencer. -/
def execDomainRetry (d : Dom) (s : State) : Out :=
  if (maySwitch s || (isCoreDom d.val && s.boot.d1d2 && s.flt.holdoff.isNone && !s.flt.safeHold)) && isOff s d &&
      dueBy s.now (domAt s d).retryAt then .next (startSwitch d s)
  else .next s

/-- Banks of current DACs that a domain carries: the weft bank with D9 and D10, the marker banks with D11 (06 R243). -/
def dacsOf (d : Nat) : List Nat := match d with | 9 => [0] | 10 => [0] | 11 => [1, 2, 3, 4] | _ => []

/-- Lanes of the eye reading that a domain carries. -/
def lanesOf (d : Nat) : List Nat := match d with | 4 => [0, 1, 2, 3] | 5 => [4, 5, 6, 7] | _ => []

/-- A test in progress whose domain is gated off is abandoned, and runs in full at its next period: the LED read, a DAC swap that
waits for its beat, and the suite's items there (06 R263). -/
def abandonTests (d : Nat) (s : State) : State :=
  let led := d == 9 || d == 10
  let s := if led && s.weft.read.since.isSome then modWeft (fun w => { w with read := {} }) s else s
  modTest (fun z => { z with
    ledNext := if led && s.weft.read.since.isSome then some (s.now + secT 600) else z.ledNext
    dac := z.dac.mapIdx (fun i b => if (dacsOf d).contains i && b.ready then { b with ready := false, lastSwap := some s.now } else b)
    suite := z.suite.map (fun q => { q with todo := q.todo.filter (fun i =>
      match i with
      | .led => !led
      | .dac b => !(dacsOf d).contains b
      | .eye l => !(lanesOf d).contains l
      | _ => true) }) }) s

/-- R148: a domain goes off once its condition has held for 10 s. -/
def execDomainGateOff (d : Dom) (s : State) : Out :=
  if gating s && domOn s d && !needed s d && passed s.now (domAt s d).offSince (secT 10) then
    let s := abandonTests d.val (setDom s d (fun x => { x with phase := .off, offSince := none }))
    .next (if d.val = 4 then modPwr (fun z => { z with lane := List.replicate 4 false }) s else s)
  else .next s

/-- The start of a domain's *off when* condition is kept, tick by tick (R148). -/
def trackGating (s : State) : State :=
  modPwr (fun z => { z with dom := z.dom.mapIdx (fun d x =>
      if decide (x.phase = .on) && !needed s d then { x with offSince := holdSince s.now x.offSince }
      else { x with offSince := none }) }) s

/-! ### VCORE (R153 to R156, 20 R947) -/

/-- A VCORE step is allowed 1 ms after a domain switch-on (R176). -/
def mayStep (s : State) : Bool := match s.pwr.lastSwitchOn with | none => true | some t => t + msT 1 ≤ s.now

/-- A new set point; the rail follows by at most 2.5 mV per 10 µs (R155). -/
def setVcore (mv : Nat) (s : State) : State :=
  if mv = s.pwr.vcore then s else modPwr (fun z => { z with vcore := mv, lastStep := some s.now }) s

/-- The rail moves towards its set point, 2.5 mV in 10 µs (R155); each move is a VCORE step of R176. -/
def moveRail (s : State) : State :=
  if s.pwr.rail = s.pwr.vcore || s.now < s.pwr.railAt + usT 10 then s
  else modPwr (fun z => { z with
    rail := if z.rail < z.vcore then min z.vcore (z.rail + 25) else max z.vcore (z.rail - 25)
    railAt := s.now, lastStep := some s.now }) s

/-- Some bank of current DACs is without its spare (06 R244). -/
def dacStopped (s : State) : Bool := s.test.dac.any DacBank.stopped

/-- `f:AGE_MARGIN` at a measurement made at `at_`: below 5 % at 0.800 V, cleared at 5 % or more (R156). -/
def ageFault (at_ : Nat) (margin : Nat) (dom : Dom) (s : State) : State :=
  if at_ = 8000 && margin < 500 then raise .ageMargin (BitVec.ofNat 32 dom.val) s
  else if 500 ≤ margin && !dacStopped s then clearAll .ageMargin s
  else s

/-- R153: the lowest of the 21 set points, 0.750 V upward in 2.5 mV, with a least margin of 8 % or more; 0.800 V at most. -/
def initialVcore (margins : List Nat) : Nat :=
  match margins.findIdx? (fun m => 800 ≤ m) with | some i => min (7500 + 25 * i) 8000 | none => 8000

def execVcoreInitialSet (margins : List Nat) (dom : Dom) (s : State) : Out :=
  if !s.clk.running || s.pwr.vcoreSet || s.now < s.boot.ref + msT 40 || !mayStep s then .next s
  else
    let v := initialVcore margins
    let m := margins.getD ((v - 7500) / 25) 0
    let s := setVcore v (modPwr (fun z => { z with vcoreSet := true, margin := m, marginDom := dom, ageNext := some (s.now + secT 3600) }) s)
    .next (ageFault v m dom s)

/-- The junction lies within 10 °C of its highest reading of the previous 24 h (20 R947). -/
def nearDayHigh (s : State) : Bool :=
  (s.sens.day.filter (fun x => s.now < x.1 + secT 86400)).all (fun x => x.2 ≤ s.sens.tj + 160)

/-- R154: every 60 min, 1 s after a rise, and once in a requested suite. A rise or a fall that R176 forbids at the instant of the
measurement is not made: a rise is tried again at the measurement 1 s later, a fall at the next of 60 min (DESIGN CHOICE, log 71). -/
def execAgeingMeasure (margin : Nat) (dom : Dom) (s : State) : Out :=
  if !s.clk.running || !(dueBy s.now s.pwr.ageNext || suiteWants s .ageing || runsAgain s .ageing) then .next s
  else
    let at_ := s.pwr.rail
    let s := noteTest .ageing (decide (at_ = 8000) && decide (margin < 500)) (ranAgain .ageing s)
    let s := modPwr (fun z => { z with margin := margin, marginDom := dom, ageNext := some (s.now + secT 3600) }) s
    let s :=
      if margin < 800 && s.pwr.vcore < 8000 then
        let s := modPwr (fun z => { z with ageNext := some (s.now + secT 1) }) s
        if mayStep s then setVcore (min (s.pwr.vcore + 25) 8000) s else s
      else if 1200 < margin && 7500 < s.pwr.vcore && nearDayHigh s && mayStep s then
        setVcore (max (s.pwr.vcore - 25) 7500) s
      else s
    .next (ageFault at_ margin dom s)

/-! ### The buck's switching clock (R136) and phases (R137) -/

/-- What clocks the buck's four phases. -/
inductive BuckClock | stopped | internal | reference
  deriving DecidableEq, Repr

/-- The internal oscillator before MDLL lock, the reference ÷ 10 from lock onward. -/
def buckClock (s : State) : BuckClock :=
  if !s.pwr.buckOn then .stopped else if s.clk.locked then .reference else .internal

/-- The switching period in ticks: 400 ns from the unswept reference; the internal oscillator's lies within 2.5 MHz ± 10 % and is a
free value of the unit (log 72). -/
def buckPeriod (s : State) : Option Ticks :=
  match buckClock s with
  | .stopped => none
  | .reference => some (nsT 400)
  | .internal => some (1163637 + Config.buckOscillator % (1422222 - 1163637 + 1))

/-- Phase offset of A, B, C and D in degrees of a period. -/
def buckOffset (phase : Fin 4) : Nat := match phase with | 0 => 0 | 1 => 120 | 2 => 240 | 3 => 60

/-- A phase switches: VDDM's D with the buck, VCORE's as many as the load asks for (R137). -/
def buckPhaseOn (s : State) (phase : Fin 4) : Bool :=
  s.pwr.buckOn && (phase == 3 || decide (phase.val < s.pwr.phases.val))

/-- Delay of a phase's switching edge behind that of phase A, in ticks. -/
def buckDelay (s : State) (phase : Fin 4) : Option Ticks :=
  if buckPhaseOn s phase then (buckPeriod s).map (fun p => p * buckOffset phase / 360) else none


/-- VCORE phases at a load: 3 above 6 A, 2 from 3 A, else 1; a phase is shed 0.5 A below its threshold (log 21). -/
def phasesAt (now_ : Nat) (ma : Nat) : Fin 4 :=
  if 6000 < ma then 3
  else if now_ = 3 && 5500 ≤ ma then 3
  else if 3000 ≤ ma then 2
  else if 2 ≤ now_ && 2500 ≤ ma then 2
  else 1

def execBuckPhaseChange (milliamps : Nat) (s : State) : Out :=
  if s.pwr.buckOn then .next (modPwr (fun z => { z with phases := phasesAt z.phases.val milliamps }) s) else .next s

end Sys2Proof.Machine
end

