-- ==== Sys2Proof/Machine/Clock.lean ====
section
/-!
DEFINITION. The clock and the sweep (05): references, the MDLL, the slow clock, and the m_j of a profile.
-/
namespace Sys2Proof.Machine
open Sys2Proof

/-! ### Sweep profiles (Table 5.1, R197, R198) -/

/-- Peak depth P. -/
def peakOf (p : Profile) : Nat :=
  match p with | .off => 0 | .tri025 => 8 | .tri05 => 16 | .tri1 => 32 | .rounded05 => 16
/-- Slips N in a modulation period. -/
def slipsOf (p : Profile) : Nat :=
  match p with | .off => 0 | .tri025 => 1 | .tri05 => 2 | .tri1 => 4 | .rounded05 => 2
/-- Injection periods L. -/
def periodsOf (p : Profile) : Nat := 800 - slipsOf p

/-- The shape of a profile at injection j (R197). -/
def shapeAt (p : Profile) (j : Nat) : Rat :=
  let x : Rat := (2 * j + 1 : Nat) / (2 * periodsOf p : Nat)
  match p with
  | .rounded05 => (1 - cosTurn x) / 2
  | _ => let y := 2 * x - 1; 1 - (if y < 0 then -y else y)

/-- P × shape, floored, and the fraction discarded. -/
def floorsOf (p : Profile) : List (Nat × Rat) :=
  (List.range (periodsOf p)).map (fun j =>
    let v := (peakOf p : Rat) * shapeAt p j
    (v.floor.toNat, v - v.floor))

/-- The m_j of a profile: the floors, with 1 added to as many of the largest discarded fractions as the sum lacks, ties to
the lowest j (R197). -/
def depthsOf (p : Profile) : List Nat :=
  let fl := floorsOf p
  let lack := 3200 * slipsOf p - sumNat (fl.map Prod.fst)
  let order := sortBy (fun a b => decide (b.2 < a.2) || (decide (a.2 = b.2) && decide (a.1 ≤ b.1)))
    (fl.mapIdx (fun i x => (i, x.2)))
  let raised := (order.take lack).map Prod.fst
  fl.mapIdx (fun i x => if raised.contains i then x.1 + 1 else x.1)

/-- m_j of the profile in use. -/
def depthAt (p : Profile) (j : Nat) : Nat := match p with | .off => 0 | _ => (depthsOf p).getD j 0

/-- j0 = floor(L × k ÷ 16), k the lowest 4 bits of the serial number (R198). -/
def startIndex (s : State) (p : Profile) : Nat := periodsOf p * ((serialOf s).toNat % 16) / 16

/-- The profile a bring-up runs with: off after a repeated unlock, the kept one at an S3 restart, else that of `s:SWEEP`
(R207, R214, R220). An S3 restart before any lock has none to keep and takes that of its own strap passes (DESIGN CHOICE, log 74). -/
def chooseProfile (s : State) : Profile :=
  if s.clk.fallback then .off
  else match s.boot.kind, s.clk.kept with
    | .s3, some p => p
    | _, _ => sweepOf (code s pinSweep)

/-! ### References (R181, R982, Table 5.4) -/

/-- The analogue PLLs of the PHYs run from the reference, unswept, and clock no logic outside their own PHY: nothing else reads them
(01 R23). -/
inductive Phy | ethernet | selvedge | memory
  deriving DecidableEq, Repr

def phyDom (p : Phy) : Nat := match p with | .ethernet => 4 | .selvedge => 5 | .memory => 6

def phyRuns (s : State) (p : Phy) : Bool := s.clk.oscOn && s.clk.refPresent && domOn s (phyDom p)

/-- The count of 25.000 MHz edges over one internal-oscillator period passes. -/
def refCountOk (edges : Nat) : Bool := 690 ≤ edges && edges ≤ 840

/-- 1,024 slow periods span 781,250 ± 781 reference periods (R181). -/
def slowSpanOk (n : Nat) : Bool := 780469 ≤ n && n ≤ 782031

/-- `f:CLK_XTAL`, and the reference checked every 100 ms from then on (Table 5.4). -/
def xtalFault (detail : BitVec 32) (s : State) : State :=
  let s := raise .clkXtal detail s
  modClk (fun z => { z with refPresent := false, refCheckAt := some (s.now + msT 100), refGoodSince := none }) s

/-- D1 and D2 are switched on together, the buck running at 0.800 V (04 R151, R153, Table 4.3). -/
def powerD1D2 (s : State) : State :=
  let s := startSwitch 2 (startSwitch 1 s)
  { s with
    boot := { s.boot with d1d2 := true }
    clk := { s.clk with refPresent := true }
    pwr := { s.pwr with buckOn := true, vcore := 8000, rail := 8000 } }

/-- A bring-up, or the check of a wake frame, waits for D1 and D2. -/
def wantsCore (s : State) : Bool :=
  !s.boot.d1d2 && !s.boot.inReset && s.keys.seq.isNone &&
  (if s.standby.asleep then s.boot.checking
   else s.boot.started && s.boot.shadowRead && s.flt.holdoff.isNone && !s.flt.safeHold)

/-- R224, R982: after the shadow, and once the reference passes its count; an oscillator that AON started has run for 2 ms. -/
def execD1d2SwitchOn (edges : Nat) (s : State) : Out :=
  if !s.pwr.aonOn || !wantsCore s || !s.clk.oscOn || s.now < s.clk.refWait || s.clk.refCheckAt.isSome then .next s
  else if refCountOk edges then .next (powerD1D2 s)
  else .next (xtalFault 0 s)

/-- The lanes of modules kept in D0 are powered at lock (07 R318). -/
def keptLanes (s : State) : List Bool :=
  match s.boot.kind with
  | .s3 | .brownout => ports.map (fun p => match (netPort s p).module with | .identified _ _ => true | _ => false)
  | _ => s.pwr.lane

/-- An error cycle: the ring's edge and the injected one differ by more than 250 ps (R183). -/
def errorCycle (x : Injections) : Bool := decide (250 < x.ps) || decide (x.ps < -250)

/-- Injections without an error cycle at the end of a run. -/
def cleanTail (l : List Injections) : Nat := sumNat ((l.reverse.takeWhile (fun x => !errorCycle x)).map Injections.count)

/-- Error cycles among the last `n` injections, newest first. -/
def errorsWithin : Nat → List Injections → Nat
  | _, [] => 0
  | n, x :: l => (if errorCycle x then min n x.count else 0) + errorsWithin (n - x.count) l

def errorCount (l : List Injections) : Nat := errorsWithin 1024 l.reverse

/-- The sweep starts its first modulation period at j0, with the tuning loop one injection period ahead (R184, R198). -/
def startSweep (s : State) : State :=
  let p := chooseProfile s
  let j := startIndex s p
  modClk (fun z => { z with
    profile := p, kept := some p, j := j, dtc := 0, cell := depthAt p j, cellNext := depthAt p ((j + 1) % periodsOf p) }) s

/-- The profile is known: an S3 restart keeps its own, and a sweep off for good needs no strap (R214, R220). -/
def sweepKnown (s : State) : Bool :=
  s.clk.fallback || s.straps.decided || (decide (s.boot.kind = .s3) && s.clk.kept.isSome)

/-- Lock can be declared: within 20 ms of the switch-on of D2, with a run of 4,096 clean injections since (R185, R186). -/
def lockRun (run : List Injections) (s : State) : Bool :=
  match s.clk.d2OnAt with
  | none => false
  | some t => 4096 ≤ cleanTail run && t + nsT (40 * sumNat (run.map Injections.count)) ≤ s.now && s.now ≤ t + msT 20

/-- R185, R187: lock is declared; the system clock runs, logic is released and the sweep starts, or waits for the strap decision.
In the check of a wake D1 and D2 alone run, and the tile does not (04 R163). -/
def execMdllLock (run : List Injections) (s : State) : Out :=
  if !domOn s 1 || !domOn s 2 || s.clk.locked || !s.clk.refPresent || s.flt.holdoff.isSome || s.flt.safeHold || !lockRun run s then .next s
  else if s.boot.checking then .next (modClk (fun z => { z with locked := true }) s)
  else
    let s := { s with
      clk := { s.clk with
        locked := true, running := true, profile := .off, j := 0, sub := 0, dtc := 0, carry := 0, count := 0, cell := 0, cellNext := 0
        nextTrim := if s.clk.substituted then some (s.now + secT 1) else s.clk.nextTrim }
      pwr := { s.pwr with lane := keptLanes s } }
    let s := reportProgress (zeroSram s)
    .next (if sweepKnown s then startSweep s else s)

/-- `f:CLK_UNLOCK`; a second within 10 min ends the sweep (R220). -/
def unlockFault (errors : Nat) (s : State) : State :=
  let again := match s.clk.lastUnlock with | none => false | some t => decide (s.now < t + secT 600)
  let s := modClk (fun z => { z with
    lastUnlock := some s.now, fallback := z.fallback || again, errors := errors }) s
  raise .clkUnlock (BitVec.ofNat 32 errors) s

/-- R185: 64 or more error cycles among 1,024 end lock. -/
def execMdllLossOfLock (run : List Injections) (s : State) : Out :=
  if s.clk.locked && s.clk.running && 64 ≤ errorCount run then .next (unlockFault (errorCount run) s) else .next s

/-- R186: no lock within 20 ms of the switch-on of D2; without a reference `f:CLK_XTAL` stands in its place (R215). -/
def execMdllLockTimeout (run : List Injections) (s : State) : Out :=
  if domOn s 2 && !s.clk.locked && s.clk.refPresent && s.flt.holdoff.isNone && !s.flt.safeHold && passed s.now s.clk.d2OnAt (msT 20) then
    .next (unlockFault (errorCount run) s)
  else .next s

/-- Table 5.4, R215: two injections without a reference edge, in service or while the MDLL seeks its lock. -/
def execReferenceEdgeMissing (s : State) : Out :=
  if s.clk.running || (domOn s 2 && !s.clk.locked && s.clk.refPresent && s.flt.holdoff.isNone && !s.flt.safeHold) then
    .next (xtalFault 1 s)
  else .next s

/-- Table 5.4: a check of the reference every 100 ms; once it has passed for 100 ms the hold-off may end. -/
def execReferenceRecheck (edges : Nat) (s : State) : Out :=
  if !dueBy s.now s.clk.refCheckAt then .next s
  else
    let s := modClk (fun z => { z with
      refCheckAt := some (s.now + msT 100)
      refPresent := refCountOk edges
      refGoodSince := if refCountOk edges then holdSince s.now z.refGoodSince else none }) s
    if passed s.now s.clk.refGoodSince (msT 100) then
      match s.flt.holdoff with
      | some h =>
        if h.f = .clkXtal then
          .next { s with flt := { s.flt with holdoff := some { h with until_ := some s.now } }
                         clk := { s.clk with refCheckAt := none } }
        else .next s
      | none => .next s
    else .next s

/-! ### Slow clock (R180, R181, R217 to R219) -/

/-- AON switches to the confirmed slow crystal; `f:CLK_SLOW` clears. -/
def useSlowCrystal (s : State) : State :=
  clearAll .clkSlow (modClk (fun z => { z with
    slowXtal := true, substituted := false, trimmed := false, nextTrim := none, nextSlowCheck := none }) s)

/-- A strap pass or the programming of a fuse pair is under way (R211). -/
def slowBusy (s : State) : Bool :=
  decide (s.now < s.straps.passEnd) || (match s.keys.seq with | none => false | some q => !q.hot && !q.todo.isEmpty)

/-- The crystal is taken up now, or after the pass or the pair (R211). -/
def takeCrystal (s : State) : State :=
  if slowBusy s then modClk (fun z => { z with slowDue := some .crystal }) s else useSlowCrystal s

def execSlowCrystalConfirm (refPeriods : Nat) (s : State) : Out :=
  if s.pwr.aonOn && s.clk.refPresent && !s.clk.slowXtal && !s.clk.substituted && slowSpanOk refPeriods then
    .next (takeCrystal s)
  else .next s

/-- The internal oscillator replaces the slow crystal (R217). -/
def substituteSlow (s : State) : State :=
  modClk (fun z => { z with
    slowXtal := false, substituted := true, trimmed := false
    nextTrim := some (s.now + secT 1), nextSlowCheck := some (s.now + secT 10) }) s

/-- The substitution with its fault, now or after the pass or the pair (R211). -/
def takeOscillator (detail : BitVec 32) (s : State) : State :=
  if slowBusy s then modClk (fun z => { z with slowDue := some (.substitute detail) }) s
  else raise .clkSlow detail (substituteSlow s)

/-- What waited under R211 takes effect. -/
def settleSlow (s : State) : State :=
  match s.clk.slowDue with
  | none => s
  | some w =>
    let s := modClk (fun z => { z with slowDue := none }) s
    match w with
    | .crystal => useSlowCrystal s
    | .substitute d => raise .clkSlow d (substituteSlow s)

/-- At the end of a fuse pair, a strap pass not being under way. -/
def settleAfterPair (s : State) : State := if s.now < s.straps.passEnd then s else settleSlow s

/-- At the end of a pass, or of a fuse sequence's pairs. -/
def settleSlowDue (s : State) : State := if slowBusy s then s else settleSlow s

/-- Table 5.4: the three detections of `f:CLK_SLOW`, in service or at a bring-up. -/
def execSlowClockFault (cause : SlowCause) (s : State) : Out :=
  if !s.pwr.aonOn || s.standby.asleep || s.clk.substituted then .next s
  else
    match cause with
    | .unconfirmed =>
      if !s.clk.slowXtal && s.boot.ref + secT 3 ≤ s.now then .next (takeOscillator 0 s) else .next s
    | .stopped => if s.clk.slowXtal then .next (takeOscillator 1 s) else .next s
    | .rate n =>
      if s.clk.slowXtal && s.clk.running && (n < 32752 || 32784 < n) then .next (takeOscillator 2 s)
      else .next s

/-- R217: every 1 s while the system clock runs, to within ±0.5 %. -/
def execSlowOscTrim (s : State) : Out :=
  if s.clk.substituted && s.clk.running && dueBy s.now s.clk.nextTrim then
    .next (modClk (fun z => { z with trimmed := true, nextTrim := some (s.now + secT 1) }) s)
  else .next s

/-- R217: every 10 s the slow crystal is looked for. -/
def execSlowCrystalRecheck (refPeriods : Nat) (s : State) : Out :=
  if s.clk.substituted && s.clk.refPresent && dueBy s.now s.clk.nextSlowCheck then
    if slowSpanOk refPeriods then .next (takeCrystal s)
    else .next (modClk (fun z => { z with nextSlowCheck := some (s.now + secT 10) }) s)
  else .next s

/-- A wake from standby is a bring-up from W, the present instant (04 R164). -/
def wake (banks : BankMv) (s : State) : State := beginBringUp .wake none banks s

/-- R219: the slow crystal stops in standby: substitution, `f:CLK_SLOW`, and a wake. -/
def execStandbySlowCrystalStop (banks : BankMv) (s : State) : Out :=
  if s.standby.asleep then .next (wake banks (substituteSlow s)) else .next s

/-- 06 R237: no progress report for 250 ms while D1 is on, the boot check and the bring-up before it included (R254). The hold-off of
an S3 fault and safe hold, in which nothing reports, are left out; the instants of reports in service are the sequencer's own (log
70). -/
def execSeqWatchdogExpiry (s : State) : Out :=
  if domOn s 1 && s.flt.holdoff.isNone && !s.flt.safeHold && passed s.now s.boot.reportAt (msT 250) then
    .next (raise .seqWatchdog 0 (reportProgress s))
  else .next s

end Sys2Proof.Machine
end

