-- ==== Sys2Proof/Machine/Uart.lean ====
section
/-!
DEFINITION. The fractional dividers (05 R201 to R203) and what the UART engine makes of a line (16 R763 to R765, R768, R789).
-/
namespace Sys2Proof.Machine
open Sys2Proof

/-! ### Fractional dividers (05 R201) -/

/-- One system clock of a divider: its step is added, and an output event falls when the accumulator passes the modulus. -/
def Divider.clock (step modulus : Nat) (d : Divider) : Divider :=
  if modulus ≤ d.acc + step then ⟨d.acc + step - modulus, d.events + 1⟩ else ⟨d.acc + step, d.events⟩

/-- Sample ticks of I + F/256 clocks (16 R763), in units of 1/819,200 of a clock: the step 256 is lengthened by m_j ÷ 3,200. -/
def uartStep (m : Nat) : Nat := 256 * (3200 + m)
def uartModulus (iF : Nat × Nat) : Nat := 3200 * (256 * iF.1 + iF.2)

/-- The card clock of 4 MHz. -/
def cardStep (m : Nat) : Nat := 3200 + m
def cardModulus : Nat := 3200 * 250

/-- Wall time as the audio and weft-scan dividers count it: events at a rate per second, in units of 2^-32 ns (15 R734, 13 R635).
The step is the counter's own increment, so it follows the servo and the sweep. -/
def wallModulus : Nat := 1000000000 * 4294967296

/-- Rates of `AUD_MCLK` and of the bit clocks, N × W × fs (15 R734). -/
def mclkRate (s : State) : Nat := 256 * audRate s
def bclkRate (s : State) : Nat := (tdmFmt (code s pinTdmfmt)).1 * (tdmFmt (code s pinTdmfmt)).2.1 * audRate s

/-- Phase of a clock of a rate at a wall time. -/
def phaseAtTime (rate : Nat) (t : Int) : Nat := (t.toNat * rate) % wallModulus

/-- A clock on its grid. -/
def aligned (rate : Nat) (t : Int) (d : Divider) : Divider := { d with acc := phaseAtTime rate t }

/-- The UART and card dividers of one clock (R201). The ETU of Fi/Di card clocks counts card clocks with the fraction carried (16
R799). -/
def serialDividers (m : Nat) (s : State) (d : Dividers) : Dividers :=
  let card := d.card.clock (cardStep m) cardModulus
  { d with
    bob := d.bob.clock (uartStep m) (uartModulus (bobDivider (bobRate s)))
    bea := d.bea.clock (uartStep m) (uartModulus (bobDivider (beaconRate s)))
    card := card
    etu := if card.events = d.card.events then d.etu else d.etu.clock s.card.di s.card.fi }

/-! ### Bits on a line -/

/-- 16 sample ticks in ticks of the ruler: one bit period of a running channel (16 R763, Table 16.1). -/
def bitTicks (iF : Nat × Nat) : Ticks := 200 * (256 * iF.1 + iF.2)

def bobBit (s : State) : Ticks := bitTicks (bobDivider (bobRate s))
/-- One Bobbin character of 11 bits. -/
def bobChar (s : State) : Ticks := 11 * bobBit s
def beaconBit (s : State) : Ticks := bitTicks (bobDivider (beaconRate s))
/-- One beacon character of 10 bits. -/
def beaconChar (s : State) : Ticks := 10 * beaconBit s

/-- Data bits, least significant first. -/
def dataBits (b : Byte) : List Bool := (List.range 8).map b.getLsbD

/-- The levels of a Bobbin character: start bit, data, ninth bit, stop bit (16 R768). -/
def bobBits (c : Byte × Bool) : List Bool := (false :: dataBits c.1) ++ [c.2, true]

/-- The levels of a beacon character (16 R792). -/
def beaconBits (b : Byte) : List Bool := (false :: dataBits b) ++ [true]

/-- The end of what a transmitter sends. -/
def Sending.end_ (bit : Ticks) (x : Sending) : Ticks := x.start + x.bits.length * bit

/-- The bit that a transmitter sends now, with the ticks since it began; none before and after. -/
def Sending.now (bit now : Ticks) (x : Sending) : Option (Bool × Ticks) :=
  if now < x.start || bit = 0 then none else (x.bits[(now - x.start) / bit]?).map (fun b => (b, (now - x.start) % bit))

/-! ### A running receiver (16 R764) -/

def majority (l : List Bool) : Bool := 2 ≤ (l.filter id).length

/-- The three samples of bit i. -/
def bitSamples (l : List Bool) (i : Nat) : List Bool := (l.drop (3 * i)).take 3

/-- A character of 8 data bits and a ninth from its samples at ticks 7, 8 and 9 of each of 11 bits: majority, noise where three samples
disagree, framing where the stop bit is low. -/
def charOf (l : List Bool) : RxChar :=
  { data := BitVec.ofNat 8 ((List.range 8).foldl (fun a i => if majority (bitSamples l (i + 1)) then a + 2 ^ i else a) 0)
    ninth := majority (bitSamples l 9)
    noise := (List.range 11).any (fun i => (bitSamples l i).any id && !(bitSamples l i).all id)
    framing := !majority (bitSamples l 10)
    overrun := false }

/-- The receiver between two ticks: the level before, ticks since the start edge of the character under way, and its samples, newest
first. -/
structure Rx where
  prev : Bool := true
  since : Option Nat := none
  got : List Bool := []
  deriving DecidableEq, Repr

/-- The characters that a line's levels at successive sample ticks carry, each with the tick of its start edge. A start bit is detected
at the first low after a high; one whose majority is 1 is a false start. -/
def receive (tick : Nat) (r : Rx) : List Bool → List (Nat × RxChar)
  | [] => []
  | x :: l =>
    match r.since with
    | none => receive (tick + 1) { prev := x, since := if r.prev && !x then some 0 else none } l
    | some n =>
      let t := n + 1
      let got := if 7 ≤ t % 16 && t % 16 ≤ 9 then x :: r.got else r.got
      if t = 9 && majority got then receive (tick + 1) { prev := x } l
      else if t = 169 then (tick - t, charOf got.reverse) :: receive (tick + 1) { prev := x } l
      else receive (tick + 1) { prev := x, since := some t, got := got } l

/-- Characters lost to a full FIFO, by their number; the next one stored carries the overrun flag (16 R765). -/
def dropLost (lost : List Nat) (i : Nat) (overrun : Bool) : List (Nat × RxChar) → List (Nat × RxChar)
  | [] => []
  | (t, c) :: l => if lost.contains i then dropLost lost (i + 1) true l else (t, { c with overrun := overrun }) :: dropLost lost (i + 1) false l

/-! ### The slow listener (16 R789) -/

/-- The slow-clock period of the middle of bit i after the start edge: 13 + 167/256 periods per bit. -/
def slowMiddle (i : Nat) : Nat := (2 * i + 1) * 3495 / 512

/-- Each bit is sampled once, at its middle; a character without a stop bit is discarded, which the framing flag says. -/
def slowReceive (r : Rx) : List Bool → List RxChar
  | [] => []
  | x :: l =>
    match r.since with
    | none => slowReceive { prev := x, since := if r.prev && !x then some 0 else none } l
    | some n =>
      let t := n + 1
      let got := if t = slowMiddle r.got.length then x :: r.got else r.got
      if got = [true] then slowReceive { prev := x } l
      else if got.length = 11 then charOf (got.reverse.flatMap (List.replicate 3)) :: slowReceive { prev := x } l
      else slowReceive { prev := x, since := some t, got := got } l

end Sys2Proof.Machine
end

