-- ==== Sys2Proof/Machine/LedgerOps.lean ====
section
/-!
DEFINITION. The ledger interface: mirrors of the fault ring, wear copies and their completion (19 R914, R920, R926).
-/
namespace Sys2Proof.Machine
open Sys2Proof

/-- A region may be written: the ledger is usable and its pins powered (02 Table 2.13), the region not stopped (R926), and no key is
withheld (17 R842). -/
def mayWrite (s : State) (op : LedgerOp) : Bool :=
  s.ldg.usable && bankUsable s .misc && !s.keys.debug && !decide (s.keys.phase = .manufacture) && !s.ldg.stopped.contains op &&
  (match op with
    | .wear | .census | .identity => (storedKey s .wear).isSome
    | .faultLog | .retag => true)

/-- Starts an operation, or puts it behind the one in progress. -/
def startLedger (op : LedgerOp) (s : State) : State :=
  if !mayWrite s op then s
  else
    match s.ldg.busy with
    | none => modLdg (fun z => { z with busy := some op }) s
    | some x =>
      if x = op || s.ldg.todo.contains op then s else modLdg (fun z => { z with todo := z.todo ++ [op] }) s

/-- The next waiting operation starts. -/
def nextLedger (s : State) : State :=
  match s.ldg.todo with
  | [] => modLdg (fun z => { z with busy := none }) s
  | o :: rest => modLdg (fun z => { z with busy := some o, todo := rest }) s

/-! ### Mirrors (R914) -/

def unmirrored (s : State) : List RingEntry := s.flt.ring.filter (fun e => !e.mirrored)

/-- Mirrors still allowed in the present hour. -/
def mirrorBudget (s : State) : Nat := 3600 - (s.ldg.mirrors.filter (fun t => s.now < t + secT 3600)).length

/-- Entries to mirror: all, or those up to the latest of S2 or S3. -/
def mirrorCount (all : Bool) (s : State) : Nat :=
  let u := unmirrored s
  let n := if all then u.length
    else match u.reverse.findIdx? (fun e => 2 ≤ (sevOf e.f).val) with | none => 0 | some i => u.length - i
  min n (mirrorBudget s)

/-- Starts mirroring n entries. -/
def startMirror (n : Nat) (s : State) : State :=
  if n = 0 || !mayWrite s .faultLog then s
  else startLedger .faultLog (modLdg (fun z => { z with mirroring := max n z.mirroring }) s)

/-- Marks the first n unmirrored entries as mirrored. -/
def markMirrored : Nat → List RingEntry → List RingEntry
  | _, [] => []
  | 0, l => l
  | n + 1, e :: l => if e.mirrored then e :: markMirrored (n + 1) l else { e with mirrored := true } :: markMirrored n l

/-- Log records of entries, numbered from the next sequence number. -/
def logRecords (key : List Byte) : BitVec 32 → List RingEntry → List LogRec
  | _, [] => []
  | q, e :: l => ⟨{ e with mirrored := true }, q, key⟩ :: logRecords key (q + 1) l

/-- The mirrors in progress are complete: fault-log records of a circular log of 16,384 (Table 19.9). -/
def finishMirror (s : State) : State :=
  let done := (unmirrored s).take s.ldg.mirroring
  let log := s.ldg.log ++ logRecords s.ldg.logKey s.ldg.nextSeq done
  { s with
    flt := { s.flt with ring := markMirrored done.length s.flt.ring }
    ldg := { s.ldg with
      log := log.drop (log.length - 16384)
      nextSeq := s.ldg.nextSeq + BitVec.ofNat 32 done.length
      mirrors := List.replicate done.length s.now ++ s.ldg.mirrors.filter (fun t => s.now < t + secT 3600)
      mirroring := 0 } }

/-! ### Wear copies (R920, 13 R660) -/

/-- Block columns and rows of the tile: blocks of 4 × 4 pixels. -/
def blockGrid (s : State) : Nat × Nat :=
  match s.weft.geom with | none => (0, 0) | some g => ((g.tileW + 3) / 4, (g.tileH + 3) / 4)

/-- The integer parts of the integrators, with geometry, generation and wall time. -/
def wearCopyNow (s : State) : WearCopy :=
  { gen := (match s.ldg.copies with | [] => 0 | c :: _ => c.gen + 1)
    cols := (blockGrid s).1, rows := (blockGrid s).2
    data := s.weft.wear.map (fun x => x / 2 ^ 24), wall := BitVec.ofNat 32 s.time.sec.toNat
    keyed := (storedKey s .wear).getD [] }

/-- A flush: the wear map, then every unmirrored ring entry (R914). -/
def startFlush (s : State) : State :=
  let s := if mayWrite s .wear && s.ldg.copy.isNone && 0 < s.ldg.copyCount then
    startLedger .wear { s with ldg := { s.ldg with copy := some (wearCopyNow s) }, weft := { s.weft with flushing := true } }
    else s
  startMirror (mirrorCount true s) s

/-- A written copy becomes the newest of N. -/
def finishFlush (s : State) : State :=
  match s.ldg.copy with
  | none => s
  | some c => { s with
    ldg := { s.ldg with copies := (c :: s.ldg.copies).take s.ldg.copyCount, copy := none, lastFlush := c.wall }
    weft := { s.weft with flushing := false } }

/-- Sectors of a wear copy of a tile of `npx` pixels, and the copies that fit (R920); the flash in Mbit as a power of 2. -/
def copySectors (npx : Nat) : Nat := (npx + 16383) / 16384 + 1
def copiesThatFit (density npx : Nat) : Nat := (2 ^ density * 131072 - 0x92000) / (copySectors npx * 4096)

/-! ### Identity and census records (Table 19.10) -/

/-- A new identity, of the next generation; it goes to the region that the last one did not (Table 19.9). -/
def noteIdentity (s : State) : State :=
  let npx := match s.weft.geom with | some g => g.tileW * g.tileH | none => 0
  let r : IdentityRec := {
    density := s.ldg.density, sectors := copySectors npx, copies := s.ldg.copyCount, gen := s.ldg.generation + 1, serial := serialOf s
    done := recordsDone s.otp.shadow, site := (siteTreeRoot s).isSome
    epoch := (match s.keys.phase with | .commissioned e => e | _ => 0)
    check := if (siteTreeRoot s).isSome then activeCheck s else 0, keyed := (storedKey s .wear).getD [] }
  modLdg (fun z => { z with generation := z.generation + 1, ids := (r :: z.ids).take 2 }) s

/-- One bit per weft port. -/
def portBits (s : State) (f : WPort → Bool) : BitVec 64 :=
  BitVec.ofNat 64 ((List.range 64).foldl (fun a p => if f (s.weft.port.getD p {}) then a + 2 ^ p else a) 0)

/-- The census now, as a record of the circular history of 1,024. -/
def noteCensus (s : State) : State :=
  let g := match s.weft.geom with | some g => (g.tileW, g.tileH) | none => (0, 0)
  let m := match s.weft.timing with | some t => t.m | none => 0
  let r : CensusRec := {
    cause := resetCause s, drv := code s pinDrv, lc := s.weft.chainLen, sec := BitVec.ofNat 32 s.time.sec.toNat
    canvas := portBits s WPort.inCanvas, chained := portBits s (fun p => p.chain != 0)
    tileW := g.1, tileH := g.2, s := scanOf (code s pinScan), m := m, clocks := groupClocks s, keyed := (storedKey s .wear).getD [] }
  modLdg (fun z => { z with history := (z.history ++ [r]).drop (z.history.length + 1 - 1024) }) s

/-- Address bytes of the flash's commands: 4 above 128 Mbit (R919). -/
def ledgerAddressBytes (s : State) : Nat := if 7 < s.ldg.density then 4 else 3

/-! ### The records as their bytes (Table 19.10; 00 R7) -/

/-- The bytes of a record followed by the leftmost n of their CMAC. -/
def tagged (n : Nat) (key b : List Byte) : List Byte := b ++ (cmac key b).take n

def identityBytes (r : IdentityRec) : List Byte :=
  tagged 16 r.keyed (beBytes 4 0x5A4C4447 ++ beBytes 1 1 ++ beBytes 1 r.density ++ beBytes 2 r.sectors ++ beBytes 2 r.copies ++ zeros 2 ++
    beBytes 4 r.gen ++ beBytes 8 r.serial.toNat ++ beBytes 1 r.done ++ beBytes 1 (b2n r.site) ++ beBytes 1 r.epoch ++ zeros 1 ++
    beBytes 4 r.check ++ zeros 16)

/-- The data sectors of a copy: 4 bytes per block, the rest of the last sector erased. -/
def wearDataBytes (c : WearCopy) : List Byte :=
  let d := c.data.flatMap (fun v => beBytes 4 v)
  d ++ List.replicate ((4096 - d.length % 4096) % 4096) 0xFF

def wearTrailerHead (c : WearCopy) : List Byte :=
  beBytes 4 0x5A574541 ++ beBytes 1 1 ++ zeros 1 ++ beBytes 2 c.cols ++ beBytes 2 c.rows ++ beBytes 4 c.gen ++ beBytes 4 c.wall.toNat ++
  zeros 30

/-- The trailer of a copy, tagged over the data sectors and its own bytes 0 to 47. -/
def wearTrailerBytes (c : WearCopy) : List Byte :=
  wearTrailerHead c ++ (cmac c.keyed (wearDataBytes c ++ wearTrailerHead c)).take 16

def logBytes (r : LogRec) : List Byte :=
  tagged 8 r.keyed (ringBytes r.entry ++ beBytes 4 r.seqNo.toNat ++ zeros 4)

def censusRecBytes (r : CensusRec) : List Byte :=
  tagged 8 r.keyed (beBytes 1 1 ++ beBytes 1 r.cause ++ beBytes 1 r.drv ++ beBytes 1 r.lc ++ beBytes 4 r.sec.toNat ++
    beBytes 8 r.canvas.toNat ++ beBytes 8 r.chained.toNat ++ beBytes 2 r.tileW ++ beBytes 2 r.tileH ++ beBytes 1 r.s ++ beBytes 1 r.m ++
    beBytes 2 r.clocks ++ zeros 24)

/-- Whether nothing of a flush is still to be written. -/
def flushDone (s : State) : Bool := s.ldg.busy.isNone && s.ldg.todo.isEmpty

end Sys2Proof.Machine
end

