-- ==== Sys2Proof/Machine/KeyOps.lean ====
section
/-!
DEFINITION. The fuse sequences of lifecycle transitions, rotations and completions (17 R824 to R835, R847, R853 to R856,
R944), and the end of a card (16 R805, 17 R846, R855).
-/
namespace Sys2Proof.Machine
open Sys2Proof

/-! ### Parts of a sequence -/

/-- The lifecycle record of a transition (Table 17.4). -/
def seqRecord (k : SeqKind) : Option Nat :=
  match k with
  | .commission _ e => some (2 * e - 1)
  | .release e => some (2 * e)
  | .returnOrder => some 17
  | .retire => some 18
  | _ => none

/-- The slot an order stages. -/
def stagedSlot (k : SeqKind) : Option Nat :=
  match k with | .commission n _ => some n | .rotate n _ => some n | _ => none

/-- Step 3 of R831, or step 2 of R847, has not begun (log 19). -/
def beforeIntent (q : FuseSeq) : Bool := decide (q.stage = .flush) || decide (q.stage = .staging)

/-- The junction is above 105 °C, in units of 1/16 °C (R944). -/
def hotJunction (tj : Int) : Bool := decide (1680 < tj)

def setSeq (q : FuseSeq) (s : State) : State := modKeys (fun z => { z with seq := some q }) s
def noSeq (s : State) : State := modKeys (fun z => { z with seq := none }) s

/-- The next pair of a sequence waits while the junction is too hot. -/
def markHot (tj : Int) (s : State) : State :=
  match s.keys.seq with
  | none => s
  | some q => setSeq { q with hot := hotJunction tj && !q.todo.isEmpty } s

/-! ### Outcomes of an order (17 R830, 18 R871, R879) -/

/-- The outcome of the order in the dialogue, if its card is still there. -/
def decideOutcome (n : Nat) (s : State) : State :=
  if s.dlg.order.isSome then modDlg (fun z => { z with outcome := some n }) s else s

/-- The order is refused with a code of Table 18.9. -/
def refuseOrder (n : Nat) (s : State) : State := raise .lcRefused (BitVec.ofNat 32 n) (decideOutcome n s)

/-- `f:KEY_SLOTS`: 2 or fewer slots are EMPTY (Table 17.9). -/
def reportSlots (s : State) : State :=
  let n := emptySlots s.otp.shadow
  if n ≤ 2 then raise .keySlots (BitVec.ofNat 32 n) s else s

/-- A staged slot is destroyed at once, a slot not yet touched is left EMPTY, and the order ends (R855, R848). -/
def dropOrder (q : FuseSeq) (s : State) : State :=
  match stagedSlot q.kind with
  | none => noSeq s
  | some n =>
    if decide (q.stage = .flush) || (q.hot && decide (slotState s.otp.shadow n = .empty)) then noSeq s
    else setSeq { kind := .destroy n, stage := .destroyOld, todo := destroyPairs n, hot := q.hot } s

/-! ### Stages -/

/-- Step 3 of R831 while `ARM_N` is accepted low (R832), or the ACTIVE marker of a rotation (R847). -/
def beginIntent (q : FuseSeq) (s : State) : State :=
  match seqRecord q.kind, stagedSlot q.kind with
  | some r, _ =>
    if s.live.arm.level then dropOrder q (refuseOrder 4 s)
    else setSeq { q with stage := .intent, todo := [recIntent r] } s
  | none, some n => setSeq { q with stage := .body, todo := [slotBase n + 1] } s
  | none, none => noSeq s

/-- The staged slot is verified (R826); a failure is reported and the slot destroyed (Table 18.12). -/
def endStaging (q : FuseSeq) (s : State) : State :=
  let s := reportSlots s
  match stagedSlot q.kind with
  | none => noSeq s
  | some n =>
    if stagedExact s.otp.shadow n q.image && checkValue (slotRoot s.otp.shadow n) == slotCheck s.otp.shadow n then
      beginIntent q s
    else dropOrder q (refuseOrder 7 (raise .keyVerify (BitVec.ofNat 32 (16 + n)) s))

/-- After the flush: the pairs of the staging, or the intent where nothing is staged (R824, R831). -/
def afterFlush (q : FuseSeq) (s : State) : State :=
  match stagedSlot q.kind with
  | some n => setSeq { q with stage := .staging, todo := q.image.map (fun o => slotBase n + o) } s
  | none => beginIntent q s

/-- Every ACTIVE or PENDING slot but one, in ascending order. -/
def doomedSlots (fuses : List Nat) (kept : Option Nat) : List Nat :=
  (List.range 16).filter (fun n =>
    (decide (slotState fuses n = .active) || decide (slotState fuses n = .pending)) && some n != kept)

/-- Steps 4 to 6 of R831. -/
def bodyPairs (s : State) (k : SeqKind) (r : Nat) : List Nat :=
  (doomedSlots s.otp.shadow (stagedSlot k)).flatMap destroyPairs ++ (if r = 18 then deviceRootPairs else []) ++
  (match stagedSlot k with | some n => [slotBase n + 1] | none => []) ++ [recState r]

/-- A transition or a rotation is carried out: the phase is read, and the keys are swapped at the next beat (R847, R849). -/
def carriedOut (w : Swap) (s : State) : State :=
  decideOutcome 0 (noSeq (modKeys (fun z => { z with phase := phaseOf s.otp.shadow, swapDue := some w }) s))

/-- The old ACTIVE slot of a rotation is destroyed (R847 step 4). -/
def destroyOldSlot (q : FuseSeq) (old : Nat) (s : State) : State :=
  setSeq { q with stage := .destroyOld, todo := destroyPairs old } s

/-- The re-tag of a rotation, or step 4 at once where the ledger cannot be written. -/
def beginRetag (q : FuseSeq) (old : Nat) (s : State) : State :=
  if mayWrite s .retag then startLedger .retag (setSeq { q with stage := .retag, todo := [] } s)
  else destroyOldSlot q old s

/-- `f:LC_RESUMED` names the first record and the first slot completed (Table 19.3; log 19). -/
def resumedDetail (q : FuseSeq) : BitVec 32 := BitVec.ofNat 32 (q.records.headD 0 + 256 * q.slots.headD 0)

/-- What follows the last pair of a stage. -/
def nextStage (q : FuseSeq) (s : State) : State :=
  match q.kind, q.stage with
  | .complete, _ => readPhase (raise .lcResumed (resumedDetail q) (noSeq s))
  | .destroy _, _ => noSeq s
  | _, .flush => afterFlush q s
  | _, .staging => endStaging q s
  | k, .intent =>
    (match seqRecord k with
      | some r => setSeq { q with stage := .body, todo := bodyPairs s k r } s
      | none => noSeq s)
  | .rotate _ old, .body => beginRetag q old s
  | .rotate _ old, .retag => destroyOldSlot q old s
  | .rotate _ _, .destroyOld => carriedOut .rotation s
  | _, _ => carriedOut .transition s

/-- The ledger is free of what a sequence waits for: the flush of R831 or the re-tag of R847. -/
def ledgerFreed (s : State) : State :=
  match s.keys.seq with
  | none => s
  | some q =>
    if q.stage = .flush && s.ldg.copy.isNone then markHot s.sens.tj (nextStage q s)
    else if q.stage = .retag && s.ldg.busy != some .retag && !s.ldg.todo.contains .retag then
      markHot s.sens.tj (nextStage q s)
    else s

/-- A transition starts with the flush of the wear map (R831). -/
def startTransition (k : SeqKind) (image : List Nat) (s : State) : State :=
  ledgerFreed (setSeq { kind := k, stage := .flush, todo := [], image := image } (startFlush s))

/-- A rotation starts with the staging of its slot (R847). -/
def startRotation (slot old : Nat) (image : List Nat) (s : State) : State :=
  markHot s.sens.tj (afterFlush { kind := .rotate slot old, stage := .flush, todo := [], image := image } s)

/-! ### Commands of the fuse controller (R833, R944, R847) -/

/-- A pair has been programmed: both fuses, or the first alone where the second did not take (R861; log 19). -/
def burnPair (p : Nat) (took : Bool) (s : State) : State :=
  let f (l : List Nat) := if took then programPair l p else insFuse (2 * p) l
  { s with otp := { fuse := f s.otp.fuse, shadow := f s.otp.shadow } }

def execFusePairDone (took : Bool) (tj : Int) (s : State) : Out :=
  match s.keys.seq with
  | none => .next s
  | some q =>
    match q.todo with
    | [] => .next s
    | p :: rest =>
      if q.hot then .next s
      else
        let s := settleAfterPair (burnPair p took s)
        let q := { q with todo := rest }
        .next (markHot tj (if rest.isEmpty then nextStage q s else setSeq q s))

def execFuseSequenceTempWaitEnd (tj : Int) (s : State) : Out :=
  match s.keys.seq with
  | none => .next s
  | some q => if q.hot && !hotJunction tj then .next (setSeq { q with hot := false } s) else .next s

/-- Every record that verifies under the old fault-log key takes a tag under the new one (R847 step 3). -/
def retagLog (s : State) : State :=
  match keyValue s .faultLog with
  | none => s
  | some k => modLdg (fun z => { z with
      log := z.log.map (fun r => if r.keyed = z.logKey then { r with keyed := k } else r) }) s

def execLedgerRetagDone (s : State) : Out :=
  if s.ldg.busy = some .retag then .next (ledgerFreed (nextLedger (retagLog s))) else .next (ledgerFreed s)

/-! ### The end of a card -/

/-- The order is abandoned where its sequence is before step 3 (R855, 18 R893). -/
def abandonOrder (s : State) : State :=
  match s.keys.seq with
  | none => s
  | some q => if beforeIntent q then markHot s.sens.tj (dropOrder q s) else s

/-- A card is deactivated: its dialogue ends, and the session keys and the identity source are destroyed (16 R805, R846). -/
def endCard (s : State) : State :=
  let s := abandonOrder s
  { s with
    card := { s.card with stage := .ended, retryAt := none, ioLow := true, endedAt := some s.now, tx := none }
    dlg := { s.dlg with step := 0, nT := [], reply := none, order := none, outcome := none }
    keys := { s.keys with store := s.keys.store.filter (fun k => !decide (k.name = .identity)) } }

end Sys2Proof.Machine
end

