-- ==== Sys2Proof/Machine/FaultCmds.lean ====
section
/-!
DEFINITION. The commands of the fault manager (19): raise, clear, handlers, the hold-off's end and the mirror.
-/
namespace Sys2Proof.Machine
open Sys2Proof

/-- A raise by the owning block (R900), with what the clock and the supply keep beside it. -/
def execFaultRaise (f : FaultName) (detail : BitVec 32) (s : State) : Out :=
  if !s.pwr.aonOn then .next s
  else
    match f with
    | .clkXtal => .next (xtalFault detail s)
    | .clkUnlock => .next (unlockFault detail.toNat s)
    | .pwrBrownout =>
      if s.standby.asleep then .next (raise .pwrBrownout detail s) else .next (brownout detail false s)
    | _ => .next (raise f detail s)

/-- A fault's clear condition holds (R900). -/
def execFaultClear (f : FaultName) (detail : BitVec 32) (s : State) : Out := .next (clearFault f detail s)

/-- The acting handler of a severity has ended; the queue is served (R903 to R905). -/
def execFaultHandlerEnd (sev : Sev) (s : State) : Out :=
  match s.flt.handlers with
  | [] => .next s
  | h :: rest =>
    if h.prio = sev then .next (serveQueue (modFlt (fun z => { z with handlers := rest }) s)) else .next s

/-- R907: a handler of S0 to S2 exceeds 10 ms. -/
def execHandlerTimeout (sev : Sev) (s : State) : Out :=
  match s.flt.handlers with
  | [] => .next s
  | h :: rest =>
    if h.prio = sev && h.started + msT 10 ≤ s.now then
      .next (raise .fmDouble 1 (modFlt (fun z => { z with handlers := rest }) s))
    else .next s

/-- R908, R909: the hold-off has ended; the restart waits for a brown-out and a fuse sequence (R144, 17 R854), and a fourth
counted restart within 10 min enters safe hold in its place. -/
def execS3HoldoffEnd (banks : BankMv) (s : State) : Out :=
  match s.flt.holdoff with
  | none => .next s
  | some h =>
    if (match h.until_ with | some t => decide (t ≤ s.now) | none => false) && !s.pwr.vinLow && s.keys.seq.isNone then
      if holdCounted h.f && 3 ≤ restartsBefore s s.now then .next (enterSafeHold s)
      else .next (s3Restart h.f banks s)
    else .next s

/-- R914: S2 and S3 entries, and every older one, are mirrored once the ledger can be written. -/
def execLedgerMirror (s : State) : Out := .next (startMirror (mirrorCount false s) s)

end Sys2Proof.Machine
end

