-- ==== Sys2Proof/Machine/Straps.lean ====
section
/-!
DEFINITION. The strap reader (03 R94 to R107, Tables 3.11 and 3.13): passes, re-reads and the two live strap pins.
-/
namespace Sys2Proof.Machine
open Sys2Proof

/-! ### Deciding the fields after pass 2 (R95 to R99) -/

/-- The code a pin decides: both readings firm and equal (R95). -/
def bothFirm (a b : Decided) : Option Code :=
  match a, b with
  | .firm x, .firm y => if x = y then some x else none
  | _, _ => none

/-- The other pin of a two-pin field (R97). -/
def partnerPin (p : Nat) : Option Nat :=
  if p = pinWall0 then some pinWall1 else if p = pinWall1 then some pinWall0
  else if p = pinMklay0 then some pinMklay1 else if p = pinMklay1 then some pinMklay0
  else if p = pinMcbase0 then some pinMcbase1 else if p = pinMcbase1 then some pinMcbase0 else none

/-- The reading of a pass; marginal where the pass has none. -/
def readAt (l : List Decided) (p : Nat) : Decided := l.getD p .marginal

/-- The code each pin decided at the bring-up; none where it decided none or the reference was out of range. -/
def pinCode (x : Straps) (p : Nat) : Option Code :=
  if x.ref1 && x.ref2 then bothFirm (readAt x.pass1 p) (readAt x.pass2 p) else none

def takes (x : Straps) (p : Nat) : Bool :=
  match pinCode x p with | none => false | some c => listed p c.val

/-- The code a field's pin has in use before conflicts: its own when it, and its partner, take codes; else 15. -/
def fieldCode (x : Straps) (p : Nat) : Code :=
  let ok := takes x p && (match partnerPin p with | none => true | some q => takes x q)
  if ok then (pinCode x p).getD 15 else 15

/-- Strap faults of the readings: marginal or disagreeing pins, and reserved codes; `CS_BRIGHT` raises none (R95, R96, R106). -/
def readingFaults (s : State) : State :=
  if !(s.straps.ref1 && s.straps.ref2) then
    if s.straps.refBad then s else raiseDirect .strapAmbig 255 (modStraps (fun z => { z with refBad := true }) s)
  else
    (List.range 48).foldl (fun st p =>
      if p = pinBright then st
      else match pinCode st.straps p with
        | none => raiseDirect .strapAmbig (BitVec.ofNat 32 p) st
        | some c => if listed p c.val then st else raiseDirect .strapReserved (BitVec.ofNat 32 p) st)
      (modStraps (fun z => { z with refBad := false }) s)

def setUse (p : Nat) (c : Code) (s : State) : State :=
  modStraps (fun z => { z with inUse := updAt z.inUse p (fun _ => c) }) s

/-- Rows 1 to 7 of Table 3.11: whether a row applies. -/
def conflictHolds (s : State) (row : Nat) : Bool :=
  match row with
  | 1 => (code s pinPosX == 15) != (code s pinPosY == 15)
  | 2 => standalone s && (code s pinPosX != 15 || code s pinPosY != 15)
  | 3 => code s pinMklay1 != 15 && code s pinMklay0 != 15 && 48 < (code s pinMklay1 + 1) * (code s pinMklay0 + 1)
  | 4 => code s pinMkreg != 15 && mkGroups s == 0
  | 5 => code s pinMkreg != 15 && mkGroups s != 0 && mkGroups s < code s pinMkreg
  | 6 =>
    let f := tdmFmt (code s pinTdmfmt)
    49152000 < f.1 * f.2.1 * audRate s
  | 7 => code s pinAuth == 2 && (match s.keys.phase with | .commissioned _ => false | _ => true)
  | _ => false

/-- The resolution of a row (Table 3.11); rows 3 and 5 lie in how `s:MKLAY` and `s:MKREG` are read. -/
def resolveRow (row : Nat) (s : State) : State :=
  match row with
  | 1 => setUse pinPosX 15 (setUse pinPosY 15 s)
  | 2 => setUse pinPosX 0 (setUse pinPosY 0 s)
  | 4 => setUse pinMkreg 15 s
  | 6 => setUse pinAudrate 15 s
  | 7 => setUse pinAuth 1 s
  | _ => s

/-- Conflicts in the order listed, each raising `f:STRAP_CONFLICT` (R98). -/
def resolveConflicts (s : State) : State :=
  [1, 2, 3, 4, 5, 6, 7].foldl (fun st row =>
    if conflictHolds st row then resolveRow row (raiseDirect .strapConflict (BitVec.ofNat 32 row) st) else st) s

/-- `CS_BRIGHT` at a bring-up: the code nearest to its pass 2 reading, or the default without a reference (R106). -/
def bringUpBright (x : Straps) (bright : Code) : Code := if x.ref1 && x.ref2 then bright else 15

/-- `t:strap_code` and the codes in use before conflicts. -/
def decideCodes (b : Code) (x : Straps) : Straps :=
  let codes := (List.range 48).map (fun p => if p = pinBright then b else (pinCode x p).getD 15)
  { x with
    code := codes, pend := codes, decided := true
    inUse := (List.range 48).map (fun p => if p = pinBright then b else fieldCode x p) }

/-- Both record fields of a live pin carry the accepted code (R101). -/
def showLive (p : Nat) (c : Code) (s : State) : State :=
  modStraps (fun z => { z with
      code := updAt z.code p (fun _ => c), pend := updAt z.pend p (fun _ => c) }) s

/-- The live straps start from the codes decided. -/
def startLive (b : Code) (s : State) : State :=
  let c : Code := s.straps.inUse.getD pinScene 15
  showLive pinScene c (modLive (fun z => { z with
      sceneCode := c, sceneRun := none, sceneMiss := 0, sceneDue := none
      brightCode := b, brightApplied := b, brightRun := none, brightDue := none }) s)

/-- A lock that came before the codes were decided left the sweep off: its first modulation period starts now (05 R198). -/
def lateSweep (known : Bool) (s : State) : State := if s.clk.locked && !known then startSweep s else s

/-- After pass 2: faults, codes, conflicts, and the live straps' codes (R95 to R99, R101, R106). -/
def decideFields (bright : Code) (s : State) : State :=
  let b := bringUpBright s.straps bright
  let known := sweepKnown s
  let s1 := readingFaults s
  let s2 := { s1 with straps := decideCodes b s1.straps }
  lateSweep known (startLive b (resolveConflicts s2))

/-- The decision falls at 23 ms after the reference instant (R98, R117, Table 3.3). -/
def settleStraps (s : State) : State :=
  match s.straps.decideDue with
  | none => s
  | some c => if s.boot.ref + msT 23 ≤ s.now then decideFields c (modStraps (fun z => { z with decideDue := none }) s) else s

/-- A pass of all 48 pins lasts 2.42 ms, one of the 46 non-live pins 2.34 ms (R92). -/
def passLength (all : Bool) : Ticks := if all then usT 2420 else usT 2340

/-- The pull-up of a strap pin is connected: in a pass, and for the live ones throughout running (R92). -/
def strapPull (s : State) (p : Nat) : Bool :=
  s.pwr.aonOn && !s.boot.inReset && (decide (s.now < s.straps.passEnd) || (isLivePin p && !s.standby.asleep))

/-- R94: pass 1 at 10 ms and pass 2 at 20 ms after the reference instant. -/
def execStrapPass (ref : Nat) (readings : List Reading) (s : State) : Out :=
  if !s.pwr.aonOn || s.boot.inReset || !s.boot.started || s.straps.decided || s.straps.decideDue.isSome then .next s
  else if s.straps.pass1.isEmpty then
    if s.boot.ref + msT 10 ≤ s.now then
      .next (modStraps (fun z => { z with
        pass1 := readings.map decideReading, ref1 := refInRange ref, passEnd := s.now + passLength true }) s)
    else .next s
  else if s.boot.ref + msT 20 ≤ s.now then
    .next (settleStraps (modStraps (fun z => { z with
      pass2 := readings.map decideReading, ref2 := refInRange ref, passEnd := s.now + passLength true
      decideDue := some (nearestCode (readings.getD pinBright ⟨[]⟩)) }) s))
  else .next s

/-! ### Re-reads (R100, R102, Table 3.13) -/

/-- A marginal re-read of a pin: the third in a row raises `f:STRAP_AMBIG` (R102). -/
def marginalReread (p : Nat) (s : State) : State :=
  let s := countUp ctMarginal 1 (modStraps (fun z => { z with marginalRun := updAt z.marginalRun p (· + 1) }) s)
  if s.straps.marginalRun.getD p 0 = 3 then raise .strapAmbig (BitVec.ofNat 32 p) s else s

/-- A firm re-read of a pin: a code other than the pending one is read again 10 ms later (R100). -/
def firmReread (p : Nat) (c : Code) (s : State) : State :=
  let s := modStraps (fun z => { z with marginalRun := updAt z.marginalRun p (fun _ => 0) }) s
  if c = s.straps.pend.getD p 15 then s
  else modStraps (fun z => { z with recheck := z.recheck ++ [(p, c, s.now + msT 10)] }) s

def rereadPin (p : Nat) (r : Reading) (s : State) : State :=
  match decideReading r with
  | .marginal => marginalReread p s
  | .firm c => firmReread p c s

/-- Some pin is marginal for the third pass in a row. -/
def ambigFound (s : State) : Bool := s.straps.marginalRun.contains 3

/-- Every 60 s, also in standby, and once within a requested suite (06 R247). -/
def execStrapRereadPass (ref : Nat) (readings : List Reading) (s : State) : Out :=
  let asked := !s.standby.asleep && (suiteWants s .strap || runsAgain s .strap)
  if !s.pwr.aonOn || s.boot.inReset || !s.straps.decided || !(asked || decide (s.straps.nextReread ≤ s.now)) then .next s
  else
    let s := modStraps (fun z => { z with
      nextReread := if z.nextReread ≤ s.now then s.now + secT 60 else z.nextReread
      recheck := [], passEnd := s.now + passLength false }) (ranAgain .strap s)
    if refInRange ref then
      let s := modStraps (fun z => { z with refBad := false }) s
      let s := ((List.range 48).filter (fun p => !isLivePin p)).foldl (fun st p =>
        match readings[p]? with | none => st | some r => rereadPin p r st) s
      .next (noteTest .strap (ambigFound s) s)
    else if s.straps.refBad then .next (noteTest .strap true s)
    else .next (raise .strapAmbig 255 (noteTest .strap true (modStraps (fun z => { z with refBad := true }) s)))

/-- R100: the second reading, 10 ms later. -/
def execStrapConfirmRead (pin : Fin 48) (reading : Reading) (s : State) : Out :=
  match s.straps.recheck.find? (fun x => x.1 == pin.val) with
  | none => .next s
  | some x =>
    if s.now < x.2.2 then .next s
    else
      let s := modStraps (fun z => { z with recheck := z.recheck.filter (fun y => y.1 != pin.val) }) s
      if decideReading reading = .firm x.2.1 then
        let c := x.2.1
        let s := modStraps (fun z => { z with pend := updAt z.pend pin.val (fun _ => c) }) s
        if c = s.straps.code.getD pin.val 15 || s.straps.changedSeen.contains (pin.val, c) then .next s
        else .next (raise .strapChanged (BitVec.ofNat 32 pin.val)
          (addResult (testNo .strap) .fail <| modStraps (fun z => { z with changedSeen := (pin.val, c) :: z.changedSeen }) s))
      else .next s

/-! ### Live straps (R103 to R106) -/

/-- A code of `CS_SCENE` is accepted and goes to the heddle at the next beat (R104). -/
def acceptScene (c : Code) (s : State) : State :=
  if c = s.live.sceneCode then s
  else showLive pinScene c (modLive (fun z => { z with sceneCode := c, sceneDue := some c }) s)

/-- R105: the 100 readings are counted from the end of the last run of 3, or from the last 100 without one (DESIGN CHOICE, log 76). -/
def readScene (r : Reading) (s : State) : State :=
  let run := match decideReading r with
    | .marginal => none
    | .firm c => match s.live.sceneRun with | some (d, n) => if c = d then some (c, n + 1) else some (c, 1) | none => some (c, 1)
  let s := modLive (fun z => { z with sceneRun := run, sceneMiss := z.sceneMiss + 1 }) s
  match run with
  | some (c, n) =>
    if 3 ≤ n then acceptScene c (modLive (fun z => { z with sceneMiss := 0 }) s)
    else if 100 ≤ s.live.sceneMiss then
      raise .strapAmbig (BitVec.ofNat 32 pinScene) (acceptScene 15 (modLive (fun z => { z with sceneMiss := 0 }) s))
    else s
  | none =>
    if 100 ≤ s.live.sceneMiss then
      raise .strapAmbig (BitVec.ofNat 32 pinScene) (acceptScene 15 (modLive (fun z => { z with sceneMiss := 0 }) s))
    else s

/-- `CS_BRIGHT` with half-band hysteresis of 60 mV (R106). -/
def readBrightPin (r : Reading) (s : State) : State :=
  if distance8 r s.live.brightCode.val ≤ 60000 * 8 then modLive (fun z => { z with brightRun := none }) s
  else
    let c := nearestCode r
    let n := match s.live.brightRun with | some (d, n) => if c = d then n + 1 else 1 | none => 1
    if n = 3 then showLive pinBright c (modLive (fun z => { z with brightRun := none, brightCode := c, brightDue := some c }) s)
    else modLive (fun z => { z with brightRun := some (c, n) }) s

/-- R103: every 10 ms while running; a slot with the reference out of range gives no reading (R105). -/
def execLiveStrapRead (ref : Nat) (scene bright : Reading) (s : State) : Out :=
  if !runs s || !s.straps.decided || s.now < s.boot.ref + msT 30 || s.now < s.live.readNext then .next s
  else
    let s := modLive (fun z => { z with readNext := s.now + msT 10 }) s
    if refInRange ref then .next (readBrightPin bright (readScene scene s)) else .next s

end Sys2Proof.Machine
end

