-- ==== Sys2Proof/Machine/SelfTest.lean ====
section
/-!
DEFINITION. Self-test on request and in service (06 R242 to R263, 03 R111, R112).
-/
namespace Sys2Proof.Machine
open Sys2Proof

/-! ### What a low period of `SELFTEST_N` starts (R246, R257, R258) -/

/-- A window on this tile has a valid source. -/
def validSource (w : Win) : Bool := w.touches && w.lastComplete.isSome && !w.noStream
def anySource (s : State) : Bool := s.scene.win.any validSource

def testRuns (s : State) : Bool := s.test.suite.isSome || s.test.visible.isSome || s.test.visibleDue

/-- A lane of the eye reading is up: `NET0` to `NET3`, then `SV_N` to `SV_W`. -/
def laneUp (s : State) (l : Nat) : Bool :=
  match l with
  | 0 => (netPort s 0).linkUp.isSome | 1 => (netPort s 1).linkUp.isSome
  | 2 => (netPort s 2).linkUp.isSome | 3 => (netPort s 3).linkUp.isSome
  | 4 => s.sv.n.locked | 5 => s.sv.e.locked | 6 => s.sv.s.locked | _ => s.sv.w.locked

/-- Every item of the suite runs once (R247): what a tile without canvas, link or spare DAC does not have is left out. -/
def suiteItems (s : State) : List SuiteItem :=
  (if anyCanvas s && !isClassS s then [.led] else []) ++
  ((List.range 5).filter (fun b => !(s.test.dac.getD b {}).stopped)).map .dac ++ [.rom, .otp] ++
  ((List.range 8).filter (laneUp s)).map .eye ++ [.strap, .sensors, .ageing]

/-- The invisible suite starts, or is held until the idle pattern (R247, R257). -/
def startSuite (s : State) : State :=
  if s.boot.idleShown then modTest (fun z => { z with suite := some { since := s.now, todo := suiteItems s } }) s
  else modTest (fun z => { z with held := some .invisible }) s

/-- The visible sequence is refused over content (R246), else it starts at the next beat, or is held (R257). -/
def startVisible (force : Bool) (s : State) : State :=
  if !s.boot.idleShown then
    { s with test := { s.test with held := some (.visible force) }, live := { s.live with acted := true } }
  else if !force && anySource s then
    addResult testVisible .refused (modLive (fun z => { z with refusedNow := true }) s)
  else { s with test := { s.test with visibleDue := true }, live := { s.live with acted := true } }

/-- The action held until the idle pattern is carried out (R257). A visible sequence refused now starts the suite at the release of its
low period, which may have come already (R246). -/
def releaseHeld (s : State) : State :=
  match s.test.held with
  | none => s
  | some a =>
    let s := modTest (fun z => { z with held := none }) s
    match a with
    | .invisible => startSuite s
    | .visible force =>
      if !force && anySource s then
        let s := addResult testVisible .refused s
        if s.live.lowSince.isSome then modLive (fun z => { z with refusedNow := true, acted := false }) s else startSuite s
      else modTest (fun z => { z with visibleDue := true }) s

/-- The low period has reached a length and has not acted yet. -/
def lowFor (s : State) (d : Ticks) : Bool := passed s.now s.live.lowSince d && !s.live.acted

def execSelftestHold2s (s : State) : Out :=
  if runs s && lowFor s (secT 2) && !s.live.refusedNow then .next (startVisible false s) else .next s

def execSelftestHold10s (s : State) : Out :=
  if runs s && lowFor s (secT 10) then .next (startVisible true s) else .next s

/-- An accepted fall of `SELFTEST_N`: while a test runs it starts nothing new, and a visible sequence ends at the next beat
as ABORTED (R258). -/
def selftestFalls (s : State) : State :=
  let busy := testRuns s
  let s := modLive (fun z => { z with lowSince := some s.now, acted := busy, refusedNow := false }) s
  if s.test.visible.isSome then modTest (fun z => { z with endDue := some true }) s else s

/-- An accepted rise: a period of 10 ms to less than 2 s, or a refused one, starts the suite (R111, R246). -/
def selftestRises (s : State) : State :=
  let go := passed s.now s.live.lowSince (msT 10) && !s.live.acted &&
    (!passed s.now s.live.lowSince (secT 2) || s.live.refusedNow)
  let s := modLive (fun z => { z with lowSince := none, refusedNow := false }) s
  if go then startSuite s else s

/-! ### Ends and steps -/

/-- R247, R251, R252: the suite ends once each of its items has run; its tests are recorded already and have raised their faults. Its
result and a record follow at once. -/
def execInvisibleSuiteDone (s : State) : Out :=
  match s.test.suite with
  | none => .next s
  | some q =>
    if !runs s || !q.todo.isEmpty || q.ending then .next s
    else
      let s := modTest (fun z => { z with suite := none }) s
      .next (launchRecord 4 (addResult testSuite (if q.failed.isEmpty then .pass else .fail) s))

/-- Non-regulated groups, lit in turn in step 6. -/
def plainGroups (s : State) : Nat := mkGroups s - mkRegulated s

/-- Sub-steps of a step and the length of one (Table 6.5). -/
def stepParts (s : State) (step : Nat) : Nat × Ticks :=
  match step with
  | 1 => (1, secT 2)
  | 2 => (4, secT 2)
  | 3 => (1, secT 2)
  | 4 => (64, secT 1 / 8)
  | 5 => (scanOf (code s pinScan), secT 8 / scanOf (code s pinScan))
  | _ => (plainGroups s, secT 1)

/-- The last step: 6 where a non-regulated group is formed, else 5. -/
def lastStep (s : State) : Nat := if plainGroups s = 0 then 5 else 6

/-- The present sub-step has lasted its time. -/
def partElapsed (s : State) (v : Visible) : Bool := v.since + (stepParts s v.step).2 ≤ s.now

def nextPart (s : State) (v : Visible) : Visible :=
  if v.sub + 1 < (stepParts s v.step).1 then { v with sub := v.sub + 1, since := s.now, reads := 0 }
  else { v with step := v.step + 1, sub := 0, since := s.now, reads := 0 }

def atLastPart (s : State) (v : Visible) : Bool := v.step == lastStep s && v.sub + 1 == (stepParts s v.step).1

/-- R248: the next sub-step or step, on a beat. -/
def execVisibleStepAdvance (s : State) : Out :=
  match s.test.visible with
  | none => .next s
  | some v =>
    if atBeat s && partElapsed s v && !atLastPart s v then .next (modTest (fun z => { z with visible := some (nextPart s v) }) s)
    else .next s

/-- R250 to R252: the last step has ended; the result and a record at once; the canvas and the sound return at the next
beat. A failed LED read of steps 1 and 2 has raised its fault when it was made. -/
def execVisibleSequenceEnd (s : State) : Out :=
  match s.test.visible with
  | none => .next s
  | some v =>
    if partElapsed s v && atLastPart s v && s.test.endDue.isNone then
      let s := addResult testVisible (if v.failed then .fail else .pass) (modTest (fun z => { z with endDue := some false }) s)
      .next (launchRecord 4 s)
    else .next s

/-- R242: a slice that has not finished is abandoned without effect and run again. -/
def execTestSliceAbandon (test : TestKind) (s : State) : Out :=
  if s.test.again.contains test then .next s else .next (modTest (fun z => { z with again := test :: z.again }) s)

/-- Table 6.4: every 10 min the margin of a lane that is up is recorded; lanes 0 to 3 are `NET0` to `NET3`, 4 to 7 `SV_N` to `SV_W`. -/
def execEyeMarginRead (lane : Fin 8) (margin : Nat) (s : State) : Out :=
  let due := match s.test.eyeNext.getD lane.val none with | none => true | some t => decide (t ≤ s.now)
  if runs s && laneUp s lane.val && (due || suiteWants s (.eye lane.val) || runsAgain s .eye) then
    .next (noteTest (.eye lane.val) false (modTest (fun z => { z with
      eye := updAt z.eye lane.val (fun _ => margin), eyeNext := updAt z.eyeNext lane.val (fun _ => some (s.now + secT 600)) })
        (ranAgain .eye s)))
  else .next s

/-! ### Current DACs (R243, R244) -/

/-- A swap is due every 10 min, or once within a requested suite. -/
def dacDue (s : State) (i : Nat) (b : DacBank) : Bool :=
  suiteWants s (.dac i) || runsAgain s .dac || (match b.lastSwap with | none => true | some t => t + secT 600 ≤ s.now)

def setBankDac (i : Nat) (b : DacBank) (s : State) : State :=
  modTest (fun z => { z with dac := updAt z.dac i (fun _ => b) }) s

/-- The setting of an output of a bank: the analogue code of a group, or q of a marker channel (13 R642, 14 R681). -/
def outputSetting (s : State) (bank output : Nat) : Nat :=
  if bank = 0 then (s.weft.group.getD output {}).code else markerSetting s (12 * (bank - 1) + output)

/-- The setting that a DAC is loaded with: that of the output it drives, or what the spare was loaded with (R243). -/
def dacSetting (s : State) (bank dac : Nat) : Option Nat :=
  let b := s.test.dac.getD bank {}
  match b.map.idxOf? dac with
  | some o => some (outputSetting s bank o)
  | none => if b.ready && dac = b.spare then some b.loaded else none

/-- Steps 1 and 2: the spare is trimmed and loaded with the setting of the next DAC, and waits for the beat; or it is retired and its
bank stops (R243, R244). -/
def execDacSwapCalibrate (bank : Fin 5) (trimmed : Bool) (s : State) : Out :=
  let b := s.test.dac.getD bank.val {}
  if !runs s || b.stopped || b.ready || !dacDue s bank.val b then .next s
  else if trimmed then .next (setBankDac bank.val { b with ready := true, loaded := outputSetting s bank.val b.next } (ranAgain .dac s))
  else
    let s := setBankDac bank.val { b with retired := b.spare :: b.retired, stopped := true } (ranAgain .dac s)
    .next (raise .ageMargin (BitVec.ofNat 32 (0x80 + bank.val)) (noteTest (.dac bank.val) true s))

/-- Steps 3 and 4, at a beat: the spare takes over its DAC's output, and that DAC becomes the spare. -/
def swapDac (now : Ticks) (b : DacBank) : DacBank :=
  if b.ready then
    { b with
      map := updAt b.map b.next (fun _ => b.spare), spare := b.map.getD b.next b.spare, next := (b.next + 1) % b.map.length
      ready := false, lastSwap := some now }
  else b

/-- A regulated channel has its re-test in this millisecond: made already, or due within it (14 R709, R715). -/
def retestNow (s : State) (nn : Nat) : Bool :=
  let c := chanAt s nn
  (match groupOfChan s nn with | some g => regulated s g | none => false) &&
  (c.retestMs == some (wallNs s / 1000000) || ((c.openF || c.shortF) && !c.latched && dueBy (s.now + msT 1) c.nextRetest))

/-- A swap of a marker bank waits for the re-test of a channel of the bank to end (14 R709). -/
def swapWaits (s : State) (bank : Nat) : Bool :=
  bank != 0 && (List.range 12).any (fun i => retestNow s (12 * (bank - 1) + i))

/-- The swaps of a beat. A brightness or current change of the same beat is applied before, so the incoming DAC drives the new setting
(R261). -/
def swapDacs (s : State) : State :=
  (List.range 5).foldl (fun st i =>
    let b := st.test.dac.getD i {}
    if b.ready && !swapWaits st i then noteTest (.dac i) false (setBankDac i (swapDac st.now b) st) else st) s

/-! ### Hourly checks (Table 6.4, R245) -/

def hourlyDue (s : State) (i : SuiteItem) (t : Option Ticks) : Bool :=
  suiteWants s i || runsAgain s (itemTest i) || (match t with | none => true | some x => x ≤ s.now)

/-- Every hour the CRC of the ROM is computed again, some of its bytes read as another value (Table 6.4). -/
def execRomCrcCheck (romFlips : List (Nat × Byte)) (s : State) : Out :=
  if !runs s || !s.boot.remap || !hourlyDue s .rom s.test.romNext then .next s
  else
    let ok := romPasses romFlips s
    let s := noteTest .rom (!ok) (modTest (fun z => { z with romNext := some (s.now + secT 3600) }) (ranAgain .rom s))
    if ok then .next s else .next (raise .seqRom 0 s)

/-- The fuses as the check reads them: those of `flipped` read the other way. -/
def fusesRead (flipped : List Nat) (s : State) : List Nat :=
  s.otp.fuse.filter (fun f => !flipped.contains f) ++ flipped.filter (fun f => !s.otp.fuse.contains f)

/-- Pairs whose fuses differ from each other or from the shadow, each once (R245). -/
def pairsOff (read shadow : List Nat) : List Nat :=
  ((read ++ shadow).map (fun f => f / 2)).eraseDups.filter (fun p =>
    decide (pairRead read p = .half) || decide (pairRead read p ≠ pairRead shadow p))

/-- R245: each pair that differs from the shadow raises `f:KEY_VERIFY`; it does not run during a fuse sequence (17 R833). -/
def execOtpCheck (flipped : List Nat) (s : State) : Out :=
  if !runs s || s.keys.seq.isSome || !hourlyDue s .otp s.test.otpNext then .next s
  else
    let bad := pairsOff (fusesRead flipped s) s.otp.shadow
    let s := noteTest .otp (!bad.isEmpty) (modTest (fun z => { z with otpNext := some (s.now + secT 3600) }) (ranAgain .otp s))
    .next (bad.foldl (fun st p => verifyPair p st) s)

end Sys2Proof.Machine
end

