-- ==== Sys2Proof/Machine/StandbyOps.lean ====
section
/-!
DEFINITION. Triggers of standby and the entry at its beat (04 R157 to R162, R170, R171, R974, Tables 4.4 and 4.5).
-/
namespace Sys2Proof.Machine
open Sys2Proof

/-- Table 4.4: whether a trigger enters at a code of `s:POWER`. -/
def triggerEnabled (s : State) (src : StandbySource) : Bool :=
  match src with
  | .pin => powerCode s != 0
  | .bobbin => powerCode s == 2 || powerCode s == 3
  | .night => powerCode s == 3

/-- Why every trigger is ignored and reported: 1 regulated markers (R160), 2 `f:CLK_SLOW` (05 R218), 0 none. Where both forbid, the
markers are reported (DESIGN CHOICE, log 71). -/
def standbyRefused (s : State) : Nat :=
  if regulatedForbids s then 1 else if isActive s .clkSlow then 2 else 0

/-- A trigger that is ignored is counted, with its cause (R160, 05 R218). -/
def noteIgnored (s : State) : State :=
  modStandby (fun z => { z with
      ignored := z.ignored + 1, ignoredInterval := true, ignoredCause := standbyRefused s }) s

/-- A trigger: ignored by the strapping, ignored and reported, or an entry to come (R157, R160, R161). The flag says an
entry was made; safe hold ignores every trigger (19 R910). -/
def standbyTrigger (src : StandbySource) (due : EntryAt) (s : State) : State × Bool :=
  if !triggerEnabled s src || s.standby.asleep || s.flt.safeHold then (s, false)
  else if standbyRefused s != 0 then (noteIgnored s, false)
  else if s.standby.entry.isSome then (s, false)
  else (modStandby (fun z => { z with entry := some { source := src, due := due } }) s, true)

/-- The entry beat has fallen and standby is being entered. -/
def enteringStandby (s : State) : Bool :=
  match s.standby.entry with | none => false | some e => !decide (e.stage = .waiting)

/-- A card dialogue is in progress (R171). -/
def cardBusy (s : State) : Bool :=
  match s.card.stage with | .absent => false | .ended => false | _ => true

/-- An operation of R171 is in progress: a fuse program, a ledger program or a card dialogue. -/
def entryWaits (s : State) : Bool := s.keys.seq.isSome || s.ldg.busy.isSome || cardBusy s

/-- Whether the trigger's beat is the present one or has passed, at beat k. -/
def entryDue (s : State) (e : Entry) (k : Nat) : Bool :=
  match e.due with
  | .nextBeat => true
  | .afterInstant t => t ≤ s.now
  | .beat n => decide (cmp32 n (beatNo k) ≤ 0)

/-- Beat B: canvas and markers dark, the mute ramp starts, tests end, a scene change is abandoned and the ledger flush
begins (Table 4.5, R170, 06 R260). -/
def entryBeat (e : Entry) (s : State) : State :=
  let s := abortTests s
  let s := muteAll .standby (audRamp s) s
  let s := { s with
    scene := { s.scene with prepared := none, prepWin := [], change := none }
    disc := { s.disc with resign := if s.disc.role = .acting then 3 else 0 }
    standby := { s.standby with entry := some { e with stage := .flushing, at_ := s.now }, sawLow := false } }
  startFlush (endSuite s)

/-- What a beat does with a pending entry: it waits under R171, or B falls. A trigger accepted before the straps were decided, or
before `f:CLK_SLOW` arose, is judged again here: the tile does not enter against R157, R160 or 05 R218. -/
def standbyAtBeat (k : Nat) (s : State) : State :=
  match s.standby.entry with
  | none => s
  | some e =>
    if !decide (e.stage = .waiting) || !entryDue s e k then s
    else if !triggerEnabled s e.source then modStandby (fun z => { z with entry := none }) s
    else if standbyRefused s != 0 then modStandby (fun z => { z with entry := none }) (noteIgnored s)
    else if entryWaits s then
      modStandby (fun z => { z with entry := some { e with
          waitSince := if cardBusy s then holdSince s.now e.waitSince else e.waitSince } }) s
    else entryBeat e s

/-- An accepted high of `STANDBY_N` during an entry (R974): of an entry that the pin triggered, before B it cancels, from B on the
wake follows the entry; of a `b:STANDBY` entry it ends the wake's low and high of R162, and the wake follows too (log 73). -/
def standbyHighEntry (e : Entry) (s : State) : State :=
  if decide (e.source = .bobbin) && decide (e.stage = .flushing) && s.standby.sawLow then
    modStandby (fun z => { z with entry := some { e with wakeAfter := true } }) s
  else if !decide (e.source = .pin) then s
  else if decide (e.stage = .waiting) then modStandby (fun z => { z with entry := none }) s
  else modStandby (fun z => { z with entry := some { e with wakeAfter := true } }) s

/-- Whether an accepted high wakes a sleeping tile: it entered on the pin, or on `b:STANDBY` with a low since (R162). -/
def highWakes (s : State) : Bool :=
  match s.standby.source with
  | some .pin => true
  | some .bobbin => s.standby.sawLow
  | _ => false

end Sys2Proof.Machine
end

