-- ==== Sys2Proof/Machine/LivePins.lean ====
section
/-!
DEFINITION. The digital live pins (03 R109 to R113, R123 to R125): filters and what an accepted level does.
-/
namespace Sys2Proof.Machine
open Sys2Proof

def pinFilter (l : Live) (p : LivePin) : PinFilter :=
  match p with
  | .selftest => l.selftest | .ident => l.ident | .standby => l.standby | .mute => l.mute | .blank => l.blank
  | .arm => l.arm

def setPinFilter (l : Live) (p : LivePin) (f : PinFilter) : Live :=
  match p with
  | .selftest => { l with selftest := f } | .ident => { l with ident := f } | .standby => { l with standby := f }
  | .mute => { l with mute := f } | .blank => { l with blank := f } | .arm => { l with arm := f }

/-- Equal samples that accept a level: 3 for `BLANK_N`, 5 for the others (R109). -/
def samplesOf (p : LivePin) : Nat := match p with | .blank => 3 | _ => 5

/-- The sampling period: 1 ms, 100 µs for `BLANK_N`, 32 slow-clock periods in standby (R109). -/
def samplePeriod (asleep : Bool) (p : LivePin) : Ticks :=
  if asleep then 3125000000 else match p with | .blank => usT 100 | _ => msT 1

/-- One sample: the filter, and whether it accepts the sampled level now. -/
def sampleFilter (n : Nat) (f : PinFilter) (high : Bool) : PinFilter × Bool :=
  if high = f.level then ({ f with run := 0 }, false)
  else if f.run + 1 < n then ({ f with run := f.run + 1 }, false)
  else ({ f with level := high, run := 0 }, true)

/-- A low during an entry: one that another source asked for and that has not begun becomes the pin's, at the next beat (16 R808);
from B on the low is half of a wake (04 R162). -/
def takeOverEntry (e : Entry) (s : State) : State :=
  if !decide (e.stage = .waiting) then modStandby (fun z => { z with sawLow := true }) s
  else if !triggerEnabled s .pin then s
  else if standbyRefused s != 0 then noteIgnored s
  else modStandby (fun z => { z with entry := some { e with source := .pin, due := .nextBeat } }) s

/-- An accepted low ends a running self-test at its next slice boundary, recorded as ABORTED (R124, 04 R172). The visible sequence
has the beat as its boundary. -/
def lowEndsTests (s : State) : State :=
  let s := abortSuite s
  if s.test.visible.isSome then modTest (fun z => { z with endDue := some true }) s
  else modTest (fun z => { z with visibleDue := false }) s

/-- `STANDBY_N` accepted low: a trigger at the next beat, or, asleep after `b:STANDBY`, half of a wake (04 R161, R162). -/
def standbyLow (s : State) : State :=
  if s.standby.asleep then modStandby (fun z => { z with sawLow := true }) s
  else match s.standby.entry with
    | some e => takeOverEntry e s
    | none =>
      let r := standbyTrigger .pin .nextBeat s
      if r.2 then lowEndsTests r.1 else r.1

/-- `STANDBY_N` accepted high (04 R162, R974). -/
def standbyHigh (banks : BankMv) (s : State) : State :=
  if s.standby.asleep then (if highWakes s then wake banks s else s)
  else match s.standby.entry with | none => s | some e => standbyHighEntry e s

/-- What an accepted level does. -/
def pinAccept (p : LivePin) (high : Bool) (banks : BankMv) (s : State) : State :=
  match p with
  | .selftest => if high then selftestRises s else selftestFalls s
  | .ident => modLive (fun z => { z with identDue := some (!high) }) s
  | .standby => if high then standbyHigh banks s else standbyLow s
  | .mute => if high then unmuteAll .pin (audRamp s) s else muteAll .pin (audRamp s) s
  | .blank => if high then s else modLive (fun z => { z with blanked := true }) s
  | .arm => s

/-- R109: one sample of a pin; in standby `STANDBY_N` alone is sampled (04 R165), and none while `RESET_N` is low (02 R80). -/
def execLivePinSample (pin : LivePin) (high : Bool) (banks : BankMv) (s : State) : Out :=
  let f := pinFilter s.live pin
  if !s.pwr.aonOn || s.boot.inReset || (s.standby.asleep && !decide (pin = .standby)) || s.now < f.next then .next s
  else
    let r := sampleFilter (samplesOf pin) { f with next := s.now + samplePeriod s.standby.asleep pin } high
    let s := { s with live := setPinFilter s.live pin r.1 }
    .next (if r.2 then pinAccept pin high banks s else s)

end Sys2Proof.Machine
end

