-- ==== Sys2Proof/Machine/NetOps.lean ====
section
/-!
DEFINITION. Addresses, joins and the ring guard as operations (07 R276 to R280, R287, R292 to R296).
-/
namespace Sys2Proof.Machine
open Sys2Proof

/-- The switch runs: D3 on, the system clock running, not asleep (R226, R320). -/
def netRuns (s : State) : Bool := runs s && domOn s 3

/-- Length of a minimum frame, in which control traffic goes. -/
def minFrame : Nat := 64

/-! ### Learning (R283) -/

def learnMac (p : Port) (m : Mac) (s : State) : State :=
  let rest := s.net.mac.filter (fun e => e.mac != m)
  if rest.length < 4096 then modNet (fun n => { n with mac := ⟨m, p, s.now⟩ :: rest }) s else s

/-! ### Joins (R287, R289) -/

def reportFrame (g : Ip4) (join : Bool) (s : State) : State :=
  originOn s (forwardingPorts s) .control minFrame (launchNow s) (.igmpReport g join)

/-- A group is joined or left: a state-change report at once, and its repeat 1 s later. -/
def setJoin (g : Ip4) (join : Bool) (s : State) : State :=
  if joinedLocal s g = join then s
  else
    let rest := s.net.joins.filter (fun j => j.group != g)
    reportFrame g join (modNet (fun z => { z with joins := ⟨g, join, some (s.now + secT 1)⟩ :: rest }) s)

def joinAll (l : List Ip4) (s : State) : State := l.foldl (fun st g => setJoin g true st) s
def leaveAll (l : List Ip4) (s : State) : State := l.foldl (fun st g => setJoin g false st) s

/-- R287: the repeat of a state-change report, 1 s later. -/
def repeatReport (g : Ip4) (s : State) : State :=
  match s.net.joins.find? (fun j => j.group == g) with
  | none => s
  | some j =>
    if dueBy s.now j.repeatAt then
      let rest := s.net.joins.filter (fun x => x.group != g)
      let s := modNet (fun z => { z with joins := if j.joined then { j with repeatAt := none } :: rest else rest }) s
      reportFrame g j.joined s
    else s

/-! ### Addresses (R276 to R280, R326) -/

/-- The provisional address at an offset of s (R277, R326). -/
def provisionalIp (s : State) (offset : Nat) : Ip4 :=
  let n := (serialLow s + offset) % 2 ^ 32
  ip4 169 254 (129 + n % 126) (1 + n / 126 % 254)

/-- The positional address (Table 7.1); a standalone tile takes row 0, column 0. -/
def positionalIp (s : State) : Ip4 :=
  let p := if standalone s then (0, 0) else s.disc.position.getD (0, 0)
  if code s pinIpmode = 1 then ip4 10 (wallId s) p.1 p.2 else ip4 169 254 (1 + p.1) (1 + p.2)

/-- The first wait of 0 to 200 ms, chosen from the serial number: a free value of it (R278; log 7). -/
def probeWait (s : State) : Ticks := Config.freeValue (serialLow s) % (msT 200 + 1)

/-- A claim begins: its first probe follows the wait. -/
def startClaim (a : Ip4) (positional : Bool) (s : State) : State :=
  let c : AClaim := { addr := a, next := s.now + probeWait s }
  modNet (fun z => { z with addr := if positional then { z.addr with pos := some c } else { z.addr with prov := some c } }) s

def startProvisional (s : State) : State :=
  if s.net.addr.exhausted then s else startClaim (provisionalIp s s.net.addr.offset) false s

/-- A positional claim begins when the position becomes known, or with the first link after that; the provisional address stays in use,
or under claim, beside it (R279). -/
def startPositional (s : State) : State :=
  if !ports.any (portUp s) then s else startClaim (positionalIp s) true s

/-- Provisional addresses tried in all (Table 7.9; log 24). -/
def provisionalTries : Nat := 8

/-- A conflict on the address under claim (R326, Table 7.9). -/
def claimConflict (positional : Bool) (s : State) : State :=
  if positional then
    raise .netIpconflict 0 (modNet (fun z => { z with addr := { z.addr with
      pos := none, positionalRetry := some (s.now + secT 60) } }) s)
  else if s.net.addr.offset + 1 < provisionalTries then
    startProvisional (modNet (fun z => { z with addr := { z.addr with prov := none, offset := z.addr.offset + 1 } }) s)
  else raise .netIpconflict 1 (modNet (fun z => { z with addr := { z.addr with prov := none, exhausted := true } }) s)


def broadcastMac : Mac := 0xFFFFFFFFFFFF

/-- Where an own unicast frame goes: the learnt port, or every forwarding port (R284). -/
def ownUnicast (s : State) (dst : Mac) : List Port :=
  match s.net.mac.find? (fun e => e.mac == dst) with
  | some e => (forwardingPorts s).filter (· == e.port)
  | none => forwardingPorts s

/-- An ARP frame leaves: a broadcast, or one to an unknown address, under the storm limit (R284, R285). -/
def arpFrame (reply : Bool) (sender target : Ip4) (dst : Mac) (s : State) : State :=
  let known := s.net.mac.any (fun e => e.mac == dst)
  let go (p : Port) (st : State) : State := originFrame st p .control minFrame (launchNow st) (.arp reply sender target dst)
  if dst == broadcastMac || !known then
    (forwardingPorts s).foldl (fun st p => limitedBy p (go p) st) s
  else (ownUnicast s dst).foldl (fun st p => go p st) s

/-- A conflict on the claimed address: it is defended once in 10 s, as RFC 3927 has it, else given up (R280; log 24). -/
def claimedConflict (a : Ip4) (s : State) : State :=
  let d := s.net.addr
  if (match d.defendedAt with | none => true | some t => t + secT 10 ≤ s.now) then
    arpFrame false a a broadcastMac (modNet (fun z => { z with addr := { d with defendedAt := some s.now } }) s)
  else
    let s := modNet (fun z => { z with addr := { d with claimed := none, claimedPositional := false, defendedAt := none } }) s
    if d.claimedPositional then
      startProvisional (raise .netIpconflict 0
        (modNet (fun z => { z with addr := { z.addr with positionalRetry := some (s.now + secT 60) } }) s))
    else claimConflict false s

/-- An ARP message conflicts with an address that is being probed (RFC 3927). -/
def conflictsWith (s : State) (reply : Bool) (sender target : Ip4) (c : Option AClaim) : Bool :=
  match c with
  | none => false
  | some c => c.frames ≤ 3 && s.net.addr.claimed != some c.addr && (sender == c.addr || (sender == 0 && target == c.addr && !reply))

/-- An ARP message heard by the local port (R280). -/
def arpHeard (reply : Bool) (mac : Mac) (sender target : Ip4) (s : State) : State :=
  if mac = ownMac s then s
  else if conflictsWith s reply sender target s.net.addr.pos then claimConflict true s
  else if conflictsWith s reply sender target s.net.addr.prov then claimConflict false s
  else
    match s.net.addr.claimed with
    | none => s
    | some a =>
      if sender = a then claimedConflict a s
      else if target = a && !reply then arpFrame true a sender mac s else s

/-! ### Ring guard (R292 to R296) -/

/-- Ranking of guard frames: LEAD, then LOOPED, then the lower serial number. -/
def ranksAbove (lead looped : Bool) (serial : Serial) (lead' looped' : Bool) (serial' : Serial) : Bool :=
  if lead != lead' then lead else if looped != looped' then looped else decide (serial.toNat < serial'.toNat)

def actingLead (s : State) : Bool := decide (s.disc.role = .acting)

/-- Own frames that have returned in the last 30 ms. -/
def recentReturns (s : State) : List (Port × Port × Ticks) :=
  s.net.guard.returned.filter (fun r => s.now < r.2.2 + msT 30)

def looped (s : State) : Bool := !(recentReturns s).isEmpty

/-- Ports on which own frames return. -/
def returnPorts (s : State) : List Port := ports.filter (fun p => (recentReturns s).any (fun r => r.2.1 == p))

/-- Silenced: a better guard with LOOPED set was heard in the last 30 ms (R293). -/
def silenced (s : State) : Bool :=
  match s.net.guard.silencedAt with | none => false | some t => s.now < t + msT 30

/-- Blocks every port on which own frames return but the lowest-numbered one (R294). -/
def blockLoop (s : State) : State :=
  match returnPorts s with
  | [] => s
  | _ :: rest =>
    let s := rest.foldl (fun st p => setNetPort st p (fun q => { q with blocked := holdSince st.now q.blocked })) s
    if 2 ≤ rest.length then raise .netRing 1 s else s

def modGuard (f : RingGuard → RingGuard) (s : State) : State := { s with net := { s.net with guard := f s.net.guard } }

/-- An own guard frame returns (R294); a ring that closes again clears `f:NET_RING` (Table 7.9). -/
def guardReturned (p : Port) (g : Guard) (s : State) : State :=
  if silenced s then s
  else
    let s := modGuard (fun x => { x with
      returned := (g.port, p, s.now) :: x.returned.filter (fun r => !(r.1 == g.port && r.2.1 == p) && s.now < r.2.2 + msT 30) }) s
    clearKey .netRing 0 (blockLoop s)

/-- A flush: no MAC table entry is left, and every registered group floods for 2 s (R296). -/
def flushTables (s : State) : State :=
  modGuard (fun x => { x with floodUntil := some (s.now + secT 2) }) (modNet (fun z => { z with mac := [] }) s)

/-- What the flags of another tile's guard frame do here (R293, R296). -/
def guardHeard (g : Guard) (s : State) : State :=
  let s := if g.lead then modGuard (fun x => { x with leadHeard := some s.now }) s else s
  let s := if g.looped && ranksAbove g.lead true g.serial (actingLead s) (looped s) (serialOf s) then
    modGuard (fun x => { x with
      silencedSince := if silenced s then holdSince s.now x.silencedSince else some s.now
      silencedAt := some s.now }) s else s
  if g.flush then flushTables s else s

/-- A guard frame arrives (R292). One whose hop count reaches 0 here acts through its flags before it is discarded (DESIGN CHOICE, log
83). -/
def takeGuard (p : Port) (g : Guard) (s : State) : State :=
  if g.wallId != wallId s then s
  else if g.serial = serialOf s then guardReturned p g s
  else
    let s := guardHeard g s
    if g.hops ≤ 1 then
      if actingLead s then s else raise .netRing 2 s
    else
      (ports.filter (fun q => q != p && portUp s q)).foldl (fun st q => limitedBy q (fun st =>
        (enqueueFrame st q ⟨.control, 1, minFrame, .guardRelay { g with hops := g.hops - 1 }, none, st.now, some p, counterOf st⟩).1) st) s

/-- Sends one guard frame from every port that is up; as non-IP multicast they stand under the storm limit (R285). -/
def sendGuard (flush : Bool) (s : State) : State :=
  let s := modGuard (fun x => { x with seq := (x.seq + 1) % 65536 }) s
  (ports.filter (portUp s)).foldl (fun st p => limitedBy p (fun st => originFrame st p .control minFrame (launchNow st)
    (.guard ⟨actingLead st, looped st, flush, 1024, wallId st, p, serialOf st, st.net.guard.seq⟩)) st) s

/-- The sending period (R293). -/
def guardPeriod (s : State) : Ticks :=
  let leadSilent := match s.net.guard.leadHeard with | none => true | some t => t + secT 3 ≤ s.now
  if actingLead s || looped s || leadSilent then msT 10 else secT 1

/-- Three FLUSH frames 1 ms apart, the first at once; the guard floods too (R295, R298). -/
def startFlushFrames (s : State) : State :=
  sendGuard true (modGuard (fun x => { x with flushLeft := 2, flushAt := s.now + msT 1 }) (flushTables s))

/-- A FLUSH frame still to send falls due. -/
def flushFrameDue (s : State) : State :=
  if s.net.guard.flushLeft = 0 || s.now < s.net.guard.flushAt then s
  else sendGuard true (modGuard (fun x => { x with flushLeft := x.flushLeft - 1, flushAt := x.flushAt + msT 1 }) s)

end Sys2Proof.Machine
end

