-- ==== Sys2Proof/Machine/Network.lean ====
section
/-!
DEFINITION. Network commands but for the reception of frames (07): modules, links, guard, IGMP, SDP, ARP, and the periodic
status record. A timed command before its instant, or without its object, leaves the state as it is (log 12).
-/
namespace Sys2Proof.Machine
open Sys2Proof

/-! ### Modules (R267 to R271, R329) -/

def setLane (p : Port) (on : Bool) (s : State) : State :=
  modPwr (fun z => { z with lane := updAt z.lane p.val (fun _ => on) }) s

/-- R267: a module is present for 10 ms; it is read 300 ms later. -/
def execModuleInsert (port : Port) (s : State) : Out :=
  if !runs s then .next s
  else
    match (netPort s port).module with
    | .absent => .next (setLane port (domOn s 4)
        (setNetPort s port (fun q => { q with module := .waiting s.now 0 (s.now + msT 300), txDis := true })))
    | _ => .next s

/-- Byte 63 is the sum modulo 256 of bytes 0 to 62. -/
def idCheck (b : List Byte) : Bool := sumNat ((b.take 63).map BitVec.toNat) % 256 == byteAt b 63

/-- 25,000 MBd or more (R268). -/
def idIs25 (b : List Byte) : Bool :=
  25000 ≤ (if byteAt b 12 == 0xFF then 250 * byteAt b 66 else 100 * byteAt b 12)

/-- R269. -/
def idClass (b : List Byte) : ModClass :=
  if bitAt (byteAt b 8) 2 then .copper
  else if bitAt (byteAt b 8) 3 then .aoc
  else if byteAt b 14 != 0 then .longReach
  else .shortReach

/-- R270: the mode of a module under `s:NETMODE`; none for a 10G module with a strapped 25G mode. -/
def laneFor (s : State) (is25 : Bool) : Option LaneMode :=
  match code s pinNetmode with
  | 0 => some .base10
  | 1 => if is25 then some .base25 else none
  | 2 => if is25 then some .base25Fec else none
  | 3 => if is25 then some .base25Rs else none
  | _ => some (if is25 then .base25Rs else .base10)

/-- The bus switch connects one cage, whose module's bytes 0 to 95 are read (R266, R267). -/
def readModule (port : Port) (s : State) : State :=
  let v : Byte := BitVec.ofNat 8 (2 ^ port.val)
  emit (emit (modNet (fun z => { z with busSwitch := v }) s) (.busSwitch v)) (.moduleRead port)

/-- Detail of `f:NET_MODULE`: cause and port. -/
def moduleDetail (cause : Nat) (p : Port) : BitVec 32 := BitVec.ofNat 32 (16 * cause + p.val)

/-- A module's identification has been read: class, rate and lane mode (R267 to R271). -/
def identify (port : Port) (b : List Byte) (s : State) : State :=
  match laneFor s (idIs25 b) with
  | none => raise .netModule (moduleDetail 1 port)
      (setNetPort s port (fun q => { q with module := .unsupported, mode := none, txDis := true }))
  | some m =>
    let s := setNetPort s port (fun q => { q with
      module := .identified (idIs25 b) (idClass b), mode := some m, txDis := false, noLinkSince := some s.now })
    clearFault .netModule (moduleDetail 0 port) s

def execModuleIdRead (port : Port) (bytes : List Byte) (s : State) : Out :=
  if !runs s then .next s
  else
    match (netPort s port).module with
    | .waiting since tries readAt =>
      if s.now < readAt then .next s
      else
      let s := readModule port s
      if idCheck bytes then .next (identify port bytes s)
      else if tries + 1 < 3 then
        .next (setNetPort s port (fun q => { q with module := .waiting since (tries + 1) (s.now + secT 1) }))
      else .next (raise .netModule (moduleDetail 0 port) (setNetPort s port (fun q => { q with module := .failed, txDis := true })))
    | _ => .next s

/-- A link goes down: the port carries nothing (R272, Table 7.9). A block on it stands until the guard lifts it (R295, R324). -/
def dropLink (p : Port) (s : State) : State :=
  if portUp s p then
    let s := setNetPort s p (fun q => { q with linkUp := none, fault := .none, fwd := .down, noLinkSince := some s.now })
    let s := { setPortQueue s p [] with test := { s.test with eye := updAt s.test.eye p.val (fun _ => 0) } }
    raise .netLink (BitVec.ofNat 32 p.val) s
  else s

/-- R271, Table 7.9: the lane goes down, but with gating off (04 R148); a module that carried a link raises `f:NET_MODULE`. In standby
the pin is not sampled (04 R165), nor while `RESET_N` is low. -/
def execModuleRemove (port : Port) (s : State) : Out :=
  if !s.pwr.aonOn || s.standby.asleep || s.boot.inReset || !modulePresent s port then .next s
  else
    let carried := (netPort s port).carried
    let s := dropLink port s
    let s := setLane port (!gating s && domOn s 4) (setNetPort s port (fun q => { q with
      module := .absent, mode := none, txDis := true, carried := false, noLinkSince := none }))
    .next (if carried then raise .netModule (moduleDetail 2 port) s else s)

/-! ### Links (R272, R291, R329) -/

/-- The standby entry has passed its flush (R329). -/
def pastFlush (s : State) : Bool := enteringStandby s && flushDone s

/-- The claims that begin with the first link: the provisional address, and the positional one where the position is known (R279). -/
def firstClaims (s : State) : State :=
  let a := s.net.addr
  let s := if a.claimed.isNone && a.prov.isNone then startProvisional s else s
  if positionKnown s && !a.claimedPositional && a.pos.isNone && a.positionalRetry.isNone then startPositional s else s

/-- A link is up, with the fault sequences that are heard on it; a link that is up already only takes these (R272). -/
def execLinkUp (port : Port) (fault : LinkFault) (s : State) : Out :=
  let q := netPort s port
  if !netRuns s || q.txDis || q.mode.isNone || pastFlush s then .next s
  else if q.linkUp.isSome then .next (setNetPort s port (fun x => { x with fault := fault }))
  else
    let first := !ports.any (portUp s)
    let s := setNetPort s port (fun x => { x with
      linkUp := some s.now, fault := fault, fwd := .listening s.now, carried := true, noLinkSince := none })
    let s := modTime (fun z => { z with firstLink := holdSince s.now z.firstLink }) s
    .next (if first then firstClaims s else s)

def execLinkDown (port : Port) (s : State) : Out := .next (dropLink port s)

def execNetLinkTimeout (port : Port) (s : State) : Out :=
  let q := netPort s port
  let known := match q.module with | .identified _ _ => true | _ => false
  if runs s && known && q.linkUp.isNone && passed s.now q.noLinkSince (secT 10) then
    .next (raise .netLink (BitVec.ofNat 32 port.val) s)
  else .next s

def execPortListenEnd (port : Port) (s : State) : Out :=
  match (netPort s port).fwd with
  | .listening t =>
    if netRuns s && t + msT 30 ≤ s.now then .next (setNetPort s port (fun q => { q with fwd := .forwarding })) else .next s
  | _ => .next s

/-! ### Tables and queues (R283, R300, R303) -/

def execMacAgeOut (mac : Mac) (s : State) : Out :=
  .next (modNet (fun z => { z with
    mac := z.mac.filter (fun e => !(e.mac == mac && e.heard + secT 300 ≤ s.now)) }) s)

def execMediaQueueRelease (port : Port) (group : Ip4) (s : State) : Out :=
  .next (modNet (fun z => { z with
    mediaQ := z.mediaQ.filter (fun m => !(m.port == port && m.group == group && m.last + secT 10 ≤ s.now)) }) s)

/-- A launched frame waits on the port. -/
def launchDue (s : State) (p : Port) : Bool :=
  (portQueue s p).any (fun f => match f.launch with | none => false | some t => launched s t)

/-- R303: the frame leaves in the order of service. -/
def execLaunchTime (port : Port) (s : State) : Out :=
  if netRuns s && launchDue s port then .next (servePort s port) else .next s

/-! ### Ring guard (R292 to R296) -/

/-- An accepted guard frame teaches its sender's address like any frame (R275, R283). -/
def guardMac (g : Guard) : Mac := BitVec.ofNat 48 (0x025A * 2 ^ 32 + g.serial.toNat % 2 ^ 32)

def execGuardFrame (port : Port) (g : Guard) (s : State) : Out :=
  if netRuns s && portUp s port then .next (takeGuard port g (learnMac port (guardMac g) s)) else .next s

def execGuardSend (s : State) : Out :=
  if !netRuns s || silenced s then .next s
  else if (match s.net.guard.lastSend with | none => true | some t => t + guardPeriod s ≤ s.now) then
    .next (sendGuard false (modGuard (fun x => { x with lastSend := some s.now }) s))
  else .next s

/-- Own frames have not returned on a port for 30 ms. -/
def noReturn (s : State) (p : Port) : Bool := !(returnPorts s).contains p

def silencedLong (s : State) : Bool := silenced s && passed s.now s.net.guard.silencedSince (msT 30)

def unblock (p : Port) (s : State) : State := setNetPort s p (fun q => { q with blocked := none })

/-- R295: a lift for want of returns, or of all blocks after 30 ms of silence; three FLUSH frames follow. -/
def execGuardLift (port : Port) (s : State) : Out :=
  if !netRuns s then .next s
  else if (netPort s port).blocked.isNone then .next s
  else if silencedLong s then .next (startFlushFrames (raise .netRing 0 (ports.foldl (fun st p => unblock p st) s)))
  else if noReturn s port then .next (startFlushFrames (raise .netRing 0 (unblock port s)))
  else .next s

def execFlushFloodEnd (s : State) : Out :=
  if dueBy s.now s.net.guard.floodUntil then .next (modGuard (fun x => { x with floodUntil := none }) s) else .next s

/-! ### IGMP (R286 to R288) -/

def execRouterPortExpiry (port : Port) (s : State) : Out :=
  if passed s.now (netPort s port).queryAt (secT 255) then .next (setNetPort s port (fun q => { q with queryAt := none }))
  else .next s

/-- The acting lead queries unless it has heard a lower address within 255 s (R288). -/
def execIgmpQuerySend (s : State) : Out :=
  let lower := match s.net.lowerQuery with | none => false | some t => s.now < t + secT 255
  let due := match s.net.nextQuery with | none => true | some t => t ≤ s.now
  if netRuns s && actingLead s && !lower && due then
    .next (originOn (modNet (fun z => { z with nextQuery := some (s.now + secT 125) }) s) (forwardingPorts s) .control minFrame
      (launchNow s) (.igmpQuery 100 2 125))
  else .next s

def execIgmpStateReport (group : Ip4) (s : State) : Out := if netRuns s then .next (repeatReport group s) else .next s

def execIgmpQueryAnswer (s : State) : Out :=
  if netRuns s && s.net.answerBy.isSome then
    let s := modNet (fun z => { z with answerBy := none }) s
    .next ((s.net.joins.filter Join.joined).foldl (fun st j => reportFrame j.group true st) s)
  else .next s

/-! ### SDP cache and senders (R306, R307, R309, R330) -/

def isKey (e : SdpEntry) (g : Ip4) (p : Nat) : Bool := e.sdp.group == g && e.sdp.port == p

/-- A removed SDP unbinds its flows (R307). -/
def dropSdp (g : Ip4) (p : Nat) (s : State) : State :=
  modNet (fun z => { z with
      sdp := z.sdp.filter (fun e => !isKey e g p)
      flows := z.flows.map (fun f => match f.sdp with
        | some d => if d.group == g && d.port == p then { f with sdp := none, nextSdp := none } else f
        | none => f) }) s

def execSdpExpiry (group : Ip4) (udp : Nat) (s : State) : Out :=
  if s.net.sdp.any (fun e => isKey e group udp && e.announced + secT 3600 ≤ s.now) then .next (dropSdp group udp s) else .next s

def execNetSdpTimeout (slot : Fin 256) (s : State) : Out :=
  if netRuns s && s.net.flows.any (fun f => f.slot == slot.val && f.sdp.isNone && passed s.now f.rtpSince (secT 10)) then
    .next (raise .netSdp (BitVec.ofNat 32 slot.val) s)
  else .next s

def execSenderTimeout (slot : Fin 256) (s : State) : Out :=
  .next (modNet (fun z => { z with flows := z.flows.map (fun f =>
    if decide (f.kind = .video) && f.slot == slot.val &&
        (match f.sender with | none => false | some d => d.heard + msT 100 ≤ s.now) then { f with sender := none } else f) }) s)

/-! ### ARP claims (R278, R279) -/

/-- The next ARP frame of a claim: three probes, then two announcements once claimed, 200 ms apart. Nothing where it is not due. -/
def claimFrame (c : AClaim) (s : State) : Option (Option AClaim × State) :=
  let after : Option AClaim := if c.frames = 4 then none else some { c with frames := c.frames + 1, next := s.now + msT 200 }
  if s.now < c.next then none
  else if c.frames < 3 then some (after, arpFrame false 0 c.addr broadcastMac s)
  else if s.net.addr.claimed = some c.addr then some (after, arpFrame false c.addr c.addr broadcastMac s)
  else none

/-- The provisional claim's frame that is due, else the positional one's. -/
def execArpProbe (s : State) : Out :=
  if !netRuns s then .next s
  else
    match s.net.addr.prov.bind (fun c => claimFrame c s), s.net.addr.pos.bind (fun c => claimFrame c s) with
    | some (c, t), _ => .next (modNet (fun z => { z with addr := { z.addr with prov := c } }) t)
    | none, some (c, t) => .next (modNet (fun z => { z with addr := { z.addr with pos := c } }) t)
    | none, none => .next s

/-- A claim whose three probes were sent, 200 ms after the last. -/
def claimDue (s : State) (c : Option AClaim) : Option AClaim :=
  match c with
  | some x => if x.frames = 3 && decide (x.next ≤ s.now) && s.net.addr.claimed != some x.addr then some x else none
  | none => none

/-- R278, R279: the address is claimed. A positional one takes the place of the provisional one and ends `f:NET_IPCONFLICT`; a
provisional one does not displace it. -/
def execAddressClaim (s : State) : Out :=
  match claimDue s s.net.addr.pos, claimDue s s.net.addr.prov with
  | some c, _ => .next (clearAll .netIpconflict (modNet (fun z => { z with addr := { z.addr with
      claimed := some c.addr, claimedPositional := true, defendedAt := none, prov := none
      pos := some { c with next := s.now }, positionalRetry := none } }) s))
  | none, some c =>
    if s.net.addr.claimedPositional then .next (modNet (fun z => { z with addr := { z.addr with prov := none } }) s)
    else .next (modNet (fun z => { z with addr := { z.addr with
      claimed := some c.addr, defendedAt := none, prov := some { c with next := s.now } } }) s)
  | none, none => .next s

/-- R279, Table 7.9: every 60 s after a conflict the positional address is probed again. -/
def execPositionalAddressRetry (s : State) : Out :=
  if netRuns s && positionKnown s && dueBy s.now s.net.addr.positionalRetry then
    .next (startPositional (modNet (fun z => { z with addr := { z.addr with positionalRetry := some (s.now + secT 60) } }) s))
  else .next s

/-! ### The periodic status record (R282, R328) -/

/-- Launch offset in ms (R282). -/
def launchOffset (s : State) : Nat :=
  match s.disc.position with
  | some p => (128 * p.1 + p.2) % 1000
  | none => serialLow s % 1000

/-- Interval counts begin afresh (19 R915). -/
def resetIntervals (s : State) : State :=
  { s with
    status := { s.status with counters := List.replicate 16 0, withheld := 0 }
    scene := { s.scene with win := s.scene.win.map (fun w => { w with lateLines := 0, heldBeats := 0, rejects := 0 }) }
    weft := { s.weft with group := s.weft.group.map (fun g => { g with clips := 0 }) }
    aud := { s.aud with outA := { s.aud.outA with invalid := 0 }, outB := { s.aud.outB with invalid := 0 } }
    bob := { s.bob with collisions := 0, xoffCount := 0 }
    flt := { s.flt with peak := s.flt.queue.length }
    standby := { s.standby with ignoredInterval := false } }

/-- A fault-triggered record launched within the last 50 ms stands for the periodic one (R328). -/
def replaced (s : State) : Bool :=
  match s.status.triggeredAt with | none => false | some t => s.now < t + msT 50

def execStatusRecordLaunch (s : State) : Out :=
  let sec := s.time.sec.toNat + 1
  if !recordsRun s || s.status.lastWindow = sec || s.time.ns.toNat < launchOffset s * 1000000 then .next s
  else
    let s := modStatus (fun z => { z with lastWindow := sec }) s
    if replaced s then .next (resetIntervals s) else .next (resetIntervals (launchRecord 0 s))

end Sys2Proof.Machine
end

