-- ==== Sys2Proof/Machine/Time.lean ====
section
/-!
DEFINITION. Wall time (08): the PTP slave, the servo, steps, holdover and free-run. Readings of the counter are Ints in units of
2^-32 ns; y and y_int are in ns per second.
-/
namespace Sys2Proof.Machine
open Sys2Proof

/-! ### Constants per profile (Table 8.4) -/

structure TimeProfile where
  annLo : Int
  annHi : Int
  syncLo : Int
  syncHi : Int
  /-- Delay_Req interval before the first Delay_Resp. -/
  first : Ticks
  filter : Nat
  kp : Rat
  ki : Rat
  deriving DecidableEq, Repr

def timeProfile (s : State) : TimeProfile :=
  match code s pinPtpprof with
  | 0 => ⟨0, 4, -4, 1, secT 1, 16, 1 / 8, 1 / 128⟩
  | 1 => ⟨0, 4, -1, 1, secT 1, 8, 1 / 4, 1 / 32⟩
  | _ => ⟨-3, 1, -7, -1, msT 125, 16, 1 / 8, 1 / 128⟩

/-- 2^l seconds. -/
def logTicks (l : Int) : Ticks := if 0 ≤ l then secT (2 ^ l.toNat) else secT 1 / 2 ^ (-l).toNat

def ptpF (t : PtpTime) : Int := nsF ((t.sec % 2 ^ 48) * 1000000000 + t.ns)
/-- A correction of 2^-16 ns in units of 2^-32 ns. -/
def corrF (c : Int) : Int := c * 65536


/-- The slave acts on a message (R340). -/
def ptpOk (s : State) (udp : Nat) (h : PtpHeader) : Bool :=
  netRuns s && s.time.running && h.version == 2 && h.minor ≤ 1 && h.sdoId == 0 && h.domain == ptpDomain s && h.toUs && h.udpPort == udp

/-! ### `SYNCED` and the states of the servo (Table 8.5, R350, R376) -/

def setSynced (up : Bool) (t : TimeSt) : TimeSt :=
  if up then { t with synced := true, everSynced := true, ptpOrigin := true } else { t with synced := false }

/-- Counts and holds that end with a state of the servo. -/
def freshRuns (t : TimeSt) : TimeSt :=
  { t with run200 := 0, runMicro := 0, runMilli := 0, agree := 0, apart := 0, inconsistentSince := none
           limitSince := none, stepNeed := none, ownStep := false }

/-- Enters a state of the servo; `SYNCED` is never high outside TRACK, and the Syncs counted in HOLDOVER stay counted at a
return to TRACK (R350). -/
def enterServo (v : Servo) (s : State) : State :=
  let keep := if s.time.servo = .holdover ∧ v = .track then s.time.run200 else 0
  let s := modTime (fun t => { freshRuns t with servo := v, run200 := keep, synced := t.synced && decide (v = .track) }) s
  let s := if v = .track ∨ v = .holdover then clearAll .timeNomaster s else s
  if v = .track then clearAll .timeHoldover s else s

/-- `f:TIME_NOMASTER` of a tile in LISTEN without a master, from 10 s after its first link (Table 8.9). -/
def listenFault (s : State) : State :=
  if s.time.servo = .listen && s.time.master.isNone && passed s.now s.time.firstLink (secT 10) then raise .timeNomaster 0 s else s

/-- A follower: neither the acting lead nor standalone. -/
def follower (s : State) : Bool := !actingLead s && !standalone s

/-! ### Beat measurements (R378, R379) -/

def lastFour (s : State) : List BeatMeas := s.time.beatMeas.take 4

/-- The last 4 lie within 1 µs of one another. -/
def consistentBeats (s : State) : Bool :=
  let l := lastFour s
  l.length == 4 && l.all (fun a => l.all (fun b => decide (a.theta - b.theta ≤ nsF 1000)))

/-- Consistent, and each carries PTP origin. -/
def followable (s : State) : Bool := consistentBeats s && (lastFour s).all BeatMeas.origin

/-! ### Steps (R334, R348, R351 to R355, R980) -/

/-- The next beat to emit: the first after the counter, and none twice (R354, R367). -/
def rearmBeat (s : State) : State :=
  modTime (fun t =>
    let n := beatAfter (refreshND s) (counterF t)
    { t with nextBeat := match t.beat with | some b => max n (b + 1) | none => n }) s

/-- What the tile holds as readings of the counter is carried over a step (log 25). -/
def shiftReadings (a : Int) (t : TimeSt) : TimeSt :=
  { t with
    lastTms := t.lastTms.map (· + a)
    lastT2 := t.lastT2.map (· + a)
    pend := t.pend.map (fun p => { p with t2 := p.t2 + a })
    acq := t.acq.map (fun p => (p.1, p.2 + a))
    beatMeas := t.beatMeas.map (fun m => { m with at_ := m.at_ + a })
    theta := t.theta + a }

/-- A step is applied: the counter, the beats, the fault and the audio grid (R334, R354, R355, R394). -/
def applyStep (a : Int) (s : State) : State :=
  let s := modTime (fun t => { shiftReadings a (setCounterF t (counterF t + a)) with
    stepNeed := none, ownStep := false, runMilli := 0, runMicro := 0, stepped := true }) s
  let s := rearmBeat s
  if s.time.everSynced then raise .timeStep (BitVec.ofInt 32 (a / 4294967296000)) s else s

/-- The acting lead of a wall with a joined link. -/
def leadsJoined (s : State) : Bool := actingLead s && anyJoined s

/-- A step of -θ is needed: at once where nothing received is shown and the tile leads no joined wall, else the servo holds
until it is applied (R348, R351, R980). -/
def needStep (theta : Int) (s : State) : State :=
  if !showsContent s && !leadsJoined s then applyStep (-theta) s
  else modTime (fun t => { t with y := t.yInt, stepNeed := some (theta, s.now) }) s

/-- A beat in a knot that has come or gone. -/
def beatPast (n : BitVec 32) (k : Nat) : Bool := !later32 n (beatNo k)

/-- The amount a tile steps by at the announced step beat; none makes no step (R353, R981). -/
def announcedAmount (a : StepAnn) (s : State) : Option Int :=
  if actingLead s || decide (s.time.servo = .holdover) then some (nsF a.amountNs)
  else if s.time.servo = .track ∧ nsF 1000000 < |s.time.theta| then some (-s.time.theta)
  else none

def dropAnn (s : State) : State := modTime (fun t => { t with stepAnn := none, stepNeed := none, ownStep := false }) s

/-- Steps due at the beat just reached (R352, R353). -/
def stepAtBeat (k : Nat) (s : State) : State :=
  match s.time.stepAnn with
  | some a =>
    if beatPast a.beat k then
      let s1 := dropAnn s
      match announcedAmount a s with | some d => applyStep d s1 | none => s1
    else s
  | none =>
    match s.time.stepNeed with
    | some (theta, _) => if standalone s || s.time.ownStep then applyStep (-theta) s else s
    | none => s

/-- The step beat: the first beat more than 1 s after the knot of beat k, not before one already announced (R353, R981). -/
def stepBeatFor (k : Nat) (s : State) : Nat := beatAfter (refreshND s) (beatF s k + nsF 1000000000)

/-- The lead announces the step it needs in the knot of beat k; the amount is -θ in whole ns. -/
def announceStep (k : Nat) (s : State) : State :=
  match s.time.stepAnn, s.time.stepNeed with
  | none, some (theta, _) =>
    modTime (fun t => { t with stepAnn := some ⟨beatNo (stepBeatFor k s), (-theta + 2147483648) / 4294967296, serialOf s⟩ }) s
  | _, _ => s

/-! ### The loop (R335, R349, R390) -/

def clampR (l x : Rat) : Rat := max (-l) (min l x)

/-- Since when y_int is at its limit, and above 50 ppm (R390). -/
def noteRange (now : Ticks) (t : TimeSt) : TimeSt :=
  { t with
    limitSince := if 200000 ≤ |t.yInt| ∧ t.servo = .track then holdSince now t.limitSince else none
    ppmSince := if 50000 < |t.yInt| then holdSince now t.ppmSince else none }

/-- One update of the loop with an offset and an interval in 2^-32 ns. -/
def loopUpdate (off tau : Int) (kp ki : Rat) (s : State) : State :=
  if tau ≤ 0 then s
  else
    modTime (fun t =>
      let r : Rat := (off : Rat) * 1000000000 / (tau : Rat)
      let yi := clampR 200000 (t.yInt + ki * r)
      noteRange s.now { t with yInt := yi, y := clampR 200000 (yi + clampR 100000 (kp * r)) }) s

/-- The increment I in 8.32 format (R335): 2^32 (1 - y), to the nearest unit. -/
def incrementOf (y : Rat) : Nat := (4294967296 - (y * 4294967296 / 1000000000 + 1 / 2).floor).toNat

/-! ### Loss of time (R379, R383, R384, R401) -/

/-- FREERUN: y is held at y_int; a tile that was measuring a master goes on to acquire it (R382, R383). -/
def enterFreerun (s : State) : State :=
  let s := raise .timeNomaster 0 (enterServo .freerun (modTime (fun t => { t with y := t.yInt, leadHold := none }) s))
  if s.time.master.isSome then enterServo .acquire (modTime (fun t => { t with acq := [] }) s) else s

/-- HOLDOVER on the lead's beat (R376, R379, R380); an offset above 10 µs needs a step (R348). -/
def enterHoldover (s : State) : State :=
  let origin := match s.time.beatMeas with | m :: _ => m.origin | [] => false
  let s := enterServo .holdover (modTime (fun t => { t with ptpOrigin := t.ptpOrigin || origin, leadHold := none }) s)
  let s := raise .timeHoldover (BitVec.ofNat 32 (s.disc.leadHops.getD 0)) s
  if nsF 10000 < |thetaB s| then needStep (thetaB s) s else s

/-- What a tile does that has lost its time source. -/
def withoutMaster (s : State) : State :=
  if follower s && followable s then enterHoldover s
  else if s.time.ptpOrigin then enterFreerun s
  else listenFault (enterServo .listen (modTime (fun t => { t with y := 0 }) s))

/-! ### The master (R341, R343, R382, R385) -/

/-- The comparison of data sets (IEEE 1588-2019; log 26): a lower list is better. -/
def dataSetKey (same : Bool) (f : Foreign) : List Nat :=
  if same then [f.set_.stepsRemoved, f.id.toNat]
  else [f.set_.priority1, f.set_.clockClass, f.set_.accuracy, f.set_.variance, f.set_.priority2, f.set_.grandmaster.toNat]

def lexLt : List Nat → List Nat → Bool
  | [], [] => false
  | [], _ => true
  | _, [] => false
  | a :: as, b :: bs => if a < b then true else if b < a then false else lexLt as bs

def betterMaster (a b : Foreign) : Bool :=
  let same := a.set_.grandmaster == b.set_.grandmaster
  lexLt (dataSetKey same a) (dataSetKey same b)

/-- Two Announce messages within 4 of its intervals, or the selected master. -/
def qualified (s : State) (f : Foreign) : Bool :=
  (match s.time.master with | some m => m.id == f.id | none => false) ||
  2 ≤ (f.heard.filter (fun t => s.now ≤ t + 4 * logTicks f.set_.logAnnounce)).length

def bestMaster (s : State) : Option Foreign :=
  (s.time.masters.filter (qualified s)).foldl (fun b f => match b with
    | none => some f
    | some x => if betterMaster f x then some f else some x) none

/-- Measurements of a master start afresh. -/
def freshMaster (t : TimeSt) : TimeSt :=
  { t with
    slavePort := none, acq := [], pend := [], lastTms := none, lastT2 := none, delayOut := [], unanswered := 0
    delayMeanSet := false, dFilter := [], dReject := 0, portHold := none, agree := 0, yMeas := none, delayLog := none, nextDelayReq := none }

def meanDelayInterval (s : State) : Ticks :=
  match s.time.delayLog with | some l => logTicks l | none => (timeProfile s).first

/-- The next Delay_Req, after an interval drawn from 0 to twice the mean (R343). -/
def armDelayReq (s : State) : State :=
  let r := draw s (2 * meanDelayInterval s + 1)
  modTime (fun t => { t with nextDelayReq := some (s.now + r.1) }) r.2

/-- A new master is selected: ACQUIRE, but for a tile in HOLDOVER (Table 8.5, R382). -/
def takeMaster (f : Foreign) (s : State) : State :=
  let s := modTime (fun t => { freshMaster t with master := some ⟨f.id, f.set_, s.now, s.now⟩ }) s
  let s := armDelayReq s
  if s.time.servo = .holdover then s else enterServo .acquire s

def selectMaster (s : State) : State :=
  match bestMaster s with
  | none => s
  | some b =>
    match s.time.master with
    | some m => if m.id = b.id then s else takeMaster b s
    | none => takeMaster b s

/-- The master is lost and must qualify anew (R385); another qualified one is selected. -/
def loseMaster (s : State) : State :=
  match s.time.master with
  | none => s
  | some m =>
    let s := modTime (fun t => { freshMaster t with master := none, masters := t.masters.filter (fun f => f.id != m.id) }) s
    let s := if s.time.servo = .acquire ∨ s.time.servo = .track then withoutMaster s else s
    selectMaster s

/-- R341. -/
def execAnnounce (port : Port) (h : PtpHeader) (a : AnnounceSet) (s : State) : Out :=
  let p := timeProfile s
  if !ptpOk s 320 h || !portForwards s port then .next s
  else if 255 ≤ a.stepsRemoved || a.logAnnounce < p.annLo || p.annHi < a.logAnnounce || a.logSync < p.syncLo || p.syncHi < a.logSync then
    .next s
  else
    let old := match s.time.masters.find? (fun f => f.id == h.source) with | some f => f.heard | none => []
    let s := modTime (fun t => { t with
      masters := ⟨h.source, a, (s.now :: old).take 2, port⟩ :: t.masters.filter (fun f => f.id != h.source)
      master := t.master.map (fun m => if m.id = h.source then { m with set_ := a, lastAnnounce := s.now } else m) }) s
    .next (selectMaster s)

/-! ### Sync and Follow_Up (R342 to R351, R380 to R382, R396, R402) -/

/-- The least-squares slope of tms against t1, in ns per second (R348). -/
def acqSlope (l : List (Int × Int)) : Rat :=
  match l with
  | [] => 0
  | p0 :: _ =>
    let n : Rat := l.length
    let xs := l.map (fun p => (((p.1 - p0.1 : Int) : Rat)))
    let vs := l.map (fun p => (((p.2 - p0.2 : Int) : Rat)))
    let sx := sumRat xs
    let sv := sumRat vs
    let sxx := sumRat (xs.map (fun x => x * x))
    let sxv := sumRat ((xs.zip vs).map (fun p => p.1 * p.2))
    let den := n * sxx - sx * sx
    if den = 0 then 0 else (n * sxv - sx * sv) * 1000000000 / den

/-- ACQUIRE ends after 8 Syncs and a path delay (R348). -/
def tryAcquire (s : State) : State :=
  if s.time.servo = .acquire ∧ 8 ≤ s.time.acq.length ∧ s.time.delayMeanSet then
    let yi := clampR 200000 (s.time.y + acqSlope s.time.acq)
    let theta := (match s.time.acq with | p :: _ => p.2 | [] => 0) - s.time.delayMean
    let s := enterServo .track (modTime (fun t => noteRange s.now { t with yInt := yi, y := yi, acq := [], theta := theta }) s)
    if nsF 10000 < |theta| then needStep theta s else s
  else s

/-- Counts of Syncs by the size of θ (R350, R351). -/
def countSync (theta : Int) (t : TimeSt) : TimeSt :=
  { t with
    theta := theta
    run200 := if |theta| < nsF 200 then t.run200 + 1 else 0
    runMicro := if nsF 1000 ≤ |theta| then t.runMicro + 1 else 0
    runMilli := if nsF 1000000 < |theta| then t.runMilli + 1 else 0 }

/-- `SYNCED` by the counts, in TRACK (R350). -/
def judgeSynced (t : TimeSt) : TimeSt :=
  if t.servo ≠ .track then t
  else if !t.synced && 8 ≤ t.run200 then setSynced true t
  else if t.synced && 3 ≤ t.runMicro then setSynced false t
  else t

/-- A Sync in TRACK. -/
def trackSync (theta tau : Int) (s : State) : State :=
  let s := modTime (fun t => judgeSynced (countSync theta t)) s
  if s.time.stepNeed.isNone && 16 ≤ s.time.runMilli then needStep theta s
  else if s.time.stepNeed.isSome then modTime (fun t => { t with y := t.yInt }) s
  else loopUpdate theta tau (timeProfile s).kp (timeProfile s).ki s

/-- The y_int that 8 Syncs measured in HOLDOVER give, as ACQUIRE forms it (R382). -/
def measureRate (t1 tms : Int) (t : TimeSt) : TimeSt :=
  let l := ((t1, tms) :: t.acq).take 8
  { t with acq := l, yMeas := if l.length = 8 then some (clampR 200000 (t.y + acqSlope l)) else t.yMeas }

/-- The return to TRACK takes up the y_int measured of the master (R381, R382; DEDUCED, log 87). -/
def takeMeasured (t : TimeSt) : TimeSt := { t with yInt := t.yMeas.getD t.yInt, yMeas := none, acq := [] }

/-- A Sync measured in HOLDOVER: 8 in agreement with θ_B return the tile to TRACK (R381, R382). -/
def holdoverSync (theta : Int) (s : State) : State :=
  let near := !s.time.beatMeas.isEmpty && decide (|theta - thetaB s| ≤ nsF 200)
  let s := modTime (fun t => { countSync theta t with agree := if near then t.agree + 1 else 0 }) s
  if 8 ≤ s.time.agree then modTime judgeSynced (enterServo .track (modTime takeMeasured s)) else s

/-- The hold of a new slave port has lasted 2 s: `SYNCED` falls (R396). -/
def holdLong (s : State) : State :=
  match s.time.portHold with
  | some (_, t0) => if t0 + secT 2 ≤ s.now then modTime (fun t => { setSynced false t with run200 := 0 }) s else s
  | none => s

/-- A Sync with its t1, t2 and correction (R345, R347). -/
def usableSync (t1 t2 cS : Int) (s : State) : State :=
  let tms := t2 - t1 - cS
  let tau := match s.time.lastT2 with | some x => t2 - x | none => 0
  let s := modTime (fun t => { t with
    lastTms := some tms, lastT2 := some t2, master := t.master.map (fun m => { m with lastSync := s.now }) }) s
  if s.time.portHold.isSome then holdLong s
  else
    match s.time.servo with
    | .acquire => tryAcquire (modTime (fun t => { t with acq := ((t1, tms) :: t.acq).take 8 }) s)
    | .track => if s.time.delayMeanSet then trackSync (tms - s.time.delayMean) tau s else s
    | .holdover =>
      let s := modTime (measureRate t1 tms) s
      if s.time.delayMeanSet then holdoverSync (tms - s.time.delayMean) s else s
    | .listen | .freerun => s

/-- The slave port moves: the filter is reseeded and the servo holds for 4 measurements (R396). -/
def movePort (p : Port) (s : State) : State :=
  modTime (fun t => { t with
    slavePort := some p, dFilter := [], delayMeanSet := false, dReject := 0
    portHold := some (4, match t.portHold with | some (_, t0) => t0 | none => s.now) }) s

/-- Whether a Sync on a port is used; the port it makes the slave port (R343, R402). -/
def slaveTakes (p : Port) (m : Master_) (s : State) : Option State :=
  match s.time.slavePort with
  | none => some (modTime (fun t => { t with slavePort := some p, slaveHeard := s.now }) s)
  | some q =>
    if p = q then some (modTime (fun t => { t with slaveHeard := s.now }) s)
    else if s.now < s.time.slaveHeard + logTicks m.set_.logSync then none
    else some (modTime (fun t => { t with slaveHeard := s.now }) (movePort p s))

def execSync (port : Port) (h : PtpHeader) (twoStep : Bool) (origin : PtpTime) (s : State) : Out :=
  match s.time.master with
  | none => .next s
  | some m =>
    if !ptpOk s 319 h || !portForwards s port || m.id != h.source then .next s
    else
      match slaveTakes port m s with
      | none => .next (countUp ctOffPort 1 s)
      | some s =>
        let t2 := counterOf s - rxLatencyF s port
        if twoStep then
          .next (modTime (fun t => { t with pend := ⟨h.seq, t2, h.correction, s.now⟩ :: t.pend.filter (fun p => p.seq != h.seq) }) s)
        else .next (usableSync (ptpF origin) t2 (corrF h.correction) s)

def execFollowUp (h : PtpHeader) (origin : PtpTime) (s : State) : Out :=
  match s.time.master with
  | none => .next s
  | some m =>
    if !ptpOk s 320 h || m.id != h.source then .next s
    else
      match s.time.pend.find? (fun p => p.seq == h.seq && s.now ≤ p.at_ + 2 * logTicks m.set_.logSync) with
      | none => .next s
      | some p =>
        .next (usableSync (ptpF origin) p.t2 (corrF (p.corr + h.correction))
          (modTime (fun t => { t with pend := t.pend.filter (fun x => x.seq != h.seq) }) s))

/-- R342: Syncs without their Follow_Up within two sync intervals are discarded. -/
def execFollowUpTimeout (s : State) : Out :=
  match s.time.master with
  | none => .next s
  | some m =>
    .next (modTime (fun t => { t with pend := t.pend.filter (fun p => s.now < p.at_ + 2 * logTicks m.set_.logSync) }) s)

/-! ### Path delay (R343 to R346, R385) -/

/-- Length of a Delay_Req frame: Ethernet, IPv4, UDP, the message and the FCS. -/
def delayReqLen : Nat := 14 + 20 + 8 + 44 + 4

def sendDelayReq (p : Port) (s : State) : State :=
  let q := (s.time.delaySeq + 1) % 65536
  let s := modTime (fun t => { t with
    delaySeq := q, unanswered := t.unanswered + 1, delayOut := ((q, none, t.lastTms) :: t.delayOut).take 16 }) s
  originFrame s p .ptp delayReqLen (launchNow s) (.delayReq q (0, 0))

def execDelayReq (s : State) : Out :=
  if !netRuns s || s.time.master.isNone || !dueBy s.now s.time.nextDelayReq then .next s
  else if 16 ≤ s.time.unanswered then .next (loseMaster s)
  else
    match s.time.slavePort with
    | none => .next (armDelayReq s)
    | some p => .next (armDelayReq (if portUp s p then sendDelayReq p s else s))

/-- A path-delay measurement enters the filter (R346, R396). -/
def takeDelay (d : Int) (s : State) : State :=
  if !s.time.dFilter.isEmpty && decide (nsF 1000 < |d - s.time.delayMean|) then
    modTime (fun t => if 2 ≤ t.dReject then { t with dFilter := [], delayMeanSet := false, dReject := 0 }
      else { t with dReject := t.dReject + 1 }) s
  else
    let s := modTime (fun t =>
      let l := (d :: t.dFilter).take (timeProfile s).filter
      { t with dFilter := l, dReject := 0, delayMeanSet := true, delayMean := sumInt l / l.length
               portHold := match t.portHold with | some (n + 2, t0) => some (n + 1, t0) | _ => none }) s
    tryAcquire s

def execDelayResp (h : PtpHeader) (requester : BitVec 80) (received : PtpTime) (logInterval : Int) (s : State) : Out :=
  match s.time.master with
  | none => .next s
  | some m =>
    if !ptpOk s 320 h || m.id != h.source || requester != Config.portIdentity (serialOf s).toNat then .next s
    else
      match s.time.delayOut.find? (fun x => x.1 == h.seq) with
      | none => .next s
      | some (q, t3, tms) =>
        let s := modTime (fun t => { t with
          unanswered := 0, delayLog := some logInterval, delayOut := t.delayOut.filter (fun x => x.1 != q) }) s
        match tms, t3 with
        | some v, some t => .next (takeDelay ((v + (ptpF received - t - corrF h.correction)) / 2) s)
        | _, _ => .next s

/-! ### Timeouts (R385, R390, R353, R397, R401, Table 8.9) -/

def execMasterLoss (s : State) : Out :=
  match s.time.master with
  | none => .next s
  | some m =>
    if m.lastAnnounce + 3 * logTicks m.set_.logAnnounce ≤ s.now || m.lastSync + 16 * logTicks m.set_.logSync ≤ s.now ||
        (16 ≤ s.time.unanswered && dueBy s.now s.time.nextDelayReq) then .next (loseMaster s)
    else .next s

def execServoRangeTimeout (s : State) : Out :=
  if s.time.servo = .track ∧ passed s.now s.time.limitSince (secT 60) then .next (loseMaster s) else .next s

def execTimeNomasterTimeout (s : State) : Out := if runs s then .next (listenFault s) else .next s

def execFollowerStepTimeout (s : State) : Out :=
  match s.time.stepNeed with
  | some (_, t0) =>
    if follower s && s.time.stepAnn.isNone && t0 + secT 4 ≤ s.now then .next (modTime (fun t => { t with ownStep := true }) s)
    else .next s
  | none => .next s

def execBeatInconsistentTimeout (s : State) : Out :=
  if s.time.servo = .holdover ∧ passed s.now s.time.inconsistentSince (secT 1) ∧ !followable s then .next (enterFreerun s)
  else .next s

def execLeadChangeHoldTimeout (s : State) : Out :=
  if s.time.servo = .holdover ∧ passed s.now s.time.leadHold (secT 2) then .next (enterFreerun s) else .next s

/-! ### What a `k:BEAT` does to the servo (R378 to R380, R397, R401, R457) -/

/-- The announcement of the latest `k:BEAT` that carries one. -/
def takeAnn (beat : BitVec 32) (amount : Int) (lead : Serial) (s : State) : State :=
  if beatPast beat (beatNow s) then s else modTime (fun t => { t with stepAnn := some ⟨beat, amount, lead⟩ }) s

/-- A knot in HOLDOVER: the loop on θ_B while the last 4 are consistent and carry PTP origin, since no follower follows a lead
without it (R384); after a change of lead y is kept (R397, R401). -/
def steerBeat (theta tau : Int) (s : State) : State :=
  if !followable s && s.time.leadHold.isSome then s
  else if !followable s then
    modTime (fun t => { t with y := t.yInt, inconsistentSince := holdSince s.now t.inconsistentSince }) s
  else
    let s := modTime (fun t => { t with
      inconsistentSince := none, leadHold := none, runMilli := if nsF 1000000 < |theta| then t.runMilli + 1 else 0 }) s
    if s.time.stepNeed.isNone && s.time.stepAnn.isNone && 16 ≤ s.time.runMilli then needStep theta s
    else if s.time.stepNeed.isSome && s.time.stepAnn.isNone then modTime (fun t => { t with y := t.yInt }) s
    else loopUpdate theta tau (1 / 8) (1 / 128) s

/-- A measurement θ_B at arrival r, with the lead's flags (R379, R380). -/
def takeBeat (theta r : Int) (origin leadTracks : Bool) (s : State) : State :=
  let tau := match s.time.beatMeas with | m :: _ => r - m.at_ | [] => 0
  let s := modTime (fun t => { t with
    beatMeas := (⟨theta, r, origin⟩ :: t.beatMeas).take 4
    apart := if leadTracks && decide (nsF 1000 < |theta|) then t.apart + 1 else 0 }) s
  match s.time.servo with
  | .listen | .freerun => if followable s then enterHoldover s else s
  | .track => if 16 ≤ s.time.apart then enterHoldover s else s
  | .holdover => steerBeat theta tau s
  | .acquire => s

/-- The acting lead that this tile follows has changed or is lost (R397). -/
def leadChanged (s : State) : State :=
  modTime (fun t => { t with
    beatMeas := [], apart := 0, inconsistentSince := none
    leadHold := if t.servo = .holdover then some s.now else none }) s

/-- A follower in HOLDOVER that becomes the acting lead enters FREERUN (09 R453). -/
def becameLead (s : State) : State :=
  let s := modTime (fun t => { t with beatMeas := [], apart := 0, inconsistentSince := none, leadHold := none }) s
  if s.time.servo = .holdover then enterFreerun s else s

end Sys2Proof.Machine
end

