-- ==== Sys2Proof/Machine/Groups.lean ====
section
/-!
DEFINITION. Which groups a tile joins for its scenes (10 R481 to R483, R498, R499), and the effective `s:AUTH` policy (11 R556).
-/
namespace Sys2Proof.Machine
open Sys2Proof


def slotGroup (s : State) (k : FlowKind) (slot : Nat) : Ip4 :=
  match k with | .video => videoGroup s slot | .audio => audioGroup s slot | .anc => ancGroup s slot

/-- The SDP in the cache that binds a slot's flow: its group, port 5004 and its media (R307). -/
def sdpFor (s : State) (k : FlowKind) (slot : Nat) : Option Sdp :=
  (s.net.sdp.find? (fun e => e.sdp.group == slotGroup s k slot && e.sdp.port == 5004)).map SdpEntry.sdp

/-! ### Policy of `s:AUTH` (11 R556, 03 Table 3.8) -/

inductive AuthPolicy | off | verify | require
  deriving DecidableEq, Repr

/-- The effective policy: without an ACTIVE site root, require acts as verify if tagged. -/
def authPolicy (s : State) : AuthPolicy :=
  match code s pinAuth with
  | 0 => .off
  | 1 => .verify
  | _ => match s.keys.phase with | .commissioned _ => if hasSiteKeys s then .require else .verify | _ => .verify

/-! ### Groups (R481 to R483, R498, R499, 07 R321, 17 R843) -/

def dedup (l : List Nat) : List Nat := l.foldl (fun a n => if a.contains n then a else a ++ [n]) []

def winSlots (wins : List Win) : List Nat := (wins.filter Win.touches).filterMap Win.slot

/-- Audio slots of a scene on this tile (R498). -/
def audioSlots (s : State) (k : SceneKey) : List Nat :=
  let c := code s pinAudsrc
  if c = 10 then (List.range 4).map (fun i => 16 * k.ofs.val + i)
  else if c = 0 || layoutOf k = 15 then []
  else
    let w := if c = 15 then 0 else c - 1
    if countOf k ≤ w then [] else (slotOf k (tileIndex s) w).toList

/-- Video, ancillary and audio slots joined: the committed scene's take entries first (07 R321). -/
def wantedFlows (s : State) : List (FlowKind × Nat) :=
  let v := dedup (winSlots s.scene.win ++ winSlots s.scene.prepWin)
  let anc := if authPolicy s = .off then [] else v.take 16
  let aud := dedup ((match s.scene.committed with | some c => audioSlots s c.key | none => []) ++
    (match s.scene.prepared with | some p => audioSlots s p.key | none => []))
  (v.take 64).map (fun n => (.video, n)) ++ anc.map (fun n => (.anc, n)) ++ (aud.take 64).map (fun n => (.audio, n))

/-- The flow of a slot newly joined, bound at once where the cache names it (07 R307). -/
def newFlow (s : State) (k : FlowKind) (n : Nat) : Flow := { kind := k, slot := n, sdp := sdpFor s k n }

def flowMatch (x : FlowKind × Nat) (f : Flow) : Bool := decide (f.kind = x.1) && f.slot == x.2

def isWatermark (k : KeyName) : Bool := match k with | .watermark _ => true | _ => false

/-- The watermark keys of the joined ancillary groups (17 R843). -/
def syncMarkKeys (s : State) : State :=
  let want := (s.net.flows.filter (fun f => decide (f.kind = .anc))).map (fun f => KeyName.watermark f.slot)
  let kept := s.keys.store.filter (fun k => !isWatermark k.name || want.contains k.name)
  let new := want.filter (fun n => !(kept.map Key.name).contains n)
  modKeys (fun z => { z with store := kept ++ deriveKeys s new }) s

/-- Joins and leaves groups so that the joined flows are the wanted ones (R481, R482). -/
def syncGroups (s : State) : State :=
  let want := wantedFlows s
  let old := s.net.flows
  let gone := old.filter (fun f => !want.any (fun x => flowMatch x f))
  let add := want.filter (fun x => !old.any (flowMatch x))
  let flows := want.filterMap (fun x => match old.find? (flowMatch x) with | some f => some f | none => some (newFlow s x.1 x.2))
  let s := modNet (fun z => { z with flows := flows }) s
  let s := leaveAll (gone.map (fun f => slotGroup s f.kind f.slot)) s
  syncMarkKeys (joinAll (add.map (fun x => slotGroup s x.1 x.2)) s)

/-- The prepared scene is abandoned: its groups are left unless the committed scene uses them (R482). -/
def abandon (s : State) : State :=
  syncGroups { modScene (fun x => { x with prepared := none, prepWin := [] }) s with aud := { s.aud with switchTo := none } }

end Sys2Proof.Machine
end

