-- ==== Sys2Proof/Machine/Selvedge.lean ====
section
/-!
DEFINITION. Selvedge links (09 R403 to R436) and what follows from a change of the chosen claim or the position (R437 to R446).
-/
namespace Sys2Proof.Machine
open Sys2Proof

/-- D5 is on and the part runs. -/
def svRuns (s : State) : Bool := runs s && domOn s 5


/-! ### Claims and the relative position (R437 to R439) -/

/-- No joined west link and no joined north link. -/
def originCandidate (s : State) : Bool := s.sv.w.joined.isNone && s.sv.n.joined.isNone

/-- The tile's own seed claim: its strapped position (row `s:POSY`, column `s:POSX`), or (0, 0) of an origin candidate. -/
def ownClaim (s : State) : Option Choice :=
  if fixedPos s then some ⟨serialOf s, true, 0, code s pinPosY, code s pinPosX, none⟩
  else if originCandidate s then some ⟨serialOf s, false, 0, 0, 0, none⟩
  else none

/-- Own relative position from a neighbour's (R438). -/
def fromNeighbour (d : Dir) (r c : Int) : Int × Int :=
  match d with | .w => (r, c + 1) | .n => (r + 1, c) | .e => (r, c - 1) | .s => (r - 1, c)

def choiceVia (d : Dir) (c : Claim) : Choice :=
  let p := fromNeighbour d c.row c.col
  ⟨c.seed, c.fixed, c.hops + 1, p.1, p.2, some d⟩

/-- Order of arriving ports; the own claim first (R438). -/
def viaRank (v : Option Dir) : Nat :=
  match v with | none => 0 | some .w => 1 | some .n => 2 | some .e => 3 | some .s => 4

/-- Whether a choice ranks above another; hops are those of the claims. -/
def choiceKey (c : Choice) : List Nat := [b2n (!c.fixed), c.seed.toNat, c.hops - b2n c.via.isSome, viaRank c.via]
def betterChoice (a b : Choice) : Bool := lexLt (choiceKey a) (choiceKey b)

/-- Claims received on joined links. -/
def receivedChoices (s : State) : List Choice :=
  (joinedDirs s).filterMap (fun d => (linkOf s d).claim.map (choiceVia d))

/-- The best claim; a fixed tile keeps its own. -/
def bestChoice (s : State) : Option Choice :=
  if fixedPos s then ownClaim s
  else (((ownClaim s).toList ++ receivedChoices s)).foldl (fun b c => match b with
    | none => some c
    | some x => if betterChoice c x then some c else some x) none

/-- The tile is the origin (R439). -/
def isOrigin (s : State) : Bool :=
  !fixedPos s && originCandidate s && (match s.disc.choice with | some c => c.via.isNone | none => false)

/-- The seed of a choice. -/
def seedOf (c : Option Choice) : Option Serial := c.map Choice.seed

/-! ### Rank and eligibility (R447, R448) -/

def rankClass (s : State) : Nat := if roleCode s = 1 then 0 else if isOrigin s && roleCode s = 15 then 1 else 2

/-- Lower class, then lower serial. -/
def ranksBefore (a b : Nat × Serial) : Bool := if a.1 = b.1 then decide (a.2.toNat < b.2.toNat) else decide (a.1 < b.1)

def ownRank (s : State) : Nat × Serial := (rankClass s, serialOf s)

/-- Claims and leads heard in the last 500 ms. -/
def recentLeads (s : State) : List (Nat × Serial × Ticks) :=
  s.disc.heardLeads.filter (fun e => s.now < e.2.2 + msT 500)

/-- A claim or a lead that ranks above the tile is held. -/
def betterHeard (s : State) : Bool := (recentLeads s).any (fun e => ranksBefore (e.1, e.2.1) (ownRank s))

/-- An eligible tile that holds no better claim claims (R448). -/
def mayClaim (s : State) : Bool :=
  svRuns s && eligible s && !betterHeard s && decide (s.disc.role = .idle) && s.disc.resign == 0 &&
  !(enteringStandby s)

def startClaiming (s : State) : State :=
  if mayClaim s then modDisc (fun d => { d with role := .claiming s.now, lastLeadSent := none }) s else s

/-! ### Position (R444 to R446, R462) -/

/-- The tile size by the census; none before it. -/
def ownTile (s : State) : Nat × Nat := match s.weft.geom with | some g => (g.tileW, g.tileH) | none => (0, 0)

/-- A difference on some joined link has been held for 1 s (R445). -/
def inconsistent (s : State) : Bool := (joinedDirs s).any (fun d => passed s.now (linkOf s d).diffSince (secT 1))

/-- What R444 finds: a position, or the reason of `f:SV_POSITION`, or neither. -/
inductive PosFound
  | unknown
  | bad (reason : Nat)
  | known (row col : Nat)
  deriving DecidableEq, Repr

/-- The position against a settled geometry. -/
def placeIn (s : State) (c : Choice) (g : Settled) : PosFound :=
  let r := c.row - g.rowOff
  let k := c.col - g.colOff
  if s.weft.geom.isNone then .unknown
  else if (g.tileW, g.tileH) != ownTile s then .bad 2
  else if g.refresh != code s pinRefresh || g.latency != code s pinLatency then .bad 4
  else if r < 0 || k < 0 || (min g.rows 128 : Nat) ≤ r || (min g.cols 128 : Nat) ≤ k then .bad 3
  else .known r.toNat k.toNat

/-- R444. -/
def findPosition (s : State) : PosFound :=
  if standalone s then .known 0 0
  else if inconsistent s then .bad 0
  else
    match s.disc.choice, s.disc.settled, s.disc.verdict with
    | some _, some _, some true => .bad 1
    | some c, some g, some false => placeIn s c g
    | _, _, _ => .unknown

/-- A new position, and the address that follows it (07 R279). -/
def newPosition (p : Nat × Nat) (s : State) : State :=
  if s.disc.position = some p then s
  else startPositional (modDisc (fun d => { d with position := some p }) s)

/-- The position is decided again (R444, R446, Table 9.7). -/
def settlePosition (s : State) : State :=
  match findPosition s with
  | .known r c => newPosition (r, c) s
  | .bad n => raise .svPosition (BitVec.ofNat 32 n) (modDisc (fun d => { d with position := none }) s)
  | .unknown => modDisc (fun d => { d with position := none }) s

/-- The neighbour's relative position is compared with the own one (R445). -/
def compareNeighbour (d : Dir) (s : State) : State :=
  let diff := match s.disc.choice, (linkOf s d).partner, (linkOf s d).joined with
    | some c, some h, some _ => h.held && decide (fromNeighbour d h.row h.col ≠ (c.row, c.col))
    | _, _, _ => false
  modLink s d (fun l => { l with diffSince := if diff then holdSince s.now l.diffSince else none })

def compareAll (s : State) : State := dirs.foldl (fun st d => compareNeighbour d st) s

/-- Another seed: what the old frame gave no longer counts (R446, R462). -/
def dropFrame (s : State) : State :=
  modDisc (fun d => { d with settled := none, verdict := none, nextPage := 0, inCycle := false, position := none }) s

/-- The choice is made again; a change sends `k:POS` and `k:CENSUS` at once (R438 to R440). -/
def rechoose (s : State) : State :=
  let c := bestChoice s
  if c = s.disc.choice then s
  else
    let s := if seedOf c = seedOf s.disc.choice then s else dropFrame s
    settlePosition (compareAll (modDisc (fun d => { d with choice := c, lastPos := none, censusDue := true }) s))

/-! ### Joining and unjoining (R430 to R432) -/

def freshLink (l : Link) : Link :=
  { l with delays := [], accepted := 0, rejects := 0, req := none, reqAt := none, rtt := none, claim := none, diffSince := none
           marks := [], beatOut := none }

/-- A link becomes joined. -/
def joinLink (d : Dir) (s : State) : State :=
  let s := modLink s d (fun l => { freshLink l with joined := some s.now, everJoined := true, unjoinedSince := none })
  rechoose (modDisc (fun x => { x with firstJoin := holdSince s.now x.firstJoin, censusDue := true, lastPos := none }) s)

/-- A joined link becomes unjoined: its queue and claim go, and the parent with it (R431, R464). -/
def unjoinLink (d : Dir) (s : State) : State :=
  if (linkOf s d).joined.isNone then s
  else
    let s := modLink s d (fun l => { freshLink l with joined := none, hellos := [], queue := [], unjoinedSince := some s.now })
    rechoose (modDisc (fun x => { x with parent := if x.parent = some d then none else x.parent, censusDue := true }) s)

/-- Detail of `f:SV_LINK`: reason and link. -/
def svDetail (reason : Nat) (d : Dir) : BitVec 32 := BitVec.ofNat 32 (64 * reason + dirNo d)

/-- The headers examined in the hunt (R411). -/
def execBlockLock (link : Dir) (headers : List (BitVec 2)) (s : State) : Out :=
  if svRuns s then .next (modLink s link (fun l => headers.foldl huntHeader l)) else .next s

/-- Lock drops: the link is unjoined, a knot in reception is discarded and counted, and the hunt restarts (R412, R416, Table 9.7). -/
def loseLock (d : Dir) (s : State) : State :=
  let s := if (linkOf s d).rx.isSome then countUp ctKnot 1 s else s
  raise .svAlign (BitVec.ofNat 32 (dirNo d))
    (modLink (unjoinLink d s) d (fun l => { l with locked := false, hunt := 0, window := [], rx := none, hellos := [] }))

/-- The headers that follow on a locked lane (R412). -/
def execBlockLockLoss (link : Dir) (headers : List (BitVec 2)) (s : State) : Out :=
  if svRuns s && (linkOf s link).locked then
    let s := modLink s link (watchHeaders headers)
    .next (if lockFails (linkOf s link) then loseLock link s else s)
  else .next s

/-- Blocks arrive on a locked lane: the knot that they end, if any (R413 to R417). -/
def arrive (d : Dir) (run : BlockRun) (s : State) : State × Option (List Byte) :=
  if svRuns s && (linkOf s d).locked then
    let r := readLane run.blocks { linkOf s d with descr := run.before }
    let s := setLink s d r.1
    if lockFails r.1 then (loseLock d s, none) else (s, r.2)
  else (s, none)

/-- What a knot does, once its blocks have arrived. -/
def onKnot (d : Dir) (run : BlockRun) (f : List Byte → State → State) (s : State) : Out :=
  match arrive d run s with
  | (s, some b) => .next (f b s)
  | (s, none) => .next s

/-! ### Link delay (R434, R435) -/

/-- The mean of the accepted values, in 2^-32 ns. -/
def linkDelay (l : Link) : Int := if l.delays.length = 0 then 0 else sumInt l.delays / l.delays.length

def delayValid (l : Link) : Bool := 16 ≤ l.accepted && !l.delays.isEmpty

/-- One value of d (R435). -/
def takeLinkDelay (d : Int) (l : Link) : Link :=
  if !l.delays.isEmpty && decide (nsF 5 < |d - linkDelay l|) then
    if 3 ≤ l.rejects then { l with delays := [], rejects := 0 } else { l with rejects := l.rejects + 1 }
  else { l with delays := (d :: l.delays).take 16, accepted := l.accepted + 1, rejects := 0 }

/-- The turnaround of an answered REQ gives a value (R434). -/
def useTurnaround (h : Hello) (l : Link) : Link :=
  match l.rtt with
  | some (v, t) => if v = h.reqAnswered then takeLinkDelay ((t - corrF h.turnaround) / 2) { l with rtt := none } else l
  | none => l

/-! ### `k:HELLO` (R429 to R433) -/

/-- A matching `k:HELLO` (R430, R434, R445). -/
def takeHello (d : Dir) (h : Hello) (s : State) : State :=
  let s := modLink s d (fun l => { l with
    crossed := false, partner := some h, lastHello := some s.now, hellos := (s.now :: l.hellos).take 3 })
  let l := linkOf s d
  let s := if l.joined.isNone && l.hellos.length == 3 && l.hellos.all (fun t => s.now ≤ t + msT 30) then joinLink d s else s
  let s := compareNeighbour d (if (linkOf s d).joined.isSome then modLink s d (useTurnaround h) else s)
  if inconsistent s || s.disc.position.isNone then settlePosition s else s

/-- A `k:HELLO` on a locked link. -/
def helloIn (d : Dir) (bytes : List Byte) (s : State) : State :=
  if standalone s then s
  else
    match readKnot .hello bytes with
    | none => discardKnot d .hello bytes s
    | some _ =>
      let h := readHello bytes
      if h.port != dirNo (opposite d) then
        raise .svLink (svDetail 1 d)
          (modLink (unjoinLink d s) d (fun l => { l with crossed := true, hellos := [], partner := some h }))
      else if h.wallId != wallId s || h.standalone then
        modLink s d (fun l => { l with crossed := false, hellos := [], partner := some h })
      else takeHello d h s

def execHello (link : Dir) (run : BlockRun) (s : State) : Out := onKnot link run (helloIn link) s

/-- The acting lead known to the tile, and its hops from it. -/
def leadSerialKnown (s : State) : Serial :=
  if actingLead s then serialOf s else match s.disc.lead with | some l => l.serial | none => 0
def leadHopsKnown (s : State) : Nat := if actingLead s then 0 else s.disc.leadHops.getD 0xFFFF

def helloFor (d : Dir) (s : State) : Hello :=
  let c := s.disc.choice
  { port := dirNo d, role := roleCode s, known := positionKnown s, fixed := fixedPos s, candidate := originCandidate s
    lead := actingLead s, standalone := standalone s, held := c.isSome
    row := (match c with | some x => x.row | none => 0), col := (match c with | some x => x.col | none => 0)
    reqAnswered := (linkOf s d).answered.1, turnaround := (linkOf s d).answered.2
    leadSerial := leadSerialKnown s, hops := leadHopsKnown s, wallId := wallId s, serial := serialOf s }

def sendHello (d : Dir) (s : State) : State :=
  bumpSeq (sendOn s d .hello (ownKnot s .hello false (helloBytes (helloFor d s)))) .hello

/-- R429: every 10 ms, on every locked link. -/
def execHelloSend (s : State) : Out :=
  if svRuns s && (s.disc.lastHelloSent.isNone || passed s.now s.disc.lastHelloSent (msT 10)) then
    .next ((dirs.filter (fun d => (linkOf s d).locked)).foldl (fun st d => sendHello d st)
      (modDisc (fun x => { x with lastHelloSent := some s.now }) s))
  else .next s

def execHelloTimeout (link : Dir) (s : State) : Out :=
  if (linkOf s link).joined.isSome && passed s.now (linkOf s link).lastHello (msT 50) then .next (unjoinLink link s) else .next s

/-- 10 or more CRC discards per second for 10 s (Table 9.7). -/
def crcBad (now : Ticks) (l : Link) : Bool := 10 ≤ l.crcRun + b2n (10 ≤ l.crcCount) && now / secT 1 ≤ l.crcSec + 1

/-- Table 9.7: unjoined for 1 s, crossed, or many CRC discards. -/
def execSvLinkTimeout (link : Dir) (s : State) : Out :=
  let l := linkOf s link
  if !svRuns s || standalone s then .next s
  else if l.crossed then .next (raise .svLink (svDetail 1 link) s)
  else if l.joined.isNone && l.everJoined && passed s.now l.unjoinedSince (secT 1) then .next (raise .svLink (svDetail 0 link) s)
  else if crcBad s.now l then .next (raise .svLink (svDetail 2 link) s)
  else .next s

/-! ### Marks (R434, R454, R455) -/

/-- A MARK waits for the next block boundary of its link (R415, R459). -/
def putMark (m : OutMark) (d : Dir) (s : State) : State := modLink s d (fun l => { l with marks := l.marks ++ [m] })

/-- R434: a MARK REQ every 10 ms on a joined link. -/
def execMarkReqSend (link : Dir) (s : State) : Out :=
  let l := linkOf s link
  if svRuns s && l.joined.isSome && (l.reqAt.isNone || passed s.now l.reqAt (msT 10)) then
    .next (putMark ⟨.req, l.reqSeq + 1, 0⟩ link (modLink s link (fun l => { l with reqSeq := l.reqSeq + 1, reqAt := some s.now })))
  else .next s

/-- R434: t2 is the arrival; the answer leaves at the next block boundary, t3. -/
def execMarkReq (link : Dir) (value : BitVec 16) (s : State) : Out :=
  if svRuns s && (linkOf s link).joined.isSome then .next (putMark ⟨.rsp, value, counterOf s⟩ link s) else .next s

def execMarkRsp (link : Dir) (value : BitVec 16) (s : State) : Out :=
  match (linkOf s link).req with
  | some (v, t1) =>
    if svRuns s && (linkOf s link).joined.isSome && v == value then
      .next (modLink s link (fun l => { l with req := none, rtt := some (v, counterOf s - t1) }))
    else .next s
  | none => .next s

/-- A value of MARK BEAT already seen: the last or one of the 16 before it (log 90). -/
def markHeard (value : BitVec 16) (s : State) : Bool :=
  (match s.disc.markSeen with | some m => m.value == value | none => false) || s.disc.markPast.contains value

/-- A MARK BEAT goes out on links. -/
def putBeats (value : BitVec 16) (l : List Dir) (s : State) : State := l.foldl (fun st d => putMark ⟨.beat, value, 0⟩ d st) s

/-- The first MARK BEAT of a value, on a link whose delay is valid, is stamped and relayed (R455). -/
def execMarkBeat (link : Dir) (value : BitVec 16) (s : State) : Out :=
  if svRuns s && !actingLead s && (linkOf s link).joined.isSome && delayValid (linkOf s link) && !markHeard value s then
    .next (putBeats value ((joinedDirs s).filter (fun d => !decide (d = link)))
      (modDisc (fun x => { x with
        markSeen := some ⟨value, link, counterOf s⟩
        markPast := ((x.markSeen.map MarkSeen.value).toList ++ x.markPast).take 16 }) s))
  else .next s

end Sys2Proof.Machine
end

