-- ==== Sys2Proof/Machine/Discovery.lean ====
section
/-!
DEFINITION. Discovery, the census, election, the beat relay and `k:FAULT` as commands (09 R420 to R467).
-/
namespace Sys2Proof.Machine
open Sys2Proof

/-! ### `k:POS` (R438, R439) -/

/-- A link-local or upstream knot on a joined link of the same wall that passes. -/
def receiveLocal (s : State) (d : Dir) (t : KnotType) (b : List Byte) : FloodIn :=
  match readKnot t b with
  | none => .ignored (discardKnot d t b s)
  | some h => if (linkOf s d).joined.isNone || h.wall != wallId s then .ignored s else .taken s h

def posIn (d : Dir) (bytes : List Byte) (s : State) : State :=
  match receiveLocal s d .pos bytes with
  | .ignored s => s
  | .taken s _ =>
    let b := readPos bytes
    if b.seed = serialOf s || 0xFFFE ≤ b.hops then s
    else rechoose (modLink s d (fun l => { l with claim := some ⟨b.seed, b.fixed, b.hops, b.row, b.col, s.now⟩ }))

def execPos (link : Dir) (run : BlockRun) (s : State) : Out := onKnot link run (posIn link) s

def execPosSend (s : State) : Out :=
  match s.disc.choice with
  | none => .next s
  | some c =>
    if svRuns s && (s.disc.lastPos.isNone || passed s.now s.disc.lastPos (msT 100)) then
      let k := ownKnot s .pos false (posBytes ⟨c.seed, c.fixed, c.hops, c.row, c.col⟩)
      .next (bumpSeq (floodBut (modDisc (fun d => { d with lastPos := some s.now }) s) none .pos k) .pos)
    else .next s

/-- R438: a claim not renewed within 300 ms. -/
def execPosClaimExpiry (link : Dir) (s : State) : Out :=
  match (linkOf s link).claim with
  | some c => if c.at_ + msT 300 ≤ s.now then .next (rechoose (modLink s link (fun l => { l with claim := none }))) else .next s
  | none => .next s

/-! ### The census at the lead (R440, R441) -/

def minInt (l : List Int) : Int := match l with | [] => 0 | x :: xs => xs.foldl min x
def maxInt (l : List Int) : Int := match l with | [] => 0 | x :: xs => xs.foldl max x

/-- Serials that share a relative position with a lower serial, in ascending order. -/
def dupSerials (t : List CensusEntry) : List Serial :=
  sortBy (fun a b => decide (a.toNat ≤ b.toNat))
    ((t.filter (fun e => t.any (fun f => f.row == e.row && f.col == e.col && decide (f.serial.toNat < e.serial.toNat)))).map
      CensusEntry.serial)

/-- The lead's results from its table (R440). -/
def computeResults (t : List CensusEntry) : Int × Int × Nat × Nat × Bool × List Serial :=
  let fixed := t.any CensusEntry.fixed
  let rows := t.map CensusEntry.row
  let cols := t.map CensusEntry.col
  let r0 := if fixed then 0 else minInt rows
  let c0 := if fixed then 0 else minInt cols
  (r0, c0, (maxInt rows - r0 + 1).toNat, (maxInt cols - c0 + 1).toNat, fixed, dupSerials t)

/-- The results are computed afresh; a change unsettles them and starts the pages again (R442, R443). -/
def updateResults (tableChanged : Bool) (s : State) : State :=
  let x := computeResults s.disc.table
  let r := s.disc.results
  let same := decide ((r.rowOff, r.colOff, r.rows, r.cols, r.fixed, r.dups) = x)
  if same && !tableChanged then s
  else
    let moved := r.sentSettled && (r.rowOff != x.1 || r.colOff != x.2.1)
    let s := modDisc (fun d => { d with
      page := if same then d.page else 0
      results := { r with rowOff := x.1, colOff := x.2.1, rows := x.2.2.1, cols := x.2.2.2.1, fixed := x.2.2.2.2.1
                          dups := x.2.2.2.2.2, changedAt := s.now, settled := false } }) s
    if moved then modScene (fun z => { z with wanted := true }) s else s

/-- The lead takes a census: a tile added or restored, or a position that changes, asks for a scene change (10 R484). -/
def takeCensus (o : Serial) (b : CensusBody) (s : State) : State :=
  let e : CensusEntry := ⟨o, b.row, b.col, b.tileW, b.tileH, b.fixed, b.ports, b.role, b.drv, s.now, false⟩
  let old := s.disc.table.find? (fun x => x.serial == o)
  let changed := decide (old.map (fun x => { x with heard := s.now }) ≠ some e)
  let news := match old with | none => true | some x => x.lapsed || x.row != e.row || x.col != e.col
  let s := modDisc (fun d => { d with table := d.table.filter (fun x => x.serial != o) ++ [e] }) s
  let s := if news && s.disc.results.sentSettled then modScene (fun z => { z with wanted := true }) s else s
  updateResults changed s

def censusIn (d : Dir) (bytes : List Byte) (s : State) : State :=
  match receiveLocal s d .census bytes with
  | .ignored s => s
  | .taken s h => if actingLead s then takeCensus h.orig (readCensus bytes) s else relayUp s .census bytes

def execCensus (link : Dir) (run : BlockRun) (s : State) : Out := onKnot link run (censusIn link) s

def ownCensus (c : Choice) (s : State) : CensusBody :=
  { row := c.row, col := c.col, tileW := (ownTile s).1, tileH := (ownTile s).2, fixed := fixedPos s
    candidate := originCandidate s, ports := (s.weft.port.filter WPort.inCanvas).length, role := roleCode s, drv := code s pinDrv }

/-- R440: at each change that asks for it and every 5 s; the lead takes its own directly (R425). -/
def execCensusSend (s : State) : Out :=
  match s.disc.choice with
  | none => .next s
  | some c =>
    if svRuns s && !standalone s && (s.disc.censusDue || s.disc.lastCensus.isNone || passed s.now s.disc.lastCensus (secT 5)) then
      let b := ownCensus c s
      let s := modDisc (fun d => { d with censusDue := false, lastCensus := some s.now }) s
      .next (if actingLead s then takeCensus (serialOf s) b s else originUp s .census (censusBytes b))
    else .next s

/-- R441. -/
def execCensusLapse (serial : Serial) (s : State) : Out :=
  if actingLead s then
    .next (modDisc (fun d => { d with table := d.table.map (fun e =>
      if e.serial == serial && decide (e.heard + secT 15 ≤ s.now) then { e with lapsed := true } else e) }) s)
  else .next s

/-! ### Following a lead (R425, R442 to R452, R461) -/

/-- Knots of the old lead that refer to a later beat are discarded; a commit taken stays (R461). -/
def dropOldScene (s : State) : State :=
  let s := modScene (fun x => { x with change := none }) s
  match s.scene.prepared with
  | some p => if p.commit.isSome then s else abandon s
  | none => s

/-- The lead is lost (R452). -/
def leadLost (detail : Nat) (s : State) : State :=
  let s := modDisc (fun d => { d with lead := none, leadHops := none, parent := none }) s
  startClaiming (raise .svNolead (BitVec.ofNat 32 detail) (leadChanged s))

/-- The tile stops leading (R451, R452). -/
def endLeading (s : State) : State :=
  modDisc (fun d => { d with role := .idle, table := [], results := {}, leadHops := none, parent := none, resign := 0 })
    (modScene (fun z => { z with change := none, wanted := false, readmit := false, handed := false, lastReadies := [], latest := none, echoAt := none }) s)

/-- Duplicate pages (R442). -/
def takePage (b : LeadBody) (s : State) : State :=
  let listed := b.dups.contains (serialOf s)
  modDisc (fun d =>
    let inSeq := b.page = d.nextPage
    let early := b.page = 0 ∧ d.nextPage ≠ 0
    let v := if early then none else d.verdict
    if b.page = 0 then
      if b.last then { d with nextPage := 0, inCycle := false, verdict := some listed }
      else { d with nextPage := 1, inCycle := listed, verdict := v }
    else if inSeq then
      if b.last then { d with nextPage := 0, inCycle := false, verdict := some (d.inCycle || listed) }
      else { d with nextPage := b.page + 1, inCycle := d.inCycle || listed }
    else { d with nextPage := 0, inCycle := false }) s

/-- The results of the same lead have changed: its duplicates count afresh. -/
def resultsDiffer (v : LeadView) (b : LeadBody) : Bool :=
  decide ((v.fixed, v.rows, v.cols, v.tileW, v.tileH, v.rowOff, v.colOff) ≠
    (b.fixed, b.rows, b.cols, b.tileW, b.tileH, b.rowOff, b.colOff))

/-- Parent, view and census of a `k:LEAD` of the acting lead (R425, R440, R444). -/
def takeLeadView (d : Dir) (h : Head) (b : LeadBody) (s : State) : State :=
  let view : LeadView := ⟨h.orig, b.cls, b.settled, b.fixed, b.rows, b.cols, b.tileW, b.tileH, b.rowOff, b.colOff,
    b.refresh, b.latency, s.now⟩
  let newLead := match s.disc.lead with | some v => v.serial != h.orig | none => true
  let changed := match s.disc.lead with | some v => v.serial != h.orig || resultsDiffer v b | none => true
  let s := if newLead then dropOldScene (leadChanged s) else s
  modDisc (fun x => { x with
    lead := some view, leadHops := some (h.hops + 1), parent := some d, parentLead := some h.orig
    nextPage := if changed then 0 else x.nextPage, inCycle := if changed then false else x.inCycle
    verdict := if changed then none else x.verdict
    censusDue := x.censusDue || x.parentLead != some h.orig }) s

/-- A settled `k:LEAD` (R444, Table 9.7). -/
def takeSettled (b : LeadBody) (s : State) : State :=
  if b.settled then
    clearAll .svNolead (modDisc (fun x => { x with
      settled := some ⟨b.rows, b.cols, b.tileW, b.tileH, b.rowOff, b.colOff, b.fixed, b.refresh, b.latency⟩ }) s)
  else s

/-- A tile follows an acting lead, unless it follows a better one (R451). -/
def followLead (d : Dir) (h : Head) (b : LeadBody) (s : State) : State :=
  let follows := match s.disc.lead with
    | none => true
    | some v => v.serial == h.orig || ranksBefore (b.cls, h.orig) (v.cls, v.serial)
  if follows then settlePosition (takePage b (takeSettled b (takeLeadView d h b s))) else s

/-- A `k:LEAD` that ranks above the tile ends its claim or its lead (R448, R451). -/
def yieldTo (rank : Nat × Serial) (s : State) : State :=
  if ranksBefore rank (ownRank s) then
    match s.disc.role with
    | .acting => endLeading s
    | .claiming _ => modDisc (fun d => { d with role := .idle }) s
    | .idle => s
  else s

def noteHeard (cls : Nat) (o : Serial) (s : State) : State :=
  modDisc (fun d => { d with heardLeads := (cls, o, s.now) :: (recentLeads s).filter (fun e => e.2.1 != o) }) s

/-- Whether a claim is relayed, and the claims relayed with it (R449). -/
def relayClaim (d : Dir) (b : LeadBody) (h : Head) (bytes : List Byte) (s : State) : State :=
  let recent := s.disc.relayedClaims.filter (fun e => s.now < e.2.2 + msT 500)
  if b.claim && recent.any (fun e => ranksBefore (e.1, e.2.1) (b.cls, h.orig)) then s
  else
    let s := if b.claim then modDisc (fun x => { x with relayedClaims := (b.cls, h.orig, s.now) :: recent }) s else s
    relayFlood s d .lead bytes

/-- A `k:LEAD` that is acted on. -/
def takeLead (d : Dir) (h : Head) (b : LeadBody) (s : State) : State :=
  if b.resign then
    let s := modDisc (fun x => { x with heardLeads := x.heardLeads.filter (fun e => e.2.1 != h.orig) }) s
    if !actingLead s && (match s.disc.lead with | some v => v.serial == h.orig | none => false) then leadLost 0 s else s
  else
    let s := yieldTo (b.cls, h.orig) (noteHeard b.cls h.orig s)
    if b.claim || actingLead s then s else followLead d h b s

def leadIn (d : Dir) (bytes : List Byte) (s : State) : State :=
  match acceptFlood s d .lead bytes with
  | .ignored s => s
  | .taken s h => takeLead d h (readLead bytes) (relayClaim d (readLead bytes) h bytes s)

def execLead (link : Dir) (run : BlockRun) (s : State) : Out := onKnot link run (leadIn link) s

/-! ### Leading (R442, R443, R448, R450, R452) -/

/-- The page of duplicates that a `k:LEAD` carries, and whether it is the last. -/
def leadPage (d : Disc) : List Serial × Bool := ((d.results.dups.drop (8 * d.page)).take 8, decide (d.results.dups.length ≤ 8 * (d.page + 1)))

def leadBody (claim resign : Bool) (s : State) : LeadBody :=
  let r := s.disc.results
  if claim then
    { claim := true, resign := false, settled := false, fixed := false, last := true, cls := rankClass s, page := 0, rows := 0
      cols := 0, tileW := 0, tileH := 0, rowOff := 0, colOff := 0, refresh := code s pinRefresh, latency := code s pinLatency
      dups := [] }
  else
    { claim := false, resign := resign, settled := r.settled && !resign, fixed := r.fixed, last := (leadPage s.disc).2
      cls := rankClass s, page := s.disc.page, rows := r.rows, cols := r.cols, tileW := (ownTile s).1, tileH := (ownTile s).2
      rowOff := r.rowOff, colOff := r.colOff, refresh := code s pinRefresh, latency := code s pinLatency
      dups := (leadPage s.disc).1 }

def sentLead (s : State) : State := modDisc (fun d => { d with lastLeadSent := some s.now }) s

/-- The acting lead's `k:LEAD`; the first settled one asks for a scene change (10 R484). -/
def sendLead (s : State) : State :=
  let b := leadBody false false s
  let first := b.settled && !s.disc.results.sentSettled
  let s := sentLead (originFlood s .lead (leadBytes b))
  let s := modDisc (fun d => { d with
    page := if b.last then 0 else d.page + 1
    results := { d.results with sentSettled := d.results.sentSettled || b.settled } }) s
  let same := s.scene.change.isNone && (match s.scene.committed with | some c => decide (c.key = ownKey s) | none => false)
  if first && !same then modScene (fun z => { z with wanted := true }) s else s

/-- One of three `k:LEAD` with RESIGN; after the last the tile leads no more (R452). -/
def sendResign (s : State) : State :=
  let n := s.disc.resign
  let s := sentLead (originFlood s .lead (leadBytes (leadBody false true s)))
  if n ≤ 1 then endLeading s else modDisc (fun d => { d with resign := n - 1 }) s

/-- R443, R448, R452: every 100 ms, or 10 ms apart with RESIGN. -/
def execLeadSend (s : State) : Out :=
  let due (t : Ticks) : Bool := s.disc.lastLeadSent.isNone || passed s.now s.disc.lastLeadSent t
  if !svRuns s || !mayFlood s then .next s
  else
    match s.disc.role with
    | .acting =>
      if s.disc.resign != 0 then (if due (msT 10) then .next (sendResign s) else .next s)
      else if due (msT 100) then .next (sendLead s) else .next s
    | .claiming _ =>
      if due (msT 100) then .next (sentLead (originFlood s .lead (leadBytes (leadBody true false s)))) else .next s
    | .idle =>
      if mayClaim s && s.disc.lead.isNone then
        .next (let s := startClaiming s; sentLead (originFlood s .lead (leadBytes (leadBody true false s))))
      else .next (startClaiming s)

/-- R443: unchanged for 500 ms; the lead's own position follows. -/
def execLeadSettle (s : State) : Out :=
  if actingLead s && !s.disc.results.settled && !s.disc.table.isEmpty && s.disc.results.changedAt + msT 500 ≤ s.now then
    let r := s.disc.results
    let s := modDisc (fun d => { d with
      results := { r with settled := true }
      settled := some ⟨r.rows, r.cols, (ownTile s).1, (ownTile s).2, r.rowOff, r.colOff, r.fixed, code s pinRefresh, code s pinLatency⟩
      verdict := some (r.dups.contains (serialOf s)) }) s
    .next (settlePosition (clearAll .svNolead s))
  else .next s

/-- R450: claimed for 300 ms with no better claim; the table, the brightness ramp and the roll-call start afresh. -/
def execBecomeActingLead (s : State) : Out :=
  match s.disc.role with
  | .claiming t =>
    if svRuns s && !betterHeard s && t + msT 300 ≤ s.now then
      let s := dropOldScene (modDisc (fun d => { d with
        role := .acting, lead := none, leadHops := some 0, parent := none, parentLead := none, table := [], page := 0
        results := { changedAt := s.now }, censusDue := true, lastLeadSent := none }) s)
      let s := { s with
        bri := { s.bri with reports := [], ramp := none, nextCompute := some (s.now + secT 1) }
        standby := { s.standby with nightSince := none }
        bob := { s.bob with rollNext := some (s.now + secT 10), answered := [], flagged := [] } }
      .next (becameLead s)
    else .next s
  | _ => .next s

def execLeadLost (s : State) : Out :=
  match s.disc.lead with
  | some v => if !actingLead s && v.heard + msT 500 ≤ s.now then .next (leadLost 0 s) else .next s
  | none => .next s

/-- Table 9.7: no acting lead 2 s after the first joined link, or, without one, after the switch-on of D5. -/
def execNoLeadTimeout (s : State) : Out :=
  let t := if s.disc.firstJoin.isSome then s.disc.firstJoin else s.disc.d5On
  if svRuns s && !standalone s && !actingLead s && s.disc.lead.isNone && passed s.now t (secT 2) then
    .next (raise .svNolead 1 s)
  else .next s

/-- R448: claims not heard for 500 ms lapse, and an eligible tile may claim. -/
def execLeadClaimLapse (s : State) : Out :=
  .next (startClaiming (modDisc (fun d => { d with heardLeads := recentLeads s }) s))

/-- R445, R465. -/
def execPositionInconsistency (link : Dir) (s : State) : Out :=
  if svRuns s && (linkOf s link).joined.isSome && passed s.now (linkOf s link).diffSince (secT 1) then .next (settlePosition s)
  else .next s

/-- R424: a pair with no knot for 500 ms is dropped. -/
def execKnotSequenceExpiry (orig : Serial) (t : KnotType) (s : State) : Out :=
  .next (modDisc (fun d => { d with
    seen := d.seen.filter (fun e => !(e.1 == orig && decide (e.2.1 = t) && decide (e.2.2.2 + msT 500 ≤ s.now))) }) s)

/-! ### The beat relay (R454 to R457) -/

/-- The lead's beat of index k on every joined link: MARK BEAT at the next block boundary, then `k:BEAT`, which takes the mark time of its
link as it leaves (R454). -/
def sendBeat (k : Nat) (s : State) : State :=
  let s := announceStep k s
  let t := s.time
  let ann := match t.stepAnn with | some a => (true, a.beat, a.amountNs) | none => (false, 0, 0)
  let servo := match t.servo with | .listen => 0 | .acquire => 1 | .track => 2 | _ => 4
  let body := beatBytes ⟨t.ptpOrigin, servo, code s pinRefresh, beatNo k, t.sec.toNat % 2 ^ 48, t.ns.toNat,
    t.frac.toNat / 65536, 0, ann.1, ann.2.1, ann.2.2⟩
  let s := putBeats (BitVec.ofNat 16 k) (joinedDirs s) s
  if mayFlood s then bumpSeq (floodKnot s none ⟨.beat, ownKnot s .beat true body, .markTime⟩) .beat else s

/-- What a follower does with a `k:BEAT` that came on the link of the first MARK (R456, R457). -/
def useBeat (l : Link) (h : Head) (b : BeatBody) (m : MarkSeen) (s : State) : State :=
  if (match s.disc.lead with | some v => v.serial != h.orig | none => true) then s
  else
    let mark := nsF ((b.sec : Int) * 1000000000 + b.ns) + corrF b.frac
    let theta := m.arrival - (mark + corrF b.delay + linkDelay l)
    let s := takeBeat theta m.arrival b.ptp (b.servo == 2) s
    if b.step then takeAnn b.stepBeat b.stepNs h.orig s else s

/-- Relays a `k:BEAT`; its accumulated delay grows by the link delay and the residence as it leaves (R455). -/
def relayBeat (d : Dir) (m : MarkSeen) (bytes : List Byte) (s : State) : State :=
  if byteAt bytes 6 == 255 then s
  else floodKnot s (some d) ⟨.beat, hopped .beat bytes, .residence (m.arrival - linkDelay (linkOf s d))⟩

def beatIn (d : Dir) (bytes : List Byte) (s : State) : State :=
  match readKnot .beat bytes, s.disc.markSeen with
  | none, _ => discardKnot d .beat bytes s
  | some _, none => s
  | some _, some m =>
    if !delayValid (linkOf s d) || m.link != d || m.value != (readBeat bytes).beat.setWidth 16 then s
    else
      match acceptFlood s d .beat bytes with
      | .ignored s => s
      | .taken s h =>
        let s := relayBeat d m bytes s
        if actingLead s then s else useBeat (linkOf s d) h (readBeat bytes) m s

def execBeat (link : Dir) (run : BlockRun) (s : State) : Out := onKnot link run (beatIn link) s

/-! ### `k:FAULT` (R428) -/

def faultIn (d : Dir) (bytes : List Byte) (s : State) : State :=
  match receiveFlood s d .fault bytes with
  | .ignored s => s
  | .taken s _ =>
    let b := readFault bytes
    noteWallFault s ⟨BitVec.ofNat 16 b.code, b.sev, b.cleared, b.row, b.col, b.sec⟩

def execFault (link : Dir) (run : BlockRun) (s : State) : Out := onKnot link run (faultIn link) s

def execFaultKnotSend (s : State) : Out :=
  match s.disc.faultHeld with
  | [] => .next s
  | q :: rest =>
    if svRuns s && faultSentRecently s < 4 && mayFlood s then
      .next (sendFaultBody (modDisc (fun d => { d with faultHeld := rest }) s) q.bytes)
    else .next s

end Sys2Proof.Machine
end

