-- ==== Sys2Proof/Machine/Memory.lean ====
section
/-!
DEFINITION. Frame memory and the Warp crossbar (12 R573 to R595, R612 to R620). A line's tag stands as its verdict (log 8); a
byte never written since the initialisation reads as zero (R576, log 14).
-/
namespace Sys2Proof.Machine
open Sys2Proof

/-! ### Bytes in canonical form -/

/-- Addresses strictly rise and no listed byte is what an unlisted one reads as. -/
def Memory.wf : List Host.Cell → Bool
  | [] => true
  | [c] => c.2 != 0
  | c :: d :: l => c.2 != 0 && decide (c.1 < d.1) && Memory.wf (d :: l)

/-- The byte at an offset. -/
def Memory.get (l : List Host.Cell) (a : Nat) : Byte :=
  match l with
  | [] => 0
  | c :: rest => if c.1 = a then c.2 else Memory.get rest a

/-- Writes one byte; a zero byte is not listed. -/
def Memory.set (l : List Host.Cell) (a : Nat) (b : Byte) : List Host.Cell :=
  match l with
  | [] => if b = 0 then [] else [(a, b)]
  | c :: rest =>
    if a < c.1 then (if b = 0 then c :: rest else (a, b) :: c :: rest)
    else if a = c.1 then (if b = 0 then rest else (a, b) :: rest)
    else c :: Memory.set rest a b

/-- Writes bytes from an offset up. -/
def Memory.setAll (l : List Host.Cell) (a : Nat) : List Byte → List Host.Cell
  | [] => l
  | b :: bs => Memory.setAll (Memory.set l a b) (a + 1) bs

/-! ### Lines -/

def lineOf (offset : Nat) : Nat := offset / 64
/-- Offset bits [10:8] (R573). -/
def channelOf (offset : Nat) : Fin 8 := Fin.ofNat 8 (offset / 256)
def lineBytes (s : State) (line : Nat) : List Byte := (List.range 64).map (fun i => Memory.get s.mem.bytes (64 * line + i))
def lineBad (s : State) (line : Nat) : Option LineBad := (s.mem.bad.find? (fun e => e.1 == line)).map Prod.snd


/-! ### Tags (R574, R575, R577; log 8) -/

/-- The tag of a valid line: the integrity part over its data and offset under the MEM key, then the ECC part over both. -/
def validTag (s : State) (line : Nat) : List Byte :=
  let d := lineBytes s line
  let i := beBytes 4 (Config.lineIntegrity ((storedKey s .memory).getD []) d (64 * line)).toNat
  i ++ beBytes 4 (Config.eccPart (d ++ i)).toNat

/-- The poison pattern: 64 zero bytes, an integrity part of 0 and an ECC part of all ones. -/
def poisonPattern : List Byte := List.replicate 68 0 ++ List.replicate 4 0xFF

/-- The 72 bytes of a line at the DRAM; which symbols of a damaged line are in error, the spec leaves open. -/
def storedLine72 (s : State) (line : Nat) : Option (List Byte) :=
  match lineBad s line with
  | none => some (lineBytes s line ++ validTag s line)
  | some .poison => some poisonPattern
  | some _ => none

/-- Sets or clears a line's mark, in rising order of lines. -/
def setBad (line : Nat) (b : Option LineBad) (s : State) : State :=
  let rest := s.mem.bad.filter (fun e => e.1 != line)
  modMem (fun m => { m with bad := match b with
    | none => rest
    | some x => insertBy (fun a c => decide (a.1 ≤ c.1)) (line, x) rest }) s

/-- The worse of what a line carries and what an access finds on it. -/
def worse (a : Option LineBad) (u : Upset) : Option LineBad :=
  match a, u with
  | some .poison, _ => some .poison
  | some .uncorrectable, _ => some .uncorrectable
  | some .integrity, .uncorrectable => some .uncorrectable
  | some .integrity, _ => some .integrity
  | _, .uncorrectable => some .uncorrectable
  | _, .integrity => some .integrity
  | some .oneSymbol, _ => some .oneSymbol
  | none, .oneSymbol => some .oneSymbol
  | none, .none => none

/-- The errors an access finds stay with the stored line. -/
def noteUpset (line : Nat) (u : Upset) (s : State) : State :=
  match u with | .none => s | _ => setBad line (worse (lineBad s line) u) s

/-- A line that cannot be trusted: its data may not be merged (R580). -/
def untrusted (b : Option LineBad) : Bool :=
  match b with | none => false | some .oneSymbol => false | _ => true

/-- The poison pattern is written: zero data, never valid (R577). -/
def poisonLine (line : Nat) (s : State) : State :=
  setBad line (some .poison) (modMem (fun m => { m with bytes := Memory.setAll m.bytes (64 * line) (List.replicate 64 0) }) s)

/-- A whole line with a valid tag (R579). -/
def writeLine (line : Nat) (data : List Byte) (s : State) : State :=
  setBad line none (modMem (fun m => { m with bytes := Memory.setAll m.bytes (64 * line) (data.take 64) }) s)

/-! ### Events (Table 12.8) -/

/-- `f:MEM_CORRECTED`, at most once per channel per minute. -/
def corrected (offset : Nat) (s : State) : State :=
  raiseLimited .memCorrected (channelOf offset).val (secT 60) (BitVec.ofNat 32 (channelOf offset).val) (countUp ctCorrected 1 s)

/-- `f:MEM_POISON`, at most once per master per 10 s. -/
def poisoned (m : Master) (s : State) : State :=
  raiseLimited .memPoison m.val (secT 10) (BitVec.ofNat 32 m.val) s

/-- A poisoning of a line: 64 on one channel within 1 s raise `f:MEM_TRAIN`. -/
def poisonEvent (m : Master) (offset : Nat) (s : State) : State :=
  let c := channelOf offset
  let s := poisoned m (modMem (fun x => { x with events := (c, s.now) :: x.events.filter (fun e => s.now < e.2 + secT 1) }) s)
  if 64 ≤ (s.mem.events.filter (fun e => e.1 == c)).length then raise .memTrain (BitVec.ofNat 32 (128 + c.val)) s else s

/-! ### Windows and targets (Tables 12.3, 12.5) -/

def mib : Nat := 2 ^ 20

/-- The region of an offset by its window number (Table 12.3). -/
def regionOf (offset : Nat) : Nat :=
  if offset < 16 * mib then 0
  else if offset < 20 * mib then 1
  else if offset < 24 * mib then 2
  else if offset < 28 * mib then 3
  else if offset < 32 * mib then 4
  else if offset < 2048 * mib then 5
  else 6

/-- Whether a region's window, or `XW15`, names the master for a write or a read. -/
def windowNames (m : Master) (write : Bool) (region : Nat) : Bool :=
  let n := m.val
  n == 21 || n == 23 ||
  (match region with
    | 0 => if write then n == 12 || n == 13 else n == 0 || n == 1
    | 1 => if write then n == 14 || n == 15 else n == 14 || n == 15 || n == 12 || n == 13
    | 2 => n == 2
    | 3 => n == 19 || n == 16 || n == 17
    | 4 => n == 15 || n == 16
    | _ => if write then 3 ≤ n && n ≤ 6 else 7 ≤ n && n ≤ 11)

/-- The target of an access; `unmapped` gives no response (R591 to R593). -/
def targetOf (s : State) (m : Master) (write : Bool) (a : Nat) : Target :=
  if a < 0x10000 then
    if s.boot.remap then .sb 0 else if write then .unmapped else .rom
  else if 0x10000000 ≤ a && a < 0x10010000 then (if write then .unmapped else .rom)
  else if 0x20000000 ≤ a && a < 0x20100000 then .sb (Fin.ofNat 4 ((a - 0x20000000) / 0x40000))
  else if 0x30000000 ≤ a && a < 0x30002000 then (if write then .unmapped else .otp)
  else if 0x40000000 ≤ a && a < 0x40100000 then .ctrl
  else if 0x50000000 ≤ a && a < 0x52000000 then (if write then .unmapped else .ldgspi)
  else if 0x1000000000 ≤ a && a < 0x1100000000 then
    let o := a - 0x1000000000
    if windowNames m write (regionOf o) then .dch (channelOf o) else .unmapped
  else .unmapped

def qosOf (m : Master) : Nat :=
  let n := m.val
  if n ≤ 1 then 15 else if n = 2 then 12 else if n ≤ 6 then 10 else if n ≤ 11 then 8 else if n ≤ 13 then 6
  else if n ≤ 18 then 4 else if n ≤ 20 then 2 else 1

/-- Outstanding limits (Table 12.4). -/
def limitOf (m : Master) : Nat :=
  [2048, 2048, 256, 1024, 1024, 1024, 1024, 1024, 1024, 1024, 1024, 512, 512, 512, 256, 64, 64, 64, 64, 512, 64, 256, 16, 16].getD
    m.val 0

/-! ### The crossbar (R588 to R591) -/


/-- Identifiers of the shared pool. -/
def poolSize : Nat := 928

def outstanding (s : State) (m : Master) : Nat := (s.xb.pend.filter (fun p => p.master == m && !p.pooled)).length
def pooledOut (s : State) : Nat := (s.xb.pend.filter Piece.pooled).length

/-- A master may issue: below its own limit, or, at QoS 8 or more, with a pooled identifier free. The flag says pooled. -/
def mayIssue (s : State) (m : Master) : Option Bool :=
  if outstanding s m < limitOf m then some false
  else if 8 ≤ qosOf m && pooledOut s < poolSize then some true
  else none

/-- The pieces of a request: split at every 256-byte boundary (R590). -/
def splitPieces : Nat → Nat → Nat → List (Nat × Nat)
  | 0, _, _ => []
  | n + 1, a, len =>
    let here := min len (256 - a % 256)
    if len ≤ here then [(a, len)] else (a, here) :: splitPieces n (a + here) (len - here)

/-- Whether a target answers: frame memory only while D6 is on. -/
def answers (s : State) (t : Target) : Bool :=
  match t with
  | .unmapped => false
  | .dch _ => domOn s 6
  | .ldgspi => s.ldg.status == 0
  | _ => true

/-- A byte of ROM, SRAM or the fuse shadow at a crossbar address (Table 12.5, 06 R228, 17 R820). -/
def busByte (s : State) (t : Target) (a : Nat) : Option Byte :=
  match t with
  | .rom => some (cellAt s.unit.rom (a % 0x10000))
  | .sb _ => some (cellAt s.sram.bytes (a % 0x100000))
  | .otp => some (shadowByte s.otp.shadow (a % 0x2000))
  | _ => none

/-- What a piece reads there. -/
def busBytes (s : State) (t : Target) (a len : Nat) : List Byte := (List.range len).filterMap (fun i => busByte s t (a + i))

/-- A target grants a master its piece: the round robin goes on from it, and a read has its data (R591). -/
def grantTo (t : Target) (m : Master) (write : Bool) (a len : Nat) (s : State) : State :=
  let d := busBytes s t a len
  modXb (fun x => { x with
    granted := (t, m) :: x.granted.filter (fun g => !decide (g.1 = t))
    lastRead := if write || d.isEmpty then x.lastRead else some (m, a, d) }) s

/-- A piece waits for the target already. -/
def targetBusy (s : State) (t : Target) : Bool := s.xb.pend.any (fun p => decide (p.target = t))

/-- One piece: granted and answered where its target is free, or left pending; one that its master may not issue yet waits for an
identifier (R588, R591, R592). -/
def issuePiece (m : Master) (write : Bool) (a len : Nat) (s : State) : State :=
  match mayIssue s m with
  | none => modXb (fun x => { x with held := x.held ++ [⟨m, write, a, len⟩] }) s
  | some pooled =>
    let t := targetOf s m write a
    let s := modXb (fun x => { x with nextId := (x.nextId + 1) % 16384 }) s
    if answers s t && !targetBusy s t then grantTo t m write a len s
    else modXb (fun x => { x with pend := x.pend ++ [⟨m, x.nextId, pooled, t, a, len, write, s.clk.count⟩] }) s

/-- Place of a master in the round robin of a target: those after the last granted come first (R591). -/
def turnOf (s : State) (t : Target) (m : Master) : Nat :=
  match s.xb.granted.find? (fun g => decide (g.1 = t)) with
  | some g => (m.val + 23 - g.2.val) % 24
  | none => m.val

/-- The piece that a target grants next: highest QoS, then round robin, then the order of issue (R589, R591). -/
def nextGrant (s : State) (t : Target) : Option Piece :=
  (s.xb.pend.filter (fun p => decide (p.target = t))).foldl (fun best p =>
    match best with
    | none => some p
    | some b =>
      if qosOf b.master < qosOf p.master || (qosOf b.master == qosOf p.master && decide (turnOf s t p.master < turnOf s t b.master))
      then some p else best) none

/-- A target that answers grants one waiting piece. -/
def grantNext (t : Target) (s : State) : State :=
  if !answers s t then s
  else
    match nextGrant s t with
    | none => s
    | some p => grantTo t p.master p.write p.address p.length (modXb (fun x => { x with pend := x.pend.filter (fun q => q.ident != p.ident) }) s)

/-- The oldest held request whose master may issue it now. -/
def releaseRequest (s : State) : State :=
  match s.xb.held.find? (fun h => (mayIssue s h.master).isSome) with
  | none => s
  | some h => issuePiece h.master h.write h.address h.length (modXb (fun x => { x with held := x.held.erase h }) s)

/-- One clock of the crossbar: each target grants one waiting piece, and a held request follows. -/
def xbClock (s : State) : State :=
  if s.xb.pend.isEmpty && s.xb.held.isEmpty then s
  else releaseRequest (((s.xb.pend.map Piece.target).eraseDups).foldl (fun st t => grantNext t st) s)

/-- The debug master has access only while debug is enabled, so that the test root stands for the keys (00 R18, 17 R816, R851);
otherwise the TAP runs no instruction that would issue one (17 R850). -/
def mayAccess (s : State) (m : Master) : Bool := m.val != 23 || s.keys.debug

/-- R588: a request of 1 to 4,096 bytes. -/
def execXbTransaction (m : Master) (write : Bool) (address length : Nat) (s : State) : Out :=
  if !runs s || !mayAccess s m then .next s
  else .next ((splitPieces 17 address length).foldl (fun st p => issuePiece m write p.1 p.2 st) s)

/-- Pieces held for frame memory count towards the hang limit from the instant at which D6 is on again (R614). -/
def answerHeld (s : State) : State :=
  modXb (fun x => { x with pend := x.pend.map (fun p => match p.target with | .dch _ => { p with issued := s.clk.count } | _ => p) }) s

/-- The hang limit, a count of system clocks and no time (R594, 05 R206). -/
def hangClocks : Nat := 65536

/-- The oldest piece of a master whose wait counts towards the limit (R614). -/
def oldestPiece (s : State) (m : Master) : Option Piece :=
  s.xb.pend.find? (fun p => p.master == m && (match p.target with | .dch _ => domOn s 6 | _ => true))

def ceilDiv (a b : Nat) : Nat := if b = 0 then 0 else (a + b - 1) / b

/-- The audio samples whose fetch was pending through the hang are lost (15 R746, R761). -/
def loseFetched (n : Nat) (l : List Fetched) : List Fetched :=
  l.take (l.length - n) ++ (l.drop (l.length - n)).map (fun x => { x with st := x.st.map (fun a => match a with | .good => .missing | a => a) })

/-- Effects of a reset that are not of the frame path (Table 12.10). -/
def resetMaster (m : Master) (s : State) : State :=
  if 3 ≤ m.val && m.val ≤ 6 then
    modNet (fun z => { z with flows := z.flows.map (fun f =>
      if decide (f.kind = .video) && f.port == some (Fin.ofNat 4 (m.val - 3)) then
        { f with frameRtp := none, frames := [], seen := [], topSeq := none } else f) }) s
  else if m.val = 2 then modAud (fun z => { z with pipe := loseFetched (ceilDiv (audRate s * 65536) 1000000000) z.pipe }) s
  else modAdm (fun z => { z with masterReset := m :: z.masterReset }) s

/-- Hangs of one master in the last 10 min, this one included (R620). -/
def hangsOf (s : State) (m : Master) : Nat := (s.flt.hangs.filter (fun h => h.1 == m && s.now < h.2 + secT 600)).length

/-- R594, R595, R620. -/
def execXbHang (m : Master) (s : State) : Out :=
  match oldestPiece s m with
  | none => .next s
  | some p =>
    if !runs s || s.clk.count < p.issued + hangClocks then .next s
    else
      let s := modXb (fun x => { x with
        pend := x.pend.filter (fun q => q.master != m), held := x.held.filter (fun q => q.master != m), lastHang := some (m, p.address, qosOf m) }) s
      let s := countUp ctHang 1 s
      if m.val = 16 then .next (raise .seqWatchdog 0 s)
      else
        let s := modFlt (fun z => { z with hangs := (m, s.now) :: z.hangs.filter (fun h => s.now < h.2 + secT 600) }) s
        let s := raise .xbHang (BitVec.ofNat 32 m.val) (resetMaster m s)
        .next (if 3 ≤ hangsOf s m then raise .fmDouble 4 s else s)

/-! ### Reads, writes and the scrubber (R578 to R583) -/

/-- Frame memory answers a master at an offset; otherwise the access joins the pending pieces. -/
def memAnswers (s : State) (m : Master) (write : Bool) (offset : Nat) : Bool :=
  windowNames m write (regionOf offset) && domOn s 6

def memBlocked (m : Master) (write : Bool) (offset len : Nat) (s : State) : State :=
  issuePiece m write (0x1000000000 + offset) len s

/-- Table 12.2: a weft read drives the line's pixels dark; the line's wear integrators come from the last ledger copy again. -/
def treatPoison (m : Master) (line : Nat) (s : State) : State :=
  if m.val ≤ 1 then modWeft (fun w => { w with dark := line :: w.dark.filter (· != line) }) s
  else if m.val = 14 then
    match s.ldg.copies with
    | [] => s
    | c :: _ => modWeft (fun w => { w with wear := (Config.wearBlocks line).foldl (fun a i => updAt a i (fun _ => c.data.getD i 0 * 2 ^ 24)) w.wear }) s
  else s

/-- R578, Table 12.1: data and flag as the master receives them; the stored line is not corrected. -/
def readMem (m : Master) (offset : Nat) (s : State) : State :=
  let line := lineOf offset
  let give (d : List Byte) (f : Bool) (s : State) : State := modMem (fun x => { x with lastRead := some (m, offset, d, f) }) s
  match lineBad s line with
  | none => give (lineBytes s line) false s
  | some .oneSymbol => corrected offset (give (lineBytes s line) false s)
  | some .poison => treatPoison m line (countUp ctPoisoned 1 (poisoned m (give (List.replicate 64 0) true s)))
  | some _ => treatPoison m line (countUp ctPoisoned 1 (poisoned m (give (lineBytes s line) true s)))

def execMemRead (m : Master) (offset : Nat) (upset : Upset) (s : State) : Out :=
  if !runs s || !mayAccess s m then .next s
  else if memAnswers s m false offset then .next (readMem m offset (noteUpset (lineOf offset) upset s))
  else .next (memBlocked m false offset 64 s)

def execMemWriteWhole (m : Master) (offset : Nat) (data : List Byte) (s : State) : Out :=
  if !runs s || !mayAccess s m then .next s
  else if memAnswers s m true offset then .next (writeLine (lineOf offset) data s)
  else .next (memBlocked m true offset 64 s)

/-- R580: merged into a line that can be trusted, else the line is poisoned and the event recorded. -/
def mergeMem (m : Master) (offset : Nat) (data : List Byte) (s : State) : State :=
  let line := lineOf offset
  let at_ := offset % 64
  if untrusted (lineBad s line) then
    poisonEvent m offset (poisonLine line (modMem (fun x => { x with lastMergeFail := some (m, offset) }) s))
  else
    let old := lineBytes s line
    let s := if (lineBad s line).isSome then corrected offset s else s
    writeLine line (old.take at_ ++ data ++ old.drop (at_ + data.length)) s

def execMemWritePartial (m : Master) (offset : Nat) (data : List Byte) (upset : Upset) (s : State) : Out :=
  if !runs s || !mayAccess s m then .next s
  else if memAnswers s m true offset then .next (mergeMem m offset data (noteUpset (lineOf offset) upset s))
  else .next (memBlocked m true offset data.length s)

/-- The scrubber goes on to the next line; after the last the pass is complete. -/
def scrubNext (s : State) : State :=
  modMem (fun m =>
    if m.scrubAt + 64 < 2 ^ 32 then { m with scrubAt := m.scrubAt + 64 }
    else { m with scrubAt := 0, scrubDone := BitVec.ofNat 32 s.time.sec.toNat, scrubPoison := m.runPoison
                  scrubCorrected := m.runCorrected, runPoison := 0, runCorrected := 0 }) s

/-- One line of the scrub (R583). -/
def scrubOne (s : State) : State :=
  let o := s.mem.scrubAt
  let line := lineOf o
  match lineBad s line with
  | none => s
  | some .oneSymbol =>
    corrected o (modMem (fun m => { m with runCorrected := m.runCorrected + 1 }) (writeLine line (lineBytes s line) s))
  | some .poison => modMem (fun m => { m with runPoison := m.runPoison + 1 }) s
  | some _ => poisonEvent 21 o (modMem (fun m => { m with runPoison := m.runPoison + 1 }) (poisonLine line s))

/-- A line that the scrub corrects or poisons is a failure in service (06 R251, Table 6.4). -/
def noteScrub (s : State) : State :=
  match lineBad s (lineOf s.mem.scrubAt) with
  | none | some .poison => s
  | some _ => addResult (testNo .scrub) .fail s

def execScrubLine (upset : Upset) (s : State) : Out :=
  if runs s && domOn s 6 && s.mem.ready then
    .next (scrubNext (scrubOne (noteScrub (noteUpset (lineOf s.mem.scrubAt) upset s))))
  else .next s

/-- Every line zero and valid (R576). -/
def initMemory (s : State) : State := modMem (fun m => { m with bytes := [], bad := [] }) s

end Sys2Proof.Machine
end

