-- ==== Sys2Proof/Machine/Windows.lean ====
section
/-!
DEFINITION. Video formats, the geometry of a window (11 R516 to R534, 07 R311 to R315) and admission (12 R595 to R603).
-/
namespace Sys2Proof.Machine
open Sys2Proof

/-! ### SDP and formats (07 R306, R307; 11 R516 to R521) -/

/-- The pair of colorimetry and transfer a code of `s:COLOUR` names (03 Table 3.8). -/
def strapColour (c : Nat) : Colorimetry × Tcs :=
  match c % 8 with | 1 => (.bt2020, .sdr) | 2 => (.bt2100, .pq) | 3 => (.bt2100, .hlg) | _ => (.bt709, .sdr)
def colourOverrides (c : Nat) : Bool := 8 ≤ c && c ≤ 11

/-- The format of an SDP whose needed attributes are present, with the effective colour (R516 to R518). -/
def formatOf (s : State) (f : VideoFmt) : Option WinFormat :=
  match f.sampling, f.depth, f.width, f.height, f.rate with
  | some a, some d, some w, some h, some r =>
    let c := code s pinColour
    let pair := if c = 15 then (.bt709, .sdr) else strapColour c
    let useCol := colourOverrides c || f.colorimetry.isNone
    let useTcs := colourOverrides c || f.tcs.isNone
    some { sampling := a, depth := d, width := w, height := h, rateN := r.1, rateD := r.2
           colorimetry := if useCol then pair.1 else f.colorimetry.getD pair.1
           tcs := if useTcs then pair.2 else f.tcs.getD pair.2
           colFromStrap := useCol, tcsFromStrap := useTcs, bpm := f.bpm, progressive := f.progressive }
  | _, _, _, _, _ => none

def videoFormat (s : State) (d : Sdp) : Option WinFormat :=
  match d.media with | .video f => formatOf s f | _ => none

/-- Source rate as a rational. -/
def sourceRate (f : WinFormat) : Rat := (f.rateN : Rat) / (max 1 f.rateD : Nat)
def beatRateR (s : State) : Rat := ((refreshND s).1 : Rat) / ((refreshND s).2 : Nat)

/-- Sizes and rates within Table 7.5 and Table 11.10. -/
def inTable75 (f : WinFormat) : Bool :=
  16 ≤ f.width && f.width ≤ 4096 && 16 ≤ f.height && f.height ≤ 2160 && (f.depth == 8 || f.depth == 10 || f.depth == 12) &&
  0 < f.rateN && 0 < f.rateD && f.progressive && !decide (f.sampling = .unsupported) &&
  (decide (sourceRate f ≤ 60) || (f.width ≤ 1920 && f.height ≤ 1080 && decide (sourceRate f ≤ 120)))

/-- Pixels and bytes of a pgroup (Table 7.7). -/
def pgroup (f : WinFormat) : Nat × Nat :=
  match f.sampling with
  | .ycbcr422 => if f.depth = 8 then (2, 4) else if f.depth = 10 then (2, 5) else (2, 6)
  | _ => if f.depth = 8 then (1, 3) else if f.depth = 10 then (4, 15) else (2, 9)

/-! ### Geometry (R528 to R534, 07 R312) -/

def scaleX (w : Win) (f : WinFormat) : Rat := (rectW w.rect : Rat) / (f.width : Nat)
def scaleY (w : Win) (f : WinFormat) : Rat := (rectH w.rect : Rat) / (f.height : Nat)

/-- The predecimation factor of an axis and whether it can be served (R534). -/
def predecimation (r : Rat) : Nat :=
  if 1 / 4 ≤ r then 1 else if 1 / 4 ≤ 2 * r then 2 else if 1 / 4 ≤ 4 * r then 4 else if 1 / 4 ≤ 8 * r then 8 else 16
def axisServed (r : Rat) : Bool := decide (1 / 64 ≤ r) && decide (r ≤ 64)

/-- The cutoff of the filter set of an axis, after predecimation (Table 11.6). -/
def cutoff (r : Rat) : Rat :=
  let q := r * predecimation r
  if 1 ≤ q then 1 else if 3 / 4 ≤ q then 3 / 4 else if 1 / 2 ≤ q then 1 / 2 else if 3 / 8 ≤ q then 3 / 8 else 1 / 4

/-- No scaler is used (R532). -/
def unscaled (w : Win) (f : WinFormat) : Bool := decide (scaleX w f = 1) && decide (scaleY w f = 1)

/-- The source rectangle of the tile part (R530). -/
def sourceRect (w : Win) (f : WinFormat) : Rect :=
  let ww := rectW w.rect
  let wh := rectH w.rect
  if ww = 0 || wh = 0 then ⟨0, 0, 0, 0⟩
  else
    ⟨(w.part.x0 - w.rect.x0) * f.width / ww, (w.part.y0 - w.rect.y0) * f.height / wh,
     min f.width (ceilDiv ((w.part.x1 - w.rect.x0) * f.width) ww), min f.height (ceilDiv ((w.part.y1 - w.rect.y0) * f.height) wh)⟩

/-- The deckle: widened by 4 pixels and 3 lines, edges on whole pgroups (07 R312). -/
def deckle (w : Win) (f : WinFormat) : Rect :=
  let r := sourceRect w f
  let p := (pgroup f).1
  ⟨(r.x0 - 4) / p * p, r.y0 - 3, ceilDiv (min f.width (r.x1 + 4)) p * p, min f.height (r.y1 + 3)⟩

/-- Bytes of a deckle line, and its pitch (12 R586). -/
def deckleLine (w : Win) (f : WinFormat) : Nat := rectW (deckle w f) / (pgroup f).1 * (pgroup f).2
def pitch (w : Win) (f : WinFormat) : Nat := ceilDiv (deckleLine w f) 64 * 64
def deckleLines (w : Win) (f : WinFormat) : Nat := rectH (deckle w f)
/-- Bytes of the three buffers. -/
def bufferSpace (w : Win) (f : WinFormat) : Nat := 3 * deckleLines w f * pitch w f

/-- Blend or repeat and drop (R541). -/
def blends (s : State) (f : WinFormat) : Bool :=
  match code s pinFrc with
  | 0 => false
  | 1 => true
  | _ =>
    let q := sourceRate f / beatRateR s
    !(q.den == 1 || (1 / q).den == 1)

/-- Pixels of the tile part not hidden by a higher window (R543). -/
def visiblePixels (wins : List Win) (i : Nat) : Nat :=
  let w := wins.getD i {}
  rectArea w.part - sumNat ((wins.drop (i + 1)).map (fun v => rectArea (interRect w.part v.part)))

/-! ### Windows of a scene (R479, R480) -/

/-- The nine windows of a scene on this tile, without sources yet. -/
def formWindows (s : State) (k : SceneKey) : List Win :=
  (List.range 9).map (fun i =>
    if countOf k ≤ i then {}
    else
      let part := windowPart s k i
      let slot := slotOf k (tileIndex s) i
      { touches := 0 < rectW part && 0 < rectH part, slot := slot, rect := windowRect s k i, part := part
        format := slot.bind (fun n => (sdpFor s .video n).bind (videoFormat s)) })

/-- Bases of the buffers in a pool: windows in order, each after the other (12 R585, R586). -/
def placeBuffers (pool : Nat) : List Win → List Win
  | [] => []
  | w :: ws =>
    let size := match w.format with | some f => if w.touches then bufferSpace w f else 0 | none => 0
    { w with base := pool } :: placeBuffers (pool + size) ws

/-- Offsets and sizes of deckle pools A and B (Table 12.3). -/
def poolBase (b : Bool) : Nat := if b then 2048 * mib else 32 * mib
def poolSizeOf (b : Bool) : Nat := if b then 2048 * mib else 2016 * mib

/-! ### Loads (07 R314, R315; 12 R596, R597) -/

def flowOf (s : State) (k : FlowKind) (slot : Nat) : Option Flow :=
  s.net.flows.find? (fun f => decide (f.kind = k) && f.slot == slot)

/-- Bits per second of a flow by its SDP: 1,200 payload bytes in a packet of 1,286 bytes (R315). -/
def sdpRate (f : WinFormat) : Rat :=
  let bytes : Rat := (f.width * f.height : Nat) * ((pgroup f).2 : Rat) / ((pgroup f).1 : Nat) * sourceRate f
  bytes / 1200 * 1286 * 8

/-- Bytes of a flow over the last 1 s on the port that ingests it; none before a whole second has passed since its arrival, so that its
SDP still counts (R314, R315; log 86). -/
def measuredRate (s : State) (f : Flow) : Option Nat :=
  if passed s.now f.firstRtp (secT 1) then
    some (sumNat ((f.hist.filter (fun e => decide (s.now < e.1 + secT 1) && f.port == some e.2.2)).map (fun e => e.2.1)))
  else none

/-- Bits per second of a window's flow: measured, else by its SDP. -/
def flowRate (s : State) (slot : Nat) (f : WinFormat) : Rat :=
  match (flowOf s .video slot).bind (measuredRate s) with | some r => ((8 * r : Nat) : Rat) | none => sdpRate f

/-- Bits per second of an audio or ancillary flow: measured, else by its SDP at 1,200 payload bytes in a packet of 1,278 bytes; an
ancillary SDP states no rate (R315; log 86). -/
def sideRate (s : State) (f : Flow) : Rat :=
  match measuredRate s f with
  | some r => ((8 * r : Nat) : Rat)
  | none =>
    match f.sdp.map Sdp.media with
    | some (.audio a) => ((a.rate * a.channels * (a.bits / 8) : Nat) : Rat) / 1200 * 1278 * 8
    | _ => 0

/-- Per-port load, flow count and deckle count; load of the tile; pool bytes; bytes per second; loads of the scalers; output
load of the tile. -/
structure Loads where
  port : List Rat := [0, 0, 0, 0]
  flows : List Nat := [0, 0, 0, 0]
  deckles : List Nat := [0, 0, 0, 0]
  tile : Rat := 0
  pool : Nat := 0
  memory : Rat := 0
  scalerOut : List Rat := [0, 0, 0, 0]
  scalerIn : List Rat := [0, 0, 0, 0]
  output : Rat := 0
  deriving DecidableEq, Repr

/-- Ingest limit of a port in bits per second (R314); none is left while D4 is held off (04 R177). -/
def portLimit (s : State) (p : Nat) : Rat :=
  if (domAt s 4).heldOff then 0
  else match (s.net.port.getD p {}).mode with | some .base10 => 10000000000 | _ => 25000000000

/-- Loads before any window: the audio and ancillary flows that the shuttles ingest. -/
def baseLoads (s : State) : Loads :=
  (s.net.flows.filter (fun f => !decide (f.kind = .video) && f.sdp.isSome)).foldl (fun l f =>
    let r : Rat := sideRate s f
    match f.port with
    | some p => { l with port := updAt l.port p.val (· + r), flows := updAt l.flows p.val (· + 1), tile := l.tile + r }
    | none => { l with tile := l.tile + r }) {}

/-- Update fraction of a state. -/
def updateFraction (st : WState) : Rat := match st with | .served => 1 | .delayed2 => 1 / 2 | .delayed4 => 1 / 4 | _ => 0

/-- The window budget less the fixed reservation, in bytes per second (R596). -/
def windowBudget (s : State) : Rat :=
  let px : Rat := match s.weft.geom with | some g => ((g.tileW * g.tileH : Nat) : Rat) | none => 0
  let m : Rat := if isClassS s then ((greyM (code s pinGrey) + 1 : Nat) : Rat) else 2
  76800000000 - ((72 : Rat) / 64 * 6 * px * beatRateR s * m + 1000000000)

/-- Scalers whose domain can serve: 0 and 1 in D7, 2 and 3 in D8 (R598, R601). -/
def scalerUp (s : State) (i : Nat) : Bool := !(domAt s (if i < 2 then 7 else 8)).heldOff

/-- The window's loads at an update fraction (R597, Table 11.7). -/
def outLoad (s : State) (wins : List Win) (i : Nat) (u : Rat) : Rat := (visiblePixels wins i : Nat) * beatRateR s * u
def inLoad (s : State) (w : Win) (f : WinFormat) (u : Rat) : Rat :=
  (rectArea (deckle w f) : Nat) * beatRateR s * u * (if blends s f then 2 else 1)
def memLoad (s : State) (w : Win) (f : WinFormat) (u : Rat) : Rat :=
  72 * ((deckleLines w f * (pitch w f / 64) : Nat) : Rat) * (sourceRate f + beatRateR s * u * (if blends s f then 2 else 1))

/-! ### The checks of Table 12.6 -/

/-- A bound flow that has arrived on no port yet counts on the tile alone (DESIGN CHOICE, log 86); while D4 is held off nothing can come in
(04 R177). -/
def checkIngest (s : State) (slot : Nat) (f : WinFormat) (l : Loads) : Option Loads :=
  let r := flowRate s slot f
  match (flowOf s .video slot).bind Flow.port with
  | some p =>
    let l := { l with port := updAt l.port p.val (· + r), flows := updAt l.flows p.val (· + 1)
                      deckles := updAt l.deckles p.val (· + 1), tile := l.tile + r }
    if l.port.getD p.val 0 ≤ portLimit s p.val ∧ l.tile ≤ 100000000000 ∧ l.flows.getD p.val 0 ≤ 16 ∧ l.deckles.getD p.val 0 ≤ 32
    then some l else none
  | none =>
    let l := { l with tile := l.tile + r }
    if l.tile ≤ 100000000000 && !(domAt s 4).heldOff then some l else none

def checkPool (b : Bool) (w : Win) (f : WinFormat) (l : Loads) : Option Loads :=
  let l := { l with pool := l.pool + bufferSpace w f }
  if l.pool ≤ poolSizeOf b then some l else none

def checkMemory (s : State) (w : Win) (f : WinFormat) (u : Rat) (l : Loads) : Option Loads :=
  let l := { l with memory := l.memory + memLoad s w f u }
  if l.memory ≤ windowBudget s then some l else none

/-- The lowest-numbered powered scaler that takes the loads (R598). -/
def pickScaler (s : State) (o i : Rat) (l : Loads) : Option Nat :=
  (List.range 4).find? (fun n => scalerUp s n && decide (l.scalerOut.getD n 0 + o ≤ 150000000) && decide (l.scalerIn.getD n 0 + i ≤ 1000000000))

def checkScaler (s : State) (w : Win) (f : WinFormat) (o i : Rat) (l : Loads) : Option Loads :=
  if !(axisServed (scaleX w f)) || !(axisServed (scaleY w f)) then none
  else if unscaled w f then some l
  else (pickScaler s o i l).map (fun n => { l with scalerOut := updAt l.scalerOut n (· + o), scalerIn := updAt l.scalerIn n (· + i) })

def checkOutput (o : Rat) (l : Loads) : Option Loads :=
  let l := { l with output := l.output + o }
  if l.output ≤ 150000000 then some l else none

/-- The first check that fails, or the loads with the window added. -/
def tryWindow (s : State) (b : Bool) (wins : List Win) (i : Nat) (st : WState) (l : Loads) : Reason ⊕ Loads :=
  let w := wins.getD i {}
  let u := updateFraction st
  let o := outLoad s wins i u
  match w.slot, w.format with
  | some slot, some f =>
    match checkIngest s slot f l with
    | none => .inl .ingest
    | some l => match checkPool b w f l with
      | none => .inl .memory
      | some l => match checkMemory s w f u l with
        | none => .inl .memory
        | some l => match checkScaler s w f o (inLoad s w f u) l with
          | none => .inl .scaler
          | some l => match checkOutput o l with | none => .inl .port | some l => .inr l
  | _, _ => match checkOutput o l with | none => .inl .port | some l => .inr l

/-- The states tried in order; a delayed window keeps the reason that stopped it at the better state (R599). -/
def admitStates (s : State) (b : Bool) (wins : List Win) (i : Nat) (l : Loads) : List WState → Reason → (WState × Reason) × Loads
  | [], r => ((.refused, r), l)
  | st :: rest, r =>
    match tryWindow s b wins i st l with
    | .inr l' => ((st, r), l')
    | .inl x => admitStates s b wins i l rest (if r = .none then x else r)

/-- D7 or D8 is held off: every window is refused (04 R177). -/
def pathDown (s : State) : Bool := (domAt s 7).heldOff || (domAt s 8).heldOff

/-- One window. -/
def admitWindow (s : State) (pattern : Bool) (b : Bool) (wins : List Win) (i : Nat) (l : Loads) : (WState × Reason) × Loads :=
  let w := wins.getD i {}
  if !w.touches then ((.absent, .none), l)
  else if pattern then ((.served, .none), l)
  else if pathDown s then ((.refused, .scaler), l)
  else if (match w.format with | some f => !inTable75 f | none => false) then ((.refused, .none), l)
  else admitStates s b wins i l [.served, .delayed2, .delayed4] .none

/-- All windows of a scene in order (R599); `b` is the scene's pool. -/
def admitScene (s : State) (k : SceneKey) (b : Bool) (wins : List Win) : List (WState × Reason) :=
  ((List.range (countOf k)).foldl (fun (acc : List (WState × Reason) × Loads) i =>
    let r := admitWindow s (decide (layoutOf k = 15)) b wins i acc.2
    (acc.1 ++ [r.1], r.2)) ([], baseLoads s)).1

/-! ### Agreement (R602, R603) -/

def stateRank (st : WState) : Nat := match st with | .served => 0 | .delayed2 => 1 | .delayed4 => 2 | .refused => 3 | .absent => 0
def reasonRank (r : Reason) : Nat := match r with | .none => 0 | .ingest => 1 | .memory => 2 | .scaler => 3 | .port => 4

/-- The agreed state and reason of one window from the reports of it. -/
def mergeWindow (reports : List (WState × Reason)) : WState × Reason :=
  let l := reports.filter (fun x => !decide (x.1 = .absent))
  let top := maxNat (l.map (fun x => stateRank x.1))
  let rs := ((l.filter (fun x => stateRank x.1 == top)).map (fun x => reasonRank x.2)).filter (· != 0)
  let r := match rs with | [] => 0 | x :: xs => xs.foldl min x
  if l.isEmpty then (.served, .none) else (wstateOf top, reasonOf r)

def mergeReports (n : Nat) (readies : List (List (WState × Reason))) : List (WState × Reason) :=
  (List.range n).map (fun i => mergeWindow (readies.filterMap (fun l => l[i]?)))

end Sys2Proof.Machine
end

