-- ==== Sys2Proof/Machine/Heddle.lean ====
section
/-!
DEFINITION. The heddle (10 R479 to R513): groups, preparation, the scene change, its echo and re-admission (12 R604 to R610).
-/
namespace Sys2Proof.Machine
open Sys2Proof


/-- The tile runs scene changes: it is the acting lead or standalone (R484, R495). -/
def leads (s : State) : Bool := runs s && (actingLead s || standalone s)

/-! ### Preparation (R489, 12 R585) -/

/-- The tile answers `k:PREPARE` (R494, R511). -/
def takesScenes (s : State) : Bool :=
  runs s && (tilePlace s).isSome && !safeState s && broughtUp s && !enteringStandby s

/-- `f:FP_FORMAT` for the windows of a list (11 R521). -/
def noteFormats (wins : List Win) (s : State) : State :=
  (List.range 9).foldl (fun st i =>
    let w := wins.getD i {}
    match w.format with
    | some f => if w.touches && !inTable75 f then raise .fpFormat (BitVec.ofNat 32 i) st else st
    | none => st) s

/-- The windows of a scene, with method of frame-rate conversion and buffers in a pool. -/
def freshWindows (s : State) (k : SceneKey) (poolB : Bool) : List Win :=
  placeBuffers (poolBase poolB) ((formWindows s k).map (fun w => { w with
    blend := match w.format with | some f => blends s f | none => false }))

/-- A scene is prepared in the pool that the committed one does not use. -/
def prepareScene (ident : BitVec 32) (k : SceneKey) (lead : Serial) (deadline : BitVec 32) (echo : Bool) (s : State) : State :=
  let wins := freshWindows s k (!s.mem.deckleB)
  let p : Prepared := { ident := ident, key := k, lead := lead, deadline := deadline, first := s.now, echo := echo
                        own := admitScene s k (!s.mem.deckleB) wins }
  let s := modScene (fun x => { x with prepared := some p, prepWin := wins }) (modAud (fun z => { z with switchTo := none }) s)
  noteFormats wins (syncGroups s)

/-- The buffer holds every deckle line of its frame. -/
def bufComplete (b : Buffer) : Bool := b.used && 0 < rectH b.rect && b.lines.length == rectH b.rect

/-- Every admitted touching window with a slot has a complete source frame (R489). -/
def preparedReady (s : State) (p : Prepared) : Bool :=
  (List.range 9).all (fun i =>
    let w := s.scene.prepWin.getD i {}
    !w.touches || w.slot.isNone || decide ((p.own.getD i (.absent, .none)).1 = .refused) || w.buffers.any bufComplete)

/-- The preparation has ended: all is ready, or 1.0 s has passed (R489, R493). -/
def preparationEnds (s : State) (p : Prepared) : Bool := preparedReady s p || p.first + secT 1 ≤ s.now

/-! ### Sound (R499, 15 R741) -/

/-- Frame edge index at or after a counter value, at the output rate. -/
def edgeAtOrAfter (s : State) (t : Int) : Int :=
  let d : Int := 1000000000 * 4294967296
  (t * audRate s + (d - 1)) / d

/-- The route the audio block renders now. -/
def routeNow (s : State) : List Nat := s.aud.flows.map AFlow.slot

/-- Samples fetched already for the switch point and after are fetched again, from the new route: a beat less than 2 ms ahead (log 78). -/
def refetchFrom (point : Int) (a : Aud) : Aud :=
  { a with pipe := a.pipe.filter (fun x => decide (x.index < point)), m := a.m.map (fun m => min m point) }

/-- The route moves at the first frame edge at or after the commit beat, unless the slots stay the same. -/
def planRoute (k : SceneKey) (t : Int) (s : State) : State :=
  let want := audioSlots s k
  let point := edgeAtOrAfter s t
  if want = routeNow s then modAud (fun z => { z with switchTo := none }) s
  else modAud (fun z => refetchFrom point { z with switchTo := some (want, some point) }) s

/-! ### The lead's side (R484 to R491, R495) -/

/-- The count goes from 1, and 0 follows 65,535 as 1 (R487). -/
def nextCount (c : BitVec 16) : BitVec 16 := if c + 1 = 0 then 1 else c + 1

def changeIdent (s : State) (c : BitVec 16) : BitVec 32 := BitVec.ofNat 32 (serialLow s % 65536 * 65536 + c.toNat)

/-- Floods unless the tile is standalone (R495). -/
def floodScene (t : KnotType) (body : List Byte) (s : State) : State := if standalone s then s else originFlood s t body

/-- Tiles whose `k:READY` the lead awaits (R490). -/
def awaitedTiles (s : State) : List Serial :=
  let own := serialOf s
  if standalone s || !anyJoined s then [own]
  else
    let l := ((s.disc.table.filter (fun e => !e.lapsed && !s.disc.results.dups.contains e.serial)).map CensusEntry.serial)
    if l.contains own then l else own :: l

/-- The scene that a change in progress, or else the committed scene, names. -/
def sceneInForce (s : State) : Option Code :=
  match s.scene.change with
  | some c => some c.key.scene
  | none => s.scene.committed.map (fun c => c.key.scene)

/-- Case (a): the code handed differs from the scene in force; with none committed, a settled lead or a standalone tile starts. -/
def codeDiffers (s : State) : Bool :=
  match sceneInForce s with
  | some c => s.scene.handed && (ownKey s).scene != c
  | none => standalone s || s.disc.results.sentSettled

/-- The commit beat of the lead's previous change has passed: a later beat has come (R486, R506). -/
def commitPassed (s : State) : Bool :=
  match s.scene.latest with | some x => later32 (beatNo (beatNow s)) x.2.1 | none => true

/-- A change may start at this beat: none is in progress, or case (a) supersedes one not yet decided (R486, R507). -/
def mayStart (s : State) : Bool :=
  atBeat s && leads s && (s.time.ptpOrigin || standalone s) &&
  (match s.scene.change with
    | none => commitPassed s && (codeDiffers s || s.scene.wanted || s.scene.readmit)
    | some c => c.decided.isNone && codeDiffers s)

/-- What is prepared: the lead's own values, or for a re-admission the committed ones (R484, R607). -/
def keyToPrepare (s : State) : SceneKey :=
  match s.scene.committed with
  | some c => if s.scene.readmit && !s.scene.wanted && !codeDiffers s then c.key else ownKey s
  | none => ownKey s

def prepareBodyOf (c : Change) : PrepareBody := ⟨c.ident, c.key.scene.val, c.key.table.val, c.key.ofs.val, c.deadline⟩

def floodPrepare (c : Change) (s : State) : State := floodScene .prepare (prepareBytes (prepareBodyOf c)) s

def execSceneChangeStart (s : State) : Out :=
  if !mayStart s then .next s
  else
    let n := nextCount s.scene.counter
    let c : Change := {
      ident := changeIdent s n, key := keyToPrepare s, p0 := s.now
      deadline := beatNo (beatAtOrAfter (refreshND s) (beatF s (beatNow s) + nsF 2000000000))
      awaited := awaitedTiles s, readies := [], nextRepeat := s.now + msT 250 }
    let s := modScene (fun x => { x with counter := n, change := some c, wanted := false, readmit := false, handed := false }) s
    let s := floodPrepare c s
    .next (if takesScenes s then prepareScene c.ident c.key (serialOf s) c.deadline false s else s)

/-- R488. -/
def execPrepareRepeat (s : State) : Out :=
  match s.scene.change with
  | some c =>
    if runs s && c.decided.isNone && c.nextRepeat ≤ s.now then
      .next (floodPrepare c (modScene (fun x => { x with change := some { c with nextRepeat := s.now + msT 250 } }) s))
    else .next s
  | none => .next s

/-- The lead followed is the originator. -/
def fromLead (s : State) (h : Head) : Bool := match s.disc.lead with | some v => v.serial == h.orig | none => false

/-- The values of a `k:PREPARE`; bytes above 15 do not come this far (`bodyOk`, log 88). -/
def keyOfPrepare (b : PrepareBody) : SceneKey := ⟨Fin.ofNat 16 b.scene, Fin.ofNat 16 b.table, Fin.ofNat 16 b.ofs⟩

/-- R489: a new identifier is prepared; a repeat after the answer asks for it again. -/
def takePrepare (h : Head) (b : PrepareBody) (s : State) : State :=
  let s := modScene (fun x => { x with heardKey := some (b.ident, keyOfPrepare b) }) s
  if !takesScenes s then s
  else
    let committed := match s.scene.committed with | some c => c.ident == b.ident | none => false
    match s.scene.prepared with
    | some p =>
      if p.ident = b.ident then modScene (fun x => { x with prepared := some { p with answered := false } }) s
      else if committed then s
      else prepareScene b.ident (keyOfPrepare b) h.orig b.deadline false s
    | none => if committed then s else prepareScene b.ident (keyOfPrepare b) h.orig b.deadline false s

def prepareIn (d : Dir) (bytes : List Byte) (s : State) : State :=
  match receiveFlood s d .prepare bytes with
  | .ignored s => s
  | .taken s h => if actingLead s || !fromLead s h then s else takePrepare h (readPrepare bytes) s

def execPrepare (link : Dir) (run : BlockRun) (s : State) : Out := onKnot link run (prepareIn link) s

/-! ### `k:READY` -/

def statePairs (l : List (WState × Reason)) : List (Nat × Nat) := l.map (fun x => (wstateNo x.1, reasonNo x.2))
def pairStates (n : Nat) (l : List (Nat × Nat)) : List (WState × Reason) := (l.take n).map (fun x => (wstateOf x.1, reasonOf x.2))

def sameStates (a b : List (WState × Reason)) : Bool := decide (a.map Prod.fst = b.map Prod.fst)

def noteReady (o : Serial) (l : List (WState × Reason)) (s : State) : State :=
  modScene (fun x => { x with lastReadies := (o, l) :: x.lastReadies.filter (fun e => e.1 != o) }) s

/-- The lead takes a `k:READY` (R490, 12 R607, R616). -/
def takeReady (o : Serial) (ident : BitVec 32) (l : List (WState × Reason)) (s : State) : State :=
  match s.scene.change with
  | some c =>
    if c.ident = ident && c.decided.isNone then
      noteReady o l (modScene (fun x => { x with change := some { c with readies := (o, l) :: c.readies.filter (fun e => e.1 != o) } }) s)
    else s
  | none =>
    match s.scene.committed with
    | some c =>
      if c.ident = ident then
        let old := (s.scene.lastReadies.find? (fun e => e.1 == o)).map Prod.snd
        let differs := match old with | some x => !sameStates x l | none => true
        noteReady o l (if differs then modScene (fun x => { x with readmit := true }) s else s)
      else s
    | none => s

/-- A `k:READY` goes upstream; the lead takes its own directly. -/
def sendReady (ident : BitVec 32) (n : Nat) (l : List (WState × Reason)) (s : State) : State :=
  if actingLead s || standalone s then takeReady (serialOf s) ident l s
  else originUp s .ready (readyBytes ⟨ident, n, statePairs l⟩)

/-- A `k:PREPARE` with the identifier was heard; a scene prepared for its `k:COMMIT` alone is not answered (R489, R512). -/
def heardPrepare (ident : BitVec 32) (s : State) : Bool :=
  match s.scene.heardKey with | some x => x.1 == ident | none => false

def execReadySend (s : State) : Out :=
  match s.scene.prepared with
  | some p =>
    if runs s && !p.answered && !p.echo && (p.commit.isNone || heardPrepare p.ident s) && preparationEnds s p then
      let s := modScene (fun x => { x with prepared := some { p with answered := true } }) s
      let s := modAdm (fun z => { z with lastReady := p.own }) s
      .next (sendReady p.ident (countOf p.key) p.own s)
    else .next s
  | none => .next s

def readyIn (d : Dir) (bytes : List Byte) (s : State) : State :=
  match receiveLocal s d .ready bytes with
  | .ignored s => s
  | .taken s h =>
    if actingLead s then takeReady h.orig (readReady bytes).ident (pairStates (readReady bytes).n (readReady bytes).states) s
    else relayUp s .ready bytes

def execReady (link : Dir) (run : BlockRun) (s : State) : Out := onKnot link run (readyIn link) s

/-! ### Decision and commit (R490 to R493, R512) -/

def commitBodyOf (ident beat : BitVec 32) (l : List (WState × Reason)) : CommitBody := ⟨ident, beat, l.length, statePairs l⟩

def floodCommit (ident beat : BitVec 32) (l : List (WState × Reason)) (s : State) : State :=
  floodScene .commit (commitBytes (commitBodyOf ident beat l)) s

/-- Counter value of a beat number of a knot (08 R364). -/
def beatTimeOf (s : State) (n : BitVec 32) : Int := beatF s (resolveBeat s n).toNat

/-- The commit of a prepared scene is known; the sound is planned with it. -/
def setCommit (p : Prepared) (beat : BitVec 32) (l : List (WState × Reason)) (s : State) : State :=
  planRoute p.key (beatTimeOf s beat) (modScene (fun x => { x with prepared := some { p with commit := some (beat, l) } }) s)

/-- Values of an identifier never prepared: those of a `k:PREPARE` heard, else free (log 27). -/
def keyOfIdent (ident : BitVec 32) (s : State) : SceneKey × State :=
  match s.scene.heardKey with
  | some (i, k) => if i = ident then (k, s) else
      let a := draw s 16; let b := draw a.2 16; let c := draw b.2 16
      (⟨Fin.ofNat 16 a.1, Fin.ofNat 16 b.1, Fin.ofNat 16 c.1⟩, c.2)
  | none =>
      let a := draw s 16; let b := draw a.2 16; let c := draw b.2 16
      (⟨Fin.ofNat 16 a.1, Fin.ofNat 16 b.1, Fin.ofNat 16 c.1⟩, c.2)

/-- A commit for an identifier that is not prepared: prepared at once, for its beat or as an echo (R493, R512). -/
def prepareLate (ident beat : BitVec 32) (lead : Serial) (l : List (WState × Reason)) (s : State) : State :=
  let r := keyOfIdent ident s
  let ahead := !beatPast beat (beatNow s)
  let s := prepareScene ident r.1 lead beat (!ahead) r.2
  match s.scene.prepared with
  | some p => if ahead then setCommit p beat l s else modScene (fun x => { x with prepared := some { p with commit := some (beat, l) } }) s
  | none => s

/-- A `k:COMMIT`, its repeat or its echo: a tile acts once per identifier (R491). -/
def takeCommit (lead : Serial) (ident beat : BitVec 32) (l : List (WState × Reason)) (s : State) : State :=
  if (match s.scene.committed with | some c => c.ident == ident | none => false) then s
  else
    match s.scene.prepared with
    | some p =>
      if p.ident = ident then
        if p.commit.isSome then s
        else if beatPast beat (beatNow s) then
          modScene (fun x => { x with prepared := some { p with commit := some (beat, l), echo := true } }) s
        else setCommit p beat l s
      else if takesScenes s then prepareLate ident beat lead l s else s
    | none => if takesScenes s then prepareLate ident beat lead l s else s

/-- All awaited tiles have answered, or 1.5 s have passed (R490). -/
def decisionDue (s : State) (c : Change) : Bool :=
  c.decided.isNone && (c.p0 + msT 1500 ≤ s.now || c.awaited.all (fun o => c.readies.any (fun r => r.1 == o)))

/-- The agreed states: the reports merged (12 R602, R603). -/
def agreedOf (c : Change) : List (WState × Reason) := mergeReports (countOf c.key) (c.readies.map Prod.snd)

/-- C: the first beat at or after D + 200 ms (R491). -/
def commitBeatOf (s : State) : BitVec 32 := beatNo (beatAtOrAfter (refreshND s) (counterOf s + nsF 200000000))

def execSceneDecision (s : State) : Out :=
  match s.scene.change with
  | some c =>
    if leads s && decisionDue s c then
      let l := agreedOf c
      let beat := commitBeatOf s
      let s := modScene (fun x => { x with change := some { c with decided := some (s.now, beat, 0), agreed := l }, latest := some (c.ident, beat, l) }) s
      .next (takeCommit (serialOf s) c.ident beat l (floodCommit c.ident beat l s))
    else .next s
  | none => .next s

def execCommitRepeat (s : State) : Out :=
  match s.scene.change with
  | some c =>
    match c.decided with
    | some (d, beat, n) =>
      if leads s && n < 2 && d + msT (20 * (n + 1)) ≤ s.now then
        .next (floodCommit c.ident beat c.agreed (modScene (fun x => { x with change := some { c with decided := some (d, beat, n + 1) } }) s))
      else .next s
    | none => .next s
  | none => .next s

def commitIn (d : Dir) (bytes : List Byte) (s : State) : State :=
  match receiveFlood s d .commit bytes with
  | .ignored s => s
  | .taken s h =>
    let b := readCommit bytes
    if actingLead s || !fromLead s h then s else takeCommit h.orig b.ident b.beat (pairStates b.n b.states) s

def execCommit (link : Dir) (run : BlockRun) (s : State) : Out := onKnot link run (commitIn link) s

/-- What the lead echoes: its latest commit, else that of the committed scene. -/
def echoOf (s : State) : Option (BitVec 32 × BitVec 32 × List (WState × Reason)) :=
  match s.scene.latest with
  | some x => some x
  | none => s.scene.committed.map (fun c => (c.ident, c.commitBeat, c.agreed))

/-- R493. -/
def execCommitEcho (s : State) : Out :=
  if !leads s || s.scene.change.isSome || (match s.scene.echoAt with | some t => s.now < t | none => false) then .next s
  else
    match echoOf s with
    | some (i, b, l) => .next (floodCommit i b l (modScene (fun x => { x with echoAt := some (s.now + secT 1) }) s))
    | none => .next s

/-- Table 10.5: a scene prepared without its commit by the deadline beat. -/
def execCommitDeadlineMiss (s : State) : Out :=
  match s.scene.prepared with
  | some p =>
    if runs s && p.commit.isNone && !p.echo && beatPast p.deadline (beatNow s) then .next (raise .svNolead 2 (abandon s)) else .next s
  | none => .next s

/-! ### Applying a commit (R492, R496, 11 R546 to R550, 12 R604, R610) -/

/-- The attributes whose change primes a window are the same (Table 11.8). -/
def sameForPriming (f g : WinFormat) : Bool :=
  decide ((f.sampling, f.depth, f.width, f.height, f.colorimetry, f.tcs) = (g.sampling, g.depth, g.width, g.height, g.colorimetry, g.tcs))

def formatsAgree (a b : Option WinFormat) : Bool :=
  match a, b with | some f, some g => sameForPriming f g | _, _ => true

def showsSource (w : Win) : Bool := match w.showing with | .source _ _ _ => true | _ => false

/-- Counts and flags of a stream that goes on. -/
def carryStream (old new : Win) : Win :=
  { new with lastComplete := old.lastComplete, completeSince := old.completeSince, noStream := old.noStream, authFall := old.authFall, tagWait := old.tagWait
             rejectRun := old.rejectRun, acceptSince := old.acceptSince, afterSwap := old.afterSwap
             cutSource := old.cutSource, lateLines := old.lateLines, heldBeats := old.heldBeats, rejects := old.rejects }

/-- A window at its commit beat k: primed, cut or carried on. -/
def commitWin (k : Nat) (old new : Win) : Win :=
  if !new.touches then new
  else if new.slot.isNone then { new with showing := .pattern }
  else
    let sameGeo := old.touches && decide (old.rect = new.rect) && decide (old.part = new.part)
    let sameSlot := old.touches && old.slot == new.slot
    let base := if sameSlot then carryStream old new else new
    if !sameGeo then { base with prime := some (k, false) }
    else if !formatsAgree old.format new.format then
      if showsSource old then { base with prime := some (k, true), showing := old.showing, out := old.out }
      else { base with prime := some (k, false) }
    else if sameSlot then { base with prime := old.prime, showing := old.showing, out := old.out, held := old.held, concealing := old.concealing, untagged := old.untagged }
    else { base with prime := old.prime }

/-- Per window, since when its agreed state last became more restrictive (12 R606). -/
def tightened (now : Ticks) (old new : List (WState × Reason)) (l : List (Option Ticks)) : List (Option Ticks) :=
  (List.range 9).map (fun i =>
    if stateRank (old.getD i (.served, .none)).1 < stateRank (new.getD i (.served, .none)).1 then some now else l.getD i none)

/-- The tile's own admission is more restrictive than the agreed state. -/
def cannotMeet (own agreed : List (WState × Reason)) (i : Nat) : Bool :=
  stateRank (agreed.getD i (.served, .none)).1 < stateRank (own.getD i (.absent, .none)).1

/-- Detail of `f:FP_OVERLOAD`. -/
def overDetail (i : Nat) (r : Reason) : BitVec 32 := BitVec.ofNat 32 (16 * i + reasonNo r)

/-- `f:FP_OVERLOAD` at a commit (12 R604, R610). -/
def overloadFaults (own agreed : List (WState × Reason)) (wins : List Win) (s : State) : State :=
  let excess (i : Nat) : Option Reason :=
    let a := agreed.getD i (.served, .none)
    if !(wins.getD i {}).touches then none
    else if cannotMeet own agreed i then some (own.getD i (.absent, .none)).2
    else if restrictive a.1 && !decide (a.2 = .none) then some a.2
    else none
  let s := if (List.range 9).all (fun i => (excess i).isNone) then clearAll .fpOverload s else s
  (List.range 9).foldl (fun st i => match excess i with | some r => raise .fpOverload (overDetail i r) st | none => st) s

/-- The committed scene is replaced at beat k (R492). -/
def applyCommit (k : Nat) (p : Prepared) (beat : BitVec 32) (agreed : List (WState × Reason)) (s : State) : State :=
  let pool := !s.mem.deckleB
  let wins := (List.range 9).map (fun i => commitWin k (s.scene.win.getD i {}) (s.scene.prepWin.getD i {}))
  let own := admitScene s p.key pool wins
  let oldAgreed := match s.scene.committed with | some c => c.agreed | none => []
  let wins := wins.mapIdx (fun i w => { w with
    ownFall := w.touches && cannotMeet own agreed i
    tagWait := w.tagWait || (w.touches && (match w.slot with | some n => (flowOf s .anc n).isNone | none => false)) })
  let s := modScene (fun x => { x with
    committed := some ⟨p.ident, p.key, agreed, beat, s.now⟩, prepared := none, prepWin := [], win := wins
    echoAt := some (s.now + secT 1)
    change := match x.change with | some c => if c.ident = p.ident then none else x.change | none => none }) s
  let s := { s with
    mem := { s.mem with deckleB := pool }
    adm := { s.adm with own := own, lastReady := if p.answered then p.own else agreed, diffSince := none
                        restrictedAt := tightened s.now oldAgreed agreed s.adm.restrictedAt } }
  overloadFaults own agreed wins (clearKey .svNolead 2 (noteFormats wins (syncGroups s)))

/-- A scene prepared with its commit beat at or before beat k is applied (R492). -/
def commitAtBeat (k : Nat) (s : State) : State :=
  match s.scene.prepared with
  | some p =>
    match p.commit with
    | some (beat, l) =>
      let at_ := if p.echo then p.due else some beat
      if (match at_ with | some b => beatPast b k | none => false) then applyCommit k p beat l s else s
    | none => s
  | none => s

/-- The lead's change ends once C has passed, whether or not the tile could apply it (R486). -/
def changePasses (k : Nat) (s : State) : State :=
  match s.scene.change with
  | some c =>
    match c.decided with
    | some (_, beat, _) => if beatPast beat k then modScene (fun x => { x with change := none, echoAt := some (s.now + secT 1) }) s else s
    | none => s
  | none => s

/-- R493: the preparation of an echoed scene has ended, so it is committed at the next beat, with everything else due there (01 R39),
and its sound with it (01 R28). -/
def execEchoPreparedCommit (s : State) : Out :=
  match s.scene.prepared with
  | some p =>
    if runs s && p.echo && p.commit.isSome && p.due.isNone && preparationEnds s p then
      .next (planRoute p.key (beatF s s.time.nextBeat)
        (modScene (fun x => { x with prepared := some { p with due := some (beatNo s.time.nextBeat) } }) s))
    else .next s
  | none => .next s

/-! ### Re-evaluation (12 R605 to R608) -/

/-- The own result against the last report, state by state; a window touched by neither is left out. -/
def reevaluate (s : State) : State :=
  match s.scene.committed with
  | none => s
  | some c =>
    let own := admitScene s c.key s.mem.deckleB s.scene.win
    let same := (List.range 9).all (fun i =>
      let w := s.scene.win.getD i {}
      !w.touches || decide ((own.getD i (.absent, .none)).1 = (s.adm.lastReady.getD i (.absent, .none)).1))
    (modAdm (fun z => { z with
      own := own
      diffSince := if same then none else if sameStates own z.own then holdSince s.now z.diffSince else some s.now }) s)

/-- The report: a less restrictive state waits 10 s from the window's last tightening (R606). -/
def reportOf (s : State) : List (WState × Reason) :=
  s.adm.own.mapIdx (fun i x =>
    let l := s.adm.lastReady.getD i x
    let young := match s.adm.restrictedAt.getD i none with | some t => s.now < t + secT 10 | none => false
    if stateRank x.1 < stateRank l.1 && young then l else x)

def execUnsolicitedReady (s : State) : Out :=
  match s.scene.committed with
  | none => .next s
  | some c =>
    let r := reportOf s
    if runs s && passed s.now s.adm.diffSince (secT 2) && !sameStates r s.adm.lastReady then
      .next (sendReady c.ident (countOf c.key) r (modAdm (fun z => { z with lastReady := r, diffSince := none }) s))
    else .next s

/-- 11 R555. -/
def execStreamLossTimeout (w : Fin 9) (s : State) : Out :=
  match s.scene.committed with
  | none => .next s
  | some c =>
    let x := s.scene.win.getD w.val {}
    let since := match x.lastComplete with | some t => max t c.at_ | none => c.at_
    if runs s && x.touches && x.slot.isSome && !x.noStream && !decide ((c.agreed.getD w.val (.served, .none)).1 = .refused) &&
        since + secT 1 ≤ s.now then
      .next (raise .fpNostream (BitVec.ofNat 32 w.val) (modScene (fun y => { y with win := updAt y.win w.val (fun v =>
        { v with noStream := true, completeSince := none, showing := .fallback, out := none, held := false }) }) s))
    else .next s

end Sys2Proof.Machine
end

