-- ==== Sys2Proof/Machine/Select.lean ====
section
/-!
DEFINITION. Which source frames a beat uses (11 R538 to R542, R549, R550; 08 R373), and media time (08 R372, 18 R885).
-/
namespace Sys2Proof.Machine
open Sys2Proof

/-! ### Media time (08 R372) -/

/-- floor(T × f) of a counter value in 2^-32 ns. -/
def floorAt (t : Int) (f : Nat) : Int := t * f / (1000000000 * 4294967296)

/-- d of R372: the RTP timestamp against the counter, at a media rate. -/
def rtpAhead (ta : Int) (rtp : BitVec 32) (f : Nat) : Int := (rtp - BitVec.ofInt 32 (floorAt ta f)).toInt

/-- T_m of R372 in 2^-32 ns. -/
def mediaTime (ta : Int) (rtp : BitVec 32) (f : Nat) : Int := ta + rtpAhead ta rtp f * (1000000000 * 4294967296) / f

/-- E of 18 R885, and the media sample index of 15 R726. -/
def mediaIndex (ta : Int) (rtp : BitVec 32) (f : Nat) : Int := floorAt ta f + rtpAhead ta rtp f

/-! ### Selection (R538 to R540) -/

/-- τ_k: the instant of beat k - L (R373). -/
def contentInstant (s : State) (k : Nat) : Int := beatF s (k - latencyFrames s)

/-- The source a slot's shuttle is locked to. -/
def lockedSource (s : State) (slot : Nat) : Option Source :=
  ((flowOf s .video slot).bind Flow.sender).map (fun x => ⟨slot, x.ip, x.ssrc⟩)

/-- A frame may be selected: of the source in use, or of the one locked since (R549). -/
def candidate (s : State) (w : Win) (b : Buffer) : Bool :=
  b.used && (match w.cutSource with
    | none => true
    | some c => decide (b.src = c) || decide (w.slot.bind (lockedSource s) = some b.src))

/-- Index of the latest frame whose media time satisfies a bound. -/
def latestWhere (l : List Buffer) (ok : Buffer → Bool) : Option Nat :=
  leastBy (fun i => -(l.getD i {}).media) ((List.range l.length).filter (fun i => ok (l.getD i {})))

/-- Index of the earliest frame whose media time satisfies a bound. -/
def earliestWhere (l : List Buffer) (ok : Buffer → Bool) : Option Nat :=
  leastBy (fun i => (l.getD i {}).media) ((List.range l.length).filter (fun i => ok (l.getD i {})))

/-- Repeat or drop (R538). -/
def selectRepeat (s : State) (w : Win) (k : Nat) : Option Nat :=
  latestWhere w.buffers (fun b => candidate s w b && decide (2 * (b.media - contentInstant s k) < periodF (refreshND s)))

def accepted (b : Buffer) : Bool := match b.verdict with | .accepted => true | .undecided => true | _ => false

/-- B's weight in sixteenths, halves up (R539). -/
def blendWeight (tau ta tb : Int) : Nat :=
  if tb ≤ ta then 0 else ((32 * (tau - ta) + (tb - ta)) / (2 * (tb - ta))).toNat

/-- What beat k uses: frame A, and frame B with its weight (R538 to R540). `mix` allows a blend at this beat. -/
def selectFrames (s : State) (w : Win) (blend mix : Bool) (k : Nat) : Option (Nat × Option (Nat × Nat)) :=
  if !blend then (selectRepeat s w k).map (fun a => (a, none))
  else
    let tau := contentInstant s k
    let a := latestWhere w.buffers (fun b => candidate s w b && decide (b.media ≤ tau))
    let useful (b : Buffer) : Bool := candidate s w b && decide (tau < b.media) && b.ready && accepted b
    match a with
    | some i =>
      let fa := w.buffers.getD i {}
      let j := if mix then earliestWhere w.buffers (fun b => useful b && decide (b.src = fa.src)) else none
      match j with
      | none => some (i, none)
      | some j =>
        let wt := blendWeight tau fa.media (w.buffers.getD j {}).media
        if wt = 0 then some (i, none) else if 16 ≤ wt then some (j, none) else some (i, some (j, wt))
    | none =>
      -- R550: at a cut beat, B alone
      if w.cutSource.isNone then (earliestWhere w.buffers useful).map (fun j => (j, none)) else none

/-- The frames of the beat being processed (R515): they are not overwritten (12 R587). -/
def inUse (s : State) (w : Win) : List Nat :=
  match selectFrames s w w.blend true (beatNow s + 1) with
  | none => []
  | some (a, b) => a :: (b.map Prod.fst).toList

/-- The newest complete frame. -/
def newestComplete (w : Win) : Option Nat := latestWhere w.buffers bufComplete

/-- The buffer a new source frame goes into (12 R587): an unused one first, then the oldest that is neither selected nor the
newest complete frame. -/
def takeBuffer (s : State) (w : Win) : Option Nat :=
  match (List.range 3).find? (fun i => !(w.buffers.getD i {}).used) with
  | some i => some i
  | none =>
    leastBy (fun i => (w.buffers.getD i {}).media)
      ((List.range 3).filter (fun i => !(inUse s w).contains i && newestComplete w != some i))

end Sys2Proof.Machine
end

