-- ==== Sys2Proof/Machine/VideoIn.lean ====
section
/-!
DEFINITION. Video and ancillary packets at the shuttles (07 R306 to R316; 12 R586, R587; 18 R882, R883).
-/
namespace Sys2Proof.Machine
open Sys2Proof

def modFlow (k : FlowKind) (slot : Nat) (f : Flow → Flow) (s : State) : State :=
  modNet (fun n => { n with flows := n.flows.map (fun x => if decide (x.kind = k) && x.slot == slot then f x else x) }) s

/-! ### Rates (R314, R315) -/

/-- The port whose shuttle ingests a flow: it stays while packets come on it, and the next port heard follows (R314, R316). -/
def flowPort (now : Ticks) (port : Port) (f : Flow) : Port :=
  match f.port with
  | none => port
  | some p => if f.hist.any (fun e => e.2.2 == p && decide (now < e.1 + secT 1)) then p else port

/-- One RTP packet of a joined flow. -/
def countPacket (now : Ticks) (port : Port) (len : Nat) (f : Flow) : Flow :=
  { f with
    port := some (flowPort now port f), lastRtp := some now, firstRtp := holdSince now f.firstRtp
    hist := (now, macBytes len, port) :: f.hist.filter (fun e => now < e.1 + secT 1)
    rtpSince := if f.sdp.isSome then none else holdSince now f.rtpSince }

/-- RTP version 2 without padding or header extension, of the dynamic payload type that the SDP's `rtpmap` gives (R305). -/
def rtpOk (f : Flow) (h : RtpHead) : Bool :=
  h.version == 2 && !h.padding && !h.extension && 96 ≤ h.payloadType && h.payloadType ≤ 127 &&
  (match f.sdp with | some d => d.payloadType == h.payloadType | none => false)

/-! ### Sender lock (R309) -/

/-- The packet's sender is locked, or taken when none is. None: another sender holds the lock. -/
def lockSender (now : Ticks) (ip : Ip4) (ssrc : BitVec 32) (x : Option Sender) : Option Sender :=
  match x with
  | none => some ⟨ip, ssrc, now⟩
  | some l => if l.ip = ip ∧ l.ssrc = ssrc then some { l with heard := now } else none

/-! ### Deckle lines (R312, R313) -/

/-- The whole pgroups of a run that lie in a deckle: first pixel column and bytes. -/
def cropRun (px by_ : Nat) (r : Rect) (col : Nat) (data : List Byte) : Nat × List Byte :=
  let g0 := col / px
  let first := max g0 (r.x0 / px)
  let last := min (g0 + data.length / by_) (r.x1 / px)
  (first * px, (data.drop ((first - g0) * by_)).take ((last - first) * by_))

/-- The segments of a deckle line, laid over each other. -/
def layLine (f : WinFormat) (b : Buffer) (y : Nat) : List (Option Byte) :=
  let p := pgroup f
  (b.segs.filter (fun g => g.1 == y)).foldl (fun l g =>
    let o := (g.2.1 - b.rect.x0) / p.1 * p.2
    l.mapIdx (fun i x => if o ≤ i then match g.2.2[i - o]? with | some v => some v | none => x else x))
    (List.replicate (rectW b.rect / p.1 * p.2) none)

/-- A line goes to frame memory in whole 64-byte lines (R313). -/
def storeLine (b : Buffer) (y : Nat) (bytes : List Byte) (s : State) : State :=
  let padded := bytes ++ List.replicate (b.pitch - bytes.length) 0
  (List.range (b.pitch / 64)).foldl (fun st i => writeLine ((b.addr + y * b.pitch) / 64 + i) (slice padded (64 * i) 64) st) s

/-- Files one segment into a buffer, and writes its line once whole. -/
def fileSrd (f : WinFormat) (d : Srd) (x : Buffer × State) : Buffer × State :=
  let b := x.1
  if d.row < b.rect.y0 || b.rect.y1 ≤ d.row then x
  else
    let y := d.row - b.rect.y0
    let p := pgroup f
    let run := cropRun p.1 p.2 b.rect d.col d.data
    if run.2.isEmpty || b.lines.contains y then x
    else
      let b := { b with segs := b.segs ++ [(y, run.1, run.2)] }
      let l := layLine f b y
      if l.all Option.isSome then
        let b := { b with segs := b.segs.filter (fun g => g.1 != y), lines := b.lines ++ [y] }
        (b, storeLine b y (l.map (fun o => o.getD 0)) x.2)
      else (b, x.2)

/-! ### Buffers (12 R586, R587) -/

/-- The windows of the committed scene, or of the prepared one. -/
def winsOf (s : State) (prep : Bool) : List Win := if prep then s.scene.prepWin else s.scene.win
def modWin (prep : Bool) (i : Nat) (f : Win → Win) (s : State) : State :=
  modScene (fun x => if prep then { x with prepWin := updAt x.prepWin i f } else { x with win := updAt x.win i f }) s

/-- The end of the space that windows of a scene take. -/
def poolTop (s : State) (prep : Bool) : Nat :=
  maxNat ((winsOf s prep).map (fun w => maxNat (w.base :: w.buffers.map (fun b => if b.used then b.addr + rectH b.rect * b.pitch else 0))))

/-- The pool of the committed scene, or of the prepared one (R585). -/
def poolOf (s : State) (prep : Bool) : Bool := if prep then !s.mem.deckleB else s.mem.deckleB
def poolEnd (b : Bool) : Nat := poolBase b + poolSizeOf b

/-- The base of a window's buffers for a format: where it is when they fit before the next window's, else at the end of the
pool's used space; none when the pool has no room (log 28). -/
def baseFor (s : State) (prep : Bool) (w : Win) (f : WinFormat) : Option Nat :=
  let above := ((winsOf s prep).map Win.base).filter (fun a => w.base < a)
  let limit := above.foldl min (poolEnd (poolOf s prep))
  if w.base + bufferSpace w f ≤ limit then some w.base
  else if poolTop s prep + bufferSpace w f ≤ poolEnd (poolOf s prep) then some (poolTop s prep)
  else none

/-- A window takes the packets of a slot: it touches, and its agreed or own state is not REFUSED (R480, 11 R571). -/
def ingests (s : State) (prep : Bool) (i : Nat) (slot : Nat) : Bool :=
  let w := (winsOf s prep).getD i {}
  w.touches && w.slot == some slot &&
  (if prep then match s.scene.prepared with
      | some p => !decide ((p.own.getD i (.served, .none)).1 = .refused) | none => false
    else match s.scene.committed with
      | some c => !decide ((c.agreed.getD i (.served, .none)).1 = .refused) | none => false)

/-- What a new source frame brings to every window: its source, timestamp, media time, E and format. -/
structure NewFrame where
  src : Source
  rtp : BitVec 32
  media : Int
  ext : Int
  format : WinFormat
  deriving DecidableEq, Repr

/-- A buffer set out for a new source frame. -/
def freshBuffer (n : NewFrame) (w : Win) (base j : Nat) : Buffer :=
  let p := pitch w n.format
  { used := true, src := n.src, rtp := n.rtp, media := n.media, ext := n.ext, format := some n.format
    rect := deckle w n.format, addr := base + j * deckleLines w n.format * p, pitch := p }

/-- The new source frame takes a buffer of the window, or is discarded and counted (R587). -/
def openBuffer (n : NewFrame) (prep : Bool) (i : Nat) (s : State) : State :=
  let w := (winsOf s prep).getD i {}
  match takeBuffer s w, baseFor s prep w n.format with
  | some j, some base =>
    modWin prep i (fun v => { v with base := base, buffers := updAt v.buffers j (fun _ => freshBuffer n w base j) }) s
  | _, _ => modWin prep i (fun v => { v with heldBeats := v.heldBeats + 1 }) s

/-- A complete frame of a window (11 R555). -/
def noteComplete (now : Ticks) (w : Win) : Win :=
  { w with lastComplete := some now, completeSince := holdSince now w.completeSince, noStream := false }

/-- Packets in order of their extended sequence number (18 R884). -/
def filePacket (p : VideoPkt) (l : List VideoPkt) : List VideoPkt :=
  insertBy (fun a b => !later32 a.seq b.seq) p l

/-- The packet's pixels go into the window's buffer of its source frame. -/
def fillBuffer (src : Source) (p : VideoPkt) (prep : Bool) (i : Nat) (s : State) : State :=
  let w := (winsOf s prep).getD i {}
  match (List.range 3).find? (fun j => let b := w.buffers.getD j {}; b.used && decide (b.src = src) && b.rtp == p.rtp) with
  | none => s
  | some j =>
    let b0 := w.buffers.getD j {}
    match b0.format with
    | none => s
    | some f =>
      let was := bufComplete b0
      let r := p.srds.foldl (fun x d => fileSrd f d x)
        ({ b0 with packets := filePacket p b0.packets, ended := b0.ended || p.marker }, s)
      let s := modWin prep i (fun v => { v with buffers := updAt v.buffers j (fun _ => r.1) }) r.2
      if !was && bufComplete r.1 then modWin prep i (noteComplete s.now) s else s

/-- The windows that take packets of a slot: (prepared, index). -/
def takers (s : State) (slot : Nat) : List (Bool × Nat) :=
  ((List.range 9).filter (fun i => ingests s false i slot)).map (fun i => (false, i)) ++
  ((List.range 9).filter (fun i => ingests s true i slot)).map (fun i => (true, i))

/-- A source frame discarded whole leaves its buffers. -/
def discardSource (slot : Nat) (rtp : BitVec 32) (s : State) : State :=
  let clear (w : Win) : Win := { w with buffers := w.buffers.map (fun b => if b.used && b.src.slot == slot && b.rtp == rtp then {} else b) }
  modFlow .video slot (fun f => { f with dropRtp := some rtp })
    (modScene (fun x => { x with win := x.win.map clear, prepWin := x.prepWin.map clear }) s)

/-- Buffers of the frames before the one that begins are ended (R310). -/
def endFrames (slot : Nat) (s : State) : State :=
  let close (w : Win) : Win := { w with buffers := w.buffers.map (fun b => if b.src.slot == slot then { b with ended := true } else b) }
  modScene (fun x => { x with win := x.win.map close, prepWin := x.prepWin.map close }) s

/-! ### Packets (R310, R316, 08 R372, R375, 11 R520) -/

/-- The format that a window's flow now has, where it lies outside Table 7.5: the window is refused for it (R330, 12 R605). -/
def noteOutside (slot : Nat) (fmt : WinFormat) (s : State) : State :=
  (takers s slot).foldl (fun st x => modWin x.1 x.2 (fun w => { w with format := some fmt }) st) s

/-- A new source frame begins with this packet: the SDP that waits takes effect, and its media time is formed (R308, 08 R372). A frame
that comes before one already begun ends none (R310). -/
def beginFrame (port : Port) (slot : Nat) (src : Source) (p : VideoPkt) (latest : Bool) (s : State) : State :=
  let ta := counterOf s
  let s := if latest then endFrames slot s else s
  let s := modFlow .video slot (fun f => { f with
    frameRtp := if latest then some p.rtp else f.frameRtp
    frames := ((p.rtp, port) :: f.frames.filter (fun e => e.1 != p.rtp)).take 8
    port := some port, sdp := f.nextSdp.orElse (fun _ => f.sdp), nextSdp := none }) s
  if 90000 < rtpAhead ta p.rtp 90000 then discardSource slot p.rtp (countUp ctAhead 1 s)
  else
    match (flowOf s .video slot).bind (fun f => f.sdp.bind (videoFormat s)) with
    | none => s
    | some fmt =>
      let n : NewFrame := ⟨src, p.rtp, mediaTime ta p.rtp 90000, mediaIndex ta p.rtp 90000, fmt⟩
      if !inTable75 fmt then noteOutside slot fmt s
      else (takers s slot).foldl (fun st x => openBuffer n x.1 x.2 st) s

/-- The packet within its source frame. -/
def takePixels (slot : Nat) (src : Source) (p : VideoPkt) (s : State) : State :=
  if p.srds.any Srd.field then discardSource slot p.rtp (countUp ctField 1 s)
  else (takers s slot).foldl (fun st x => fillBuffer src p x.1 x.2 st) s

/-- A packet is new and within the reorder window of 512 (R310). -/
def inWindow (f : Flow) (q : BitVec 32) : Bool :=
  match f.topSeq with
  | none => true
  | some t => !f.seen.contains q && -512 < cmp32 q t

def noteSeq (q : BitVec 32) (f : Flow) : Flow :=
  let t := match f.topSeq with | none => q | some t => if later32 q t then q else t
  { f with topSeq := some t, seen := (q :: f.seen).filter (fun x => -512 < cmp32 x t) }

/-- The packet is later in order than every one before it. -/
def isLatest (f : Flow) (p : VideoPkt) : Bool := match f.topSeq with | none => true | some t => later32 p.seq t

/-- The port of the first packet of the packet's source frame; none where it begins one (R310, R316). -/
def begunOn (f : Flow) (p : VideoPkt) : Option Port := (f.frames.find? (fun e => e.1 == p.rtp)).map Prod.snd

/-- The pixels of a unit that begins a frame, unless the frame is one to drop. -/
def takeBegun (slot : Nat) (src : Source) (p : VideoPkt) (s : State) : State :=
  if (flowOf s .video slot).bind Flow.dropRtp = some p.rtp then s else takePixels slot src p s

/-- A packet of the locked sender, on a bound flow. -/
def takeVideo (port : Port) (slot : Nat) (src : Source) (f : Flow) (p : VideoPkt) (s : State) : State :=
  if !inWindow f p.seq then s
  else
    match begunOn f p with
    | none => takeBegun slot src p (beginFrame port slot src p (isLatest f p) (modFlow .video slot (noteSeq p.seq) s))
    | some q =>
      if q != port || f.dropRtp = some p.rtp then s
      else takePixels slot src p (modFlow .video slot (noteSeq p.seq) s)

/-- D6 and D7 are on and frame memory is ready: the shuttles write. -/
def shuttlesRun (s : State) : Bool := domOn s 3 && domOn s 6 && s.mem.ready

/-- A video packet on a joined slot (R307 to R309). -/
def videoIn (port : Port) (slot len : Nat) (ip : Ip4) (p : VideoPkt) (s : State) : State :=
  let s := modFlow .video slot (countPacket s.now port len) s
  match flowOf s .video slot with
  | none => s
  | some f =>
    if f.sdp.isNone || !rtpOk f p.head || !shuttlesRun s then s
    else
      match lockSender s.now ip p.ssrc f.sender with
      | none => s
      | some l =>
        let fresh := f.sender.isNone
        let f := { f with sender := some l, frameRtp := if fresh then none else f.frameRtp
                          topSeq := if fresh then none else f.topSeq, seen := if fresh then [] else f.seen
                          frames := if fresh then [] else f.frames }
        takeVideo port slot ⟨slot, ip, p.ssrc⟩ f p (modFlow .video slot (fun _ => f) s)

/-! ### Watermark packets (18 R882, R883) -/

/-- Bit 8 is the even parity of bits 7 to 0, and bit 9 its complement. -/
def parityOk (w : BitVec 10) : Bool :=
  let odd := (List.range 8).foldl (fun a i => xor a (w.getLsbD i)) false
  w.getLsbD 8 == odd && w.getLsbD 9 == !odd

/-- The checksum word of ST 291-1: the 9-bit sum of the words from DID on, with bit 9 the complement of bit 8. -/
def checksumOk (words : List (BitVec 10)) (c : BitVec 10) : Bool :=
  let sum := sumNat (words.map (fun w => w.toNat % 512)) % 512
  c.toNat % 512 == sum && c.getLsbD 9 == !c.getLsbD 8

/-- The 24 user data bytes of a packet that meets Table 18.10 for this wall. The words of version and slot (UDW 0 and UDW 1) are not
compared: the spec gives no handling of another value (DESIGN CHOICE, log 85). -/
def watermarkOf (s : State) (p : AncPkt) : Option (List Byte) :=
  let body := p.words.take 27
  if p.words.length == 28 && body.all parityOk && checksumOk body (p.words.getD 27 0) &&
      p.words.take 3 == [0x25A#10, 0x101#10, 0x218#10] then
    let udw := (body.drop 3).map (fun w => w.setWidth 8)
    if byteAt udw 10 == wallId s then some udw else none
  else none

/-- An ancillary packet on a joined slot: at most 8 are kept per source frame. -/
def ancIn (slot len : Nat) (port : Port) (p : AncPkt) (s : State) : State :=
  let s := modFlow .anc slot (countPacket s.now port len) s
  match flowOf s .anc slot, watermarkOf s p with
  | some f, some u =>
    if f.sdp.isNone || !rtpOk f p.head || 8 ≤ (f.marks.filter (fun m => m.1 == p.rtp)).length then s
    else modFlow .anc slot (fun f => { f with marks := (p.rtp, u) :: f.marks }) s
  | _, _ => s

/-! ### Announcements (R306 to R308, R327) -/

/-- A slot of the current or prepared scene uses the group. -/
def groupUsed (s : State) (g : Ip4) : Bool := s.net.flows.any (fun f => slotGroup s f.kind f.slot == g)

/-- The cache with an announcement in it (R306). -/
def cacheSdp (d : Sdp) (s : State) : List SdpEntry :=
  let rest := s.net.sdp.filter (fun e => !(e.sdp.group == d.group && e.sdp.port == d.port))
  if rest.length < 256 then ⟨d, s.now⟩ :: rest
  else if !groupUsed s d.group then s.net.sdp
  else
    match leastBy (fun i => (((rest[i]?).elim 0 SdpEntry.announced : Nat) : Int))
        ((List.range rest.length).filter (fun i => match rest[i]? with | some e => !groupUsed s e.sdp.group | none => false)) with
    | none => s.net.sdp
    | some i => ⟨d, s.now⟩ :: rest.eraseIdx i

/-- The bound SDP gives its flow all it needs (Table 11.2). -/
def sdpServes (s : State) (k : FlowKind) (d : Sdp) : Bool :=
  match k, d.media with
  | .video, .video _ => (videoFormat s d).isSome
  | .audio, .audio _ => true
  | .anc, .anc => true
  | _, _ => false

/-- A video window's format with an SDP: at once where it has none yet or is not shown yet; else from the frame (R308). -/
def noteFormat (prep : Bool) (slot : Nat) (fmt : WinFormat) (s : State) : State :=
  (List.range 9).foldl (fun st i =>
    let w := (winsOf st prep).getD i {}
    if !(w.touches && w.slot == some slot) then st
    else
      let st := if w.format.isNone || prep then modWin prep i (fun v => { v with format := some fmt, blend := blends st fmt }) st else st
      if prep then st
      else if inTable75 fmt then clearKey .fpFormat i st else raise .fpFormat (BitVec.ofNat 32 i) st) s

/-- The SDP reaches the flows of its slot. -/
def bindSdp (d : Sdp) (f : Flow) (s : State) : State :=
  if slotGroup s f.kind f.slot != d.group || d.port != 5004 then s
  else
    let s := modFlow f.kind f.slot (fun x =>
      match x.kind, x.sdp with
      | .video, some old => if old = d then { x with nextSdp := none } else { x with nextSdp := some d }
      | _, _ => { x with sdp := some d, rtpSince := none }) s
    if !sdpServes s f.kind d then raise .netSdp (BitVec.ofNat 32 f.slot) s
    else
      let s := clearKey .netSdp f.slot s
      match f.kind, videoFormat s d with
      | .video, some fmt => noteFormat true f.slot fmt (noteFormat false f.slot fmt s)
      | _, _ => s

/-- An announcement or a deletion heard (R306). -/
def sapIn (deletion : Bool) (d : Sdp) (s : State) : State :=
  if deletion then dropSdp d.group d.port s
  else
    let s := modNet (fun n => { n with sdp := cacheSdp d s }) s
    if s.net.sdp.any (fun e => decide (e.sdp = d)) then s.net.flows.foldl (fun st f => bindSdp d f st) s else s

end Sys2Proof.Machine
end

