-- ==== Sys2Proof/Machine/AudioIn.lean ====
section
/-!
DEFINITION. Audio packets into the rings (15 R721 to R728, R748, R749).
-/
namespace Sys2Proof.Machine
open Sys2Proof


/-- D3, D6 and D11 are on and frame memory is ready: the audio block works. -/
def audioRuns (s : State) : Bool := runs s && domOn s 3 && domOn s 6 && domOn s 11 && s.mem.ready

/-! ### Formats (R722) -/

/-- The attributes of a flow within R722 and 07 Table 7.6. -/
def audioOk (f : AudioFmt) : Bool :=
  (f.bits == 16 || f.bits == 24) && f.rate == 48000 && 1 ≤ f.channels && (f.ptime == 1000 || f.ptime == 125) &&
  f.channels ≤ (if f.bits = 24 && f.ptime = 1000 then 13 else 16)

def slotSdp (s : State) (slot : Nat) : Option Sdp := (flowOf s .audio slot).bind Flow.sdp

/-- The format under which a slot is rendered. -/
def audioFormat (s : State) (slot : Nat) : Option AudioFmt :=
  match slotSdp s slot with
  | some d => match d.media with | .audio f => if audioOk f then some f else none | _ => none
  | none => none

/-! ### Time (R727, R728) -/

/-- Δ = floor(L × P × fs) output samples. -/
def audioDelta (s : State) : Nat := latencyFrames s * (refreshND s).2 * audRate s / (refreshND s).1

/-- The counter value at which source sample i leaves, in 2^-32 ns: i / 48,000 + Δ / fs. -/
def leaveTime (s : State) (i : Int) : Int :=
  i * nsF 1000000000 / 48000 + (audioDelta s : Int) * nsF 1000000000 / audRate s

/-- The fetch lead of 2 ms. -/
def fetchLead : Int := nsF 2000000

/-! ### Rings (R726, 12 Table 12.3) -/

def ringLines : Nat := 16384
def ringBase (r : Fin 4) : Nat := 20 * mib + r.val * mib
/-- The line of a sample period in its ring. -/
def ringLine (r : Fin 4) (i : Int) : Nat := ringBase r / 64 + (i % ringLines).toNat

/-- The 16 channel words of a sample period; the words beyond the flow's channels are zero. -/
def lineOfWords (l : List (BitVec 32)) : List Byte :=
  (List.range 16).flatMap (fun c => beBytes 4 (l.getD c 0).toNat)

/-- A ring no flow uses. -/
def freeRing (s : State) : Option (Fin 4) :=
  ([0, 1, 2, 3] : List (Fin 4)).find? (fun r => !(s.aud.flows ++ s.aud.nextFlows).any (fun f => f.region == some r))

/-! ### Non-audio pairs (R748, R749) -/

/-- The pair's two words are the preambles Pa and Pb of IEC 61937. -/
def preambleAt (l : List (BitVec 32)) (i : Nat) : Bool :=
  (l.getD (2 * i) 0).toNat / 65536 == 0xF872 && (l.getD (2 * i + 1) 0).toNat / 65536 == 0x4E1F

/-- The last preamble of a pair. -/
def lastPreamble (f : AFlow) (i : Nat) : Option Int := (f.sincePre.find? (fun e => e.1 == i)).map Prod.snd

/-- The pairs a sample period enters or stays in as non-audio. -/
def pairsAt (f : AFlow) (i : Int) : List Nat :=
  f.nonAudio.filter (fun p => match lastPreamble f p with | some j => decide (j ≤ i) && decide (i < j + 8192) | none => false)

/-- A preamble of a pair at a sample period. -/
def notePreamble (i : Int) (p : Nat) (f : AFlow) : AFlow :=
  let last := match lastPreamble f p with | some j => max i j | none => i
  { f with
    nonAudio := if f.nonAudio.contains p then f.nonAudio else p :: f.nonAudio
    sincePre := (p, last) :: f.sincePre.filter (fun e => e.1 != p) }

/-- The pairs of a sample period with a preamble. -/
def preambles (channels : Nat) (l : List (BitVec 32)) : List Nat := (List.range (channels / 2)).filter (preambleAt l)

/-! ### A packet -/

/-- What a packet does to one flow's records; memory follows apart. -/
def fileSample (ip : Ip4) (ssrc : BitVec 32) (channels : Nat) (i : Int) (l : List (BitVec 32)) (f : AFlow) : AFlow :=
  let f := (preambles channels l).foldl (fun g p => notePreamble i p g) f
  let top := match f.top with | some t => max t i | none => i
  { f with
    top := some top
    ring := ⟨i, ip, ssrc, pairsAt f i⟩ :: f.ring.filter (fun x => x.index != i && decide (top - ringLines < x.index)) }

/-- The pairs that become non-audio through a packet. -/
def newPairs (channels : Nat) (samples : List (List (BitVec 32))) (f : AFlow) : List Nat :=
  (List.range 8).filter (fun p => !f.nonAudio.contains p && samples.any (fun l => (preambles channels l).contains p))

/-- Samples arrive again on a flow without a source (Table 15.3). -/
def noteSamples (now : Ticks) (f : AFlow) : AFlow :=
  let broken := match f.lastSample with | some t => decide (t + secT 1 ≤ now) | none => true
  { f with lastSample := some now, goodSince := if broken then some now else holdSince now f.goodSince }

/-- The records of a flow of the present route, or of the next one. -/
def setAFlow (next : Bool) (n : Nat) (f : AFlow) (s : State) : State :=
  modAud (fun a => if next then { a with nextFlows := updAt a.nextFlows n (fun _ => f) } else { a with flows := updAt a.flows n (fun _ => f) }) s

/-- `f:AUD_NOSOURCE` ends after 1 s of samples. -/
def endNoSource (next : Bool) (n : Nat) (f : AFlow) (s : State) : State :=
  if f.noSource && passed s.now f.goodSince (secT 1) then
    setAFlow next n { f with noSource := false } (clearKey .audNosource n s)
  else s

/-- The words of a packet go to the ring, line by line. -/
def storeSamples (r : Fin 4) (i : Int) (samples : List (List (BitVec 32))) (s : State) : State :=
  (samples.foldl (fun (x : Int × State) l => (x.1 + 1, writeLine (ringLine r x.1) (lineOfWords l) x.2)) (i, s)).2

/-- A packet of the locked sender on a rendered flow, from its first sample period on. -/
def ingestAudio (next : Bool) (n : Nat) (ip : Ip4) (ssrc : BitVec 32) (channels : Nat) (i : Int) (samples : List (List (BitVec 32)))
    (f : AFlow) (s : State) : State :=
  match f.region with
  | none => s
  | some r =>
    let samples := samples.map (List.take channels)
    let g := (samples.foldl (fun (x : Int × AFlow) l => (x.1 + 1, fileSample ip ssrc channels x.1 l x.2)) (i, f)).2
    let g := noteSamples s.now g
    let s1 := (newPairs channels samples f).foldl (fun st p =>
      raise .audNonaudio (BitVec.ofNat 32 (16 * n + p)) st) (setAFlow next n g (storeSamples r i samples s))
    endNoSource next n g s1

/-- R728: late when its first sample was fetched already; discarded when a sample would leave over 340 ms from now. -/
def placeAudio (next : Bool) (n : Nat) (ip : Ip4) (p : AudioPkt) (channels : Nat) (f : AFlow) (s : State) : State :=
  let ta := counterOf s
  let i := mediaIndex ta p.rtp 48000
  let last := i + (p.samples.length : Int) - 1
  if leaveTime s i - fetchLead < ta then setAFlow next n { f with late := f.late + 1 } (countUp ctAudio 1 s)
  else if ta + nsF 340000000 < leaveTime s last then setAFlow next n { f with discarded := f.discarded + 1 } (countUp ctAudio 1 s)
  else ingestAudio next n ip p.ssrc channels i p.samples f s

/-- The flow of the present route, or of the next, that a slot feeds; a joined slot of the next route takes a free ring (R741). -/
def audioPlace (slot : Nat) (s : State) : Option (Bool × Nat) × State :=
  match s.aud.flows.findIdx? (fun f => f.slot == slot) with
  | some n => (some (false, n), s)
  | none =>
    let keep := s.aud.nextFlows.filter (fun f => (flowOf s .audio f.slot).isSome)
    let s := modAud (fun a => { a with nextFlows := keep }) s
    match keep.findIdx? (fun f => f.slot == slot) with
    | some n => (some (true, n), s)
    | none =>
      match freeRing s with
      | none => (none, s)
      | some r =>
        (some (true, keep.length), modAud (fun a => { a with nextFlows := keep ++ [{ slot := slot, region := some r, selectedAt := s.now }] }) s)

/-- An audio packet on a joined slot (R723). -/
def audioIn (port : Port) (slot len : Nat) (ip : Ip4) (p : AudioPkt) (s : State) : State :=
  let s := modFlow .audio slot (countPacket s.now port len) s
  match audioFormat s slot with
  | none => s
  | some fmt =>
    if !audioRuns s || !((flowOf s .audio slot).elim false (fun f => rtpOk f p.head)) then s
    else
      match audioPlace slot s with
      | (none, s) => s
      | (some (next, n), s) =>
        let f := (if next then s.aud.nextFlows else s.aud.flows).getD n { slot := slot }
        match lockSender s.now ip p.ssrc f.sender with
        | none => s
        | some l => placeAudio next n ip p fmt.channels { f with sender := some l } (setAFlow next n { f with sender := some l } s)

end Sys2Proof.Machine
end

