-- ==== Sys2Proof/Machine/FrameIn.lean ====
section
/-!
DEFINITION. A whole frame at a network port: checks, learning, forwarding, and the local sinks (07 R273 to R290, R299 to R302).
-/
namespace Sys2Proof.Machine
open Sys2Proof

/-! ### Where a frame goes (R284, R286) -/

def groupAddress (m : Mac) : Bool := m.getLsbD 40

/-- The IPv4 group a multicast frame carries; none for other multicast. -/
def groupOf (f : Frame) : Option Ip4 :=
  match f.body with
  | .ptp p => if p.layer2 then none else some ptpGroup
  | .arp _ _ _ _ => none
  | .igmp g _ => some g
  | .sap _ _ => some sapGroup
  | .media _ g _ _ => some g
  | .status g => some g
  | .ipv4 g => some g
  | .other => none

/-- 224.0.0.0/24, PTP and SAP go to every forwarding port. -/
def floodedGroup (g : Ip4) : Bool := g.toNat / 256 == 0xE00000 || g == ptpGroup || g == sapGroup

/-- The ports a frame goes to, and whether the storm limit counts it (R284, R285). -/
def egressOf (p : Port) (f : Frame) (s : State) : List Port × Bool :=
  let others := (forwardingPorts s).filter (· != p)
  if f.dst == ownMac s then ([], false)
  else if !groupAddress f.dst then
    match s.net.mac.find? (fun e => e.mac == f.dst) with
    | some e => (others.filter (· == e.port), false)
    | none => (others, true)
  else if f.dst == broadcastMac then (others, true)
  else
    match groupOf f with
    | none => (others, true)
    | some g => (if floodedGroup g then others else others.filter (groupTo s g), false)

/-! ### Queues (Table 7.2, R300 to R302) -/

/-- Audio, ancillary or video by the group of Table 7.3. -/
def mediaKlass (s : State) (g : Ip4) : Option Klass :=
  if octet g 0 = 239 ∧ octet g 2 = mcBase s then
    if octet g 1 = 64 then some .video else if octet g 1 = 65 then some .audio else if octet g 1 = 66 then some .ancillary else none
  else none

/-- Class of a relayed frame, and its group where it is a media flow. -/
def klassOf (s : State) (f : Frame) : Klass × Option Ip4 :=
  if f.vlan.isSome then (.other, none)
  else
    match f.body with
    | .ptp _ => (.ptp, none)
    | .arp _ _ _ _ => (.control, none)
    | .igmp _ _ => (.control, none)
    | .sap _ _ => (.sap, none)
    | .status _ => (.status, none)
    | _ =>
      match (if groupAddress f.dst then groupOf f else none) with
      | none => (.other, none)
      | some g => match mediaKlass s g with | some k => (k, some g) | none => (.other, none)

/-- A packet of a media flow, for the shaper's measurement over the last 1 s (R301). -/
def countMedia (now : Ticks) (len : Nat) (m : MediaQ) : MediaQ :=
  { m with last := now, hist := (now, macBytes len) :: m.hist.filter (fun e => now < e.1 + secT 1) }

/-- The media queue of a flow on a port: its own, or a free one, else the overflow queue (R300). -/
def mediaQueue (p : Port) (g : Ip4) (k : Klass) (len : Nat) (s : State) : Klass × Nat × State :=
  match s.net.mediaQ.find? (fun m => m.port == p && m.group == g) with
  | some m =>
    (k, m.queue, modNet (fun n => { n with mediaQ := n.mediaQ.map (fun x =>
      if x.port == p && x.group == g then countMedia s.now len x else x) }) s)
  | none =>
    match ((List.range 250).map (· + 2)).find? (fun q => !s.net.mediaQ.any (fun m => m.port == p && m.queue == q)) with
    | some q => (k, q, modNet (fun n => { n with mediaQ :=
        { port := p, group := g, queue := q, klass := k, last := s.now, hist := [(s.now, macBytes len)] } :: n.mediaQ }) s)
    | none => (.overflow, 252, s)

/-- `f:NET_QUEUE`, once per flow per minute. -/
def queueFault (p : Port) (g : Ip4) (s : State) : State :=
  raiseLimited .netQueue (4 * g.toNat + p.val) (secT 60) (BitVec.ofNat 32 p.val) s

/-- A relayed frame joins the queue of its class on a port. -/
def relayTo (inPort p : Port) (f : Frame) (s : State) : State :=
  let put (k : Klass) (q : Nat) (s : State) : State × Bool :=
    enqueueFrame s p { klass := k, queue := q, len := f.len, payload := .relayed f, arrived := s.now, ingress := some inPort, stamp := counterOf s }
  match klassOf s f with
  | (k, some g) =>
    let m := mediaQueue p g k f.len s
    let r := put m.1 m.2.1 m.2.2
    if r.2 || m.2.1 == 252 then queueFault p g r.1 else r.1
  | (k, none) => (put k (fixedQueue k) s).1

/-- A frame goes to one egress port. -/
def forwardTo (inPort : Port) (limited : Bool) (f : Frame) (p : Port) (s : State) : State :=
  if limited then limitedBy p (relayTo inPort p f) s else relayTo inPort p f s

def forwardFrame (p : Port) (f : Frame) (s : State) : State :=
  let e := egressOf p f s
  e.1.foldl (fun st q => forwardTo p e.2 f q st) s

/-! ### Snooping and the local sinks (R274, R280, R286 to R290) -/

/-- R286: explicit tracking of reporting hosts, and router ports by the queries heard (R287, R288). A tile without a claimed address takes
every query as one from a lower address (DESIGN CHOICE, log 84). -/
def igmpIn (p : Port) (m : Igmp) (s : State) : State :=
  match m with
  | .report h g true =>
    if s.net.hosts.contains (p, g, h) then s else modNet (fun n => { n with hosts := (p, g, h) :: n.hosts }) s
  | .report h g false => modNet (fun n => { n with hosts := n.hosts.filter (fun x => x != (p, g, h)) }) s
  | .query src resp =>
    let s := countUp ctQuery 1 (setNetPort s p (fun q => { q with queryAt := some s.now }))
    let lower := match s.net.addr.claimed with | some a => decide (src.toNat < a.toNat) | none => true
    let due := s.now + resp
    modNet (fun n => { n with
      lowerQuery := if lower then some s.now else n.lowerQuery
      answerBy := some (match n.answerBy with | some t => min t due | none => due) }) s

/-- The slot and kind of a joined media group. -/
def mediaSlot (s : State) (g : Ip4) : Option (FlowKind × Nat) :=
  (s.net.flows.find? (fun f => slotGroup s f.kind f.slot == g)).map (fun f => (f.kind, f.slot))

/-- A media packet on a joined group and port 5004 (R290). -/
def mediaIn (p : Port) (len : Nat) (src g : Ip4) (udp : Nat) (m : Media) (s : State) : State :=
  if udp != 5004 || !joinedLocal s g then s
  else
    match mediaSlot s g, m with
    | some (.video, n), .video v => videoIn p n len src v s
    | some (.audio, n), .audio a => audioIn p n len src a s
    | some (.anc, n), .anc c => ancIn n len p c s
    | _, _ => s

/-- Frames addressed to this tile, to a group or to all. -/
def addressed (s : State) (f : Frame) : Bool := groupAddress f.dst || f.dst == ownMac s

/-- What the local port takes of a frame. -/
def localIn (p : Port) (f : Frame) (s : State) : State :=
  if !(match f.vlan with | none => true | some v => v == 0) then s
  else
    match f.body with
    | .igmp _ m => igmpIn p m s
    | .arp reply mac sip tip => if addressed s f then arpHeard reply mac sip tip s else s
    | .sap h d => if groupAddress f.dst && h.version == 1 && !h.coded then sapIn h.deletion d s else s
    | .media src g udp m => if groupAddress f.dst then mediaIn p f.len src g udp m s else s
    | _ => s

/-! ### The command (R273, R291) -/

/-- Length and FCS (R273): what is discarded is counted. -/
def frameCheck (f : Frame) : Option Nat :=
  if 2000 < f.len then some ctOversize else if !f.fcsOk then some ctFcs else if f.len < 64 then some ctRunt else none

/-- FRAME_RECEIVE. -/
def execFrameReceive (port : Port) (frame : Frame) (s : State) : Out :=
  if !netRuns s || !portUp s port || decide ((netPort s port).fault = .localFault) then .next s
  else
    match frameCheck frame with
    | some c => .next (countUp c 1 s)
    | none =>
      if !portForwards s port then .next s
      else .next (localIn port frame (forwardFrame port frame (learnMac port frame.src s)))

end Sys2Proof.Machine
end

