-- ==== Sys2Proof/Machine/Jacquard.lean ====
section
/-!
DEFINITION. The Jacquard patterns (14 R690 to R695, R699).
-/
namespace Sys2Proof.Machine
open Sys2Proof

/-- The engine of a marker group: `JQ1` for a regulated one, else `JQ2` to `JQ7` (Table 14.1); `JQ0` has the canvas. -/
def engineOf (reg : Bool) (group : Nat) : Nat := if reg then 1 else 2 + group % 6

/-- T of a pattern in ns (Table 14.2). -/
def patternPeriod (p : Nat) : Nat :=
  match p with
  | 1 => 4000000000 | 2 => 1500000000 | 3 => 2000000000 | 4 => 4000000000 | 5 => 3000000000 | 6 => 50000000
  | 7 => 500000000 | 9 => 10000000000 | 10 => 2000000000 | 11 => 20000000000 | 12 => 2000000000 | _ => 1000000000

/-- φ0 (R691). -/
def basePhase (p t : Nat) : Rat := ((t % patternPeriod p : Nat) : Rat) / (patternPeriod p : Nat)

/-- φ at a position (R691). -/
def posPhase (p t : Nat) (u : Rat) : Rat :=
  let T := patternPeriod p
  ((((t : Int) - (u * (T : Rat)).floor) % (T : Int) : Int) : Rat) / (T : Nat)

/-- (1 - cos 2πφ) / 2. -/
def raised (phi : Rat) : Rat := (1 - cosTurn phi) / 2

/-- An element is sparked in its slot (R693). -/
def sparked (t e : Nat) : Bool := (crc32 (beBytes 4 (t / 50000000) ++ beBytes 4 e)).toNat % 8 == 0

def absR (x : Rat) : Rat := if x < 0 then -x else x

/-- The value v of a pattern at wall time t in ns, for an element at position u with index e (Table 14.2). -/
def patternValue (p t : Nat) (u : Rat) (e : Nat) : Rat :=
  let b := basePhase p t
  match p with
  | 0 => 1
  | 1 => 1 / 16 + 15 / 16 * raised b
  | 2 => if b < 1 / 10 ∨ (1 / 5 ≤ b ∧ b < 3 / 10) then 1 else 0
  | 3 => if posPhase p t u < 1 / 4 then 1 else 1 / 10
  | 4 => max (1 / 16) (1 - 8 * absR (u - (1 - absR (2 * b - 1))))
  | 5 => if u ≤ b then 1 else 0
  | 6 => if sparked t e then 1 else 1 / 4
  | 7 => if b < 1 / 2 then 1 else 0
  | 8 => if b < 1 / 2 then 1 else 0
  | 9 => 1 / 16 + 15 / 16 * raised b
  | 10 => max (1 / 16) (1 - 4 * posPhase p t u)
  | 11 => 1 / 4 + 3 / 4 * raised (posPhase p t u)
  | 12 => max (1 / 16) b
  | 13 => if (2 * t / patternPeriod p + e) % 2 = 0 then 1 else 0
  | 14 => 1 / 4
  | _ => 0

/-! ### Places (R692, R693) -/

/-- Row, column, rows and columns of the tile for the patterns: 0, 0 and one tile until the position is known. -/
def patternPlace (s : State) : Nat × Nat × Nat × Nat :=
  match tilePlace s with
  | some p => (p.1, p.2, (wallSize s).1, (wallSize s).2)
  | none => (0, 0, 1, 1)

/-- Width and height of the patterns' canvas: the wall's once settled, else the tile's own. -/
def patternCanvas (s : State) : Nat × Nat :=
  let p := patternPlace s
  (p.2.2.2 * (cellSize s).1, p.2.2.1 * (cellSize s).2)

/-- The tile's own top left pixel in the patterns' canvas. -/
def patternOrigin (s : State) : Nat × Nat :=
  let p := patternPlace s
  (p.2.1 * (cellSize s).1, p.1 * (cellSize s).2)

/-- Position of marker channel j of C on this tile. -/
def markerU (s : State) (c j : Nat) : Rat :=
  let p := patternPlace s
  ((p.2.1 : Rat) + ((j : Rat) + 1 / 2) / (max 1 c : Nat)) / (max 1 p.2.2.2 : Nat)

/-- Element index of marker channel nn. -/
def markerE (s : State) (nn : Nat) : Nat :=
  let p := patternPlace s
  48 * (p.1 * p.2.2.2 + p.2.1) + nn

/-- Value of a canvas pattern at canvas pixel (x, y) and wall time t. -/
def canvasPattern (s : State) (p t x y : Nat) : Rat :=
  let wh := patternCanvas s
  let u : Rat := if p = 11 then ((x + y + 1 : Nat) : Rat) / (max 1 (wh.1 + wh.2) : Nat) else ((x : Rat) + 1 / 2) / (max 1 wh.1 : Nat)
  patternValue p t u (y / 16 * ceilDiv wh.1 16 + x / 16)

end Sys2Proof.Machine
end

