-- ==== Sys2Proof/Machine/FramePath.lean ====
section
/-!
DEFINITION. What each window shows at a beat: selection, priming, holds, concealment and the watermark verdict (11 R538 to R572,
18 R884 to R886).
-/
namespace Sys2Proof.Machine
open Sys2Proof

/-! ### Reading a frame (R515, R551, R552) -/

/-- Pgroups of a deckle line that lie in the poisoned 64-byte lines which carry it (R552). -/
def badGroups (s : State) (f : WinFormat) (b : Buffer) (y : Nat) : List Nat :=
  let start := b.addr + y * b.pitch
  let n := rectW b.rect / (pgroup f).1
  (List.range n).filter (fun g =>
    untrusted (lineBad s ((start + g * (pgroup f).2) / 64)) || untrusted (lineBad s ((start + (g + 1) * (pgroup f).2 - 1) / 64)))

/-- A deckle line as it stands in frame memory. -/
def storedLine (s : State) (f : WinFormat) (b : Buffer) (y : Nat) : List Byte :=
  (List.range (rectW b.rect / (pgroup f).1 * (pgroup f).2)).map (fun i => Memory.get s.mem.bytes (b.addr + y * b.pitch + i))

/-- The 64-byte lines read that carry a mark: a corrected read or a poisoned one, as their master sees it (12 R578). -/
def readMarks (s : State) (m : Master) (b : Buffer) : State :=
  (s.mem.bad.filter (fun e => b.lines.any (fun y =>
    (b.addr + y * b.pitch) / 64 ≤ e.1 && e.1 < (b.addr + (y + 1) * b.pitch) / 64))).foldl (fun st e => readMem m (64 * e.1) st) s

/-- A shot that may stand in: the same source, format and deckle. -/
def coLocated (p : Option Shot) (src : Source) (f : WinFormat) (r : Rect) : Option Shot :=
  match p with
  | some x => if decide (x.src = src) && decide (x.format = f) && decide (x.rect = r) then some x else none
  | none => none

/-- A missing line: the co-located one, else the line above, else the nearest following present one (R551, R570). -/
def fillLine (prev : Option Shot) (raw : List (Option (List Byte))) (above : Option (List Byte)) (y : Nat) : List Byte :=
  match prev with
  | some p =>
    if !p.missing.contains y && !p.bad.any (fun e => e.1 == y) then p.lines.getD y []
    else match above with | some l => l | none => ((raw.drop (y + 1)).findSome? id).getD []
  | none => match above with | some l => l | none => ((raw.drop (y + 1)).findSome? id).getD []

/-- Bytes of pgroup g of a line. -/
def groupBytes (f : WinFormat) (l : List Byte) (g : Nat) : List Byte := slice l (g * (pgroup f).2) (pgroup f).2

/-- A poisoned pgroup: as for a missing line, for its pixels alone (R552). -/
def fillGroup (f : WinFormat) (prev : Option Shot) (following : List (List Byte × List Nat)) (above : Option (List Byte)) (y g : Nat) : List Byte :=
  let later := ((following.find? (fun l => !l.2.contains g)).map (fun l => groupBytes f l.1 g)).getD (List.replicate (pgroup f).2 0)
  let up := match above with | some l => groupBytes f l g | none => later
  match prev with
  | some p => if !p.missing.contains y && !p.bad.contains (y, g) then groupBytes f (p.lines.getD y []) g else up
  | none => up

/-- A line with its poisoned pgroups replaced. -/
def patchLine (f : WinFormat) (fix : Nat → List Byte) (l : List Byte) (bad : List Nat) : List Byte :=
  (List.range (l.length / (pgroup f).2)).flatMap (fun g => if bad.contains g then fix g else groupBytes f l g)

/-- The deckle lines of a frame after concealment, from the top. -/
def concealLines (f : WinFormat) (prev : Option Shot) (raw : List (Option (List Byte))) (bad : List (List Nat)) :
    Nat → List (List Byte) → List (Option (List Byte)) → List (List Byte)
  | _, done, [] => done
  | y, done, l :: rest =>
    let above := done.getLast?
    let out := match l with
      | none => fillLine prev raw above y
      | some b =>
        let following := (rest.zip (bad.drop (y + 1))).filterMap (fun x => x.1.map (fun v => (v, x.2)))
        patchLine f (fillGroup f prev following above y) b (bad.getD y [])
    concealLines f prev raw bad (y + 1) (done ++ [out]) rest

/-- A frame as shown. -/
def shotOf (s : State) (f : WinFormat) (b : Buffer) (last : Option Shot) : Shot :=
  let rows := List.range (rectH b.rect)
  let raw := rows.map (fun y => if b.lines.contains y then some (storedLine s f b y) else none)
  let bad := rows.map (fun y => if b.lines.contains y then badGroups s f b y else [])
  { src := b.src, format := f, rect := b.rect
    lines := concealLines f (coLocated last b.src f b.rect) raw bad 0 [] raw
    missing := rows.filter (fun y => !b.lines.contains y)
    bad := rows.flatMap (fun y => (bad.getD y []).map (fun g => (y, g))) }

/-! ### Which scaler (12 R598), and a master just reset (Table 12.10) -/

/-- The scaler of each window of the committed scene. -/
def scalersOf (s : State) (agreed : List (WState × Reason)) : List (Option Nat) :=
  ((List.range 9).foldl (fun (acc : List (Option Nat) × Loads) i =>
    let w := s.scene.win.getD i {}
    match w.format with
    | some f =>
      let u := updateFraction (agreed.getD i (.served, .none)).1
      if !w.touches || w.slot.isNone || unscaled w f || u = 0 then (acc.1 ++ [none], acc.2)
      else
        let o := outLoad s s.scene.win i u
        let n := inLoad s w f u
        match pickScaler s o n acc.2 with
        | some k => (acc.1 ++ [some k], { acc.2 with
            scalerOut := updAt acc.2.scalerOut k (· + o), scalerIn := updAt acc.2.scalerIn k (· + n) })
        | none => (acc.1 ++ [none], acc.2)
    | none => (acc.1 ++ [none], acc.2)) ([], {})).1

/-- The master that reads a window's lines: its scaler, else the compositor. -/
def readerOf (s : State) (agreed : List (WState × Reason)) (i : Nat) : Master :=
  match (scalersOf s agreed).getD i none with | some n => Fin.ofNat 24 (7 + n) | none => 11

/-- The window keeps its previous output for one beat after a hang of its master. -/
def resetHolds (s : State) (agreed : List (WState × Reason)) (i : Nat) : Bool :=
  s.adm.masterReset.contains 11 || s.adm.masterReset.contains (readerOf s agreed i)

/-! ### The verdict (R556 to R562, 18 R884 to R886) -/

/-- The watermark packets of a frame: none without an ancillary entry of its slot (R559). -/
def marksOf (s : State) (slot : Nat) (rtp : BitVec 32) : List (List Byte) :=
  match flowOf s .anc slot with
  | some f => (f.marks.filter (fun m => m.1 == rtp)).map Prod.snd
  | none => []

/-- The tag of a frame under its slot's watermark key (R884). -/
def frameTag (key : List Byte) (b : Buffer) : List Byte :=
  (gmac key (beBytes 4 b.src.ssrc.toNat ++ beInt 8 b.ext) (b.packets.flatMap VideoPkt.payload)).take 12

/-- The extended sequence numbers run without a gap. -/
def contiguous (l : List VideoPkt) : Bool :=
  match l.head?, l.getLast? with
  | some a, some z => (z.seq - a.seq).toNat + 1 == l.length
  | _, _ => false

def markSsrc (m : List Byte) : Nat := fieldAt m 2 4
def markCount (m : List Byte) : Nat := fieldAt m 6 4
def markTag (m : List Byte) : List Byte := slice m 12 12

/-- One watermark packet that makes the frame verify (R886). -/
def markMatches (key : List Byte) (b : Buffer) (m : List Byte) : Bool :=
  markSsrc m == b.src.ssrc.toNat && markCount m == b.packets.length && markTag m == frameTag key b

/-- The tag of a frame verifies under the keys in force now (18 R896). -/
def tagVerifies (s : State) (slot : Nat) (b : Buffer) : Bool :=
  hasSiteKeys s && (match storedKey s (.watermark slot) with
    | some key => (marksOf s slot b.rtp).any (markMatches key b)
    | none => false)

/-- Table 11.9 for one frame, under the keys in force now (18 R896). A frame that came after the instant of R557 counts as untagged, and
so does one of a window whose first tag has yet to verify (07 R321). -/
def judge (late wait : Bool) (s : State) (slot : Nat) (b : Buffer) : Verdict :=
  let policy := authPolicy s
  let marks := if hasSiteKeys s && !late && (!wait || tagVerifies s slot b) then marksOf s slot b.rtp else []
  match policy with
  | .off => .accepted
  | _ =>
    match storedKey s (.watermark slot), marks with
    | some key, _ :: _ =>
      if marks.any (markMatches key b) then .accepted
      else if !contiguous b.packets || marks.any (fun m => b.packets.length < markCount m) then .rejectedMissing
      else .rejectedAuth
    | _, _ => match policy with | .require => .rejectedAuth | _ => .accepted

/-- What a verdict counts on its window (R561, R562). -/
def countVerdict (now : Ticks) (v : Verdict) (w : Win) : Win :=
  match v with
  | .accepted => { w with rejectRun := 0, authFall := false, acceptSince := holdSince now w.acceptSince }
  | .rejectedAuth => { w with rejectRun := w.rejectRun + 1, rejects := w.rejects + 1, acceptSince := none
                              authFall := w.authFall || 3 ≤ w.rejectRun + 1 }
  | .rejectedMissing => { w with rejectRun := 0, rejects := w.rejects + 1, acceptSince := none }
  | .undecided => w

/-- Frames whose first display beat is at most k, not yet judged, oldest first. -/
def toJudge (s : State) (w : Win) (k : Nat) : List Nat :=
  let picked := match selectFrames s w w.blend true k with | some (a, b) => a :: (b.map Prod.fst).toList | none => []
  sortBy (fun i j => decide ((w.buffers.getD i {}).media ≤ (w.buffers.getD j {}).media))
    ((List.range w.buffers.length).filter (fun i =>
      let b := w.buffers.getD i {}
      b.used && decide (b.verdict = .undecided) &&
      (picked.contains i || decide (2 * (b.media - contentInstant s k) < periodF (refreshND s)))))

/-- At t_(k-1) the frames of beat k are judged (R557); `late` at t_k, those that have come since. -/
def judgeWin (late : Bool) (k : Nat) (i : Nat) (s : State) : State :=
  let w := s.scene.win.getD i {}
  match w.slot with
  | none => s
  | some slot =>
    let go (v : Win) (j : Nat) : Win :=
      let b := v.buffers.getD j {}
      let d := judge late v.tagWait s slot b
      countVerdict s.now d { v with
        tagWait := v.tagWait && (late || !tagVerifies s slot b), buffers := updAt v.buffers j (fun x => { x with verdict := d }) }
    let w' := (toJudge s w k).foldl go w
    let s := modWin false i (fun _ => w') s
    let s := if w'.authFall then raise .fpAuth (BitVec.ofNat 32 i) s else s
    if !w'.authFall && passed s.now w'.acceptSince (secT 1) then clearKey .fpAuth i s else s

/-! ### One window at one beat -/

/-- A beat updates a window of this state (R542). -/
def updateBeat (st : WState) (k : Nat) : Bool :=
  match st with | .delayed2 => k % 2 ^ 32 % 2 == 0 | .delayed4 => k % 2 ^ 32 % 4 == 0 | .refused => false | _ => true

/-- The tile may show received content: R32, which governs the first picture only (08 R386). -/
def mayPresent (s : State) : Bool := (mayShow s || s.scene.shown) && !safeState s

/-- The window shows its fallback whatever its source gives (R32, R521, R555, R562, R572, 12 R604, R610, 17 R849). -/
def mustFall (s : State) (agreed : WState) (i : Nat) (w : Win) : Bool :=
  !mayPresent s || !domOn s 7 || !domOn s 8 || pathDown s || decide (agreed = .refused) || w.ownFall || w.noStream ||
  w.authFall || w.afterSwap || activeKey s .fpFormat i

def toFallback (w : Win) : Win := { w with showing := .fallback, out := none, held := false, concealing := false }

/-- `f:FP_LATE` of a window, at most once in 10 s (R554). -/
def lateFault (i : Nat) (s : State) : State := raiseLimited .fpLate i (secT 10) (BitVec.ofNat 32 i) s

/-- The window holds (R553). -/
def holdWin (i : Nat) (s : State) : State :=
  let w := s.scene.win.getD i {}
  if w.out.isNone then modWin false i toFallback s
  else lateFault i (modWin false i (fun v => { v with held := true, concealing := false, heldBeats := v.heldBeats + 1, completeSince := none }) s)

/-- During priming: the frozen output, or the fallback (R547). -/
def primeWin (w : Win) : Win :=
  match w.prime with
  | some (_, true) => { w with held := false, concealing := false }
  | _ => toFallback w

/-- The method of frame-rate conversion and the format follow the frame shown (R541, R546). -/
def adoptFormat (s : State) (f : WinFormat) (w : Win) : Win := { w with format := some f, blend := blends s f }

/-- The selected frames become the window's output (R539, R549, R551). -/
def showFrames (m : Master) (i a : Nat) (b : Option (Nat × Nat)) (f : WinFormat) (s : State) : State :=
  let w := s.scene.win.getD i {}
  let fa := w.buffers.getD a {}
  let last := w.out.map Picture.a
  let shotA := shotOf s f fa last
  let shotB := b.map (fun x => (shotOf s f (w.buffers.getD x.1 {}) last, x.2))
  let concealed := shotA.missing.length
  let faulty := 0 < concealed || !shotA.bad.isEmpty || (match shotB with | some x => !x.1.bad.isEmpty | none => false)
  let untagged := decide (authPolicy s ≠ .off) && (marksOf s fa.src.slot fa.rtp).isEmpty
  let s := readMarks s m fa
  let s := match b with | some x => readMarks s m (w.buffers.getD x.1 {}) | none => s
  let s := modWin false i (fun v => { adoptFormat s f v with
    showing := .source a (b.map Prod.fst) (match b with | some x => x.2 | none => 0)
    out := some ⟨shotA, shotB⟩, prime := none, held := false, concealing := faulty, untagged := untagged
    cutSource := some fa.src, lateLines := v.lateLines + concealed
    completeSince := if faulty then none else v.completeSince }) s
  if faulty then lateFault i s else s

/-- A frame was selected: it primes the window, is held back, or is shown. -/
def takeSelection (m : Master) (k i a : Nat) (b : Option (Nat × Nat)) (s : State) : State :=
  let w := s.scene.win.getD i {}
  let fa := w.buffers.getD a {}
  match fa.format with
  | none => holdWin i s
  | some f =>
    if !formatsAgree w.format (some f) then
      modWin false i (fun v => primeWin { adoptFormat s f v with prime := some (k, showsSource v) }) s
    else if !accepted fa then holdWin i s
    else if w.out.isNone && !bufComplete fa then modWin false i toFallback s
    else if rectH fa.rect < 2 * (rectH fa.rect - fa.lines.length) then holdWin i s
    else showFrames m i a b f s

/-- A new picture is due: what the frames at hand give. -/
def updateWin (mix : Bool) (m : Master) (k i : Nat) (s : State) : State :=
  let w := s.scene.win.getD i {}
  match selectFrames s w w.blend mix k with
  | some (a, b) => takeSelection m k i a b s
  | none => holdWin i s

/-- Priming still covers beat k (R547, R567, R568). -/
def priming (w : Win) (st : WState) (k : Nat) : Bool :=
  match w.prime with | none => false | some (b, _) => k < b + 2 || !updateBeat st k

/-- A frame of another format whose display beat falls within priming restarts it from that beat (R546, R565). -/
def restartPriming (mix : Bool) (s : State) (st : WState) (k : Nat) (w : Win) : Win :=
  if !updateBeat st k then w
  else
    match (selectFrames s w w.blend mix k).bind (fun x => (w.buffers.getD x.1 {}).format) with
    | some f => if formatsAgree w.format (some f) then w else { adoptFormat s f w with prime := some (k, showsSource w) }
    | none => w

/-- After a key swap the window waits for its first complete frame, then primes as one newly touching (17 R849). -/
def leaveSwap (k : Nat) (w : Win) : Win :=
  if w.afterSwap && w.buffers.any bufComplete then { w with afterSwap := false, prime := some (k, false) } else w

/-- Window i at beat k. -/
def presentWin (mix : Bool) (agreed : List (WState × Reason)) (k i : Nat) (s : State) : State :=
  let s := modWin false i (leaveSwap k) s
  let w := s.scene.win.getD i {}
  let st := (agreed.getD i (.served, .none)).1
  if !w.touches then s
  else if w.slot.isNone then modWin false i (fun v => { v with showing := .pattern }) s
  else if mustFall s st i w then modWin false i toFallback s
  else if priming w st k then modWin false i (fun v => primeWin (restartPriming mix s st k v)) s
  else if !updateBeat st k || resetHolds s agreed i then s
  else updateWin mix (readerOf s agreed i) k i (judgeWin true k i s)

/-- `f:FP_NOSTREAM` ends after 1 s of complete frames (R555). -/
def endNoStream (i : Nat) (s : State) : State :=
  let w := s.scene.win.getD i {}
  if !w.noStream && passed s.now w.completeSince (secT 1) then clearKey .fpNostream i s else s

/-- Frames that are complete now may take part in the blend of the next beat (R540). -/
def markReady (s : State) : State :=
  modScene (fun x => { x with win := x.win.map (fun w => { w with buffers := w.buffers.map (fun b => { b with ready := bufComplete b }) }) }) s

/-- Watermark packets over a second old serve no frame. -/
def pruneMarks (s : State) : State :=
  let ref := BitVec.ofInt 32 (floorAt (counterOf s) 90000)
  modNet (fun n => { n with flows := n.flows.map (fun f => { f with marks := f.marks.filter (fun m => -90000 < cmp32 m.1 ref) }) }) s

/-- A first picture has been shown (08 R386). -/
def noteShown (s : State) : State := if showsContent s then modScene (fun x => { x with shown := true }) s else s

/-- Beat k in the frame path; `prev` is the beat emitted before it. -/
def frameBeat (prev : Option Nat) (k : Nat) (s : State) : State :=
  match s.scene.committed with
  | none => s
  | some c =>
    let mix := prev == some (k - 1) && 0 < k
    let s := (List.range 9).foldl (fun st i => endNoStream i (presentWin mix c.agreed k i st)) s
    let s := noteShown s
    markReady (pruneMarks ((List.range 9).foldl (fun st i => judgeWin false (k + 1) i st) s))

end Sys2Proof.Machine
end

