-- ==== Sys2Proof/Machine/Pixels.lean ====
section
/-!
DEFINITION. Pixel values of the frame path: unpacking, colour, scaling and composition (11 R522 to R536, R543 to R545; 14 R699).
The order of the components in a pgroup is that of SMPTE ST 2110-20, and the transfers are those of their standards (log 13, log 9).
-/
namespace Sys2Proof.Machine
open Sys2Proof

/-- A colour: red, green, blue. -/
abbrev Rgb := Rat × Rat × Rat
def Rgb.map (f : Rat → Rat) (c : Rgb) : Rgb := (f c.1, f c.2.1, f c.2.2)
def Rgb.add (a b : Rgb) : Rgb := (a.1 + b.1, a.2.1 + b.2.1, a.2.2 + b.2.2)
def Rgb.scale (k : Rat) (c : Rgb) : Rgb := Rgb.map (k * ·) c
def grey (v : Rat) : Rgb := (v, v, v)

/-! ### Unpack and chroma (R522, R523) -/

/-- `n` bits of a line from bit `o`, most significant first. -/
def bitsAt (l : List Byte) (o n : Nat) : Nat :=
  let first := o / 8
  let bytes := (o + n + 7) / 8 - first
  beNat (slice l first bytes) / 2 ^ (8 * (first + bytes) - (o + n)) % 2 ^ n

/-- Component i of pixel column x of a deckle line: Cb, Y, Cr or R, G, B. -/
def component (f : WinFormat) (l : List Byte) (x i : Nat) : Nat :=
  match f.sampling with
  | .ycbcr422 =>
    let base := x / 2 * (pgroup f).2 * 8
    let place := match i with | 0 => 0 | 2 => 2 | _ => 1 + 2 * (x % 2)
    bitsAt l (base + place * f.depth) f.depth
  | _ =>
    let p := pgroup f
    bitsAt l (x / p.1 * p.2 * 8 + (3 * (x % p.1) + i) * f.depth) f.depth

def normLuma (f : WinFormat) (d : Nat) : Rat := ((d : Rat) - 16 * 2 ^ (f.depth - 8)) / (219 * 2 ^ (f.depth - 8))
def normChroma (f : WinFormat) (d : Nat) : Rat := ((d : Rat) - 128 * 2 ^ (f.depth - 8)) / (224 * 2 ^ (f.depth - 8))

/-- A chroma value at pixel column x of a deckle line of `n` pixels. -/
def chromaAt (f : WinFormat) (l : List Byte) (n x i : Nat) : Rat :=
  match f.sampling with
  | .ycbcr422 =>
    let at_ (c : Nat) : Rat := normChroma f (component f l c i)
    if x % 2 = 0 then at_ x else if x + 1 < n then (at_ (x - 1) + at_ (x + 1)) / 2 else at_ (x - 1)
  | _ => normChroma f (component f l x i)

/-! ### Matrix and transfer (R524 to R527) -/

/-- Kr and Kb (Table 11.3). -/
def matrixK (c : Colorimetry) : Rat × Rat :=
  match c with | .bt709 => (2126 / 10000, 722 / 10000) | _ => (2627 / 10000, 593 / 10000)

def toRgb (c : Colorimetry) (y cb cr : Rat) : Rgb :=
  let k := matrixK c
  let r := y + 2 * (1 - k.1) * cr
  let b := y + 2 * (1 - k.2) * cb
  (r, (y - k.1 * r - k.2 * b) / (1 - k.1 - k.2), b)

/-- SMPTE ST 2084 EOTF, clipped to 0 to 10,000 cd/m². -/
def pqEotf (v : Rat) : Rat :=
  let p := powR (max v 0) (32 / 2523)
  let num := max (p - 107 / 128) 0
  let den := 2413 / 128 - 2392 / 128 * p
  if den ≤ 0 then 10000 else max 0 (min 10000 (10000 * powR (num / den) (8192 / 1305)))

/-- BT.2100 HLG inverse OETF. -/
def hlgInverse (v : Rat) : Rat :=
  let x := max v 0
  let a : Rat := 17883277 / 100000000
  let b : Rat := 28466892 / 100000000
  let c : Rat := 55991073 / 100000000
  if x ≤ 1 / 2 then x * x / 3 else (expE ((x - c) / a) + b) / 12

/-- BT.2100 OOTF for 1,000 cd/m² and system gamma 1.2. -/
def hlgOotf (c : Rgb) : Rgb :=
  let y := 2627 / 10000 * c.1 + 6780 / 10000 * c.2.1 + 593 / 10000 * c.2.2
  Rgb.scale (1000 * (if y ≤ 0 then 0 else powR y (1 / 5))) c

/-- Table 11.4. -/
def linearise (t : Tcs) (c : Rgb) : Rgb :=
  match t with
  | .sdr => Rgb.map (fun v => 203 * powR (max v 0) (12 / 5)) c
  | .pq => Rgb.map pqEotf c
  | .hlg => hlgOotf (Rgb.map hlgInverse c)

/-- Table 11.5. -/
def toBt2020 (c : Rgb) : Rgb :=
  ((6274 * c.1 + 3293 * c.2.1 + 433 * c.2.2) / 10000,
   (691 * c.1 + 9195 * c.2.1 + 114 * c.2.2) / 10000,
   (164 * c.1 + 880 * c.2.1 + 8956 * c.2.2) / 10000)

/-- A source pixel in the working space; columns and rows outside the deckle take its nearest pixel (R531, R534). -/
def sourcePixel (p : Shot) (x y : Int) : Rgb :=
  let clamp (v : Int) (lo hi : Nat) : Nat := (max (lo : Int) (min v ((min hi (hi - 1) : Nat) : Int))).toNat
  let cx := clamp x p.rect.x0 (min p.rect.x1 p.format.width) - p.rect.x0
  let cy := clamp y p.rect.y0 (min p.rect.y1 p.format.height) - p.rect.y0
  let l := p.lines.getD cy []
  let n := rectW p.rect
  let f := p.format
  let rgb : Rgb := match f.sampling with
    | .rgb => (normLuma f (component f l cx 0), normLuma f (component f l cx 1), normLuma f (component f l cx 2))
    | _ => toRgb f.colorimetry (normLuma f (component f l cx 1)) (chromaAt f l n cx 0) (chromaAt f l n cx 2)
  let lin := linearise f.tcs rgb
  match f.colorimetry with | .bt709 => toBt2020 lin | _ => lin

/-- The blend of two source frames in linear light (R539). -/
def picturePixel (q : Picture) (x y : Int) : Rgb :=
  match q.b with
  | none => sourcePixel q.a x y
  | some (b, w) => Rgb.add (Rgb.scale (1 - (w : Rat) / 16) (sourcePixel q.a x y)) (Rgb.scale ((w : Rat) / 16) (sourcePixel b x y))

/-! ### Scaling (R529 to R536) -/

/-- sinc of R535. -/
def sincR (y : Rat) : Rat := if y = 0 then 1 else if y.den = 1 then 0 else sincPi y

/-- Nearest integer, halves up. -/
def roundUp (x : Rat) : Int := (x + 1 / 2).floor

/-- h_i of a set of T taps at phase p (R535). -/
def tapX (taps p i : Nat) : Rat := (i : Rat) - ((taps / 2 : Nat) - 1) - (p : Rat) / 64
def tapH (c : Rat) (taps p i : Nat) : Rat :=
  let x := tapX taps p i
  if absR x < (taps / 2 : Nat) then c * sincR (c * x) * sincR (x / (taps / 2 : Nat)) else 0

/-- The coefficients in 1/16,384, with the shortfall on the tap of smallest |x|, the lower on a tie. -/
def coefficients (c : Rat) (taps p : Nat) : List Int :=
  let h := (List.range taps).map (tapH c taps p)
  let total := sumRat h
  let q := h.map (fun v => roundUp (16384 * v / total))
  let least := leastBy (fun i => (64 * absR (tapX taps p i)).floor) (List.range taps)
  updAt q (least.getD 0) (· + (16384 - sumInt q))

/-- An axis: the position at a canvas pixel as an integer and a phase of 1/64 (R529, R531). -/
def phaseAt (r : Rat) (off : Nat) : Int × Nat :=
  let s := ((off : Rat) + 1 / 2) / r - 1 / 2
  let p := (roundUp (64 * (s - s.floor))).toNat
  if p = 64 then (s.floor + 1, 0) else (s.floor, p)

/-- Weighted sum over the taps of an axis, each tap the mean of k source pixels (R534). -/
def filterAxis (r : Rat) (taps : Nat) (off : Nat) (get : Int → Rgb) : Rgb :=
  let k := predecimation r
  let ph := phaseAt (r * k) off
  let q := coefficients (cutoff r) taps ph.2
  (List.range taps).foldl (fun acc (i : Nat) =>
    let g : Int := ph.1 - ((taps / 2 : Nat) - 1 : Int) + (i : Int)
    let tap := Rgb.scale (1 / (k : Nat)) ((List.range k).foldl (fun a j => Rgb.add a (get (g * (k : Int) + (j : Int)))) (grey 0))
    Rgb.add acc (Rgb.scale ((q.getD i 0 : Rat) / 16384) tap)) (grey 0)

/-- Scaled output pixel: 8 horizontal and 6 vertical taps, clipped to 0 to 10,000 cd/m² (R536). -/
def scaledPixel (w : Win) (f : WinFormat) (q : Picture) (x y : Nat) : Rgb :=
  let out := filterAxis (scaleY w f) 6 (y - w.rect.y0) (fun row =>
    filterAxis (scaleX w f) 8 (x - w.rect.x0) (fun col => picturePixel q col row))
  Rgb.map (fun v => max 0 (min 10000 v)) out

/-- A window's pixel of source content at canvas pixel (x, y) (R532, R533). -/
def windowPixel (w : Win) (q : Picture) (x y : Nat) : Rgb :=
  let f := q.a.format
  if unscaled w f then picturePixel q (x - w.rect.x0 : Nat) (y - w.rect.y0 : Nat) else scaledPixel w f q x y

/-! ### Composition (R543 to R545, R474, 10 R500) -/

/-- Pattern 11 as the idle pattern (14 R699). -/
def idlePixel (s : State) (t x y : Nat) : Rgb := grey (canvasPattern s 11 t x y * (203 / 10))

/-- The fallback of `s:FALLBACK` (R544). -/
def fallbackPixel (s : State) (t x y : Nat) : Rgb :=
  match code s pinFallback with | 0 => grey 0 | 1 => grey (203 / 10) | _ => idlePixel s t x y

/-- The window of the highest index that covers a canvas pixel. -/
def coveringWin (s : State) (x y : Nat) : Option Win :=
  (s.scene.win.reverse).find? (fun w => w.touches && w.part.x0 ≤ x && x < w.part.x1 && w.part.y0 ≤ y && y < w.part.y1)

/-- The scene at a canvas pixel: patterns before the first commit, and while no received picture may be shown (R32). -/
def scenePixel (s : State) (t x y : Nat) : Rgb :=
  if s.scene.committed.isNone || !mayPresent s then idlePixel s t x y
  else
    match coveringWin s x y with
    | none => idlePixel s t x y
    | some w =>
      match w.showing, w.out with
      | .pattern, _ => idlePixel s t x y
      | .source _ _ _, some q => windowPixel w q x y
      | _, _ => fallbackPixel s t x y

/-- The canvas at pixel (x, y) of the patterns' canvas: the locate pattern over all while `IDENT_N` is accepted (R500). -/
def canvasPixel (s : State) (t x y : Nat) : Rgb :=
  if s.live.identShown then grey (canvasPattern s 7 t x y * 203) else scenePixel s t x y

end Sys2Proof.Machine
end

