-- ==== Sys2Proof/Machine/Calender.lean ====
section
/-!
DEFINITION. The calender, the scan figures and the frame load (13 R621 to R661), and the census's geometry (R625 to R633).
-/
namespace Sys2Proof.Machine
open Sys2Proof


/-! ### Scan figures (R635 to R641) -/

/-- P in ns. -/
def framePeriodNs (s : State) : Rat := ((refreshND s).2 * 1000000000 : Nat) / ((refreshND s).1 : Rat)
def scanRows (s : State) : Nat := scanOf (code s pinScan)

/-- Pp = P ÷ (M × S) in ns. -/
def pickNs (s : State) (m : Nat) : Rat := framePeriodNs s / ((m * scanRows s : Nat) : Rat)

/-- The strapped M, or the next lower value for which the gap is at least 0.5 µs (R636). -/
def refreshesInUse (s : State) : Nat :=
  let m := greyM (code s pinGrey)
  ((m :: ([128, 96, 64, 32, 16, 8] : List Nat).filter (· < m)).find? (fun v => decide (500 ≤ pickNs s v / 8))).getD 8

/-- The gap in units of 0.5 µs: the largest of 8, 4, 2, 1 that fits an eighth of a pick. -/
def gapUnits (s : State) (m : Nat) : Nat :=
  (([8, 4, 2, 1] : List Nat).find? (fun (g : Nat) => decide (500 * ((g : Nat) : Rat) ≤ pickNs s m / 8))).getD 1

/-- Pp - g in ns. -/
def activeNs (s : State) (m : Nat) : Rat := pickNs s m - 500 * (gapUnits s m : Rat)

/-- σ: 1 + Pd ÷ 3,200 (R637). -/
def sweepSigma (s : State) : Rat := 1 + (peakOf s.clk.profile : Rat) / 3200

/-- The largest n up to 16 that satisfies a test; 0 when none does. -/
def largestN (ok : Nat → Bool) : Nat := maxNat ((List.range 17).filter ok)

/-- n of R637. -/
def depthN (s : State) (m : Nat) : Nat := largestN (fun n => decide (2 ^ n * 8 * sweepSigma s ≤ activeNs s m))

def clockMhz (c : WClock) : Rat := match c with | .c62 => 125 / 2 | .c31 => 125 / 4 | .c15 => 125 / 8 | .none => 0

/-- n of class S at a working clock (R641). -/
def depthS (s : State) (m lc : Nat) (c : WClock) : Nat :=
  let ts : Rat := if c = .none then 0 else ((16 * lc + 2 : Nat) : Rat) * 1000 / clockMhz c
  largestN (fun n => decide (2 ^ n * 8 * sweepSigma s ≤ activeNs s m) &&
    decide (sumRat ((List.range n).map (fun i => max (2 ^ i * 8 * sweepSigma s) ts)) ≤ activeNs s m))

/-- n of a group. -/
def groupDepth (s : State) (m lc : Nat) (c : WClock) : Nat := if isClassS s then depthS s m lc c else depthN s m

def log2Nat (m : Nat) : Nat := maxNat ((List.range 8).filter (fun i => 2 ^ i ≤ m))

/-- k′ (R638). -/
def refreshDepth (m n : Nat) : Nat := min (log2Nat m) (16 - n)

/-- d of R637. -/
def gclkDivider (s : State) (m n : Nat) : Nat := (activeNs s m / (2 ^ n * sweepSigma s)).floor.toNat

/-- Figures of the tile; for class S those of the slowest group (R651). -/
def weftTiming (s : State) (n : Nat) : WTiming :=
  let m := refreshesInUse s
  ⟨m, gapUnits s m, n, gclkDivider s m n, refreshDepth m n⟩

/-! ### Geometry (R625 to R629) -/

def unitsPerChain (s : State) (lc : Nat) : Nat := lc / drvPerUnit (drvClass s)

/-- Tile width and height and band, from the straps, the chain and np; none where R628 or R629 fails. -/
def bandGeometry (s : State) (lc np : Nat) : Option WGeom :=
  let u := unitsPerChain s lc
  let sc := scanRows s
  let cols := (portMap s).2
  let pair : Nat × Nat × Bool :=
    match tileOf (code s pinTileW), tileOf (code s pinTileH) with
    | some w, some h => (w, h, true)
    | none, none => if cols then (np * (16 * u), sc, np * (16 * u) ≤ 1024) else (16 * u, np * sc, 16 * u ≤ 1024 && np * sc ≤ 1024)
    | some w, none =>
      let bw := if cols then w / np else w
      let h := if bw = 0 then 0 else u * 16 * sc / bw
      let th := if cols then h else np * h
      (w, th, th ≤ 1024)
    | none, some h =>
      let bh := if cols then h else h / np
      let w := if bh = 0 then 0 else u * 16 * sc / bh
      let tw := if cols then np * w else w
      (tw, h, tw ≤ 1024)
  let tw := pair.1
  let th := pair.2.1
  let w := if cols then tw / np else tw
  let h := if cols then th else th / np
  let whole := if cols then tw % np == 0 else th % np == 0
  if 0 < np && pair.2.2 && whole && 0 < w && 0 < h && h % sc == 0 && w % 16 == 0 && h / sc * (w / 16) == u && tw * th ≤ 1048576
  then some ⟨tw, th, np, w, h, sc, cols⟩ else none

/-- The ports of the bands in order: the named ones, or those in the canvas (R627, R633). -/
def bandPorts (s : State) : List Nat :=
  match (portMap s).1 with
  | some n => List.range n
  | none => (List.range 64).filter (inCanvas s)

/-- The port that lights a tile pixel, with the pixel's place in the band. -/
def portAt (s : State) (g : WGeom) (x y : Nat) : Option (Nat × Nat × Nat) :=
  let i := if g.columns then x / g.bandW else y / g.bandH
  ((bandPorts s)[i]?).bind (fun p => if inCanvas s p then some (p, x % g.bandW, y % g.bandH) else none)

/-- Unit, driver and channel of colour i at a band pixel: the detail fields of R625 and Table 13.2. -/
def channelAt (s : State) (g : WGeom) (bx by_ i : Nat) : Nat × Nat :=
  let unit := by_ / g.scan * (g.bandW / 16) + bx / 16
  let c := bx % 16
  if drvPerUnit (drvClass s) = 3 then (3 * unit + i, c) else (unit, 3 * c + i)

/-! ### The drive of a pixel (R653) -/

/-- b: the agreed brightness in use (R667, 14 R696). -/
def brightnessNow (s : State) : Rat := ((s.bri.agreed.getD s.bri.own : Nat) : Rat) / 65536

/-- What the calender applies: half of it under `f:TH_LIMIT` (19 R925, 20 R950). -/
def calenderB (s : State) : Rat := if isActive s .thLimit then brightnessNow s / 2 else brightnessNow s

def wearBlock (s : State) (g : WGeom) (x y : Nat) : Rat := s.weft.wblk.getD (y / 4 * ((g.tileW + 3) / 4) + x / 4) 1

/-- The soft knee. -/
def knee (x : Rat) : Rat := if x ≤ 3 / 4 then x else 3 / 4 + (x - 3 / 4) / (1 + 4 * (x - 3 / 4))

/-- z of the three channels from the working space. -/
def toneZ (lp b w : Rat) (c : Rgb) : Rgb :=
  let x := max c.1 (max c.2.1 c.2.2) / lp
  if x = 0 then grey 0 else Rgb.map (fun v => v / lp * (knee x / x) * b * w) c

/-- The visible self-test: drive in linear steps at the brightness in use (06 Table 6.5). -/
def testDrive (s : State) (g : WGeom) (v : Visible) (x y : Nat) : Rgb :=
  match v.step with
  | 2 => match v.sub with | 0 => (1, 0, 0) | 1 => (0, 1, 0) | 2 => (0, 0, 1) | _ => grey 1
  | 3 => grey (((16 * x / max 1 g.tileW : Nat) : Rat) / 15)
  | 4 => match portAt s g x y with | some (p, _, _) => if p = v.sub then grey 1 else grey 0 | none => grey 0
  | 5 => grey (if y % g.bandH % g.scan = v.sub then 1 else 0)
  | _ => grey 0

/-- z of tile pixel (x, y) at wall time t. -/
def driveZ (s : State) (g : WGeom) (t x y : Nat) : Rgb :=
  let b := calenderB s
  match s.test.visible with
  | some v => Rgb.scale b (testDrive s g v x y)
  | none =>
    let o := patternOrigin s
    toneZ (peakLum s) b (wearBlock s g x y) (canvasPixel s t (o.1 + x) (o.2 + y))

/-! ### Current (R654 to R657) -/

/-- 2^(-1/4). -/
def slewFactor : Rat := exp2 (-1 / 4)

/-- The analogue code that a group peak asks for (R654). -/
def wantedCode (p : Rat) : Nat := (256 * min 1 (max (1 / 16) (9 / 8 * p))).ceil.toNat - 1

/-- A rise at once, a fall by at most the slew (R655). -/
def slewCode (now_ want : Nat) : Nat :=
  if now_ ≤ want then want else max want (((now_ + 1 : Nat) * slewFactor).ceil.toNat - 1)

/-- G (R656). -/
def gainOf (s : State) (a : Nat) : Nat := ((((a + 1) * iscale s : Nat) : Rat) / 16).ceil.toNat - 1

/-- c (R656). -/
def currentOf (s : State) (a : Nat) : Rat :=
  if isClassS s then ((a + 1 : Nat) : Rat) / 256 else (((gainOf s a + 1) * 16 : Nat) : Rat) / ((256 * iscale s : Nat) : Rat)

/-! ### Codes (R658, R659) -/

def ditherB (x y : Nat) : Nat :=
  ((([[0, 8, 2, 10], [12, 4, 14, 6], [3, 11, 1, 9], [15, 7, 13, 5]] : List (List Nat)).getD (y % 4) []).getD (x % 4) 0)
def ditherT (k : Nat) : Nat := ([0, 2, 3, 1] : List Nat).getD (k % 4) 0

/-- θ. -/
def theta (x y k : Nat) : Rat := ((4 * ditherB x y + ditherT k : Nat) : Rat) / 64 + 1 / 128

/-- The least on-time per pick in units (R658). -/
def leastOn (s : State) : Nat := match drvClass s with | .s16 => 4 | .c48 => 1 | _ => 2

/-- v of a duty; below the least on-time that value or 0, with the mean kept (R658, R659). -/
def codeOf (s : State) (n kp : Nat) (th duty : Rat) : Nat :=
  let step := 2 ^ (16 - (n + kp))
  let v := step * (65535 * duty / (step : Nat) + th).floor.toNat
  let vmin := step * (leastOn s * 2 ^ kp)
  if 65535 * duty < (vmin : Nat) then vmin * (65535 * duty / (vmin : Nat) + th).floor.toNat else min 65535 v

/-- Channels off until the next bring-up: those flagged short (Table 13.10). -/
def channelShort (s : State) (p drv ch : Nat) : Bool := s.weft.shortSeen.contains (p, drv, ch)

/-! ### A group at one frame -/

/-- Every pixel that the ports of the canvas light. -/
def litPixels (s : State) (g : WGeom) (t : Nat) : List Lit :=
  (List.range g.tileH).flatMap (fun y => (List.range g.tileW).filterMap (fun x =>
    (portAt s g x y).map (fun p => ⟨x, y, p.1, p.2.1, p.2.2, driveZ s g t x y⟩)))

/-- A pixel of a line that a weft read found poisoned (R673). -/
def darkAt (s : State) (x y : Nat) : Bool := s.weft.dark.any (fun l => (Config.tonedPixels l).contains (x, y))

/-- Those pixels count as dark. -/
def darken (s : State) (px : List Lit) : List Lit := px.map (fun l => if darkAt s l.x l.y then { l with z := grey 0 } else l)

def peakOfRgb (c : Rgb) : Rat := max c.1 (max c.2.1 c.2.2)

/-- p of a group. -/
def groupPeak (px : List Lit) (i : Nat) : Rat := (px.filter (fun l => l.port / 8 == i)).foldl (fun m l => max m (peakOfRgb l.z)) 0

def groupPorts (i : Nat) : List Nat := (List.range 8).map (fun j => 8 * i + j)
def groupLit (s : State) (i : Nat) : Bool := (groupPorts i).any (inCanvas s)

/-- The group's code and gain for the frame, and its clipped channels (R655 to R657). -/
def toneGroup (s : State) (px : List Lit) (i : Nat) (w : WGroup) : WGroup :=
  let a := slewCode w.code (wantedCode (groupPeak px i))
  let c := currentOf s a
  let clip (v : Rat) : Nat := if c < v then 1 else 0
  let clips := sumNat ((px.filter (fun l => l.port / 8 == i)).map (fun l => clip l.z.1 + clip l.z.2.1 + clip l.z.2.2))
  { w with code := a, gain := gainOf s a, clips := w.clips + clips }

/-- Duty of a channel. -/
def dutyOf (s : State) (l : Lit) (v : Rat) : Rat := min 1 (v / currentOf s ((s.weft.group.getD (l.port / 8) {}).code))

/-- Codes of a pixel. -/
def pixelCodes (s : State) (g : WGeom) (k : Nat) (l : Lit) : Nat × Nat × Nat :=
  let w := s.weft.group.getD (l.port / 8) {}
  let o := patternOrigin s
  let th := theta (o.1 + l.x) (o.2 + l.y) k
  let one (i : Nat) (v : Rat) : Nat :=
    let ch := channelAt s g l.bx l.by_ i
    if channelShort s l.port ch.1 ch.2 then 0 else codeOf s w.n w.kp th (dutyOf s l v)
  (one 0 l.z.1, one 1 l.z.2.1, one 2 l.z.2.2)

/-- The frame's codes over the tile; a pixel of no port is 0. -/
def panelOf (s : State) (g : WGeom) (k : Nat) (px : List Lit) : List (List (Nat × Nat × Nat)) :=
  (List.range g.tileH).map (fun y => (List.range g.tileW).map (fun x =>
    match px.find? (fun l => l.x == x && l.y == y) with | some l => pixelCodes s g k l | none => (0, 0, 0)))

/-! ### Configuration words (R645) -/

def configWords (s : State) (w : WGroup) : BitVec 16 × BitVec 16 :=
  (BitVec.ofNat 16 (w.gain % 256 + 256 * ((w.n - 6) % 16) + 4096 * (w.kp % 8)),
   BitVec.ofNat 16 (scanRows s - 1 + (match drvClass s with | .c48 => 4 * 32 | _ => 0)))

/-- The words go to the drivers of a group of classes G and C. -/
def configureGroup (i : Nat) (s : State) : State :=
  if isClassS s || !groupLit s i then s
  else
    let c := configWords s (s.weft.group.getD i {})
    emit (modWeft (fun w => { w with group := updAt w.group i (fun x => { x with cfg1 := c.1, cfg2 := c.2 }) }) s)
      (.driverConfig (Fin.ofNat 8 i) c.1 c.2)

/-- Configured ahead of a VSYNC whose analogue code differs from the last. -/
def configureChanged (old : List WGroup) (s : State) : State :=
  (List.range 8).foldl (fun st i => if (old.getD i {}).code != (st.weft.group.getD i {}).code then configureGroup i st else st) s

/-! ### Wear (R660, R661) -/

/-- The sum of duty × c × (code + 1) ÷ 16 over a block's channels. -/
def blockDrive (s : State) (px : List Lit) (bx by_ : Nat) : Rat :=
  (px.filter (fun l => l.x / 4 == bx && l.y / 4 == by_)).foldl (fun a l =>
    let c := currentOf s ((s.weft.group.getD (l.port / 8) {}).code)
    a + (dutyOf s l l.z.1 + dutyOf s l l.z.2.1 + dutyOf s l l.z.2.2) * c * (iscale s : Nat) / 16) 0

/-- One frame's addition in units of 2^-24, and the saturated integrator. -/
def wearAdd (s : State) (q : Nat) (drive : Rat) : Nat :=
  min (4294967295 * 2 ^ 24 + (2 ^ 24 - 1)) (q + (drive * framePeriodNs s / (48 * 500000000) * 2 ^ 24).floor.toNat)

/-- Integration of a frame at every block, over the integrators before it. -/
def integrateWear (before : List Nat) (px : List Lit) (s : State) : State :=
  let n := blockGrid s
  modWeft (fun w => { w with
    toned := px, wearWas := before
    wear := (List.range (n.1 * n.2)).map (fun i => wearAdd s (before.getD i 0) (blockDrive s px (i % n.1) (i / n.1))) }) s

/-- At the end of a frame of class S, whose reads come while it is shown, its poisoned pixels leave its integration (R673). -/
def settleWear (s : State) : State :=
  if isClassS s && !s.weft.dark.isEmpty && !s.weft.toned.isEmpty then integrateWear s.weft.wearWas (darken s s.weft.toned) s else s

def noDark (s : State) : State := modWeft (fun w => { w with dark := [], toned := [] }) s

/-! ### The frame load (R643, R646, R652) -/

/-- CAL0, CAL1: the previous toned frame stays for one beat; WEAR: the frame's integration is lost (12 Table 12.10). -/
def calHeld (s : State) : Bool := s.adm.masterReset.contains 12 || s.adm.masterReset.contains 13
def wearLost (s : State) : Bool := s.adm.masterReset.contains 14 || s.adm.masterReset.contains 15

/-- Wall time of beat k in ns. -/
def beatNs (s : State) (k : Nat) : Nat := (beatF s k / 4294967296).toNat

/-- Frame k is toned and loaded, its wear added, and changed groups are configured ahead of VSYNC. -/
def loadFrame (k : Nat) (s : State) : State :=
  match s.weft.geom with
  | none => s
  | some g =>
    if safeState s || !s.boot.censusDone || !domOn s 6 || !domOn s 8 then s
    else if calHeld s then noDark s
    else
      let s := settleWear s
      let t := if s.adm.masterReset.contains 18 then beatNs s (k - 1) else beatNs s k
      let px := if isClassS s then litPixels s g t else darken s (litPixels s g t)
      let s := noDark s
      let old := s.weft.group
      let s := modWeft (fun w => { w with group := w.group.mapIdx (fun i x => if groupLit s i then toneGroup s px i x else x) }) s
      let s := configureChanged old s
      let s := if wearLost s then s else integrateWear s.weft.wear px s
      emit (modWeft (fun w => { w with panel := panelOf s g k px, loaded := some k }) s) (.frameLoad k)

end Sys2Proof.Machine
end

