-- ==== Sys2Proof/Machine/Bright.lean ====
section
/-!
DEFINITION. Ambient light and agreed brightness (13 R662 to R668, R676, 14 R696), and the lead's decision of night standby
(04 R158, R159).
-/
namespace Sys2Proof.Machine
open Sys2Proof


/-! ### Conversions and reports (R662 to R664) -/

/-- Full scale of a range in pA. -/
def fullScale (r : AmbRange) : Nat :=
  match r with | .na100 => 100000 | .ua1 => 1000000 | .ua10 => 10000000 | .ua100 => 100000000
def rangeUp (r : AmbRange) : AmbRange := match r with | .na100 => .ua1 | .ua1 => .ua10 | _ => .ua100
def rangeDown (r : AmbRange) : AmbRange := match r with | .ua100 => .ua10 | .ua10 => .ua1 | _ => .na100

/-- The range after a reading: up above 90 % of full scale, down below 8 %. -/
def nextRange (r : AmbRange) (pa : Nat) : AmbRange :=
  if 9 * fullScale r < 10 * pa then rangeUp r else if 100 * pa < 8 * fullScale r then rangeDown r else r

/-- A kept conversion, in 1/16 lux at 1 nA per lux, and the range it asks for. -/
def keepConversion (pa : Nat) (a : Amb) : Amb :=
  let pa := min pa (fullScale a.range)
  let r := nextRange a.range pa
  { a with last := (16 * pa / 1000 :: a.last).take 10, range := r, discard := if r = a.range then 0 else 4 }

/-- A conversion: one of the 4 after a change of range is discarded. -/
def takeConversion (pa : Nat) (a : Amb) : Amb :=
  if 0 < a.discard then { a with discard := a.discard - 1 } else keepConversion pa a

/-- R662: every 100 ms. -/
def execAmbientConvert (picoamps : Nat) (s : State) : Out :=
  if runs s && s.amb.sensor && dueBy s.now s.amb.convertNext then
    .next (modAmb (fun a => { takeConversion picoamps a with convertNext := some (s.now + msT 100) }) s)
  else .next s

/-- The value a REPORT carries. -/
def reportValue (s : State) : Nat := match ambientNow s with | some v => v | none => 0xFFFFFFFF

/-- The lead, or a tile on its own, takes a report. -/
def takeReport (o : Serial) (v : Nat) (s : State) : State :=
  let m := if v = 0xFFFFFFFF then none else some v
  modBri (fun b => { b with reports := (o, m, s.now) :: b.reports.filter (fun r => r.1 != o) }) s

/-- R664: each tile every 1 s. -/
def execAmbientReport (s : State) : Out :=
  if !runs s || !(match s.amb.reportNext with | none => true | some t => decide (t ≤ s.now)) then .next s
  else
    let v := reportValue s
    let s := modAmb (fun a => { a with reportNext := some (s.now + secT 1) }) s
    if actingLead s || standalone s || !anyJoined s then .next (takeReport (serialOf s) v s)
    else .next (originUp s .bright (brightBytes ⟨false, false, v, beatNo (beatNow s)⟩))

/-! ### The target (R665, R666) -/

/-- Measured reports of the last 5 s. -/
def freshReports (s : State) : List Nat :=
  s.bri.reports.filterMap (fun r => if s.now < r.2.2 + secT 5 then r.2.1 else none)

/-- What the computation reads: the reports at a lead, else the tile's own sensor. -/
def measured (s : State) : List Nat :=
  if actingLead s then freshReports s else match ambientNow s with | some v => [v] | none => []

/-- E in lux. -/
def ambientLux (s : State) : Rat :=
  match measured s with | [] => 500 | l => (lowerMedian l : Nat) / 16

/-- The value asked for: b* under `s:BRIGHT` 15, else the fixed value. -/
def brightGoal (s : State) : Rat :=
  if s.live.brightApplied.val = 15 then
    max ((nightUnits s : Nat) / 65536) (min 1 (powR (ambientLux s / (ambFull (code s pinAmb) : Nat)) (1 / 2)))
  else (brightUnits s.live.brightApplied.val : Nat) / 65536

/-- 2^(1/16). -/
def rampFactor : Rat := exp2 (1 / 16)

/-- One second of the ramp; a fixed value at once. -/
def rampStep (s : State) (now_ goal : Rat) : Rat :=
  if s.live.brightApplied.val ≠ 15 then goal
  else if now_ < goal then min goal (now_ * rampFactor) else max goal (now_ / rampFactor)

/-- Rounded to units of 2^-16. -/
def unitsOf (b : Rat) : Nat := (b * 65536 + 1 / 2).floor.toNat

/-- The target in use (R676). -/
def targetNow (s : State) : Rat := s.bri.ramp.getD (((s.bri.agreed.getD s.bri.own : Nat) : Rat) / 65536)

/-- The first beat at least a number of ns ahead. -/
def beatAhead (s : State) (ns : Nat) : Nat := max (beatAtOrAfter (refreshND s) (counterOf s + nsF ns)) (beatNow s + 1)

/-- A TARGET is flooded and falls due on the tile itself too. -/
def sendTarget (night : Bool) (b : Nat) (v : Nat) (s : State) : State :=
  let s := modBri (fun x => { x with due := x.due ++ [(beatNo b, v)] }) s
  if standalone s || !anyJoined s then s else originFlood s .bright (brightBytes ⟨true, night, v, beatNo b⟩)

/-- The tile's own value, until the first TARGET (14 R696). -/
def ownBright (first : Bool) (s : State) : State :=
  let t := if first then brightGoal s else rampStep s (targetNow s) (brightGoal s)
  modBri (fun b => { b with ramp := some t, own := unitsOf t }) s

/-- A lead, or a tile on its own, moves the target and names its beat. -/
def moveTarget (s : State) : State :=
  let t := rampStep s (targetNow s) (brightGoal s)
  sendTarget false (beatAhead s 100000000) (unitsOf t) (modBri (fun b => { b with ramp := some t }) s)

def governs (s : State) : Bool := actingLead s || standalone s || !anyJoined s

/-- R665, R666: every 1 s. -/
def execBrightTargetCompute (s : State) : Out :=
  if !runs s || !s.mark.on || !(match s.bri.nextCompute with | none => true | some t => decide (t ≤ s.now)) then .next s
  else
    let s := modBri (fun b => { b with nextCompute := some (s.now + secT 1) }) s
    if governs s then .next (moveTarget s)
    else if s.bri.agreed.isNone then .next (ownBright false s)
    else .next s

/-- A `CS_BRIGHT` code accepted is applied at a beat (03 R106, R108); a fixed value at once (R666). -/
def brightAtBeat (s : State) : State :=
  match s.live.brightDue with
  | none => s
  | some c =>
    let s := modLive (fun z => { z with brightApplied := c, brightDue := none }) s
    if c.val = 15 || !s.mark.on then s
    else if governs s then moveTarget s
    else if s.bri.agreed.isNone then ownBright true s
    else s

/-! ### `k:BRIGHT` (R665, R667, 04 R158) -/

/-- A TARGET from the lead, and its night decision. -/
def takeTarget (b : BrightBody) (s : State) : State :=
  let s := modBri (fun x => { x with ramp := none, due := x.due ++ [(b.beat, b.value)] }) s
  if b.night then (standbyTrigger .night (.beat b.beat) s).1 else s

def brightIn (d : Dir) (bytes : List Byte) (s : State) : State :=
  if byteAt bytes 20 == 1 then
    match receiveFlood s d .bright bytes with
    | .ignored s => s
    | .taken s h => if actingLead s || standalone s || !fromLead s h then s else takeTarget (readBright bytes) s
  else
    match receiveLocal s d .bright bytes with
    | .ignored s => s
    | .taken s h =>
      if actingLead s then takeReport h.orig (readBright bytes).value s else relayUp s .bright bytes

def execBright (link : Dir) (run : BlockRun) (s : State) : Out := onKnot link run (brightIn link) s

/-- Targets whose beat is k, or has passed, take effect; the last of them stands (R667). -/
def targetsAtBeat (k : Nat) (s : State) : State :=
  let now_ := s.bri.due.filter (fun d => decide (cmp32 d.1 (beatNo k) ≤ 0))
  match now_.getLast? with
  | none => s
  | some d => modBri (fun b => { b with
      agreed := some d.2, due := b.due.filter (fun x => !decide (cmp32 x.1 (beatNo k) ≤ 0)) }) s

/-! ### Night standby (04 R158, R159) -/

/-- No window of the wall is served, delayed or priming, and the brightness in use is at the floor. -/
def nightQuiet (s : State) : Bool :=
  (match s.scene.committed with
    | none => true
    | some c => c.agreed.all (fun x => decide (x.1 = .refused) || decide (x.1 = .absent))) &&
  s.scene.win.all (fun w => w.prime.isNone) &&
  s.bri.agreed.getD s.bri.own ≤ nightUnits s

/-- The conditions are followed at every beat of the lead; a wake's 2 min are judged once. -/
def trackNight (s : State) : State :=
  let q := governs s && nightQuiet s
  modStandby (fun z => { z with
      nightSince := if q then holdSince s.now z.nightSince else none
      nightWoke := if !q && passed s.now z.nightWoke (secT 120) then none else z.nightWoke }) s

/-- The wake of the tiles that enter standby at beat k: 60 min after it (R159). A lead that stays awake waits for it too. -/
def wakeOf (s : State) (k : Nat) : Ticks := s.now + ((beatF s k - counterOf s).toNat * 3200) / 4294967296 + secT 3600

/-- R158, R159: the decision rides in `k:BRIGHT`, with an entry beat at least 1 s after the knot. -/
def execNightStandbyDecision (s : State) : Out :=
  if runs s && governs s && s.time.beat.isSome && nightQuiet s &&
      (passed s.now s.standby.nightSince (secT 900) ||
       (s.standby.nightSince.isSome && passed s.now s.standby.nightWoke (secT 120))) then
    let k := beatAhead s 1000000000
    let s := modStandby (fun z => { z with nightSince := some s.now, nightWoke := some (wakeOf s k) }) s
    .next (standbyTrigger .night (.beat (beatNo k)) (sendTarget true k (unitsOf (targetNow s)) s)).1
  else .next s

end Sys2Proof.Machine
end

