-- ==== Sys2Proof/Machine/Weft.lean ====
section
/-!
DEFINITION. The census, weft faults, status reads and wear (13 R630 to R634, R649, R650, R660, R661, R674, R677 to R680, R983), and the ledger's
completions (19 R920, R926).
-/
namespace Sys2Proof.Machine
open Sys2Proof

/-! ### What the census finds on a port (R630, R631) -/

/-- Length of the cyclic run of passing phases from phase i. -/
def runFrom (l : List Bool) (i : Nat) : Nat :=
  ((List.range 16).takeWhile (fun j => l.getD ((i + j) % 16) false)).length

/-- Start of the widest run, the lowest on a tie, and its length. -/
def widestRun (l : List Bool) : Nat × Nat :=
  (List.range 16).foldl (fun best i => if best.2 < runFrom l i then (i, runFrom l i) else best) (0, 0)

/-- The phase at the centre of a run that spans at least 4 ns, where a phase spans `ns`. -/
def phaseIn (l : List Bool) (ns : Nat) : Option Nat :=
  let r := widestRun l
  if 4 ≤ r.2 * ns then some ((r.1 + (r.2 - 1) / 2) % 16) else none

/-- The working clock, the first that confirms, and its phase. -/
def workingClock (c : CensusPort) : Option (WClock × Nat) :=
  match phaseIn c.phases62 1, phaseIn c.phases31 2, phaseIn c.phases15 4 with
  | some p, _, _ => some (.c62, p)
  | none, some p, _ => some (.c31, p)
  | none, none, some p => some (.c15, p)
  | none, none, none => none

/-- The census words (R630). -/
def censusMarker : BitVec 32 := 0x5A3CC3A5
def censusComplement : BitVec 32 := 0xA5C33C5A

/-- The last 32 bits read after c clocks. -/
def lastRead (b : BitVec 1120) (c : Nat) : BitVec 32 := (b >>> (1120 - c)).setWidth 32

/-- c: the clock at which the last 32 bits read first equal a word; none within 1,088 + 32 clocks. -/
def clocksUntil (w : BitVec 32) (b : BitVec 1120) : Option Nat :=
  (List.range 1121).find? (fun c => decide (32 ≤ c) && lastRead b c == w)

/-- Some marker came back. -/
def markerCount (c : CensusPort) : Option Nat := clocksUntil censusMarker c.marker

/-- The complement is seen complete after exactly the same count. -/
def complementSame (c : CensusPort) : Bool := clocksUntil censusComplement c.complement == markerCount c

/-- Lc of a marker count (R630). -/
def chainOfCount (c : Nat) : Option Nat :=
  let lb := c - 32
  if c ≤ 1120 && 32 < c && lb % 16 == 0 && lb / 16 ≤ 64 then some (lb / 16) else none

/-- The domain of a port, D9 or D10. -/
def portDom (p : Nat) : Nat := if p < 32 then 9 else 10

/-- A port or its group is high-impedance after a trip (R678). -/
def portHiZ (s : State) (p : Nat) : Bool := (s.weft.port.getD p {}).hiZ || (s.weft.group.getD (p / 8) {}).hiZ

/-- A port's pins can be driven and read. -/
def portLive (s : State) (p : Nat) : Bool := bankUsable s .weft && domOn s (portDom p) && !portHiZ s p

/-- A port with its chain length, working clock and phase. -/
structure Found where
  port : Nat
  chain : Nat
  clock : WClock
  phase : Nat
  deriving DecidableEq, Repr

def foundNow (s : State) (p : Nat) (c : CensusPort) : Option Found :=
  if !portLive s p || !complementSame c then none
  else
    match (markerCount c).bind chainOfCount, workingClock c with
    | some lc, some w => some ⟨p, lc, w.1, w.2⟩
    | _, _ => none

/-- What an earlier census found on a port. -/
def foundBefore (s : State) (p : Nat) : Option Found :=
  let w := s.weft.port.getD p {}
  if w.chain = 0 then none else some ⟨p, w.chain, w.clock, w.phase⟩

/-- Ports that this census reads: all, or those censused again. -/
def readsPort (s : State) (p : Nat) : Bool := !s.boot.censusDone || s.weft.recensus.any (fun q => q.val == p)

/-- What stands of every port: the new reading, or the earlier one (R680, R983). -/
def foundPorts (s : State) (l : List CensusPort) : List Found :=
  (List.range 64).filterMap (fun p =>
    if readsPort s p then (l[p]?).bind (foundNow s p) else foundBefore s p)

/-! ### Which ports enter the canvas (R626, R632, R633, R649) -/

/-- A smaller number is a slower clock. -/
def clockRank (c : WClock) : Nat := match c with | .none => 0 | .c15 => 1 | .c31 => 2 | .c62 => 3

def slowest (l : List Found) : WClock :=
  l.foldl (fun a f => if a = .none || clockRank f.clock < clockRank a then f.clock else a) .none

/-- Named by `s:PORTMAP`, or any port under code 15. -/
def named (s : State) (p : Nat) : Bool := match (portMap s).1 with | some n => decide (p < n) | none => true

/-- Whole units (R626). -/
def wholeUnits (s : State) (f : Found) : Bool := f.chain % drvPerUnit (drvClass s) == 0

/-- The length found on the most ports, the longer on a tie. -/
def commonLength (l : List Found) : Nat :=
  ((List.range 65).foldl (fun (best : Nat × Nat) n =>
    let k := (l.filter (fun f => f.chain == n)).length
    if best.2 ≤ k && 0 < k then (n, k) else best) (0, 0)).1

def wantedLength (s : State) (l : List Found) : Nat :=
  match chainOf (code s pinChain) with | some n => n | none => commonLength l

/-- The load fits at a clock: R649 for classes G and C, and a depth of 6 or more (R639, R641). -/
def loadFits (s : State) (lc : Nat) (c : WClock) : Bool :=
  let load : Nat := drvChannels (drvClass s) * scanRows s * (16 * lc + 2)
  6 ≤ groupDepth s (refreshesInUse s) lc c &&
  (isClassS s || (c != .none && decide ((load * 1000 : Nat) / clockMhz c ≤ 9 / 10 * framePeriodNs s)))

/-- The ports of one group that remain after the slowest have been dropped as often as the load asks; the group has at most
three clocks. -/
def fitGroup (s : State) (lc : Nat) : Nat → List Found → List Found
  | 0, _ => []
  | n + 1, l => if l.isEmpty || loadFits s lc (slowest l) then l else fitGroup s lc n (l.filter (fun f => !decide (f.clock = slowest l)))

/-- The clock of a group fixed by an earlier census through ports that this one does not read (R651, R680). -/
def heldClock (s : State) (g : Nat) : WClock :=
  if s.boot.censusDone && (groupPorts g).any (fun p => inCanvas s p && !readsPort s p) then (s.weft.group.getD g {}).clock else .none

/-- A port censused again does not slow its group. -/
def keepsClock (s : State) (f : Found) : Bool :=
  let h := heldClock s (f.port / 8)
  decide (h = .none) || !readsPort s f.port || clockRank h ≤ clockRank f.clock

/-- The ports that enter. -/
def entering (s : State) (l : List Found) : List Found :=
  let ok := l.filter (fun f => named s f.port && wholeUnits s f && keepsClock s f)
  let lc := wantedLength s ok
  let same := ok.filter (fun f => f.chain == lc)
  (List.range 8).flatMap (fun g => fitGroup s lc 4 (same.filter (fun f => f.port / 8 == g)))

/-- Geometry over the entering ports; none, and no port enters, where R628 or R629 fails. -/
def acceptCanvas (s : State) (e : List Found) : Option (WGeom × List Found) :=
  match e with
  | [] => none
  | f :: _ =>
    let np := match (portMap s).1 with | some n => n | none => e.length
    (bandGeometry s f.chain np).map (fun g => (g, e))

/-! ### Completion -/

/-- Ports, groups and figures as the census leaves them (R634, R651). -/
def placeGroup (s : State) (e : List Found) (m lc g : Nat) (w : WGroup) : WGroup :=
  let mine := e.filter (fun f => f.port / 8 == g)
  if mine.isEmpty then { w with clock := .none, n := 0, kp := 0 }
  else
    let held := heldClock s g
    let c := if held = .none then slowest mine else held
    let n := groupDepth s m lc c
    { w with clock := c, n := n, kp := refreshDepth m n }

def placePort (l e : List Found) (p : Nat) (w : WPort) : WPort :=
  let f := l.find? (fun x => x.port == p)
  { w with
    chain := (f.map Found.chain).getD 0, clock := (f.map Found.clock).getD .none, phase := (f.map Found.phase).getD 0
    inCanvas := e.any (fun x => x.port == p) }

/-- The least depth of the groups in use. -/
def leastDepth (l : List WGroup) : Nat :=
  ((l.filter (fun w => !decide (w.clock = .none))).map WGroup.n).foldl min 16

def placeCensus (l : List Found) (geom : Option WGeom) (e : List Found) (s : State) : State :=
  let m := refreshesInUse s
  let lc := match e with | f :: _ => f.chain | [] => wantedLength s (l.filter (fun f => named s f.port && wholeUnits s f))
  let groups := s.weft.group.mapIdx (fun g w => placeGroup s e m lc g w)
  modWeft (fun w => { w with
    port := w.port.mapIdx (fun p x => placePort l e p x), group := groups, geom := geom, chainLen := lc
    timing := if e.isEmpty then none else some (weftTiming s (leastDepth groups)) }) s

/-- `f:WEFT_CENSUS` per port and for every port (Table 13.10; R60 for a port that shows no chain and is not named). -/
def censusFaults (l : List CensusPort) (s : State) : State :=
  let s := (List.range 64).foldl (fun st p =>
    let seen := ((l[p]?).bind markerCount).isSome || (st.weft.port.getD p {}).chain != 0
    let concerned := named st p && (((portMap st).1).isSome || seen)
    if inCanvas st p then clearFault .weftCensus (BitVec.ofNat 32 p) st
    else if concerned then raise .weftCensus (BitVec.ofNat 32 p) st
    else clearFault .weftCensus (BitVec.ofNat 32 p) st) s
  if anyCanvas s then clearFault .weftCensus 0xFF s else raise .weftCensus 0xFF s

/-- The copies that verify under the wear key (19 R921, Table 19.10). -/
def validCopies (s : State) : List WearCopy := s.ldg.copies.filter (fun c => some c.keyed == storedKey s .wear)

/-- The newest valid copy whose geometry matches (19 R921). -/
def matchingCopy (s : State) : Option WearCopy :=
  let g := blockGrid s
  (validCopies s).find? (fun c => c.cols == g.1 && c.rows == g.2)

/-- The wear map from the ledger, and the copies that the flash holds at this size (R920, R921, R926). -/
def loadWear (s : State) : State :=
  let g := blockGrid s
  let n := g.1 * g.2
  let npx := match s.weft.geom with | some x => x.tileW * x.tileH | none => 0
  let s := modWeft (fun w => { w with wear := List.replicate n 0, wblk := List.replicate n 1 }) s
  if !s.ldg.usable || n = 0 then s
  else
    let copies := copiesThatFit s.ldg.density npx
    let s := modLdg (fun z => { z with copyCount := copies }) s
    let s := if copies < 15 then raise .ldgAccess 3 (modLdg (fun z => { z with status := 3 }) s) else s
    if (storedKey s .wear).isNone then s
    else
      match matchingCopy s with
      | some c => modWeft (fun w => { w with wear := (List.range n).map (fun i => c.data.getD i 0 * 2 ^ 24) }) s
      | none => if (validCopies s).isEmpty then s else raise .ldgAccess 4 (modLdg (fun z => { z with status := 4 }) s)

/-- A domain that the census leaves without a port goes off at once (04 R149). -/
def gateUnused (s : State) : State :=
  let off (d : Nat) (hi : Bool) (s : State) : State :=
    if gating s && domOn s d && !portsInHalf s hi then abandonTests d (setDom s d (fun x => { x with phase := .off, offSince := none })) else s
  off 10 true (off 9 false s)

/-- The idle pattern is first shown, or R264 stands in its place, and the bring-up has ended: safe state and the mute end, markers
and audio clocks start, and with the idle pattern an action of the self-test held until now (06 R225, R257, R264, 14 R697, 15 R736,
R757). -/
def firstIdle (s : State) : State :=
  if !s.boot.censusDone || s.mark.on then s
  else
    let s := { s with
      boot := { s.boot with idleShown := anyCanvas s, ended := true }
      aud := { s.aud with clocks := true }
      mark := { s.mark with on := true } }
    let s := endSafe (ownBright true s)
    if s.boot.idleShown then releaseHeld s else s

/-- A domain is on, or is held off and leaves its ports dark (R177). -/
def domSettled (s : State) (d : Nat) : Bool := domOn s d || (domAt s d).heldOff

/-- The domains of the ports to read have settled. -/
def censusReady (s : State) : Bool :=
  runs s && s.mem.ready &&
  (List.range 64).all (fun p => !readsPort s p || domSettled s (portDom p)) &&
  (!s.boot.censusDone || !s.weft.recensus.isEmpty)

/-- R630 to R634: the census of all ports, or of those due again, is complete. -/
def execWeftCensusComplete (ports : List CensusPort) (s : State) : Out :=
  if !censusReady s then .next s
  else
    let first := !s.boot.censusDone
    let grid := blockGrid s
    let l := foundPorts s ports
    let a := acceptCanvas s (entering s l)
    let s := placeCensus l (a.map Prod.fst) ((a.map Prod.snd).getD []) s
    let s := censusFaults ports s
    let s := if first || blockGrid s != grid then loadWear s else s
    let s := (List.range 8).foldl (fun st g => configureGroup g st) s
    let s := if first then modWeft (fun w => { w with wearNext := some (s.now + secT 900), flushNext := some (s.now + secT 900) }) s else s
    let s := startLedger .census (modWeft (fun w => { w with recensus := [] }) s)
    let s := reportProgress (modBoot (fun z => { z with censusDone := true }) s)
    .next (firstIdle (gateUnused s))

/-! ### Pin trips, echoes and re-tests (R677 to R680, R969, R970) -/

/-- Detail of a pin: bit 7 for a group pin, and its number. -/
def pinDetail (p : WeftPin) : BitVec 32 :=
  match p with | .port p => BitVec.ofNat 32 p.val | .group g => BitVec.ofNat 32 (128 + g.val)

def pinDom (p : WeftPin) : List Nat :=
  match p with | .port p => [portDom p.val] | .group g => [portDom (8 * g.val)]

def pinTripped (s : State) (p : WeftPin) : Option (WBlank × Ticks) :=
  match p with | .port p => (s.weft.port.getD p.val {}).trip | .group g => (s.weft.group.getD g.val {}).trip

/-- The pin is driven, so its comparator is active. -/
def pinDriven (s : State) (p : WeftPin) : Bool :=
  runs s && bankUsable s .weft && (pinDom p).all (domOn s) && (pinTripped s p).isNone

/-- High-impedance and blanked for a cause from now on. -/
def setTrip (p : WeftPin) (t : Option (WBlank × Ticks)) (s : State) : State :=
  match p with
  | .port p => modWeft (fun w => { w with port := updAt w.port p.val (fun x => { x with hiZ := t.isSome, trip := t }) }) s
  | .group g => modWeft (fun w => { w with group := updAt w.group g.val (fun x => { x with hiZ := t.isSome, trip := t }) }) s

def pinGroup (p : WeftPin) : Nat := match p with | .port p => p.val / 8 | .group g => g.val

/-- 16 mismatched edges fall within 1,024 edges (R677). -/
def trips (edges : List Nat) : Bool :=
  edges.any (fun e => decide (16 ≤ (edges.eraseDups.filter (fun x => decide (e ≤ x) && decide (x < e + 1024))).length))

/-- The pins that trip together with a pin, on the same edges. -/
def contending (s : State) (edges : List Nat) (others : List PinEdges) : List WeftPin :=
  (others.filter (fun o => pinDriven s o.pin && trips o.edges && o.edges.any edges.contains)).map PinEdges.pin

/-- R677, R678: a pin trips alone, a short, or together with others on the same edges, contention. -/
def execWeftPinTrip (pin : WeftPin) (edges : List Nat) (others : List PinEdges) (s : State) : Out :=
  if !pinDriven s pin || !trips edges then .next s
  else
    match contending s edges others with
    | [] => .next (raise .weftShort (pinDetail pin) (setTrip pin (some (.short, s.now)) s))
    | l => .next (raise .weftContention (pinDetail pin)
        ((pin :: l).foldl (fun st q => setTrip q (some (.contention, st.now)) st) s))

/-- The run of mismatches after a word or plane; it stops at 16. -/
def echoStep (n : Nat) (e : EchoWord) : Nat := if 16 ≤ n then n else if e.sent = e.back then 0 else n + 1

def modPort (p : Nat) (f : WPort → WPort) (s : State) : State := modWeft (fun x => { x with port := updAt x.port p f }) s

/-- R680, Table 13.10: the echo of a port mismatches for 16 consecutive words or planes. -/
def execWeftSdoMismatch (port : Fin 64) (echo : List EchoWord) (s : State) : Out :=
  let w := s.weft.port.getD port.val {}
  if !runs s || !w.inCanvas || w.sdo.isSome || !portLive s port.val then .next s
  else
    let n := echo.foldl echoStep w.echoRun
    if n < 16 then .next (modPort port.val (fun y => { y with echoRun := n }) s)
    else .next (raise .weftSdo (BitVec.ofNat 32 port.val) (modPort port.val (fun y => { y with sdo := some s.now, echoRun := 0 }) s))

/-- The group of a pin returns at the next beat (R675, R680). -/
def returnGroup (g : Nat) (s : State) : State :=
  modWeft (fun w => { w with group := updAt w.group g (fun x => { x with restore := true }) }) s

/-- Ports without a chain that a re-test frees are censused again (R630). -/
def recensusFreed (p : WeftPin) (s : State) : State :=
  let l := match p with | .port p => [p.val] | .group g => groupPorts g.val
  let need := (List.finRange 64).filter (fun q => l.contains q.val && (s.weft.port.getD q.val {}).chain == 0 && named s q.val)
  if s.boot.censusDone then
    modWeft (fun w => { w with recensus := w.recensus ++ need.filter (fun q => !w.recensus.contains q) }) s
  else s

/-- A trip's re-test every 60 s of a short, every 10 s of contention. A channel flagged short keeps `f:WEFT_SHORT` of its port until the
next bring-up. -/
def retestTrip (pin : WeftPin) (cause : WBlank) (at_ : Ticks) (pass : Bool) (s : State) : State :=
  let period := match cause with | .short => secT 60 | _ => secT 10
  if s.now < at_ + period then s
  else if !pass then setTrip pin (some (cause, s.now)) s
  else
    let s := recensusFreed pin (returnGroup (pinGroup pin) (setTrip pin none s))
    let d := pinDetail pin
    match cause, pin with
    | .contention, _ => clearFault .weftContention d s
    | _, .port p => if s.weft.shortSeen.any (fun x => x.1 == p.val) then s else clearFault .weftShort d s
    | _, .group _ => clearFault .weftShort d s

/-- The re-census of a port under `f:WEFT_SDO` every 10 s. -/
def retestSdo (p : Fin 64) (at_ : Ticks) (pass : Bool) (s : State) : State :=
  let set_ (v : Option Ticks) (s : State) : State :=
    modWeft (fun x => { x with port := updAt x.port p.val (fun y => { y with sdo := v }) }) s
  if s.now < at_ + secT 10 then s
  else if !pass then set_ (some s.now) s
  else clearFault .weftSdo (BitVec.ofNat 32 p.val) (returnGroup (p.val / 8) (set_ none s))

/-- R678, R680: a tripped pin, or a port whose echo failed, is tested again. -/
def execWeftRetest (pin : WeftPin) (pass : Bool) (s : State) : Out :=
  if !runs s || !bankUsable s .weft || !(pinDom pin).all (domOn s) then .next s
  else
    match pinTripped s pin, pin with
    | some t, _ => .next (retestTrip pin t.1 t.2 pass s)
    | none, .port p =>
      match (s.weft.port.getD p.val {}).sdo with
      | some t => .next (retestSdo p t pass s)
      | none => .next s
    | none, .group _ => .next s

/-- A group is blanked by `WGg_ROWEN_N`: for a trip or an echo, and until the beat after a pass. -/
def groupBlanked (s : State) (g : Nat) : Bool :=
  let w := s.weft.group.getD g {}
  w.trip.isSome || w.restore ||
  (groupPorts g).any (fun p => let x := s.weft.port.getD p {}; x.trip.isSome || x.sdo.isSome)

/-- At a beat the groups that passed are configured and lit again (R645, R675). -/
def restoreGroups (s : State) : State :=
  (List.range 8).foldl (fun st g =>
    if (st.weft.group.getD g {}).restore then
      configureGroup g (modWeft (fun w => { w with group := updAt w.group g (fun x => { x with restore := false }) }) st)
    else st) s

/-! ### Status reads (R650, R674) -/

/-- Channel blocks of a driver. -/
def readBlocks (s : State) : Nat := match drvClass s with | .g16 => 1 | _ => 3

/-- The row, block and kind whose flags come back now, true for short: those of the cycle under way, or in the visible sequence the
short reads at black and the open reads on white. -/
def readNow (s : State) : Option (Nat × Nat × Bool) :=
  match s.test.visible with
  | none => if s.weft.read.since.isSome then some (s.weft.read.row, s.weft.read.block, s.weft.read.kind) else none
  | some v =>
    let at_ (short : Bool) : Option (Nat × Nat × Bool) := some (v.reads / readBlocks s % scanRows s, v.reads % readBlocks s, short)
    if v.step = 1 then at_ true else if v.step = 2 && v.sub = 3 then at_ false else none

/-- A read reaches the drivers of a port. -/
def portRead (s : State) (p : Nat) : Bool := inCanvas s p && portLive s p

/-- A flag is of a channel that the read of a block covers. -/
def flagCovered (s : State) (block : Nat) (f : LedFlag) : Bool :=
  portRead s f.port.val && decide (f.driver < (s.weft.port.getD f.port.val {}).chain) &&
  decide (f.channel < drvChannels (drvClass s)) && f.channel / 16 == block

/-- A run belongs to a read of a row, block and kind. -/
def runOfRead (row block : Nat) (short : Bool) (r : LedRun) : Bool := r.row == row && r.channel / 16 == block && r.short == short

/-- The runs after a read: one more for each channel flagged, none for a channel read without a flag. -/
def runsAfter (s : State) (row block : Nat) (short : Bool) (flags : List LedFlag) : List LedRun :=
  let before (f : LedFlag) : Nat :=
    match s.weft.ledRun.find? (fun r => runOfRead row block short r && r.port == f.port.val && r.driver == f.driver && r.channel == f.channel) with
    | some r => r.n
    | none => 0
  s.weft.ledRun.filter (fun r => !runOfRead row block short r || !portRead s r.port) ++
  (flags.eraseDups.filter (flagCovered s block)).map (fun f => ⟨f.port.val, f.driver, f.channel, row, short, min 3 (before f + 1)⟩)

/-- Channels that this read finds flagged for the third time in a row. -/
def newlyFlagged (old new : List LedRun) : List LedRun := new.filter (fun r => r.n == 3 && !old.contains r)

/-- Detail of `f:WEFT_OPENLED`: port, driver, channel and row (19 Table 19.3). -/
def openDetail (r : LedRun) : BitVec 32 := BitVec.ofNat 32 (r.port + 256 * (r.driver % 256) + 65536 * (r.channel % 256) + 16777216 * (r.row % 256))

/-- A channel flagged in 3 consecutive reads (Table 13.10). -/
def flagChannel (r : LedRun) (s : State) : State :=
  if r.short then
    raise .weftShort (BitVec.ofNat 32 r.port) (modWeft (fun w => { w with
      shortSeen := (r.port, r.driver, r.channel) :: w.shortSeen.filter (fun x => x != (r.port, r.driver, r.channel)) }) s)
  else raise .weftOpenled (openDetail r) s

/-- The flags of a read are taken; the Bool says that a channel was flagged for the third time. -/
def takeFlags (row block : Nat) (short : Bool) (flags : List LedFlag) (s : State) : State × Bool :=
  let old := s.weft.ledRun
  let new := runsAfter s row block short flags
  let bad := newlyFlagged old new
  (bad.foldl (fun st r => flagChannel r st) (modWeft (fun w => { w with ledRun := new }) s), !bad.isEmpty)

/-- The next kind, block and row of the cycle; none after the last. -/
def nextRead (s : State) (r : WRead) : Option WRead :=
  if !r.kind then some { r with kind := true }
  else if r.block + 1 < readBlocks s then some { r with kind := false, block := r.block + 1 }
  else if r.row + 1 < scanRows s then some { r with kind := false, block := 0, row := r.row + 1 }
  else none

/-- A cycle has read every row, block and kind of every port: the next is due 10 min after its start (06 Table 6.4, R251). -/
def endReads (since : Ticks) (failed : Bool) (s : State) : State :=
  noteTest .led failed { s with weft := { s.weft with read := {} }, test := { s.test with ledNext := some (since + secT 600) } }

/-- The flags read in the frame that ends now are taken, and the cycle goes on; a slice abandoned has no effect and is run again (06
R242). -/
def takeRead (flags : List LedFlag) (s : State) : State :=
  if isClassS s || !anyCanvas s then s
  else if runsAgain s .led then ranAgain .led s
  else
    match readNow s with
    | none => s
    | some (row, block, short) =>
      let r := takeFlags row block short flags s
      let s := r.1
      match s.test.visible with
      | some v => modTest (fun z => { z with visible := some { v with reads := v.reads + 1, failed := v.failed || r.2 } }) s
      | none =>
        let failed := s.weft.read.failed || r.2
        match nextRead s s.weft.read with
        | some n => modWeft (fun w => { w with read := { n with failed := failed } }) s
        | none => endReads (s.weft.read.since.getD s.now) failed s

/-- A cycle starts every 10 min, and once in a requested suite; not while the visible sequence reads. -/
def startReads (s : State) : State :=
  let due := match s.test.ledNext with | none => true | some t => decide (t ≤ s.now)
  if isClassS s || !anyCanvas s || s.test.visible.isSome || s.weft.read.since.isSome || !(due || suiteWants s .led) then s
  else modWeft (fun w => { w with read := { since := some s.now } }) s

/-! ### Wear (R660, R661, 19 R920) -/

/-- Q40 units. -/
def q40 : Nat := 2524608000

/-- e of an integrator. -/
def efficacy (q : Nat) : Rat := 1 - 3 / 10 * (min (q / 2 ^ 24) q40 : Nat) / (q40 : Nat)

/-- Moves w towards its aim by at most 1/256. -/
def towards (w aim : Rat) : Rat := if w ≤ aim then min aim (w + 1 / 256) else max aim (w - 1 / 256)

/-- R661. -/
def updateWear (s : State) : State :=
  let es := s.weft.wear.map efficacy
  let low := es.foldl (fun (a : Rat) e => min a e) (1 : Rat)
  let ref := max low (1 - (wearPct s : Nat) / 100)
  let aim (p : Rat × Rat) : Rat := if wearPct s = 0 then 1 else towards p.1 (min 1 (ref / p.2))
  modWeft (fun w => { w with wblk := (w.wblk.zip es).map aim }) s

def execWearUpdate (s : State) : Out :=
  if runs s && s.boot.censusDone && dueBy s.now s.weft.wearNext then
    .next (updateWear (modWeft (fun w => { w with wearNext := some (s.now + secT 900) }) s))
  else .next s

/-- R660: the map is flushed every 15 min; the flush at standby entry belongs to its beat. -/
def execWearFlush (s : State) : Out :=
  if runs s && s.boot.censusDone && dueBy s.now s.weft.flushNext then
    .next (startFlush (modWeft (fun w => { w with flushNext := some (s.now + secT 900) }) s))
  else .next s

/-! ### The ledger's completions (19 R914, R920, R926) -/

/-- The operation in progress has been written. -/
def finishLedger (op : LedgerOp) (s : State) : State :=
  let s := modLdg (fun z => { z with fails := z.fails.filter (fun f => !decide (f.1 = op)) }) s
  match op with
  | .wear => finishFlush s
  | .faultLog => finishMirror s
  | .census => noteCensus s
  | .identity => noteIdentity s
  | .retag => s

/-- The region of an operation is abandoned after a second failure in a row. -/
def abandonRegion (op : LedgerOp) (s : State) : State :=
  let s := modLdg (fun z => { z with
    stopped := op :: z.stopped, status := 2
    copy := if op = .wear then none else z.copy
    mirroring := if op = .faultLog then 0 else z.mirroring }) s
  let s := if op = .wear then modWeft (fun w => { w with flushing := false }) s else s
  raise .ldgAccess 2 (nextLedger s)

/-- A program or erase ends; one that fails is tried again once. A fuse sequence that waited for it goes on (17 R831). The
re-tag of a rotation ends under `LEDGER_RETAG_DONE` when it succeeds. -/
def execLedgerProgramDone (ok : Bool) (s : State) : Out :=
  match s.ldg.busy with
  | none => .next (ledgerFreed s)
  | some op =>
    if !bankUsable s .misc then .next s
    else if ok then (if op = .retag then .next s else .next (ledgerFreed (nextLedger (finishLedger op s))))
    else if s.ldg.fails.any (fun f => decide (f.1 = op)) then .next (ledgerFreed (abandonRegion op s))
    else .next (modLdg (fun z => { z with fails := (op, 1) :: z.fails }) s)

end Sys2Proof.Machine
end

