-- ==== Sys2Proof/Machine/Markers.lean ====
section
/-!
DEFINITION. The marker channels: settings, checks, retries, re-tests and reductions (14 R681 to R720).
-/
namespace Sys2Proof.Machine
open Sys2Proof

def modChan (nn : Nat) (f : Chan → Chan) (s : State) : State := modMark (fun m => { m with chan := updAt m.chan nn f }) s
def modMGroup (g : Nat) (f : MGroup → MGroup) (s : State) : State := modMark (fun m => { m with group := updAt m.group g f }) s

/-! ### Settings (R681, R682, R696 to R703, R717) -/

/-- Current of a setting in µA (R681). -/
def currentUa (s : State) (q : Nat) : Nat := mkFullMa s * 1000 * q / 255

/-- q of the pattern of a group for channel nn at wall time t in ns (R691, R696). -/
def patternQ (s : State) (g t nn : Nat) : Nat :=
  let v := patternValue (mkPattern s g) t (markerU s (mkChannels s) (nn - g * mkChannels s)) (markerE s nn)
  let beta : Rat := if regulated s g then max (brightnessNow s) (1 / 4) else brightnessNow s
  min 255 (255 * v * beta + 1 / 2).floor.toNat

/-- Regulated groups in safe state (R701). -/
def safeQ (s : State) (g t nn : Nat) : Nat :=
  if !regulated s g then 0
  else match code s pinMkfall with | 0 => 0 | 1 => 128 | 2 => patternQ s g t nn | _ => 255

/-- Before reductions: safe state, step 6 of the visible self-test, or the pattern (R695, R698, R701). -/
def plainQ (s : State) (g t nn : Nat) : Nat :=
  if safeState s then safeQ s g t nn
  else match s.test.visible with
    | some v => if v.step == 6 && !regulated s g then (if g = mkRegulated s + v.sub then 255 else 0) else patternQ s g t nn
    | none => patternQ s g t nn

/-- Halvings in force on a channel: R717, and `f:TH_LIMIT` on non-regulated ones (19 R925, 20 R948). -/
def halvings (s : State) (g nn : Nat) : Nat :=
  b2n (isActive s .thLimit && !regulated s g) + b2n (chanAt s nn).halved +
  b2n (s.mark.reducedSince.isSome && (!regulated s g || s.mark.regReduced))

/-- Every channel is off: before the idle pattern, in standby from its entry beat on, and with VLED out of range (R697, R703,
R718). -/
def marksDark (s : State) : Bool := !s.mark.on || s.mark.vledOut || enteringStandby s || s.standby.asleep

/-- The setting from a whole millisecond on. -/
def settingAt (s : State) (t nn : Nat) : Nat :=
  match groupOfChan s nn with
  | none => 0
  | some g =>
    if marksDark s || (regulated s g && (mgroupAt s g).off) || (chanAt s nn).dead || (chanAt s nn).latched then 0
    else plainQ s g t nn / 2 ^ halvings s g nn

/-- The current that a sink passes at most: its setting, and 1.5 times that, up to 60 mA, under a supply-short check (R712). -/
def sinkLimitUa (s : State) (nn : Nat) : Nat :=
  let i := currentUa s (chanAt s nn).q
  if (chanAt s nn).limited then min 60000 (3 * i / 2) else i

/-! ### Checks (R712, R713) -/

def openCond (i : Nat) (m : MarkMeas) : Bool := m.vs < 250 && 2 * m.cur < i
def supplyCond (vled : Nat) (m : MarkMeas) : Bool := vled ≤ m.vs + 600
def quarterOf (q : Nat) : Nat := q / 64

def refMv (r : Reference) : Option Nat := match r with | .formed v => some v | .gathering _ => none

/-- The lowest reference of a quarter formed by another channel of the group. -/
def lowestOther (s : State) (g k nn : Nat) : Option Nat :=
  let l := ((chansOf s g).filter (· != nn)).filterMap (fun n => ((chanAt s n).refs[k]?).bind refMv)
  match l with | [] => none | x :: xs => some (xs.foldl min x)

/-- What a lamp short is judged against: the channel's reference, or, once flagged without one, the lowest of the others. -/
def judgeRef (s : State) (g nn : Nat) (c : Chan) : Option Nat :=
  match (c.refs[quarterOf c.q]?).bind refMv with
  | some v => some v
  | none => if c.shortF then lowestOther s g (quarterOf c.q) nn else none

def shortCond (ref : Option Nat) (m : MarkMeas) : Bool := match ref with | some r => decide (r + 1800 ≤ m.vs) | none => false

def runUp (cond : Bool) (n : Nat) : Nat := if cond then min 8 (n + 1) else 0

/-- One more sample of a quarter; 10 s of them form the reference. -/
def gather (vs : Nat) (r : Reference) : Reference :=
  match r with
  | .formed v => .formed v
  | .gathering l => if l.length + 1 = 10000 then .formed (lowerMedian (vs :: l)) else .gathering (vs :: l)

/-- One armed check. -/
def checkChan (now : Ticks) (i vled : Nat) (ref : Option Nat) (m : MarkMeas) (c : Chan) : Chan :=
  let o := openCond i m
  let p := supplyCond vled m
  let h := shortCond ref m
  { c with
    openRun := runUp o c.openRun, shortRun := runUp h c.shortRun, supplyRun := runUp p c.supplyRun, limited := p
    lastSupply := if p then some now else c.lastSupply
    openClearSince := if o then none else holdSince now c.openClearSince
    shortClearSince := if h then none else holdSince now c.shortClearSince
    refs := if o || p then c.refs else updAt c.refs (quarterOf c.q) (gather m.vs) }

/-- A channel's checks are armed: 1 mA or more. -/
def armed (s : State) (nn : Nat) : Bool := 1000 ≤ currentUa s (chanAt s nn).q

/-- The check of one channel of a formed group. -/
def checkOne (nn : Nat) (m : MarkMeas) (vled : Nat) (s : State) : State :=
  match groupOfChan s nn with
  | none => s
  | some g =>
    if armed s nn then
      modChan nn (checkChan s.now (currentUa s (chanAt s nn).q) vled (judgeRef s g nn (chanAt s nn)) m) s
    else s

/-! ### What a met condition does (R714 to R716) -/

/-- Channel, group and V_s in 0.1 V (19 Table 19.3). -/
def markDetail (nn g vs : Nat) : BitVec 32 := BitVec.ofNat 32 (nn + 256 * g + 65536 * min 255 (vs / 100))

/-- A regulated group is switched off whole. -/
def groupOff (g : Nat) (s : State) : State :=
  if regulated s g && !(mgroupAt s g).off then
    raise .mkGroupoff (BitVec.ofNat 32 g) (modMGroup g (fun x => { x with off := true, restore := false }) s)
  else s

/-- The check of a marker channel has failed in service (06 R251). -/
def noteMarker (s : State) : State := addResult (testNo .marker) .fail s

/-- A failed channel starts its passes anew and is re-tested from 10 s on. -/
def failChan (nn : Nat) (f : Chan → Chan) (s : State) : State :=
  modChan nn (fun c => f { c with passes := 0, nextRetest := some (s.now + secT 10) }) s

def noteOpen (nn g vs : Nat) (s : State) : State :=
  if (chanAt s nn).openRun < 8 || (chanAt s nn).openF then s
  else groupOff g (raise .mkOpen (markDetail nn g vs) (failChan nn (fun c => { c with openF := true }) (noteMarker s)))

def noteShort (met : Bool) (nn g vs : Nat) (s : State) : State :=
  if !met || (chanAt s nn).shortF then s
  else groupOff g (raise .mkShort (markDetail nn g vs) (failChan nn (fun c => { c with shortF := true }) (noteMarker s)))

/-- A latch-off: retried 1 s later, but for a channel that has used its retries. -/
def latchOff (nn g vs : Nat) (s : State) : State :=
  let d := markDetail nn g vs + BitVec.ofNat 32 (16777216 * min 255 (chanAt s nn).retries)
  let s := modChan nn (fun c => { c with
    latched := true, limited := false, supplyRun := 0, passes := 0, supplyOkSince := none, nextRetry := some (s.now + secT 1) }) s
  groupOff g (raise .mkSupplyshort d (noteMarker s))

def noteSupply (nn g vs : Nat) (s : State) : State :=
  if (chanAt s nn).supplyRun < 8 || (chanAt s nn).latched then s else latchOff nn g vs s

/-- The references of a quarter that lie 1.8 V or more above the lowest of the others are discarded (R713). -/
def discarded (s : State) (g k : Nat) : List Nat :=
  (chansOf s g).filter (fun n =>
    match ((chanAt s n).refs[k]?).bind refMv, lowestOther s g k n with
    | some v, some low => decide (low + 1800 ≤ v)
    | _, _ => false)

/-- Quarters in which a channel of the group has formed its reference since an earlier state. -/
def newlyFormed (old s : State) (g : Nat) : List Nat :=
  (List.range 4).filter (fun k => (chansOf s g).any (fun n =>
    (((chanAt s n).refs[k]?).bind refMv).isSome && (((chanAt old n).refs[k]?).bind refMv).isNone))

/-- Comparison of a group's references after a check. -/
def compareRefs (old : State) (meas : List MarkMeas) (g : Nat) (s : State) : State :=
  (newlyFormed old s g).foldl (fun st k =>
    (discarded st g k).foldl (fun t n =>
      noteShort true n g ((meas.getD n ⟨0, 0⟩).vs) (modChan n (fun c => { c with refs := updAt c.refs k (fun _ => .gathering []) }) t)) st) s

/-- What the met conditions of one channel do. -/
def actOn (meas : List MarkMeas) (nn : Nat) (s : State) : State :=
  match groupOfChan s nn with
  | none => s
  | some g =>
    let vs := (meas.getD nn ⟨0, 0⟩).vs
    noteSupply nn g vs (noteShort (8 ≤ (chanAt s nn).shortRun) nn g vs (noteOpen nn g vs s))

/-! ### What ends (Table 14.5) -/

/-- Open and lamp-short faults of a non-regulated channel end 10 s after the condition; a supply short 10 s after its retries
have passed. -/
def endFaults (nn : Nat) (s : State) : State :=
  match groupOfChan s nn with
  | none => s
  | some g =>
    let d := BitVec.ofNat 32 nn
    let free := !regulated s g
    let s := if free && (chanAt s nn).openF && passed s.now (chanAt s nn).openClearSince (secT 10) then
      clearFault .mkOpen d (modChan nn (fun c => { c with openF := false }) s) else s
    let s := if free && (chanAt s nn).shortF && passed s.now (chanAt s nn).shortClearSince (secT 10) then
      clearFault .mkShort d (modChan nn (fun c => { c with shortF := false }) s) else s
    if passed s.now (chanAt s nn).supplyOkSince (secT 10) then
      clearFault .mkSupplyshort d (modChan nn (fun c => { c with supplyOkSince := none }) s)
    else s

/-- A channel counts as failed in its group (R689, R715). -/
def failed (c : Chan) : Bool := c.openF || c.shortF || c.latched || c.dead

/-- Every failed channel has passed 3 re-tests in a row. -/
def allPassed (s : State) (g : Nat) : Bool :=
  (chansOf s g).all (fun n => let c := chanAt s n; !failed c || (3 ≤ c.passes && !c.dead))

/-- The group is lit again from this whole millisecond (R715). -/
def restoreGroup (g : Nat) (s : State) : State :=
  if !(mgroupAt s g).restore then s
  else
    let s := modMGroup g (fun _ => {}) s
    let s := (chansOf s g).foldl (fun st n =>
      clearFault .mkShort (BitVec.ofNat 32 n) (clearFault .mkOpen (BitVec.ofNat 32 n)
        (modChan n (fun c => { c with
          openF := false, shortF := false, latched := false, passes := 0, openRun := 0, shortRun := 0, supplyRun := 0
          nextRetest := none, nextRetry := none }) st))) s
    clearFault .mkGroupoff (BitVec.ofNat 32 g) s

/-- A regulated group with a channel that stays off is off (R689, R714). -/
def deadGroup (g : Nat) (s : State) : State := if (chansOf s g).any (fun n => (chanAt s n).dead) then groupOff g s else s

/-! ### Dissipation (R717) -/

/-- Since when a measure has exceeded its limit, and since when it has stayed below 80 % of it. -/
def overFrom (now : Ticks) (lim p : Nat) (t : Option Ticks) : Option Ticks := if lim < p then holdSince now t else none
def underFrom (now : Ticks) (lim p : Nat) (t : Option Ticks) : Option Ticks := if 100 * p < 80 * lim then holdSince now t else none

def channelLimit : Nat := 500000
def totalLimit : Nat := 2500000

/-- V_s × I in µW. -/
def powerUw (m : MarkMeas) : Nat := m.vs * m.cur / 1000

def trackChan (now : Ticks) (p : Nat) (c : Chan) : Chan :=
  { c with overSince := overFrom now channelLimit p c.overSince, underSince := underFrom now channelLimit p c.underSince }

def trackTotal (p : Nat) (s : State) : State :=
  modMark (fun m => { m with totalOver := overFrom s.now totalLimit p m.totalOver, totalUnder := underFrom s.now totalLimit p m.totalUnder }) s

/-- The measures of a millisecond. -/
def trackPower (meas : List MarkMeas) (s : State) : State :=
  let s := modMark (fun m => { m with chan := m.chan.mapIdx (fun n c => trackChan s.now (powerUw (meas.getD n ⟨0, 0⟩)) c) }) s
  trackTotal (sumNat (meas.map powerUw)) s

/-- A channel's reduction. -/
def reduceChan (nn : Nat) (s : State) : State :=
  let c := chanAt s nn
  let d := BitVec.ofNat 32 nn
  if !c.halved && passed s.now c.overSince (msT 100) then
    raise .mkThermal d (modChan nn (fun x => { x with halved := true }) s)
  else if c.halved && passed s.now c.underSince (secT 10) then
    clearFault .mkThermal d (modChan nn (fun x => { x with halved := false }) s)
  else s

/-- The reduction for the total: the non-regulated channels, and 1 s later the regulated groups too. -/
def reduceTotal (s : State) : State :=
  let m := s.mark
  if m.reducedSince.isNone && passed s.now m.totalOver (msT 100) then
    raise .mkThermal 0xFF (modMark (fun x => { x with reducedSince := some s.now }) s)
  else if m.reducedSince.isSome && passed s.now m.totalUnder (secT 10) then
    clearFault .mkThermal 0xFF (modMark (fun x => { x with reducedSince := none, regReduced := false }) s)
  else if passed s.now m.reducedSince (secT 1) && m.totalOver.isSome && !m.regReduced then
    modMark (fun x => { x with regReduced := true }) s
  else s

def execMarkerThermalReduce (t : Thermal) (s : State) : Out :=
  if !runs s || !domOn s 11 then .next s
  else
    match t with
    | .channel c p => .next (reduceChan c.val (modChan c.val (trackChan s.now p) s))
    | .total p => .next (reduceTotal (trackTotal p s))

/-! ### The whole millisecond (R682, R685) -/

/-- A measurement of VLED in mV: beyond 2.8 V to 17.5 V, within 3.0 V to 17 V, or between (04 Table 4.9). -/
def vledBad (v : Nat) : Bool := decide (v < 2800) || decide (17500 < v)
def vledGood (v : Nat) : Bool := decide (3000 ≤ v) && decide (v ≤ 17000)

def trackVled (v : Nat) (s : State) : State :=
  modMark (fun m => { m with
    vledBadSince := if vledBad v then holdSince s.now m.vledBadSince else none
    vledGoodSince := if vledGood v then holdSince s.now m.vledGoodSince else none }) s

/-- A whole millisecond of wall time has come. -/
def markDue (s : State) : Bool :=
  let ms := wallNs s / 1000000
  match s.mark.nextMs with | none => true | some m => m ≤ ms || ms + 1 < m

/-- The checks of every channel and their actions. -/
def checkAll (meas : List MarkMeas) (vled : Nat) (s : State) : State :=
  let old := s
  let s := (List.range 48).foldl (fun st n => checkOne n (meas.getD n ⟨0, 0⟩) vled st) s
  let s := (List.range (mkGroups s)).foldl (fun st g => compareRefs old meas g st) s
  (List.range 48).foldl (fun st n => endFaults n (actOn meas n st)) s

/-- Every channel takes the setting of this millisecond. -/
def setAllQ (s : State) : State :=
  let t := wallNs s / 1000000 * 1000000
  modMark (fun m => { m with ran := true, chan := m.chan.mapIdx (fun n c => { c with q := settingAt s t n }) }) s

/-- R682, R685: measured, checked and set. -/
def execMarkerUpdate (meas : List MarkMeas) (vled : Nat) (s : State) : Out :=
  if !runs s || !domOn s 11 || !s.time.running || !markDue s then .next s
  else
    let s := trackVled vled (modMark (fun m => { m with nextMs := some (wallNs s / 1000000 + 1) }) s)
    let s := if marksDark s then s else trackPower meas (checkAll meas vled s)
    let s := if marksDark s then s else (List.range (mkGroups s)).foldl (fun st g => restoreGroup g (deadGroup g st)) s
    .next (setAllQ s)

/-! ### Re-tests and retries (R714, R715) -/

/-- The retest setting: the higher of 16 and the lowest that gives 2 mA. -/
def retestQ (s : State) : Nat := max 16 ((2000 * 255 + mkFullMa s * 1000 - 1) / (mkFullMa s * 1000))

/-- A group whose failed channels have all passed returns at the next whole millisecond. -/
def noteRestore (g : Nat) (s : State) : State :=
  if (mgroupAt s g).off && allPassed s g then modMGroup g (fun x => { x with restore := true }) s else s

/-- None of the conditions holds on a check at the retest setting. -/
def checkPasses (s : State) (g nn vled : Nat) (m : MarkMeas) : Bool :=
  let q := retestQ s
  !openCond (currentUa s q) m && !supplyCond vled m && !shortCond (judgeRef s g nn { chanAt s nn with q := q }) m

/-- Re-tests and retries run while the channels may be lit. -/
def marksRun (s : State) : Bool := runs s && domOn s 11 && !marksDark s

def execMarkerRetest (ch : Fin 48) (first second : MarkMeas) (vled : Nat) (s : State) : Out :=
  match groupOfChan s ch.val with
  | none => .next s
  | some g =>
    let c := chanAt s ch.val
    if !marksRun s || !regulated s g || !(c.openF || c.shortF) || c.latched || !dueBy s.now c.nextRetest then .next s
    else
    let s := modChan ch.val (fun x => { x with retestMs := some (wallNs s / 1000000) }) s
    if checkPasses s g ch.val vled first && checkPasses s g ch.val vled second then
      let s := modChan ch.val (fun x => { x with passes := x.passes + 1, nextRetest := some (s.now + secT 10) }) s
      let d := BitVec.ofNat 32 ch.val
      .next (noteRestore g (clearFault .mkShort d (clearFault .mkOpen d s)))
    else .next (modChan ch.val (fun x => { x with passes := 0, nextRetest := some (s.now + secT 10) }) s)

/-- A retry that passes: a non-regulated channel returns to its pattern, a regulated one counts a passed re-test. -/
def retryPass (nn g : Nat) (s : State) : State :=
  let reg := regulated s g
  let s := modChan nn (fun c => { c with
    retries := min 15 (c.retries + 1), supplyOkSince := holdSince s.now c.supplyOkSince
    latched := reg, passes := if reg then c.passes + 1 else 0, nextRetry := if reg then some (s.now + secT 1) else none }) s
  noteRestore g s

/-- A retry that fails; after the 8th the channel stays off. -/
def retryFail (nn : Nat) (s : State) : State :=
  modChan nn (fun c =>
    let n := min 15 (c.retries + 1)
    { c with retries := n, passes := 0, supplyOkSince := none, lastSupply := some s.now, dead := decide (8 ≤ n)
             nextRetry := if 8 ≤ n then none else some (s.now + secT 1) }) s

def execSupplyShortRetry (ch : Fin 48) (meas : List MarkMeas) (vled : Nat) (s : State) : Out :=
  match groupOfChan s ch.val with
  | none => .next s
  | some g =>
    let c := chanAt s ch.val
    if !marksRun s || !c.latched || c.dead || !dueBy s.now c.nextRetry then .next s
    else if meas.any (supplyCond vled) then .next (retryFail ch.val s)
    else .next (retryPass ch.val g s)

/-- R714: 10 min without a supply-short check. -/
def execRetryCountClear (ch : Fin 48) (s : State) : Out :=
  let c := chanAt s ch.val
  if runs s && !c.dead && passed s.now c.lastSupply (secT 600) then
    .next (modChan ch.val (fun x => { x with retries := 0, lastSupply := none }) s)
  else .next s

/-! ### VLED (R718, 04 Table 4.9) -/

/-- Below 2.8 V or above 17.5 V for 10 ms with groups formed, every channel goes off. -/
def execVledOutOfRange (vled : Nat) (s : State) : Out :=
  if !runs s || !domOn s 11 then .next s
  else
    let s := trackVled vled s
    if mkGroups s = 0 || s.mark.vledOut || !passed s.now s.mark.vledBadSince (msT 10) then .next s
    else
      let s := modMark (fun m => { m with vledOut := true, chan := m.chan.map (fun c => { c with q := 0 }) }) s
      .next (raise .pwrVled (BitVec.ofNat 32 (vled / 100)) s)

/-- Back in 3.0 V to 17 V for 100 ms. -/
def execVledRestore (vled : Nat) (s : State) : Out :=
  if !runs s || !domOn s 11 then .next s
  else
    let s := trackVled vled s
    if s.mark.vledOut && passed s.now s.mark.vledGoodSince (msT 100) then
      .next (clearFault .pwrVled 0 (modMark (fun m => { m with vledOut := false }) s))
    else .next s

end Sys2Proof.Machine
end

