-- ==== Sys2Proof/Machine/Audio.lean ====
section
/-!
DEFINITION. Fetched samples, gains and TDM frames (15 R725, R727 to R747, R752 to R761).
-/
namespace Sys2Proof.Machine
open Sys2Proof

/-! ### Edges and lines (R727 to R729) -/

/-- The first counter value at or after frame edge m, in 2^-32 ns. -/
def edgeTime (s : State) (m : Int) : Int := -(-(m * nsF 1000000000) / audRate s)

/-- The ring line of a source sample, when it stands in the ring. -/
def ringEntry (f : AFlow) (i : Int) : Option RingLine := f.ring.find? (fun x => x.index == i)

/-- The 32-bit word of channel c in a ring line, signed. -/
def ringWord (s : State) (r : Fin 4) (i : Int) (c : Nat) : Int :=
  beSigned ((List.range 4).map (fun b => Memory.get s.mem.bytes (64 * ringLine r i + 4 * c + b)))

/-- The converter reads the 64 source samples around its position; one that is not in the ring counts as 0 (R729). -/
def around (s : State) (f : AFlow) (r : Fin 4) (i : Int) (c : Nat) : List Int :=
  (List.range 64).map (fun k =>
    let j := i - 31 + (k : Int)
    match ringEntry f j with | some _ => ringWord s r j c | none => 0)

/-- Source position of output sample m: whole samples, and the rest in units of 1/fs of a source period. -/
def sourcePos (s : State) (m : Int) : Int × Nat :=
  let n := (m - audioDelta s) * 48000
  (n / audRate s, (n % audRate s).toNat)

/-- The value of channel c at output sample m. -/
def sampleValue (s : State) (f : AFlow) (r : Fin 4) (m : Int) (c : Nat) : Int :=
  let p := sourcePos s m
  if audRate s = 48000 then ringWord s r p.1 c else Config.resample (audRate s) p.2 (around s f r p.1 c)

/-! ### Fetching one flow (R722, R728, R730, R746, R749, R761) -/

/-- What a fetch finds on a flow. -/
inductive FetchEvent | none | missing | poisoned
  deriving DecidableEq, Repr

structure FlowFetch where
  val : List Int
  st : List SampleSt
  flow : AFlow
  event : FetchEvent
  deriving DecidableEq, Repr

def zeros16 : List Int := List.replicate 16 0

/-- All 16 positions of the flow carry the same kind of zero, those beyond its channels nothing. -/
def allZero (n : Nat) (a : SampleSt) (f : AFlow) (e : FetchEvent) : FlowFetch :=
  ⟨zeros16, (List.range 16).map (fun c => if c < n then a else .unassigned), f, e⟩

/-- The lines that the sample needs: its own, and the next one between two of them. -/
def neededLines (s : State) (m : Int) : List Int :=
  let p := sourcePos s m
  if p.2 = 0 then [p.1] else [p.1, p.1 + 1]

/-- A sample whose lines stand in the ring and can be trusted. -/
def goodFetch (s : State) (f : AFlow) (r : Fin 4) (l : RingLine) (n : Nat) (m : Int) : FlowFetch :=
  let pair (c : Nat) : Bool := l.nonAudio.contains (c / 2) && c / 2 * 2 + 1 < n
  ⟨(List.range 16).map (fun c => if c < n && !pair c then sampleValue s f r m c else 0),
   (List.range 16).map (fun c => if n ≤ c then .unassigned else if pair c then .silent else .good), f, .none⟩

/-- The sender whose sample comes next; another one makes a route start (R730). -/
def noteSender (l : RingLine) (f : AFlow) : AFlow :=
  match f.playing with
  | some x => if x = (l.ip, l.ssrc) then f else { f with playing := some (l.ip, l.ssrc), startLeft := 64 }
  | none => { f with playing := some (l.ip, l.ssrc) }

def fetchLine (s : State) (f : AFlow) (r : Fin 4) (n : Nat) (m : Int) : FlowFetch :=
  let lines := (neededLines s m).map (ringEntry f)
  match lines.head?.join with
  | none =>
    if 0 < f.startLeft then allZero n .start { f with startLeft := f.startLeft - 1 } .none
    else if f.noSource then allZero n .silent f .none
    else allZero n .missing f .missing
  | some l =>
    let f := noteSender l f
    if 0 < f.startLeft then allZero n .start { f with startLeft := f.startLeft - 1 } .none
    else if lines.any Option.isNone then allZero n .missing f .missing
    else if (neededLines s m).any (fun i => untrusted (lineBad s (ringLine r i))) then allZero n .missing f .poisoned
    else goodFetch s f r l n m

def fetchFlow (s : State) (m : Int) (f : AFlow) : FlowFetch :=
  match audioFormat s f.slot, f.region with
  | some fmt, some r => fetchLine s f r fmt.channels m
  | _, _ => allZero 16 .silent f .none

/-- The faults of a fetch (Table 15.3, R761). -/
def fetchFaults (n : Nat) (e : FetchEvent) (s : State) : State :=
  match e with
  | .none => s
  | .missing => raiseLimited .audUnderrun n (secT 60) (BitVec.ofNat 32 n) s
  | .poisoned => raiseLimited .audUnderrun n (secT 60) (BitVec.ofNat 32 n) (poisoned 2 s)

/-- Output sample m is fetched from every flow of the route. -/
def fetchSample (m : Int) (s : State) : State :=
  let l := s.aud.flows.map (fetchFlow s m)
  let pad (xs : List Int) : List Int := (xs ++ List.replicate 64 0).take 64
  let padSt (xs : List SampleSt) : List SampleSt := (xs ++ List.replicate 64 SampleSt.unassigned).take 64
  let x : Fetched := ⟨m, pad (l.flatMap FlowFetch.val), padSt (l.flatMap FlowFetch.st)⟩
  let s := modAud (fun a => { a with flows := l.map FlowFetch.flow, pipe := a.pipe ++ [x], m := some (m + 1) }) s
  (l.mapIdx (fun i y => (i, y.event))).foldl (fun st e => fetchFaults e.1 e.2 st) s

/-! ### Route switch (R730, R741) -/

def slotAt (l : List Nat) (p : Nat) : Option Nat := l[p / 16]?

/-- The positions whose source changes. -/
def changedPositions (old new : List Nat) : List Nat :=
  (List.range 64).filter (fun p => slotAt old p != slotAt new p)

/-- A position ramps down over the samples that remain, unless it is down already. -/
def downFor (r : Nat) (p : Option Ramp) : Option Ramp :=
  match p with
  | some x => if x.up then some ⟨false, 0, r⟩ else some x
  | none => some ⟨false, 0, r⟩

def downPositions (l : List Nat) (r : Nat) (s : State) : State :=
  modAud (fun a => { a with posRamp := a.posRamp.mapIdx (fun p x => if l.contains p then downFor r x else x) }) s

/-- A flow of the new route: kept in its place, moved, ingested ahead, or new (R741). -/
def routeFlow (s : State) (i slot : Nat) : AFlow :=
  match s.aud.flows[i]? with
  | some f => if f.slot == slot then f else other
  | none => other
where
  other : AFlow :=
    match (s.aud.flows ++ s.aud.nextFlows).find? (fun f => f.slot == slot) with
    | some f => { f with startLeft := 64 }
    | none => { slot := slot, selectedAt := s.now }

/-- Flows without a ring take a free one. -/
def giveRings (l : List AFlow) : List AFlow :=
  l.foldl (fun acc f =>
    match f.region with
    | some _ => acc ++ [f]
    | none => acc ++ [{ f with region := ([0, 1, 2, 3] : List (Fin 4)).find? (fun r => !(acc ++ l).any (fun g => g.region == some r)) }]) []

/-- From the switch point on the samples come from the new route. -/
def swapRoute (want : List Nat) (point : Int) (s : State) : State :=
  let gone := changedPositions (s.aud.flows.map AFlow.slot) want
  let next := match s.aud.pipe with | x :: _ => x.index | [] => point
  let s := downPositions gone (max 1 (point - next).toNat) s
  let l := giveRings (want.mapIdx (fun i slot => routeFlow s i slot))
  modAud (fun a => { a with flows := l, nextFlows := [] }) s

/-- The route switches when its first sample is fetched. -/
def switchIfDue (m : Int) (s : State) : State :=
  match s.aud.switchTo with
  | some (want, some point) =>
    if point ≤ m && want != s.aud.flows.map AFlow.slot then swapRoute want point s else s
  | _ => s

/-! ### Gains (R740, R743 to R746) -/

/-- g(i) of a ramp of R samples. -/
def rise (i r : Nat) : Rat :=
  if i = 0 then 0 else if r ≤ i then 1 else (1 - cosTurn ((i : Nat) / (2 * r : Nat))) / 2

def rampGain (x : Ramp) : Rat := if x.up then rise x.i x.r else 1 - (if x.r ≤ x.i then 1 else rise x.i x.r)
def rampZero (x : Ramp) : Bool := if x.up then x.i == 0 else x.r ≤ x.i

/-- Gain of an output under its mutes and its ramp. -/
def outGain (o : AOut) : Rat := match o.ramp with | some x => rampGain x | none => if o.mute.isEmpty then 1 else 0
def outZero (o : AOut) : Bool := match o.ramp with | some x => rampZero x | none => !o.mute.isEmpty

def posGain (x : Option Ramp) : Rat := match x with | some r => rampGain r | none => 1
def posZero (x : Option Ramp) : Bool := match x with | some r => rampZero r | none => false

/-- Gain of a level code: -0.5 × q dB, or off (R743). -/
def levelGain (q : Nat) : Rat := if q = 0 then 1 else if q = 255 then 0 else powR 10 (-(q : Rat) / 40)

/-- Samples from here to the next missing one of a position, within the fade. -/
def toGap (rest : List Fetched) (p : Nat) : Option Nat :=
  (rest.take 32).findIdx? (fun x => decide (x.st.getD p .unassigned = .missing))

/-- Fades before and after a gap (R746). -/
def gapGain (rest : List Fetched) (since p : Nat) : Rat :=
  (match toGap rest p with | some d => rise (d + 1) 32 | none => 1) * rise (min (since + 1) 32) 32

/-- Rounded with halves away from zero, and clipped to a width (R745). -/
def roundAway (x : Rat) : Int := if x < 0 then -((-x + 1 / 2).floor) else (x + 1 / 2).floor
def clipTo (w : Nat) (v : Int) : Int := max (-(2 ^ (w - 1) : Nat)) (min ((2 ^ (w - 1) : Nat) - 1) v)

/-! ### One output at one frame (R725, R731, R732, R738, R739, R744) -/

/-- What one data slot carries. -/
structure SlotOut where
  word : Int
  valid : Bool
  value : Int
  deriving DecidableEq, Repr

/-- Gain of an output's ramp and of a position's together. Where both move they are one ramp, the lower of the two: a mute and a route
switch give one (03 R125, R752; log 78). Level and gap fades multiply with it (R755). -/
def rampGainOf (o : AOut) (ramp : Option Ramp) : Rat := min (outGain o) (posGain ramp)

/-- The sample of data slot j of an output whose first position is `base`. -/
def slotOut (s : State) (x : Fetched) (rest : List Fetched) (o : AOut) (base j : Nat) : SlotOut :=
  let p := base + j
  let width := (tdmFmt (code s pinTdmfmt)).2.2
  if x.st.getD p .unassigned = .good ∧ p < 64 then
    let v := x.val.getD p 0
    let ramp := s.aud.posRamp.getD p none
    let gain := rampGainOf o ramp * gapGain rest (s.aud.gap.getD p 33) p * levelGain (o.chanLevel.getD j 0)
    ⟨clipTo width (roundAway (v * gain / (2 ^ (32 - width) : Nat))), !outZero o && !posZero ramp, v⟩
  else ⟨0, false, 0⟩

/-- The next sample crosses zero, is zero, or has none before it (R744). -/
def crosses (prev : Option Bool) (v : Int) : Bool :=
  v == 0 || (match prev with | some neg => neg != decide (v < 0) | none => true)

/-- A pending level takes effect on one channel. -/
def applyLevel (j : Nat) (o : AOut) : AOut :=
  match o.pendLevel with
  | none => o
  | some (q, t, done) =>
    if done.contains j then o
    else
      let done := j :: done
      { o with chanLevel := updAt o.chanLevel j (fun _ => q)
               pendLevel := if 32 ≤ done.length then none else some (q, t, done) }

/-- Whether the pending level of a channel applies at a sample value. -/
def levelReady (now : Ticks) (o : AOut) (j : Nat) (v : Int) : Bool :=
  match o.pendLevel with
  | none => false
  | some (_, t, done) => !done.contains j && (decide (t ≤ now) || crosses (o.lastSign.getD j none) v)

/-- Value of the source sample of an output's channel; 0 where it carries none. -/
def channelValue (x : Fetched) (base j : Nat) : Int :=
  if x.st.getD (base + j) .unassigned = .good then x.val.getD (base + j) 0 else 0

def applyLevels (now : Ticks) (x : Fetched) (base : Nat) (o : AOut) : AOut :=
  (List.range 32).foldl (fun a j => if levelReady now o j (channelValue x base j) then applyLevel j a else a) o

/-- Pages of the status slot, and the data slots of one. -/
def statusPages (n w : Nat) : Nat := ceilDiv (n - 1) (w - 2)

/-- The status word of frame m: the page in the two highest bits, then the validity of its data slots. -/
def statusWord (n w : Nat) (m : Int) (valid : List Bool) : Nat :=
  let p := (m % (statusPages n w : Int)).toNat
  p * 2 ^ (w - 2) + (List.range (w - 2)).foldl (fun a i =>
    let j := p * (w - 2) + i
    if j < n - 1 && valid.getD j false then a + 2 ^ (w - 3 - i) else a) 0

/-- The validity kept for the next pages: a page sent starts afresh. -/
def afterPage (n w : Nat) (m : Int) (valid : List Bool) : List Bool :=
  let p := (m % (statusPages n w : Int)).toNat
  valid.mapIdx (fun j v => if p * (w - 2) ≤ j && j < (p + 1) * (w - 2) then true else v)

def nextRamp (r : Option Ramp) : Option Ramp :=
  match r with | some x => if x.r ≤ x.i + 1 then none else some { x with i := x.i + 1 } | none => none

/-- A whole output at one frame. -/
def outFrame (s : State) (x : Fetched) (rest : List Fetched) (base : Nat) (o : AOut) : AOut :=
  let n := tdmSlots s
  let fmt := tdmFmt (code s pinTdmfmt)
  let w := fmt.2.1
  let o := applyLevels s.now x base o
  let l := (List.range (tdmData s)).map (slotOut s x rest o base)
  let valid := o.valid.mapIdx (fun j v => v && (match l[j]? with | some y => y.valid | none => false))
  let words := l.map (fun y => (y.word % ((2 ^ fmt.2.2 : Nat) : Int)).toNat * 2 ^ (w - fmt.2.2))
  { o with
    prev := o.frame
    frame := if tdmStatus s then words ++ [statusWord n w x.index valid] else words
    valid := if tdmStatus s then afterPage n w x.index valid else o.valid
    invalid := o.invalid + (l.filter (fun y => !y.valid)).length
    lastSign := (List.range 32).map (fun j => some (decide (channelValue x base j < 0)))
    ramp := nextRamp o.ramp }

/-! ### Ramps of the positions (R741, R749, R752, R756) -/

/-- A position held at gain 0 with no ramp before it, for silence and non-audio (R749). -/
def silentHold : Ramp := ⟨false, 0, 0⟩

/-- A ramp that moves. -/
def moving (x : Option Ramp) : Bool := match x with | some r => r.up || r.i < r.r | none => false

/-- The next ramp of a position after a sample of a status; `busy` when another ramp of its output is still moving. While the output is
muted its positions stay down (R752). -/
def nextPos (r : Nat) (busy muted : Bool) (st : SampleSt) (x : Option Ramp) : Option Ramp :=
  match st, x with
  | .silent, _ => some silentHold
  | .unassigned, _ => some silentHold
  | .good, some y =>
    if y.up then (if y.r ≤ y.i + 1 then none else some { y with i := y.i + 1 })
    else if y.i < y.r then some { y with i := y.i + 1 }
    else if muted || (y.r = 0 && busy) then some y
    else some ⟨true, 1, r⟩
  | _, some y => if !y.up && y.i < y.r then some { y with i := y.i + 1 } else some y
  | _, none => none

/-- The switch point, or the frame edge of an announced step, towards which positions ramp down, with those positions. -/
def fadeGoals (s : State) : List (Int × List Nat) :=
  (match s.aud.switchTo with
    | some (want, some point) => [(point, changedPositions (s.aud.flows.map AFlow.slot) want)]
    | _ => []) ++
  (match s.time.stepAnn with
    | some a => [(edgeTimeIndex a.beat, List.range 64)]
    | none => [])
where
  edgeTimeIndex (b : BitVec 32) : Int :=
    let d : Int := 1000000000 * 4294967296
    (beatF s (resolveBeat s b).toNat * audRate s + (d - 1)) / d

/-- Ramps down begin R samples ahead of their goal, or over the samples that remain (R741, R753). -/
def startFades (m : Int) (s : State) : State :=
  (fadeGoals s).foldl (fun st g =>
    if m < g.1 && g.1 ≤ m + audRamp s then downPositions g.2 (g.1 - m).toNat st else st) s

/-- A switch whose point has come is over. -/
def endSwitch (m : Int) (s : State) : State :=
  match s.aud.switchTo with
  | some (_, some point) => if point ≤ m then modAud (fun a => { a with switchTo := none }) s else s
  | _ => s

/-- One fetched sample reaches its frame edge. -/
def emitSample (x : Fetched) (rest : List Fetched) (s : State) : State :=
  let s := startFades x.index s
  let nu := tdmData s
  let outA := outFrame s x rest 0 s.aud.outA
  let outB := outFrame s x rest nu s.aud.outB
  let busy (p : Nat) : Bool :=
    let o := if p < nu then s.aud.outA else s.aud.outB
    let base := if p < nu then 0 else nu
    o.ramp.isSome || (List.range nu).any (fun j => base + j != p && moving (s.aud.posRamp.getD (base + j) none))
  let muted (p : Nat) : Bool := !(if p < nu then s.aud.outA else s.aud.outB).mute.isEmpty
  let pos := s.aud.posRamp.mapIdx (fun p r => nextPos (audRamp s) (busy p) (muted p) (x.st.getD p .unassigned) r)
  let gap := s.aud.gap.mapIdx (fun p n => if x.st.getD p .unassigned = .missing then 0 else min 33 (n + 1))
  endSwitch x.index (modAud (fun a => { a with outA := outA, outB := outB, posRamp := pos, gap := gap, pipe := rest, frameAt := some x.index }) s)

/-- The TDM clocks run (R736, R761); not while VIO_M is lost (02 Table 2.13). -/
def tdmRuns (s : State) : Bool := s.aud.clocks && runs s && domOn s 3 && domOn s 11 && bankUsable s .misc

/-- Every fetched sample whose frame edge has come. -/
def playAll : Nat → State → State
  | 0, s => s
  | n + 1, s =>
    match s.aud.pipe with
    | [] => s
    | x :: rest => if edgeTime s x.index ≤ counterOf s then playAll n (emitSample x rest s) else s

/-! ### Steps (R730, R737, R753) -/

/-- After a step the frames start on the new grid, and every live position starts its route anew. -/
def restartAudio (s : State) : State :=
  let first := edgeAtOrAfter s (counterOf s + nsF 1000000000 * 2 / bclkRate s)
  modAud (fun a => { a with
    pipe := [], m := some first, firstFrame := first, grid := if tdmRuns s then .finishing else .on
    flows := a.flows.map (fun f => { f with startLeft := 64 })
    posRamp := a.posRamp.map (fun r => match r with | none => some ⟨false, 1, 1⟩ | some x => if x.up || x.i < x.r then some ⟨false, 1, 1⟩ else some x) }) s

/-- A step is followed, and every sample whose edge has come is played; while the clocks stand still they are lost. -/
def playDue (s : State) : State :=
  let s := if s.time.stepped then restartAudio (modTime (fun t => { t with stepped := false }) s) else s
  if tdmRuns s then playAll s.aud.pipe.length s
  else if s.aud.pipe.isEmpty then s
  else modAud (fun a => { a with pipe := [] }) s

/-! ### The TDM clocks (R733 to R737) -/

/-- Falling edges of the bit clock up to a wall time. -/
def bitCount (s : State) (t : Int) : Int := t * bclkRate s / wallModulus

/-- One clock of the audio dividers, in which the counter has gone from one wall time to another (05 R201, R734). After a time step the
bit-clock period in progress is completed; the clock then stays low until the new grid's next falling edge (R737). -/
def audioClock (before after : Int) (s : State) : State :=
  let d := s.clk.div
  let step := (after - before).toNat
  let onGrid := { d with mclk := aligned (mclkRate s) after d.mclk, bclk := aligned (bclkRate s) after d.bclk }
  if !tdmRuns s then modAud (fun a => { a with grid := .on }) { s with clk := { s.clk with div := onGrid } }
  else
    match s.aud.grid with
    | .on =>
      modClk (fun z => { z with div := { d with
        mclk := d.mclk.clock (step * mclkRate s) wallModulus, bclk := d.bclk.clock (step * bclkRate s) wallModulus } }) s
    | .finishing =>
      let b := d.bclk.clock (step * bclkRate s) wallModulus
      let done := b.events != d.bclk.events
      let s := modClk (fun z => { z with div := { d with
        mclk := d.mclk.clock (step * mclkRate s) wallModulus, bclk := if done then { b with acc := 0 } else b } }) s
      if done then modAud (fun a => { a with grid := .waiting }) s else s
    | .waiting =>
      if bitCount s before < bitCount s after then modAud (fun a => { a with grid := .on }) { s with clk := { s.clk with div := onGrid } }
      else modClk (fun z => { z with div := { d with mclk := d.mclk.clock (step * mclkRate s) wallModulus } }) s

/-- `AUD_MCLK`: high from each rising edge for half a period (R734). -/
def mclkLevel (s : State) : Bool := tdmRuns s && decide (2 * s.clk.div.mclk.acc < wallModulus)

/-- `TDM_A_BCLK` and `TDM_B_BCLK`: low from each falling edge for half a period (R733, R734). -/
def bclkLevel (s : State) : Bool := tdmRuns s && decide (wallModulus ≤ 2 * s.clk.div.bclk.acc)

/-- The frame under way and the bit of it that is driven (R731); none off the grid, and before its first frame. -/
def frameBit (s : State) : Option (Int × Nat) :=
  let per : Nat := (tdmFmt (code s pinTdmfmt)).1 * (tdmFmt (code s pinTdmfmt)).2.1
  let n := bitCount s (counterOf s)
  if tdmRuns s && decide (s.aud.grid = .on) && decide (s.aud.firstFrame ≤ n / per) then some (n / per, (n % per).toNat) else none

/-- `TDM_x_FSYNC`: high for the first bit-clock period of a frame (R731). -/
def fsyncLevel (s : State) : Bool := match frameBit s with | some (_, b) => b == 0 | none => false

/-- Bit i of the slot words of a frame, most significant first (R732). -/
def wordBit (s : State) (words : List Nat) (i : Nat) : Bool :=
  let w := (tdmFmt (code s pinTdmfmt)).2.1
  bitAt (words.getD (i / w) 0) (w - 1 - i % w)

/-- `TDM_x_DATA` of an output: bit i of slot s is frame bit d + s × W + i, and what passes the frame's end falls in the d free bits of
the next (R732). A frame whose samples are not there carries zero. -/
def dataLevel (s : State) (o : AOut) : Bool :=
  let per := (tdmFmt (code s pinTdmfmt)).1 * (tdmFmt (code s pinTdmfmt)).2.1
  let d := (tdmOfs (code s pinTdmofs)).1
  match frameBit s, s.aud.frameAt with
  | some (m, b), some at_ =>
    if m != at_ then false else if d ≤ b then wordBit s o.frame (b - d) else wordBit s o.prev (per + b - d)
  | _, _ => false

/-! ### The commands -/

/-- The sample to fetch: the next one, or the first that can still reach its edge. -/
def fetchIndex (s : State) : Int :=
  match s.aud.m with
  | none => edgeAtOrAfter s (counterOf s + fetchLead)
  | some m => if edgeTime s m < counterOf s then edgeAtOrAfter s (counterOf s) else m

/-- R728: 2 ms before its frame edge the sample's data is fetched. -/
def execAudioFetch (s : State) : Out :=
  if !tdmRuns s || !audioRuns s || !s.time.running then .next s
  else
    let s := playDue s
    let m := fetchIndex s
    if edgeTime s m - fetchLead ≤ counterOf s then .next (fetchSample m (switchIfDue m s)) else .next s

/-- R749: 8,192 sample periods without a preamble. -/
def execNonAudioEnd (flow : Fin 4) (pair : Fin 8) (s : State) : Out :=
  match s.aud.flows[flow.val]? with
  | none => .next s
  | some f =>
    match lastPreamble f pair.val, f.top with
    | some j, some t =>
      if f.nonAudio.contains pair.val && j + 8192 ≤ t then
        .next (setAFlow false flow.val { f with
          nonAudio := f.nonAudio.filter (· != pair.val), sincePre := f.sincePre.filter (fun e => e.1 != pair.val) } s)
      else .next s
    | _, _ => .next s

/-- R723: the locked sender has been silent for 100 ms. -/
def execAudioSenderTimeout (flow : Fin 4) (s : State) : Out :=
  match s.aud.flows[flow.val]? with
  | none => .next s
  | some f =>
    match f.sender with
    | some x => if x.heard + msT 100 ≤ s.now then .next (setAFlow false flow.val { f with sender := none } s) else .next s
    | none => .next s

/-- R744: a pending level is applied to a channel at the sample about to leave, or at the 20 ms point. -/
def execLevelChangeApply (output : Fin 2) (channel : Fin 32) (s : State) : Out :=
  let base := if output.val = 0 then 0 else tdmData s
  let v := match s.aud.pipe with | x :: _ => channelValue x base channel.val | [] => 0
  if !tdmRuns s then .next s
  else if output.val = 0 then
    .next (if levelReady s.now s.aud.outA channel.val v then modAud (fun a => { a with outA := applyLevel channel.val a.outA }) s else s)
  else
    .next (if levelReady s.now s.aud.outB channel.val v then modAud (fun a => { a with outB := applyLevel channel.val a.outB }) s else s)

/-- A selected flow has no source (Table 15.3). -/
def lacksSource (s : State) (f : AFlow) : Bool :=
  match slotSdp s f.slot with
  | none => max f.selectedAt (f.lastSample.getD 0) + secT 10 ≤ s.now
  | some _ =>
    if (audioFormat s f.slot).isNone then true
    else max f.selectedAt (f.lastSample.getD 0) + secT 1 ≤ s.now

def execAudNosourceTimeout (flow : Fin 4) (s : State) : Out :=
  match s.aud.flows[flow.val]? with
  | none => .next s
  | some f =>
    if runs s && !f.noSource && lacksSource s f then
      .next (raise .audNosource (BitVec.ofNat 32 flow.val) (setAFlow false flow.val { f with noSource := true, goodSince := none } s))
    else .next s

end Sys2Proof.Machine
end

