-- ==== Sys2Proof/Machine/Card.lean ====
section
/-!
DEFINITION. The card port and the dialogue with a Belnan card (16 R797 to R805, R813, R814; 18 R862 to R881, R892 to R898),
and debug through the TAP (17 R850, R851, R856).
-/
namespace Sys2Proof.Machine
open Sys2Proof


/-- The card port works: the tile runs, D11 is on and VIO_M is at its level (R812, 04 R135). -/
def cardRuns (s : State) : Bool := runs s && domOn s 11 && bankUsable s .misc && !enteringStandby s

/-! ### Activation and protocol failures (R797, R800, Table 16.8) -/

/-- Table 16.5 from I, the present instant. -/
def activate (s : State) : State :=
  modCard (fun c => { stage := .awaitTs, activated := s.now, failed := c.failed, begun := c.begun, ioLow := c.ioLow }) s

def execCardPresent (s : State) : Out :=
  if cardRuns s && decide (s.card.stage = .absent) then .next (activate s) else .next s

/-- A protocol failure: the card is deactivated; the first is followed by one new activation 1 s later. -/
def cardFail (detail : BitVec 32) (s : State) : State :=
  let again := !s.card.failed
  let s := endCard (raise .cardProtocol detail s)
  modCard (fun c => { c with failed := true, retryAt := if again then some (s.now + secT 1) else none }) s

def execCardReactivate (s : State) : Out :=
  if cardRuns s && decide (s.card.stage = .ended) && dueBy s.now s.card.retryAt then .next (activate s) else .next s

/-- R805: two high samples while a card is active. -/
def execCardRemoval (s : State) : Out :=
  if cardBusy s then .next (clearAll .cardProtocol (endCard s)) else .next s

/-- 18 R863: `CARD_PRES_N` high for 50 ms with no card active; a new insertion may follow. -/
def execCardAbsenceConfirmed (s : State) : Out :=
  if cardBusy s then .next s else .next (clearAll .cardProtocol { s with card := { ioLow := s.card.ioLow, endedAt := s.card.endedAt } })

/-- High and low of the start bit and the nine bits after it (Table 16.6). -/
def tsDirect : List Bool := [false, true, true, false, true, true, true, false, false, true]
def tsInverse : List Bool := [false, true, true, false, false, false, false, false, false, true]

/-- The card clock nearest x sixteenths of the ETU of bit k (R799). -/
def etuSample (c : Card) (k x : Nat) : Nat := (2 * (16 * k + x) * c.fi + 16 * c.di) / (32 * c.di)

/-- Bits from the levels of `CARD_IO` at successive card clocks from the start edge: the majority of the samples nearest 7/16, 8/16 and
9/16 of each ETU (R799). -/
def etuBits (c : Card) (n : Nat) (levels : List Bool) : List Bool :=
  (List.range n).map (fun k => majority ([7, 8, 9].map (fun x => levels.getD (etuSample c k x) true)))

/-- One card clock. -/
def cardClock : Ticks := nsT 250

/-- R797, R800: the command falls at the end of TS, whose start edge came 400 card clocks or more after `CARD_RST_N` rose. -/
def execTs (levels : List Bool) (s : State) : Out :=
  let pattern := etuBits s.card 10 levels
  if !cardRuns s || !decide (s.card.stage = .awaitTs) || s.now < s.card.activated + usT 2350 + levels.length * cardClock then .next s
  else if pattern = tsDirect then .next (modCard (fun c => { c with stage := .awaitAtr, direct := true }) s)
  else if pattern = tsInverse then .next (modCard (fun c => { c with stage := .awaitAtr, direct := false }) s)
  else .next (cardFail 0 s)

def execTsTimeout (s : State) : Out :=
  if cardRuns s && decide (s.card.stage = .awaitTs) && s.card.activated + usT 12250 ≤ s.now then .next (cardFail 1 s)
  else .next s

def execCardCharacterTimeout (cause : CardTimeout) (s : State) : Out :=
  if !cardRuns s then .next s
  else
    match s.card.stage, cause with
    | .awaitAtr, .atrGap => .next (cardFail 2 s)
    | .awaitAtr, .retransmission | .awaitPps _, .retransmission | .ready, .retransmission => .next (cardFail 5 s)
    | .awaitPps _, .workWaiting | .ready, .workWaiting => .next (cardFail 6 s)
    | _, _ => .next s

/-! ### Characters (R799, R800, R803) -/

/-- The bits of a character in the sense of its convention: eight data bits from the least significant on, and parity. In the inverse
convention L is 1 and the most significant bit comes first. -/
def charSense (direct : Bool) (c : BitVec 9) : List Bool :=
  let l := (List.range 9).map c.getLsbD
  if direct then l else (l.take 8).reverse.map (!·) ++ (l.drop 8).map (!·)

def charByte (direct : Bool) (c : BitVec 9) : Byte :=
  BitVec.ofNat 8 ((List.range 8).foldl (fun a i => if (charSense direct c).getD i false then a + 2 ^ i else a) 0)

/-- Even parity over the nine bits. -/
def evenParity (direct : Bool) (c : BitVec 9) : Bool := ((charSense direct c).filter id).length % 2 == 0

/-- The bytes that received characters bring: one with a parity error is asked for again, and its fifth transmission in a row ends the
session. With the bytes comes the number of error signals. -/
def takeChars (direct : Bool) (bad : Nat) : List (BitVec 9) → Option (List Byte × Nat)
  | [] => some ([], 0)
  | c :: l =>
    if evenParity direct c then (takeChars direct 0 l).map (fun r => (charByte direct c :: r.1, r.2))
    else if 4 ≤ bad then none
    else (takeChars direct (bad + 1) l).map (fun r => (r.1, r.2 + 1))

/-- The error signals of received characters leave. -/
def signalErrors (n : Nat) (s : State) : State := (List.range n).foldl (fun st _ => emit st .cardError) s

/-- One ETU (R799). -/
def etuTicks (c : Card) : Ticks := cardClock * c.fi / c.di

/-- A character that the PW64 sends, at 12 + N ETU from the next (R803). -/
def cardBits (c : Card) (b : Byte) : List Bool :=
  let data := dataBits b
  let odd := (data.filter id).length % 2 == 1
  let sense := if c.direct then data ++ [odd] else data.reverse.map (!·) ++ [!odd]
  (false :: sense) ++ List.replicate (2 + c.guard) true

def cardSend (at_ : Ticks) (l : List Byte) (s : State) : State :=
  modCard (fun c => { c with tx := some ⟨at_, l.flatMap (cardBits c)⟩ }) s

/-! ### ATR and PPS (R801, R802) -/

/-- The bytes of an ATR that the PW64 uses; `proto` is the protocol of TD1. -/
structure Atr where
  ta1 : Option Byte
  tc1 : Option Byte
  proto : Option Nat
  ta2 : Option Byte
  tc2 : Option Byte
  deriving DecidableEq, Repr

/-- The next interface byte where its bit of the map is set; none when the ATR ends before it. -/
def atrByte (y i : Nat) (l : List Byte) : Option (Option Byte × List Byte) :=
  if bitAt y i then match l with | b :: rest => some (some b, rest) | [] => none else some (none, l)

/-- Four interface bytes: TA, TC and TD of a map, and what follows. -/
def atrGroup (y : Nat) (l : List Byte) : Option (Option Byte × Option Byte × Option Byte × List Byte) :=
  (atrByte y 0 l).bind (fun a => (atrByte y 1 a.2).bind (fun b => (atrByte y 2 b.2).bind (fun c => (atrByte y 3 c.2).map
    (fun d => (a.1, c.1, d.1, d.2)))))

/-- The ATR from T0 on (ISO/IEC 7816-3); none where it is not whole. -/
def parseAtr (l : List Byte) : Option Atr :=
  match l with
  | [] => none
  | t0 :: rest =>
    (atrGroup (t0.toNat / 16) rest).bind (fun g =>
      match g.2.2.1 with
      | none => if g.2.2.2.length < t0.toNat % 16 then none else some ⟨g.1, g.2.1, none, none, none⟩
      | some td =>
        (atrGroup (td.toNat / 16) g.2.2.2).bind (fun h =>
          if h.2.2.2.length < t0.toNat % 16 then none else some ⟨g.1, g.2.1, some (td.toNat % 16), h.1, h.2.1⟩))

/-- Fi and Di of a TA1 (ISO/IEC 7816-3, PRESUMED: log 29); none for a reserved code. -/
def fiOf (ta1 : Byte) : Option Nat :=
  [some 372, some 372, some 558, some 744, some 1116, some 1488, some 1860, none, none,
   some 512, some 768, some 1024, some 1536, some 2048, none, none].getD (ta1.toNat / 16) none
def diOf (ta1 : Byte) : Option Nat :=
  [none, some 1, some 2, some 4, some 8, some 16, some 32, some 64, some 12, some 20].getD (ta1.toNat % 16) none

/-- A pair the PW64 supports: Fi/Di of 16 card clocks or more, and Di a power of two up to 32. -/
def supported (ta1 : Byte) : Option (Nat × Nat) :=
  match fiOf ta1, diOf ta1 with
  | some f, some d => if 16 * d ≤ f && [1, 2, 4, 8, 16, 32].contains d then some (f, d) else none
  | _, _ => none

/-- The dialogue starts, one at an insertion (18 R863); the identity source is derived (17 R846). -/
def beginDialogue (s : State) : State :=
  if s.card.begun then endCard s
  else
    let s := modCard (fun c => { c with stage := .ready, begun := true }) { s with dlg := {} }
    modKeys (fun z => { z with store := z.store ++ deriveKeys s [.identity] }) s

/-- PCK is the XOR of the bytes before it. -/
def ppsRequest (ta1 : Byte) : List Byte := [0xFF, 0x10, ta1, 0xFF ^^^ 0x10 ^^^ ta1]

/-- Speed after an accepted ATR: a PPS, the speed of the specific mode, or 372/1. -/
def chooseSpeed (a : Atr) (s : State) : State :=
  match a.ta1, a.ta2 with
  | some t, none =>
    (match supported t with
      | some p => if p = (372, 1) then beginDialogue s
        else emit (cardSend (s.now + 16 * etuTicks s.card) (ppsRequest t) (modCard (fun c => { c with stage := .awaitPps t }) s))
          (.ppsRequest (ppsRequest t))
      | none => beginDialogue s)
  | some t, some _ =>
    (match supported t with
      | some p => beginDialogue (modCard (fun c => { c with fi := p.1, di := p.2 }) s)
      | none => cardFail 4 s)
  | none, _ => beginDialogue s

/-- The bytes of an ATR: T=0 must be offered first; TC1 and TC2 give guard time and waiting time (R801). -/
def takeAtr (bytes : List Byte) (s : State) : State :=
  match parseAtr bytes with
  | none => s
  | some a =>
    if (a.proto.getD 0) != 0 then cardFail 3 s
    else
      let n := match a.tc1 with | some b => if b == 0xFF then 0 else b.toNat | none => 0
      let w := match a.tc2 with | some b => b.toNat | none => 10
      chooseSpeed a (modCard (fun c => { c with guard := n, wi := w }) s)

/-- The characters after TS, as received. -/
def execAtrComplete (chars : List (BitVec 9)) (s : State) : Out :=
  if !cardRuns s || !decide (s.card.stage = .awaitAtr) then .next s
  else
    match takeChars s.card.direct 0 chars with
    | none => .next (cardFail 5 s)
    | some r => .next (takeAtr r.1 (signalErrors r.2 s))

/-- R802: the echo switches both sides to the new ETU. -/
def takePps (t : Byte) (bytes : List Byte) (s : State) : State :=
  if bytes = ppsRequest t then
    match supported t with
    | some p => beginDialogue (modCard (fun c => { c with fi := p.1, di := p.2 }) s)
    | none => beginDialogue s
  else cardFail 4 s

def execPpsEcho (chars : List (BitVec 9)) (s : State) : Out :=
  match s.card.stage with
  | .awaitPps t =>
    if !cardRuns s then .next s
    else
      match takeChars s.card.direct 0 chars with
      | none => .next (cardFail 5 s)
      | some r => .next (takePps t r.1 (signalErrors r.2 s))
  | _ => .next s

/-! ### T=0 (R804) -/

/-- A T=0 exchange under way: data still to send, bytes still to receive, bytes of them before the next procedure byte, what has been
received and sent, and the status words. -/
structure T0 where
  data : List Byte
  get : Nat
  run : Nat := 0
  got : List Byte := []
  out : List Byte
  sw1 : Option Byte := none
  sw : Option (BitVec 16) := none
  /-- A byte came that is no procedure byte. -/
  bad : Bool := false
  deriving DecidableEq, Repr

/-- The five bytes of the header leave. -/
def t0Start (cmd data : List Byte) (le : Nat) : T0 := { data := data, get := le, out := cmd }

/-- SW2: 0x6C of a command that receives sends it again with Le equal to SW2, where 0 stands for 256; any other SW1 ends it. -/
def t0End (cmd : List Byte) (le : Nat) (a b : Byte) (x : T0) : T0 :=
  if a = 0x6C && 0 < le then
    { x with sw1 := none, got := [], run := 0, get := if b = 0 then 256 else b.toNat, out := x.out ++ cmd.take 4 ++ [b] }
  else { x with sw := some (BitVec.ofNat 16 (256 * a.toNat + b.toNat)) }

/-- A procedure byte: NULL, INS, its complement, or SW1. -/
def t0Procedure (ins b : Byte) (x : T0) : T0 :=
  if b = 0x60 then x
  else if b = ins then { x with out := x.out ++ x.data, data := [], run := x.get, get := 0 }
  else if b = ~~~ins then
    match x.data with
    | d :: l => { x with out := x.out ++ [d], data := l }
    | [] => { x with run := min 1 x.get, get := x.get - 1 }
  else if b.toNat / 16 = 6 || b.toNat / 16 = 9 then { x with sw1 := some b }
  else { x with bad := true }

/-- The next byte from the card. -/
def t0Byte (cmd : List Byte) (le : Nat) (x : T0) (b : Byte) : T0 :=
  if x.bad || x.sw.isSome then x
  else
    match x.sw1 with
    | some a => t0End cmd le a b x
    | none => if 0 < x.run then { x with run := x.run - 1, got := x.got ++ [b] } else t0Procedure (cmd.getD 1 0) b x

/-- The exchange of a command, over all bytes that the card sends. -/
def t0Run (cmd data : List Byte) (le : Nat) (bytes : List Byte) : T0 := bytes.foldl (t0Byte cmd le) (t0Start cmd data le)

/-! ### Steps 1 to 4 of the dialogue (Table 18.2) -/

/-- The dialogue awaits this step. -/
def atStep (n : Nat) (s : State) : Bool := cardRuns s && decide (s.card.stage = .ready) && s.dlg.step + 1 == n

/-- The command of a step with the bytes that left for it, and what `t:card` keeps of it (R867, R898). -/
def sendStep (n : Nat) (cmd data out : List Byte) (sw : BitVec 16) (s : State) : State :=
  modDlg (fun d => { d with recStep := n, recSw := sw }) (emit (cardSend s.now out s) (.apdu cmd data))

/-- A step with the characters that the card sends: what follows takes the data received and the status word. One whose characters
bring no status word has not ended (log 91); one that asks for a character too often ends the session (R803). -/
def apduStep (n : Nat) (cmd data : List Byte) (le : Nat) (chars : List (BitVec 9)) (next : List Byte → BitVec 16 → State → State)
    (s : State) : Option State :=
  match takeChars s.card.direct 0 chars with
  | none => some (cardFail 5 s)
  | some r =>
    let x := t0Run cmd data le r.1
    x.sw.map (fun sw => next x.got sw (sendStep n cmd data x.out sw (signalErrors r.2 s)))

/-- The step is complete where its status word is accepted, else the dialogue ends (R867). -/
def endStep (n : Nat) (want sw : BitVec 16) (s : State) : State :=
  if sw = want then modDlg (fun d => { d with step := n }) s else endCard s

def cardAid : List Byte := [0xF0, 0x5A, 0x4C, 0x50, 0x57, 0x36, 0x34]

def cmdSelect : List Byte := [0x00, 0xA4, 0x04, 0x00, 0x07]
def cmdCertificate : List Byte := [0x80, 0x10, 0x00, 0x00, 0x80]
def cmdState : List Byte := [0x80, 0x10, 0x01, 0x00, 0x3C]
def cmdResponse : List Byte := [0x00, 0xC0, 0x00, 0x00, 0x94]
def cmdOrder : List Byte := [0x80, 0x12, 0x00, 0x00, 0xC9]
def cmdResult : List Byte := [0x80, 0x14, 0x00, 0x00, 0x64]

def execSelect (chars : List (BitVec 9)) (s : State) : Out :=
  if atStep 1 s then .next ((apduStep 1 cmdSelect cardAid 0 chars (fun _ sw => endStep 1 0x9000 sw) s).getD s) else .next s

def execHelloCertificate (chars : List (BitVec 9)) (s : State) : Out :=
  if atStep 2 s then
    .next ((apduStep 2 cmdCertificate (deviceCertificate s.otp.shadow) 0 chars (fun _ sw => endStep 2 0x9000 sw) s).getD s)
  else .next s

/-- Authority key hash of the active slot; zeros when none. -/
def activeAuthority (s : State) : List Byte :=
  match activeSlot s.otp.shadow with | some n => slotAuthority s.otp.shadow n | none => zeros 32

/-- Table 18.3. -/
def helloState (s : State) : List Byte :=
  beBytes 1 1 ++ beBytes 1 (phaseCode s.keys.phase) ++ beBytes 1 (phaseEpoch s.keys.phase) ++
  beBytes 1 (recordsDone s.otp.shadow) ++ beBytes 1 (emptySlots s.otp.shadow) ++
  beBytes 1 (128 * b2n (!s.live.arm.level) + 64 * b2n s.keys.debug + 32 * b2n (hasSiteKeys s)) ++
  beBytes 1 (wallId s) ++ zeros 1 ++ beBytes 4 (activeCheck s) ++ activeAuthority s ++ s.dlg.nT

/-- The nonce N_T of the dialogue is drawn (Table 18.3). -/
def drawNonce (s : State) : State :=
  let r := drawBytes s 16
  modDlg (fun d => { d with nT := r.1 }) r.2

def execHelloState (chars : List (BitVec 9)) (s : State) : Out :=
  if atStep 3 s then
    let t := drawNonce s
    .next ((apduStep 3 cmdState (helloState t) 0 chars (fun _ sw => endStep 3 0x6194 sw) t).getD s)
  else .next s

/-- Table 18.4, from 148 bytes. -/
def readReply (b : List Byte) : CardReply :=
  { format := b.getD 0 0, reserved := b.getD 1 0, nC := slice b 2 16, qC := slice b 18 65, qS := slice b 83 65 }

/-- The card's reply is whole with 90 00 and 148 bytes; else the dialogue ends (log 91). -/
def takeReply (got : List Byte) (sw : BitVec 16) (s : State) : State :=
  if sw = 0x9000 && got.length == 148 then modDlg (fun d => { d with step := 4, reply := some (readReply got) }) s else endCard s

def execGetResponse (chars : List (BitVec 9)) (s : State) : Out :=
  if atStep 4 s then .next ((apduStep 4 cmdResponse [] 148 chars takeReply s).getD s) else .next s

/-! ### Checks 1 to 9 of an order (R871, Tables 18.6 and 18.7) -/

def zeroBytes (l : List Byte) : Bool := l.all (fun b => b == 0)

/-- The current epoch, or 0. -/
def epochNow (s : State) : Nat := phaseEpoch s.keys.phase

/-- Table 18.6: the epoch field of an action from the present phase; none where the action is not allowed from it. -/
def wantedEpoch (s : State) (action : Nat) : Option Nat :=
  match action, s.keys.phase with
  | 1, .blank | 1, .commissioned _ => some (nextEpoch s.otp.shadow)
  | 2, .commissioned e | 3, .commissioned e | 4, .commissioned e | 5, .commissioned e => some e
  | 4, .blank | 5, .blank | 5, .returned => some 0
  | _, _ => none

/-- A present root and authority belong to COMMISSION and ROTATE. -/
def carriesRoot (action : Nat) : Bool := action == 1 || action == 2

/-- Check 1. An epoch field that Table 18.6 marks 0 counts as such a field (log 30). -/
def formatOk (s : State) (r : CardReply) (o : CardOrder) : Bool :=
  let a := o.action.toNat
  r.format == 1 && o.format == 1 && r.reserved == 0 && o.reserved == 0 && 1 ≤ a && a ≤ 5 &&
  (carriesRoot a || (o.check == 0 && zeroBytes o.wrapped && zeroBytes o.qNew)) &&
  (carriesRoot a || wantedEpoch s a != some 0 || o.epoch == 0) &&
  ecPointOk r.qC && ecPointOk r.qS && (!carriesRoot a || ecPointOk o.qNew)

/-- Bytes 0 to 136 of an order (Table 18.5). -/
def orderBytes (o : CardOrder) : List Byte :=
  [o.format, o.action, o.epoch, o.reserved] ++ beBytes 8 o.target.toNat ++ o.nT ++ beBytes 4 o.check.toNat ++ o.wrapped ++ o.qNew

/-- The signer rule of Table 18.6; a ROTATE also names its signer as Q_new (log 30). -/
def signerOk (s : State) (r : CardReply) (o : CardOrder) : Bool :=
  let fused := sha256 r.qS == activeAuthority s
  match o.action.toNat, s.keys.phase with
  | 1, .blank => r.qS == o.qNew
  | 2, _ => fused && o.qNew == r.qS
  | _, .commissioned _ => fused
  | _, _ => true

def signatureOk (r : CardReply) (o : CardOrder) : Bool :=
  ecdsaVerify r.qS (sha256 (orderBytes o ++ r.qC ++ r.nC)) o.signature

/-- The action needs `ARM_N`: every one but ROTATE. -/
def needsArm (o : CardOrder) : Bool := o.action != 2

/-- The outcome code of the first check of 1 to 9 that fails (Tables 18.7 and 18.9). -/
def refusal (s : State) (r : CardReply) (o : CardOrder) : Option Nat :=
  let a := o.action.toNat
  if !formatOk s r o then some 10
  else if o.target != serialOf s || o.nT != s.dlg.nT then some 9
  else if s.keys.debug then some 5
  else if s.keys.seq.isSome then some 6
  else
    match wantedEpoch s a with
    | none => some 1
    | some e =>
      if o.epoch.toNat != e || 8 < e then some 2
      else if !signerOk s r o || !signatureOk r o then some 8
      else if carriesRoot a && emptySlots s.otp.shadow == 0 then some 3
      else if needsArm o && s.live.arm.level then some 4
      else none

/-! ### Session secret, unwrap and the order's sequence (R873 to R877) -/

/-- The identity scalar d (17 R840). -/
def identityScalar (s : State) : List Byte :=
  beBytes 32 (beNat ((storedKey s .identity).getD []) % (p256Order - 1) + 1)

/-- The label of the key-encryption key (R874). -/
def labelKek : List Byte := [0x50, 0x57, 0x36, 0x34, 0x2F, 0x6B, 0x65, 0x6B]

def kek (s : State) (r : CardReply) : List Byte :=
  derive (ecdh (identityScalar s) r.qC) labelKek (serialBytes s ++ s.dlg.nT ++ r.nC) 256

/-- The root an order carries; none where the unwrap fails or its check value differs (check 10). -/
def orderRoot (s : State) (r : CardReply) (o : CardOrder) : Option (List Byte) :=
  match keyUnwrap (kek s r) o.wrapped with
  | none => none
  | some root => if checkValue root = o.check.toNat then some root else none

def firstEmpty (s : State) : Nat := (slotsIn s.otp.shadow .empty).headD 0

/-- An order with a new root: COMMISSION or ROTATE. -/
def carryRoot (r : CardReply) (o : CardOrder) (s : State) : State :=
  match orderRoot s r o with
  | none => refuseOrder 7 s
  | some root =>
    let e := o.epoch.toNat
    let image := stagingImage e o.check.toNat root (sha256 o.qNew)
    if o.action == 1 then startTransition (.commission (firstEmpty s) e) image s
    else startRotation (firstEmpty s) ((activeSlot s.otp.shadow).getD 0) image s

/-- R877. -/
def carryOut (r : CardReply) (o : CardOrder) (s : State) : State :=
  match o.action.toNat with
  | 3 => startTransition (.release (epochNow s)) [] s
  | 4 => startTransition .returnOrder [] s
  | 5 => startTransition .retire [] s
  | _ => carryRoot r o s

/-- What follows a fetched order. -/
def takeOrder (r : CardReply) (o : CardOrder) (s : State) : State :=
  let a := o.action.toNat
  let s := modDlg (fun d => { d with step := 5, order := some o, recAction := if 1 ≤ a && a ≤ 5 then a else 0 }) s
  match refusal s r o with
  | some n => refuseOrder n s
  | none => carryOut r o s

/-- Table 18.5, from 201 bytes. -/
def readOrder (b : List Byte) : CardOrder :=
  { format := b.getD 0 0, action := b.getD 1 0, epoch := b.getD 2 0, reserved := b.getD 3 0, target := BitVec.ofNat 64 (fieldAt b 4 8)
    nT := slice b 12 16, check := BitVec.ofNat 32 (fieldAt b 28 4), wrapped := slice b 32 40, qNew := slice b 72 65
    signature := slice b 137 64 }

/-- R871: 90 00 and 201 bytes bring an order; any other status word, 6A 88 among them, ends the dialogue (R867; log 91). -/
def endOrder (got : List Byte) (sw : BitVec 16) (s : State) : State :=
  match s.dlg.reply with
  | some r => if sw = 0x9000 && got.length == 201 then takeOrder r (readOrder got) s else endCard s
  | none => endCard s

def execOrder (chars : List (BitVec 9)) (s : State) : Out :=
  if atStep 5 s then .next ((apduStep 5 cmdOrder [] 201 chars endOrder s).getD s) else .next s

/-! ### The receipt (R879 to R881, Table 18.8) -/

/-- Bytes 0 to 35. -/
def receiptBody (s : State) (outcome : Nat) (nC : List Byte) : List Byte :=
  beBytes 1 1 ++ beBytes 1 s.dlg.recAction ++ beBytes 1 outcome ++ beBytes 1 (phaseCode s.keys.phase) ++
  beBytes 1 (epochNow s) ++ beBytes 1 (recordsDone s.otp.shadow) ++ beBytes 1 (emptySlots s.otp.shadow) ++ zeros 1 ++
  serialBytes s ++ nC ++ beBytes 4 (activeCheck s)

/-- The signature under d with a fresh nonce (R880). -/
def signReceipt (s : State) (body nonce : List Byte) : List Byte :=
  body ++ ecdsaSign (identityScalar s) (sha256 (body ++ s.dlg.nT)) nonce

/-- What `t:card` keeps of a receipt (R898). -/
def noteReceipt (outcome check : Nat) (s : State) : State :=
  modDlg (fun x => { x with step := 6, recOutcome := BitVec.ofNat 8 outcome, recCheck := BitVec.ofNat 32 check }) s

/-- The receipt is sent once the outcome is decided; the card's status word is ignored and the dialogue ends (R881, R863). -/
def execResult (chars : List (BitVec 9)) (s : State) : Out :=
  match s.dlg.outcome, s.dlg.reply with
  | some n, some r =>
    if !atStep 6 s then .next s
    else
      let d := drawBytes s 32
      let data := signReceipt d.2 (receiptBody d.2 n r.nC) d.1
      .next ((apduStep 6 cmdResult data 0 chars (fun _ _ u => endCard (noteReceipt n (activeCheck s) u)) d.2).getD s)
  | _, _ => .next s

/-- R892: 60 s after activation. -/
def execDialogueTimeout (s : State) : Out :=
  if cardBusy s && s.card.activated + secT 60 ≤ s.now then .next (endCard s) else .next s

/-- 04 R171: a dialogue still running 10 s into the wait ends as if the card were removed. -/
def execCardDialogueStandbyLimit (s : State) : Out :=
  match s.standby.entry with
  | none => .next s
  | some e =>
    if decide (e.stage = .waiting) && cardBusy s && passed s.now e.waitSince (secT 10) then .next (endCard s) else .next s

/-! ### Frame memory and windows after a change of keys (17 R849, R851) -/

/-- Frame memory is initialised under the memory key in use, and serves again once that has ended (12 R576). -/
def startInit (s : State) : State :=
  if s.mem.ready then
    modMem (fun m => { m with ready := false, initUntil := some (s.now + msT 200) }) (initMemory s)
  else s

/-- Every window shows its fallback until its first complete frame (R849). -/
def swapWin (w : Win) : Win :=
  { w with
    showing := if w.touches && w.slot.isSome then .fallback else w.showing
    out := none, prime := none, held := false, concealing := false, buffers := List.replicate 3 {}, cutSource := none
    afterSwap := w.slot.isSome }

def swapWindows (s : State) : State :=
  modScene (fun x => { x with
    win := x.win.map swapWin, prepWin := x.prepWin.map (fun w => { w with buffers := List.replicate 3 {} }) }) s

/-- The samples in the audio rings are gone; the gap is bridged (R849, 15 R746). -/
def emptyRings (s : State) : State :=
  modAud (fun z => { z with
      flows := z.flows.map (fun f => { f with ring := [] })
      nextFlows := z.nextFlows.map (fun f => { f with ring := [] }) }) s

def execMemoryInitComplete (s : State) : Out :=
  if runs s && s.mem.initUntil.isSome then .next (modMem (fun m => { m with ready := true, initUntil := none }) s)
  else .next s

/-! ### Debug through the TAP (17 R850, R851, R856) -/

/-- A debug access (02 R74). -/
def debugIr (ir : TapIr) : Bool := match ir with | .bypass | .idcode => false | _ => true

/-- The ledger makes no write while debug is enabled (R842). -/
def ledgerHalt (s : State) : State :=
  { s with
    ldg := { s.ldg with busy := none, todo := [], mirroring := 0, copy := none }
    weft := { s.weft with flushing := false } }

/-- An order before step 3 is abandoned with reason DEBUG (R856). -/
def debugAbandons (s : State) : State :=
  match s.keys.seq with
  | none => s
  | some q => if beforeIntent q then abandonOrder (raise .lcRefused 5 s) else s

/-- R851. -/
def enableDebug (s : State) : State :=
  let s := debugAbandons s
  let s := if cardBusy s then endCard s else s
  let s := ledgerHalt (raise .dbgActive 1 (modKeys (fun z => { z with debug := true }) s))
  if s.boot.remap && runs s then swapWindows (emptyRings (startInit (rederive s))) else s

/-- In BLANK and COMMISSIONED an instruction other than BYPASS and IDCODE needs `ARM_N` accepted low (R850). -/
def tapForbidden (ir : TapIr) (s : State) : Bool :=
  debugIr ir && s.live.arm.level &&
  (match s.keys.phase with | .blank | .commissioned _ => true | _ => false)

/-- An instruction that takes the pins: EXTEST, or another one that does (02 R83). -/
def takesPins (ir : TapIr) : Bool := match ir with | .extest | .taking => true | _ => false

def loadIr (ir : TapIr) (s : State) : State :=
  modPins (fun z => { z with tapIr := ir, boundaryScan := z.boundaryScan || takesPins ir }) s

/-- 02 R74: `TRST_N` low holds the TAP in reset; the pins are under functional control again (PRESUMED, log 79). -/
def resetTap (s : State) : State := modPins (fun z => { z with tapIr := .idcode, boundaryScan := false }) s

/-- The TAP does not answer in standby (R71), nor while AON is off or `RESET_N` low. -/
def execTapInstructionLoad (trstN : Bool) (ir : TapIr) (s : State) : Out :=
  if !s.pwr.aonOn || s.boot.inReset || s.standby.asleep then .next s
  else if !trstN then .next (resetTap s)
  else if tapForbidden ir s then .next (raise .lcRefused 5 (loadIr .bypass s))
  else
    let s := loadIr ir s
    .next (if debugIr ir && !s.keys.debug then enableDebug s else s)

end Sys2Proof.Machine
end

