-- ==== Sys2Proof/Machine/Bobbin.lean ====
section
/-!
DEFINITION. The Bobbin bus while the tile runs, and the IR beacon (16 R762 to R788, R792 to R796, R807 to R812). A received
frame comes as the levels of `BOB_RX` at successive sample ticks; its command falls at the last of them.
-/
namespace Sys2Proof.Machine
open Sys2Proof

/-- The running bus: its UART paths are in D5 (01 Table 1.5), its pins on VIO_M (02 Table 2.13). -/
def bobRuns (s : State) : Bool := runs s && domOn s 5 && bankUsable s .misc

/-! ### Flow control (R776) -/

def xonChar : Byte := 0x11
def xoffChar : Byte := 0x13
def escChar : Byte := 0x7D

def gotXon (s : State) : State := modBob (fun b => { b with xoffUntil := none }) s
/-- An answer that is due may now start later than 32 character times after its request (R807). -/
def gotXoff (s : State) : State :=
  modBob (fun b => { b with
    xoffUntil := some (s.now + msT 100), answer := b.answer.map (fun a => { a with delayed := true }) }) s
/-- A character has ended on the bus. -/
def busUsed (s : State) : State := modBob (fun b => { b with lastChar := some s.now }) s

/-- An XOFF is in force: it lapses after 100 ms. -/
def heldByXoff (s : State) : Bool := match s.bob.xoffUntil with | some t => s.now < t | none => false

def execXon (s : State) : Out := if bobRuns s then .next (busUsed (gotXon s)) else .next s
def execXoff (s : State) : Out := if bobRuns s then .next (busUsed (gotXoff s)) else .next s

def execXoffTimeout (s : State) : Out :=
  if bobRuns s && dueBy s.now s.bob.xoffUntil then .next (gotXon s) else .next s

/-- A flow-control character: an unescaped data character without flags. -/
def isFlow (c : RxChar) : Bool := !c.flagged && !c.ninth && (c.data == xonChar || c.data == xoffChar)

def takeFlow (c : RxChar) (s : State) : State := if c.data == xonChar then gotXon s else gotXoff s

/-! ### Noise (Table 16.8) -/

/-- Bad characters or collisions, counted over 1 s. -/
def bobNoise (n : Nat) (s : State) : State :=
  if n = 0 then s
  else
    let l := List.replicate n s.now ++ s.bob.noise.filter (fun t => s.now < t + secT 1)
    let s := modBob (fun b => { b with noise := l }) s
    if 16 ≤ l.length then raiseLimited .bobNoise 0 (secT 60) (BitVec.ofNat 32 (min 255 l.length)) s else s

/-! ### Receiving a frame (R771 to R774) -/

/-- An address character and the data characters after it, each with the sample tick of its start edge. -/
structure BSeg where
  dest : RxChar
  at_ : Nat
  chars : List (Nat × RxChar)
  deriving DecidableEq, Repr

/-- An address character begins a new frame and abandons the one before it. -/
def splitSegs (dest : RxChar) (t : Nat) : List (Nat × RxChar) → List (Nat × RxChar) → List BSeg
  | acc, [] => [⟨dest, t, acc.reverse⟩]
  | acc, c :: l => if c.2.ninth then ⟨dest, t, acc.reverse⟩ :: splitSegs c.2 c.1 [] l else splitSegs dest t (c :: acc) l

/-- The frames of a stretch of characters; data characters before any address character belong to none. -/
def segsOf : List (Nat × RxChar) → List BSeg
  | [] => []
  | c :: l => if c.2.ninth then splitSegs c.2 c.1 [] l else segsOf l

/-- Sample ticks of a character. -/
def charTicks : Nat := 176

/-- Two of its characters lie more than 10 character times apart (R774). -/
def hasGap : List Nat → Bool
  | a :: b :: l => decide (a + 11 * charTicks < b) || hasGap (b :: l)
  | _ => false

def BSeg.gap (g : BSeg) : Bool := hasGap (g.at_ :: g.chars.map Prod.fst)
/-- The tick at which its last character ended. -/
def BSeg.end_ (g : BSeg) : Nat := ((g.chars.map Prod.fst).getLast?.getD g.at_) + charTicks

/-- The data bytes without escapes; none where an escape is invalid. An escape still open ends the list. -/
def unescape : List Byte → Option (List Byte)
  | [] => some []
  | [a] => if a == escChar then some [] else some [a]
  | a :: b :: l =>
    if a == escChar then
      if b == 0x31 || b == 0x33 || b == 0x5D then (unescape l).map (fun r => (b ^^^ 0x20) :: r) else none
    else (unescape (b :: l)).map (fun r => a :: r)

/-- A byte as it is sent (R773). -/
def escapeBob (b : Byte) : List Byte :=
  if b == xonChar || b == xoffChar || b == escChar then [escChar, b ^^^ 0x20] else [b]

/-- Body length of a type; none for a reserved type (Table 16.3, 19 R918). -/
def bodyLen (type : Nat) : Option Nat :=
  match type with
  | 0x01 => some 0 | 0x02 => some 128 | 0x03 => some 4 | 0x04 => some 2
  | 0x20 => some 0 | 0x21 => some 0 | 0x22 => some 2 | _ => none

/-- What the data bytes of a frame amount to. -/
inductive Framed
  | bad
  | short
  | whole (f : BFrame)
  deriving DecidableEq, Repr

def frameOf (now : Ticks) (dest : Byte) (l : List Byte) : Framed :=
  if l.length < 3 then .short
  else
    let lb := byteAt l 2
    if bodyLen (byteAt l 1) != some lb then .bad
    else if l.length < 11 + lb then .short
    else .whole ⟨dest, l.getD 0 0, byteAt l 1, BitVec.ofNat 32 (fieldAt l 3 4), slice l 7 lb, slice l (7 + lb) 4, now⟩

/-- An address the receiver takes: its own, broadcast, or 0xFE at the acting lead. -/
def takesAddr (s : State) (a : Byte) : Bool :=
  a == 0xFF || ownAddress s == some a || (a == 0xFE && actingLead s)

/-- Addressed to this tile alone, so that a request is answered (R777). -/
def addressedTo (s : State) (f : BFrame) : Bool := f.dest != 0xFF && takesAddr s f.dest

/-- The bytes a tag covers (R775). -/
def tagInput (dest : Byte) (src : Byte) (type : Nat) (q : BitVec 32) (body : List Byte) : List Byte :=
  [dest, src] ++ beBytes 1 type ++ beBytes 1 body.length ++ beBytes 4 q.toNat ++ body

def bobTag (s : State) (input : List Byte) : List Byte := (cmac (bobbinKey s) input).take 4

/-- The tag verifies; a tile without a BOB key verifies none (R782). -/
def tagOk (s : State) (f : BFrame) : Bool :=
  (storedKey s .bobbin).isNone || f.tag == bobTag s (tagInput f.dest f.src f.type f.seq f.body)

/-- The slot of the lead's own window at the present instant (R787, R788). -/
def slotNow (s : State) : Option Byte :=
  match s.bob.window with
  | some (_, a, z, t) =>
    let n := a + (s.now - t) / (320 * bobChar s)
    if actingLead s && t ≤ s.now && n ≤ z then some (BitVec.ofNat 8 n) else none
  | none => none

def addOnce (a : Byte) (l : List Byte) : List Byte := if l.contains a then l else a :: l

/-- A slot in which a frame came with flags (R788). -/
def flagSlot (dest : Byte) (s : State) : State :=
  match slotNow s with
  | some a => if dest == 0xFE then modBob (fun b => { b with flagged := addOnce a b.flagged }) s else s
  | none => s

def discardFrame (s : State) : State := countUp ctBobbin 1 (modBob (fun b => { b with partial_ := false }) s)

/-! ### Answers (R777, R781) -/

/-- An answer is due to a request addressed to this tile. -/
def answerTo (f : BFrame) (type : Nat) (body : List Byte) (s : State) : State :=
  if addressedTo s f then modBob (fun b => { b with answer := some { dest := f.src, type := type, body := body, reqEnd := f.at_ } }) s else s

def ack (f : BFrame) (result : Nat) (s : State) : State := answerTo f 0x04 (beBytes 1 f.type ++ beBytes 1 result) s

/-! ### Messages (R781 to R788) -/

/-- The order is later than the last accepted from its source (R783). -/
def freshOrder (s : State) (f : BFrame) : Bool :=
  match s.bob.seqIn.find? (fun x => x.1 == f.src) with
  | some x => later32 f.seq x.2
  | none => true

/-- The last sequences of 4 sources, the one used last first. -/
def noteOrder (f : BFrame) (s : State) : State :=
  modBob (fun b => { b with seqIn := ((f.src, f.seq) :: b.seqIn.filter (fun x => x.1 != f.src)).take 4 }) s

/-- `b:STANDBY`: the first beat at least 5 ms after the frame (R785, Table 16.4). -/
def takeStandby (f : BFrame) (s : State) : State :=
  if !triggerEnabled s .bobbin then ack f 1 s
  else if s.standby.entry.isSome then ack f 4 s
  else
    let r := standbyTrigger .bobbin (.afterInstant (f.at_ + msT 5)) s
    ack f (if r.2 then 0 else 2) r.1

def setLevel (q : Nat) (s : State) (o : AOut) : AOut := { o with level := q, pendLevel := some (q, s.now + msT 20, []) }

/-- `b:LEVEL` (15 R743, R744). -/
def takeLevel (f : BFrame) (s : State) : State :=
  let o := byteAt f.body 0
  let q := byteAt f.body 1
  let s := modAud (fun z => { z with
    outA := if o = 1 then z.outA else setLevel q s z.outA
    outB := if o = 0 then z.outB else setLevel q s z.outB }) s
  ack f 0 s

/-- Output and level code are not reserved; a reserved one discards the message whole (R785, 00 R13). -/
def levelOk (f : BFrame) : Bool := byteAt f.body 0 ≤ 2 && (byteAt f.body 1 ≤ 191 || byteAt f.body 1 == 255)

def takeOrderFrame (f : BFrame) (s : State) : State :=
  if f.type = 0x22 && !levelOk f then discardFrame s
  else if !freshOrder s f then ack f 3 s
  else
    let s := noteOrder f s
    match f.type with
    | 0x20 => takeStandby f s
    | 0x21 => ack f 4 s
    | _ => takeLevel f s

/-- `b:STATUS` at the acting lead: the address answered, and one of another wall is flagged (R788). -/
def takeStatus (f : BFrame) (s : State) : State :=
  if actingLead s && f.dest == 0xFE then
    let other := byteAt f.body 36 != wallId s
    modBob (fun b => { b with
      answered := addOnce f.src b.answered, flagged := if other then addOnce f.src b.flagged else b.flagged }) s
  else s

/-- `b:ROLLCALL` opens the window of slots (R787). -/
def takeRollcall (f : BFrame) (s : State) : State :=
  if actingLead s then s
  else modBob (fun b => { b with
    rollNo := BitVec.ofNat 8 (byteAt f.body 0), window := some (byteAt f.body 0, byteAt f.body 1, byteAt f.body 2, f.at_) }) s

/-- An accepted frame acts. -/
def processFrame (f : BFrame) (s : State) : State :=
  match f.type with
  | 0x01 => answerTo f 0x02 (statusSubset s) s
  | 0x02 => takeStatus f s
  | 0x03 => takeRollcall f s
  | 0x04 => s
  | _ => takeOrderFrame f s

/-- Waiting frames are processed until one has an answer to give. -/
def processWaiting : List BFrame → State → State
  | [], s => modBob (fun b => { b with waiting := [] }) s
  | f :: l, s =>
    if s.bob.answer.isSome then modBob (fun b => { b with waiting := f :: l }) s else processWaiting l (processFrame f s)

/-- An accepted frame acts at once, or waits behind the answer to give (log 31). -/
def acceptFrame (f : BFrame) (s : State) : State :=
  if s.bob.answer.isSome then modBob (fun b => { b with waiting := b.waiting ++ [f] }) s else processFrame f s

/-- A whole frame: its tag is verified under the key in force now (R782, 18 R896). -/
def checkFrame (f : BFrame) (s : State) : State :=
  if tagOk s f then acceptFrame f s
  else discardFrame (raiseLimited .bobAuth f.src.toNat (secT 60) (BitVec.ofNat 32 f.src.toNat) s)

/-- Characters with a noise or framing flag (Table 16.8). -/
def badChars (l : List RxChar) : Nat := (l.filter (fun c => c.noise || c.framing)).length

/-- One frame that ended at an instant; `last` says that no address character has followed yet. -/
def takeSeg (g : BSeg) (last : Bool) (ended : Ticks) (s : State) : State :=
  let chars := g.chars.map Prod.snd
  let s := (chars.filter isFlow).foldl (fun st c => takeFlow c st) s
  let data := chars.filter (fun c => !isFlow c)
  let s := modBob (fun b => { b with muted := !takesAddr s g.dest.data, partial_ := false }) s
  let s := bobNoise (badChars (g.dest :: (if s.bob.muted then [] else data))) s
  if s.bob.muted then s
  else if (g.dest :: data).any RxChar.flagged then discardFrame (flagSlot g.dest.data s)
  else if g.gap then discardFrame s
  else
    match unescape (data.map RxChar.data) with
    | none => discardFrame s
    | some l =>
      match frameOf ended g.dest.data l with
      | .bad => discardFrame s
      | .short => if last then modBob (fun b => { b with partial_ := true }) s else discardFrame s
      | .whole f => checkFrame f s

/-- The frames in turn; `n` is the number of sample ticks of the command. -/
def takeSegs (n : Nat) : List BSeg → State → State
  | [], s => s
  | g :: l, s => takeSegs n l (takeSeg g l.isEmpty (s.now - (n - g.end_) * (bobBit s / 16)) s)

/-- The character is lost to the full FIFO (R765, Table 16.8). -/
def overran (lost : List Nat) (s : State) : State := if lost.isEmpty then s else raise .bobOverrun 0 s

/-- Flow-control characters that belong to no frame (R776). -/
def strayFlow (l : List (Nat × RxChar)) : List RxChar :=
  ((l.takeWhile (fun c => !c.2.ninth)).map Prod.snd).filter isFlow

/-- The line as the receiver saw it since the command before; `lost` numbers the characters that found the FIFO full. -/
def execBobbinFrame (levels : List Bool) (lost : List Nat) (s : State) : Out :=
  if !bobRuns s then .next s
  else
    let got := dropLost lost 0 false (receive 0 {} levels)
    let s := if s.bob.partial_ then discardFrame s else s
    let s := (strayFlow got).foldl (fun st c => takeFlow c st) (overran lost s)
    .next (busUsed (takeSegs levels.length (segsOf got) s))

/-- R774: a gap of more than 10 character times in a frame. -/
def execBobbinFrameGap (s : State) : Out :=
  if bobRuns s && s.bob.partial_ && passed s.now s.bob.lastChar (10 * bobChar s) then .next (discardFrame s) else .next s

/-! ### Sending (R775 to R780) -/

/-- The data bytes of a frame, before escaping, under the next sequence number. -/
def frameBytes (s : State) (dest : Byte) (type : Nat) (body : List Byte) : List Byte :=
  let i := tagInput dest ((ownAddress s).getD 0) type (s.bob.seqOut + 1) body
  i.drop 1 ++ bobTag s i

/-- The characters of a frame after its address. -/
def sentChars (s : State) (dest : Byte) (type : Nat) (body : List Byte) : List Byte :=
  (frameBytes s dest type body).flatMap escapeBob

/-- A frame's characters with their ninth bits (R768). -/
def ninthBits (dest : Byte) (data : List Byte) : List (Byte × Bool) := (dest, true) :: data.map (fun b => (b, false))

/-- The echo of a character is the character, without a flag. -/
def heard (c : Byte × Bool) (e : RxChar) : Bool := e.data == c.1 && e.ninth == c.2 && !e.flagged

/-- The characters that leave: up to the first whose echo differs, carries a flag or does not come (R780). -/
def leaving : List (Byte × Bool) → List RxChar → List (Byte × Bool)
  | [], _ => []
  | c :: _, [] => [c]
  | c :: l, e :: r => if heard c e then c :: leaving l r else [c]

/-- Every character was echoed. -/
def echoed : List (Byte × Bool) → List RxChar → Bool
  | [], _ => true
  | _ :: _, [] => false
  | c :: l, e :: r => heard c e && echoed l r

/-- The transmitter sends characters: `BOB_DE` rises now, one bit period before the first start bit (R779). -/
def startSending (l : List (Byte × Bool)) (s : State) : State :=
  let x : Sending := ⟨s.now + bobBit s, l.flatMap bobBits⟩
  modBob (fun b => { b with tx := some x, lastChar := some (x.end_ (bobBit s)) }) s

/-- The transmitter is at work. -/
def sendingNow (s : State) : Bool := match s.bob.tx with | some x => decide (s.now < x.end_ (bobBit s)) | none => false

/-- Characters go out; a collision stops them at the end of the character, and is counted (R780). -/
def sendChars (l : List (Byte × Bool)) (echo : List RxChar) (s : State) : State :=
  let s := startSending (leaving l echo) s
  if echoed l echo then s else bobNoise 1 (modBob (fun b => { b with collisions := b.collisions + 1 }) s)

/-- A frame as its echo tells: sent whole, or abandoned. -/
def wholeEcho (s : State) (dest : Byte) (type : Nat) (body : List Byte) (echo : List RxChar) : Bool :=
  echoed (ninthBits dest (sentChars s dest type body)) echo

def sendBob (dest : Byte) (type : Nat) (body : List Byte) (echo : List RxChar) (s : State) : State :=
  let chars := sentChars s dest type body
  let ok := wholeEcho s dest type body echo
  let s := sendChars (ninthBits dest chars) echo (modBob (fun b => { b with seqOut := b.seqOut + 1 }) s)
  if ok then emit s (.bobbin dest chars) else s

/-- The answer given or dropped makes room for the frames that wait. -/
def endAnswer (s : State) : State :=
  let s := modBob (fun b => { b with answer := none }) s
  processWaiting s.bob.waiting s

/-- R777: the first start bit falls 4 to 32 character times after the request, and later only where an XOFF delayed it (R807). -/
def answerInTime (s : State) (a : Answer) : Bool :=
  decide (a.reqEnd + 4 * bobChar s ≤ s.now) && (a.delayed || decide (s.now + bobBit s ≤ a.reqEnd + 32 * bobChar s))

def execAnswerSend (echo : List RxChar) (s : State) : Out :=
  match s.bob.answer with
  | none => .next s
  | some a =>
    if !bobRuns s || sendingNow s || heldByXoff s || !answerInTime s a then .next s
    else .next (endAnswer (sendBob a.dest a.type a.body echo s))

/-- R807. -/
def execAnswerDrop (s : State) : Out :=
  match s.bob.answer with
  | none => .next s
  | some a => if bobRuns s && a.reqEnd + msT 100 ≤ s.now then .next (endAnswer s) else .next s

def closeWindow (s : State) : State := modBob (fun b => { b with window := none }) s

/-- R787, R807: the tile's slot has come; its first start bit falls 8 character times into it. -/
def execRollcallSlot (echo : List RxChar) (s : State) : Out :=
  match s.bob.window, ownAddress s with
  | some (_, a, z, t), some own =>
    let n := own.toNat
    let start := t + (n - a) * 320 * bobChar s
    if !bobRuns s || actingLead s || n < a || z < n || s.now + bobBit s < start + 8 * bobChar s then .next s
    else if heldByXoff s || start + 320 * bobChar s ≤ s.now then .next (closeWindow s)
    else .next (closeWindow (sendBob 0xFE 0x02 (statusSubset s) echo s))
  | _, _ => .next s

def rollcallBody (s : State) : List Byte := [s.bob.rollNo, 0x01, 0xFD, 0x00]

/-- The acting lead's roll-call with its present number; its window starts at the end of the frame (R786, R787). -/
def sendRollcall (echo : List RxChar) (s : State) : State :=
  let ok := wholeEcho s 0xFF 0x03 (rollcallBody s) echo
  let s := sendBob 0xFF 0x03 (rollcallBody s) echo s
  if ok then
    modBob (fun b => { b with
      window := some (b.rollNo.toNat, 1, 0xFD, s.bob.lastChar.getD s.now), answered := [], flagged := [], resendAt := none }) s
  else s

def mayRollcall (s : State) : Bool := bobRuns s && actingLead s && (ownAddress s).isSome && !heldByXoff s && !sendingNow s

/-- R786: 10 s after the tile became the acting lead, and every 60 s. An abandoned one is sent again once, 1 s later (R780). -/
def execRollcallSend (echo : List RxChar) (s : State) : Out :=
  if mayRollcall s && dueBy s.now s.bob.rollNext then
    .next (sendRollcall echo (modBob (fun b => { b with
      rollNo := b.rollNo + 1, rollNext := some (s.now + secT 60), resendAt := some (s.now + secT 1) }) s))
  else .next s

def execRollcallResend (echo : List RxChar) (s : State) : Out :=
  if mayRollcall s && dueBy s.now s.bob.resendAt then
    .next (sendRollcall echo (modBob (fun b => { b with resendAt := none }) s))
  else .next s

/-- The bus has been idle for 2 character times. -/
def busIdle (s : State) : Bool := s.bob.lastChar.isNone || passed s.now s.bob.lastChar (2 * bobChar s)

/-- A flow-control character, whose echo is compared like any other (R780). -/
def sendFlow (c : Byte) (echo : List RxChar) (s : State) : State := sendChars [(c, false)] echo s

/-- R776: XOFF once 4 accepted frames wait, XON once none waits. -/
def execFlowControlSend (echo : List RxChar) (s : State) : Out :=
  if !bobRuns s || !busIdle s then .next s
  else if 4 ≤ s.bob.waiting.length && !s.bob.xoffSent then
    .next (sendFlow xoffChar echo (modBob (fun b => { b with xoffSent := true, xoffCount := b.xoffCount + 1 }) (emit s .xoff)))
  else if s.bob.waiting.isEmpty && s.bob.xoffSent then
    .next (sendFlow xonChar echo (modBob (fun b => { b with xoffSent := false }) (emit s .xon)))
  else .next s

/-! ### The IR beacon (R792 to R796, Table 16.8) -/

/-- R795: from the first idle pattern on, also in safe state; its pins are on VIO_M (02 Table 2.13). -/
def beaconRuns (s : State) : Bool := runs s && domOn s 11 && beaconRate s != 0 && s.mark.on && bankUsable s .misc

def escapeBea (b : Byte) : List Byte := if b == 0xC0 || b == 0xC1 || b == 0x7D then [0x7D, b ^^^ 0x20] else [b]

/-- The page to send: a fault page where one waits. -/
def pageNow (s : State) : Nat := s.bea.extra.headD s.bea.page

/-- A frame on the air (R793). -/
def beaconFrame (s : State) : List Byte :=
  let inner := beBytes 1 (pageNow s) ++ [s.bea.rotation] ++ beaconPage s (pageNow s)
  let f := fcs16 inner
  let body := (inner ++ [f.setWidth 8, (f >>> 8).setWidth 8]).flatMap escapeBea
  (0xC0#8 :: body) ++ [0xC1#8]

/-- The rotation goes on after a frame. -/
def nextPage (b : Bea) : Bea :=
  match b.extra with
  | _ :: l => { b with extra := l }
  | [] => if b.page = 5 then { b with page := 0, rotation := b.rotation + 1 } else { b with page := b.page + 1 }

/-- Fewer than half the pulses echoed on 3 frames in a row raise `f:IR_ECHO`; 3 with half or more end it. -/
def judgeEcho (pulses echoed : Nat) (s : State) : State :=
  if 2 * echoed < pulses then
    let s := modBea (fun b => { b with bad := b.bad + 1, good := 0 }) s
    if 3 ≤ s.bea.bad && !s.bea.echoFault then raise .irEcho 0 (modBea (fun b => { b with echoFault := true }) s) else s
  else
    modBea (fun b => { b with bad := 0, good := b.good + 1, echoFault := b.echoFault && decide (b.good + 1 < 3) }) s

/-- The levels of a frame. -/
def frameLevels (l : List Byte) : List Bool := l.flatMap beaconBits

/-- The bits of a frame that are sent as pulses (R792). -/
def pulsesOf (l : List Byte) : List Nat := (List.range (frameLevels l).length).filter (fun i => !(frameLevels l).getD i true)

/-- The pulse of bit i was echoed: `IRDA_RX` was low within it or the 3 µs after it (R796). `lows` are the times from the start of the
frame between which the pin was low. -/
def pulseEchoed (bit : Ticks) (lows : List (Ticks × Ticks)) (i : Nat) : Bool :=
  lows.any (fun x => decide (x.1 ≤ i * bit + bit * 10 / 16 + usT 3) && decide (i * bit + bit * 7 / 16 ≤ x.2))

def execBeaconFrame (lows : List (Ticks × Ticks)) (s : State) : Out :=
  let gap := s.bea.lastEnd.isNone || passed s.now s.bea.lastEnd (10 * beaconChar s)
  if !beaconRuns s || !gap then .next s
  else
    let l := beaconFrame s
    let bit := beaconBit s
    let s := modBea (fun b => { nextPage b with
      tx := some ⟨s.now, frameLevels l⟩, lastEnd := some (s.now + l.length * beaconChar s) }) (emit s (.beacon l))
    .next (judgeEcho (pulsesOf l).length ((pulsesOf l).filter (pulseEchoed bit lows)).length s)

/-- `IRDA_TX`: each 0 bit is a pulse from 7/16 to 10/16 of its period (R792). -/
def irdaLevel (s : State) : Bool :=
  match s.bea.tx with
  | none => false
  | some x =>
    match x.now (beaconBit s) s.now with
    | some (b, dt) => beaconRuns s && !b && decide (7 * beaconBit s ≤ 16 * dt) && decide (16 * dt < 10 * beaconBit s)
    | none => false

/-- `BOB_TX`: what the transmitter sends; an idle line is high (R768). -/
def bobTxLevel (s : State) : Bool :=
  match s.bob.tx with
  | none => true
  | some x => match x.now (bobBit s) s.now with | some (b, _) => b | none => true

/-- `BOB_DE`: from one bit period before the first start bit to the end of the last stop bit (R779). -/
def bobDeLevel (s : State) : Bool :=
  match s.bob.tx with
  | none => false
  | some x => bobRuns s && decide (x.start ≤ s.now + bobBit s) && decide (s.now < x.end_ (bobBit s))

end Sys2Proof.Machine
end

