-- ==== Sys2Proof/Machine/StandbyEnd.lean ====
section
/-!
DEFINITION. The end of a standby entry, the slow listener, the check of a wake frame, and the timed wake (04 R159, R161 to
R164, R173, Table 4.5; 16 R789 to R791, R809).
-/
namespace Sys2Proof.Machine
open Sys2Proof

/-! ### The end of an entry (Table 4.5) -/

/-- The frames that a port still holds leave, as many as `n`. -/
def drainPort : Nat → State → Port → State
  | 0, s, _ => s
  | n + 1, s, p => drainPort n (servePort s p) p

def drainPorts (s : State) : State := ports.foldl (fun st p => drainPort (portQueue st p).length st p) s

/-- The SFP transmitters are off (07 R271). -/
def txOff (s : State) : State :=
  modNet (fun z => { z with port := z.port.map (fun p => { p with txDis := true }) }) s

/-- D1 to D11, the buck and the clocks are off. -/
def coreOff (s : State) : State :=
  let s := clearCore s
  { s with
    clk := { s.clk with
      running := false, locked := false, oscOn := false, refPresent := false, d2OnAt := none, refCheckAt := none, slowDue := none }
    boot := { kind := s.boot.kind, cause := s.boot.cause, ref := s.boot.ref, shadowRead := true }
    pwr := { s.pwr with
      buckOn := false, vcoreSet := false, lane := List.replicate 4 false
      dom := s.pwr.dom.mapIdx (fun i d => if i = 0 then d else {}) } }

/-- The tile sleeps, with its own address kept for the slow listener (16 R789). -/
def fallAsleep (e : Entry) (s : State) : State :=
  let a := ownAddress s
  let s := coreOff (txOff s)
  modStandby (fun z => { z with
      asleep := true, source := some e.source, entry := none, enteredAt := some e.at_, listenAddr := a
      listened := none }) s

/-- After the flush: the last record, marked standby, the transmitters and the domains; a wake follows at once where
`STANDBY_N` was accepted high at or after B, and measures the banks like every bring-up (R161, R133, R974). -/
def execStandbyPowerDown (banks : BankMv) (s : State) : Out :=
  match s.standby.entry with
  | none => .next s
  | some e =>
    if !decide (e.stage = .flushing) || !flushDone s || s.flt.holdoff.isSome || s.flt.safeHold then .next s
    else
      let s := fallAsleep e (drainPorts (launchRecord 2 s))
      .next (if e.wakeAfter then wake banks s else s)

/-! ### Timed wake (R159) -/

/-- 60 min after B by the slow clock. -/
def execTimedWake (banks : BankMv) (s : State) : Out :=
  if s.standby.asleep && decide (s.standby.source = some .night) && passed s.now s.standby.enteredAt (secT 3600) then
    .next (wake banks (modStandby (fun z => { z with nightWoke := some s.now }) s))
  else .next s

/-! ### The slow listener (16 R789, R790) -/

/-- The frame as D0 holds it: destination and the characters after it without escapes; none where no match is signalled. -/
def listenFrame (s : State) (g : BSeg) : Option (Byte × List Byte) :=
  let chars := g.chars.map Prod.snd
  let data := chars.filter (fun c => !isFlow c)
  if g.dest.flagged || chars.any RxChar.flagged || !(g.dest.data == 0xFF || s.standby.listenAddr == some g.dest.data) then none
  else
    match unescape (data.map RxChar.data) with
    | none => none
    | some l => if 3 ≤ l.length && 11 + byteAt l 2 ≤ l.length && l.length + 1 ≤ 24 then some (g.dest.data, l) else none

/-- The frame is kept in D0 and the oscillator started; `D1_D2_SWITCH_ON` makes the count 2 ms later and powers D1 and D2 for the
check (R163, 05 R182, R982). -/
def startCheck (f : Byte × List Byte) (s : State) : State :=
  let s := modStandby (fun z => { z with listened := some (f.1, f.2, s.now) }) s
  { s with boot := { s.boot with checking := true }, clk := startOscillator s.now s.clk }

/-- The line as the slow listener saw it, one level for each slow-clock period; the command falls at the end of the frame's last
character. -/
def execSlowListenerMatch (levels : List Bool) (s : State) : Out :=
  if !s.standby.asleep || s.boot.checking then .next s
  else
    match (segsOf ((slowReceive {} levels).map (fun c => (0, c)))).getLast? with
    | none => .next s
    | some g => match listenFrame s g with | none => .next s | some f => .next (startCheck f s)

/-! ### The check of a wake frame (16 R791, 04 R163, R173) -/

/-- The tag verifies under the BOB key of the lifecycle phase; a tile without one verifies none (16 R782). -/
def wakeTagOk (s : State) (f : BFrame) : Bool :=
  match keyValue s .bobbin with
  | none => true
  | some k => f.tag == (cmac k (tagInput f.dest f.src f.type f.seq f.body)).take 4

/-- `b:WAKE` may wake this tile: it entered on another source than the pin, `s:POWER` is not 1, and `STANDBY_N` is high
(R162, R173). -/
def wakeAllowed (s : State) : Bool :=
  !decide (s.standby.source = some .pin) && powerCode s != 1 && s.live.standby.level

/-- The buffered frame, when it is a valid `b:WAKE` for this tile. -/
def wakeFrame (s : State) : Option BFrame :=
  match s.standby.listened with
  | none => none
  | some (dest, l, t) =>
    match frameOf t dest l with
    | .whole f =>
      if s.clk.locked && f.type == 0x21 && f.body.isEmpty && wakeTagOk s f && freshOrder s f && wakeAllowed s then some f else none
    | _ => none

/-- D1 and D2 go off again. -/
def sleepAgain (s : State) : State :=
  let s := setDom (setDom s 1 (fun _ => {})) 2 (fun _ => {})
  { s with
    pwr := { s.pwr with buckOn := false }
    clk := { s.clk with locked := false, oscOn := false, refPresent := false, d2OnAt := none, refCheckAt := none }
    boot := { s.boot with checking := false, d1d2 := false }
    standby := { s.standby with listened := none } }

/-- A valid frame wakes the tile from the end of the frame on (R164); any other returns it to standby. -/
def execWakeCheck (banks : BankMv) (s : State) : Out :=
  if !s.standby.asleep || !s.boot.checking then .next s
  else
    match wakeFrame s with
    | none => .next (sleepAgain s)
    | some f =>
      let s := wake banks (noteOrder f s)
      .next (modBoot (fun z => { z with ref := f.at_ }) s)

end Sys2Proof.Machine
end

