-- ==== Sys2Proof/Machine/Sensors.lean ====
section
/-!
DEFINITION. The readings of junction temperature, VIN and VLED (20 R939, R949, R951, Tables 20.1 and 20.17; 19 R925).
Temperatures are in units of 1/16 °C.
-/
namespace Sys2Proof.Machine
open Sys2Proof

/-! ### Sites (R951) -/

/-- The hottest of some sites. -/
def hottest : List Int → Int
  | [] => 0
  | x :: l => l.foldl max x

/-- The readings of the sites not ignored; all of them where every site is. -/
def usedSites (sites : List Int) (ignored : List (Fin 4)) : List Int :=
  let l := (List.finRange 4).filter (fun i => !ignored.contains i)
  if l.isEmpty then sites else l.map (fun i => sites.getD i.val 0)

/-- A site differs from the mean of the other three by more than 15 °C. -/
def siteOff (sites : List Int) (i : Nat) : Bool :=
  let x := sites.getD i 0
  let d := 4 * x - sumInt sites
  decide (720 < d) || decide (d < -720)

/-! ### Ratings and thresholds (Tables 20.1 and 20.17) -/

/-- A reading beyond the absolute maximum ratings: VIN above 4.0 V, VLED above 20 V, or no site in use within −40 °C to
125 °C (00 R17, R927; log 10). -/
def beyondRatings (s : State) (sites : List Int) (vin vled : Nat) : Bool :=
  let l := usedSites sites s.sens.ignored
  decide (4000 < vin) || decide (20000 < vled) || l.all (fun t => decide (2000 < t)) || l.all (fun t => decide (t < -640))

/-- Warning, limit and shutdown thresholds of the part. -/
def thresholds (s : State) : Int × Int × Int :=
  match s.unit.part with | .e => (1600, 1728, 1920) | .c => (1440, 1568, 1840)

/-- Tj in whole °C, as the faults carry it. -/
def tjDetail (s : State) : BitVec 32 := BitVec.ofInt 32 (s.sens.tj / 16)

/-! ### A reading -/

/-- The readings of 24 h that may still become the highest, oldest first (R947). -/
def noteDay (now : Ticks) (tj : Int) (l : List (Ticks × Int)) : List (Ticks × Int) :=
  l.filter (fun x => decide (now < x.1 + secT 86400) && decide (tj < x.2)) ++ [(now, tj)]

/-- One more reading in a row where the threshold is reached, up to what the rule needs. -/
def runOf (n cap : Nat) (hit : Bool) : Nat := if hit then min (n + 1) cap else 0

/-- The readings are stored and the runs counted. -/
def storeReading (sites : List Int) (vin vled : Nat) (s : State) : State :=
  let tj := hottest (usedSites sites s.sens.ignored)
  let th := thresholds s
  { s with
    test := { s.test with sensorNext := some (s.now + msT 100) }
    sens := { s.sens with
      sites := sites, tj := tj, vin := vin, vled := vled
      offSince := (List.range 4).map (fun i =>
        if siteOff sites i then holdSince s.now (s.sens.offSince.getD i none) else none)
      warnRun := runOf s.sens.warnRun 10 (decide (th.1 ≤ tj))
      limitRun := runOf s.sens.limitRun 10 (decide (th.2.1 ≤ tj))
      shutRun := runOf s.sens.shutRun 3 (decide (th.2.2 ≤ tj))
      belowSince := if tj < th.1 then holdSince s.now s.sens.belowSince else none
      day := noteDay s.now tj s.sens.day } }

/-- `f:TH_WARN` and `f:TH_LIMIT` rise after 10 readings and clear 60 s below the warning threshold (R925, R939). -/
def thermalFaults (s : State) : State :=
  let s := if s.sens.warnRun = 10 then raise .thWarn (tjDetail s) s else s
  let s := if s.sens.limitRun = 10 then raise .thLimit (tjDetail s) s else s
  if passed s.now s.sens.belowSince (secT 60) then clearAll .thLimit (clearAll .thWarn s) else s

/-- The shutdown: safe state with no restart, and `f:TH_LIMIT` (Table 20.21). -/
def shutDown (s : State) : State :=
  let s := enterSafe (modFlt (fun z => { z with thermal := true }) s)
  raise .thLimit (tjDetail s) s

/-- The shutdown waits for a fuse sequence. One that waits for the junction to cool does not hold it: it is abandoned before
its intent pair, else it goes on waiting (R949). -/
def tryShutDown (s : State) : State :=
  match s.keys.seq with
  | none => shutDown s
  | some q => if q.hot then shutDown (abandonOrder s) else s

/-- The shutdown ends below the warning threshold; the outputs return unless an S3 fault holds them. -/
def endShutDown (s : State) : State :=
  let s := modFlt (fun z => { z with thermal := false }) s
  if safeState s then s else unmuteAll .safe (audRamp s) s

def thermalShutdown (s : State) : State :=
  if s.flt.thermal then (if s.sens.tj < (thresholds s).1 then endShutDown s else s)
  else if s.sens.shutRun = 3 then tryShutDown s else s

/-- A fault of the sensors is active (06 Table 6.4). -/
def sensorFault (s : State) : Bool := isActive s .thWarn || isActive s .thLimit || isActive s .pwrVled

/-- The result of a reading: within a suite, whether a fault of the sensors is active; in service, whether this reading raised one (06
R251). -/
def noteSensors (before : Bool) (s : State) : State :=
  noteTest .sensors (sensorFault s && (suiteWants s .sensors || !before)) (ranAgain .sensors s)

/-- Every 100 ms, and once in the requested suite (06 Table 6.4, R247). -/
def execSensorRead (sites : List Int) (vin vled : Nat) (s : State) : Out :=
  if !runs s || !(suiteWants s .sensors || runsAgain s .sensors || s.test.sensorNext.isNone || dueBy s.now s.test.sensorNext) then .next s
  else if beyondRatings s sites vin vled then .fault .beyondAbsoluteMaximum
  else .next (thermalShutdown (noteSensors (sensorFault s) (thermalFaults (storeReading sites vin vled s))))

/-- R951: a site that has been off for 10 s is ignored until the next bring-up. -/
def execTempSiteIgnore (site : Fin 4) (s : State) : Out :=
  if runs s && !s.sens.ignored.contains site && passed s.now (s.sens.offSince.getD site.val none) (secT 10) then
    let l := site :: s.sens.ignored
    .next (modSens (fun z => { z with ignored := l, tj := hottest (usedSites z.sites l) }) s)
  else .next s

end Sys2Proof.Machine
end

