-- ==== Sys2Proof/Machine/BringRest.lean ====
section
/-!
DEFINITION. The bring-up after the clock: the boot check and what starts at the remap (06 R227 to R230; 17 R843, R860; 19 R919,
R926; 13 R663), the domains as they come on (04 R151; 08 R333, R370; 13 R983), and frame memory (06 R225; 12 R576).
-/
namespace Sys2Proof.Machine
open Sys2Proof

/-! ### Domains (R151) -/

/-- D3: the counter starts at 0, and the beats with it (08 R333, R370). -/
def startCounter (s : State) : State :=
  if s.time.running then s else rearmBeat (modTime (fun t => setCounterF { t with running := true } 0) s)

/-- D4: the lanes of ports with a module; every lane under `s:POWER` 0 (04 R148). -/
def powerLanes (s : State) : State := modPwr (fun z => { z with lane := ports.map (fun p => !gating s || modulePresent s p) }) s

/-- D5: discovery starts from the tile's own seed. -/
def startDiscovery (s : State) : State :=
  settlePosition (startClaiming (rechoose (modDisc (fun d => { d with d5On := holdSince s.now d.d5On }) s)))

/-- D9 or D10 after it was held off: its 32 ports are censused again (R983). -/
def recensusHalf (high : Bool) (s : State) : State :=
  if !s.boot.censusDone then s
  else
    let l := (List.finRange 64).filter (fun p => decide (32 ≤ p.val) == high)
    modWeft (fun w => { w with recensus := w.recensus ++ l.filter (fun p => !w.recensus.contains p) }) s

/-- What starts in a domain that has come on. -/
def domainStarts (d : Dom) (wasHeld : Bool) (s : State) : State :=
  match d.val with
  | 3 => startCounter s
  | 4 => powerLanes s
  | 5 => startDiscovery s
  | 6 => answerHeld s
  | 9 => if wasHeld then recensusHalf false s else s
  | 10 => if wasHeld then recensusHalf true s else s
  | _ => s

def execDomainPowerGood (d : Dom) (s : State) : Out :=
  match (domAt s d).phase with
  | .switching t =>
    if s.now < t + usT 20 then .next s
    else
      let held := (domAt s d).heldOff
      let s := setDom s d (fun x => { x with phase := .on, fails := 0, heldOff := false, retryAt := none, offSince := none })
      let s := domainStarts d held s
      .next (if held then settlePower s else s)
  | _ => .next s

/-! ### The boot check (06 R227 to R230) -/

/-- The slot of the active site root fails its check value (17 R860). -/
def rootFails (s : State) : Option Nat :=
  match s.keys.phase, activeSlot s.otp.shadow with
  | .commissioned _, some n => if checkValue (slotRoot s.otp.shadow n) = slotCheck s.otp.shadow n then none else some n
  | _, _ => none

/-- The key store derives its keys after the remap (17 R843). -/
def startKeys (s : State) : State :=
  match rootFails s with
  | some n =>
    rederive (raise .keyVerify (BitVec.ofNat 32 (32 + n)) (modKeys (fun z => { z with rootBad := true }) s))
  | none => rederive s

/-- An absent or unusable flash: nothing is read or written (19 R926). -/
def noLedger (n : Nat) (s : State) : State :=
  raise .ldgAccess (BitVec.ofNat 32 n) (modLdg (fun z => { z with usable := false, status := n }) s)

/-- The identity is written for a new ledger and at a new fault log (19 Table 19.9). -/
def beginLog (s : State) : State :=
  let k := (storedKey s .faultLog).getD []
  if s.keys.debug || k = s.ldg.logKey then s
  else startLedger .identity (modLdg (fun z => { z with logKey := k }) s)

/-- SFDP discovery (19 R919); density as log2 of Mbit. -/
def startLedgerFlash (flash : Option Sfdp) (s : State) : State :=
  match flash with
  | none => noLedger 1 s
  | some f =>
    if f.density < 4 || !f.erase4k then noLedger 5 s
    else beginLog (modLdg (fun z => { z with usable := true, status := 0, density := min f.density 8, read114 := f.read114 }) s)

/-- What the policy sequencer finds when it starts. -/
def startSequencer (flash : Option Sfdp) (sensorPf : Nat) (s : State) : State :=
  let s := { s with boot := { s.boot with remap := true }, amb := { s.amb with sensor := decide (10 ≤ sensorPf) } }
  startLedgerFlash flash (reportSlots (startKeys s))

/-- The first bank of SRAM in which a location reads back other than zero. -/
def sramFails (wrong : List (Nat × Byte)) (s : State) : Option Nat :=
  ((wrong ++ s.sram.bytes).find? (fun c => c.2 != 0 && decide (c.1 < 0x100000))).map (fun c => c.1 / 0x40000)

/-- The check runs from MDLL lock; the sequencer starts with the strap values decided (03 R98). Where ROM and SRAM both fail, the ROM
check alone is reported (DESIGN CHOICE, log 75). -/
def execBootCheckDone (romFlips sramFlips : List (Nat × Byte)) (flash : Option Sfdp) (sensorPf : Nat) (s : State) : Out :=
  if !s.clk.running || !domOn s 1 || !s.boot.started || s.boot.remap || !s.straps.decided then .next s
  else if !romPasses romFlips s then .next (raise .seqRom 0 s)
  else
    match sramFails sramFlips s with
    | some b => .next (raise .seqWatchdog (BitVec.ofNat 32 (1 + b)) s)
    | none => .next (reportProgress (startSequencer flash sensorPf s))

/-! ### Frame memory (06 R225, 12 R576) -/

/-- Training ends; every line is then written with zero data under the memory key. -/
def execDramTrainingDone (failed : Option (Fin 8)) (s : State) : Out :=
  if !runs s || !domOn s 6 || !s.boot.remap || s.boot.dramTrained then .next s
  else
    match failed with
    | some c => .next (raise .memTrain (BitVec.ofNat 32 c.val) s)
    | none =>
      let s := reportProgress (modBoot (fun z => { z with dramTrained := true }) s)
      .next (modMem (fun m => { m with ready := true }) (initMemory s))

end Sys2Proof.Machine
end

