-- ==== Sys2Proof/Machine/Picks.lean ====
section
/-!
DEFINITION. Refreshes and picks (08 R368; 13 R635 to R642, Table 13.3).
-/
namespace Sys2Proof.Machine
open Sys2Proof

/-- M in use. -/
def refreshCount (s : State) : Nat := match s.weft.timing with | some t => t.m | none => refreshesInUse s

/-- Start of part i of n equal parts of frame k, in 2^-32 ns of the counter. -/
def partStart (s : State) (k n i : Nat) : Int := beatTime ((refreshND s).1 * n, (refreshND s).2) (k * n + i)

/-- The weft-scan divider counts picks: N × M × S events in D seconds (R635, 05 R201). -/
def scanStep (s : State) : Nat := (refreshND s).1 * refreshCount s * scanRows s
def scanModulus (s : State) : Nat := (refreshND s).2 * wallModulus

/-- Its phase at a wall time, which each beat sets anew. -/
def scanPhase (s : State) (t : Int) : Nat := (t.toNat * scanStep s) % scanModulus s

/-- One clock of the weft-scan divider, in which the counter has gone from one wall time to another. -/
def scanClock (before after : Int) (s : State) : State :=
  modClk (fun z => { z with div := { z.div with
    scan := z.div.scan.clock ((after - before).toNat * scanStep s) (scanModulus s) } }) s

/-- At a beat the divider starts the frame's picks. -/
def alignScan (s : State) : State :=
  modClk (fun z => { z with div := { z.div with scan := ⟨scanPhase s (counterOf s), 0⟩ } }) s

/-- The refresh to start next: 0 at the beat, then each in turn. -/
def nextRefresh (s : State) : Nat := match s.time.refresh with | none => 0 | some r => r + 1

/-- R368: refresh r of frame k starts at t_k + r × P ÷ M. -/
def execRefreshStart (s : State) : Out :=
  match s.time.beat with
  | none => .next s
  | some k =>
    let r := nextRefresh s
    if runs s && domOn s 3 && r < refreshCount s && decide (partStart s k (refreshCount s) r ≤ counterOf s) then
      .next (modWeft (fun w => { w with pick := none, activeAt := none, lit := [] }) (modTime (fun t => { t with refresh := some r }) s))
    else .next s

/-! ### A pick (R635, R639, R640, Table 13.3) -/

/-- The k-bit reversal. -/
def revBits (k v : Nat) : Nat := (List.range k).foldl (fun a i => if bitAt v i then a + 2 ^ (k - 1 - i) else a) 0

/-- Units for which a code is lit in refresh r (R639). -/
def litUnits (classS : Bool) (n kp r v : Nat) : Nat :=
  let u := v / 2 ^ (16 - (n + kp))
  let h := u / 2 ^ kp
  let e := if revBits kp (r % 2 ^ kp) < u % 2 ^ kp then 1 else 0
  if classS then min (2 ^ n - 1) (h + e) else h + e

/-- No row of the tile is lit: safe state, `BLANK_N`, standby entry, or no compositor (03 R123, 04 R177, Table 4.5). -/
def rowsOff (s : State) : Bool := safeState s || s.live.blanked || enteringStandby s || !domOn s 8

/-- WFRA or WFRB was reset: its half of the ports is dark up to the next beat (12 Table 12.10). -/
def halfDark (s : State) (p : Nat) : Bool := s.adm.masterReset.any (fun m => m.val == p / 32)

/-- The port lights its pixels: its pins are driven and its group is not blanked (R677 to R680). -/
def portShows (s : State) (p : Nat) : Bool := inCanvas s p && portLive s p && !groupBlanked s (p / 8) && !halfDark s p

/-- Units of one tile pixel. -/
def pixelUnits (s : State) (g : WGeom) (r x y : Nat) (c : Nat × Nat × Nat) : Nat × Nat × Nat :=
  match portAt s g x y with
  | none => (0, 0, 0)
  | some (p, _, _) =>
    if rowsOff s || !portShows s p || (isClassS s && darkAt s x y) then (0, 0, 0)
    else
      let w := s.weft.group.getD (p / 8) {}
      let u (v : Nat) : Nat := litUnits (isClassS s) w.n w.kp r v
      (u c.1, u c.2.1, u c.2.2)

/-- The tile rows that row j of the scan lights, from the top (R625, R627). -/
def pickRows (g : WGeom) (j : Nat) : List Nat := (List.range g.tileH).filter (fun y => y % g.bandH % g.scan == j)

/-- What the pick of row j in refresh r lights. -/
def pickLit (s : State) (g : WGeom) (r j : Nat) : List (List (Nat × Nat × Nat)) :=
  (pickRows g j).map (fun y => (s.weft.panel.getD y []).mapIdx (fun x c => pixelUnits s g r x y c))

/-- The pick to start next in refresh r. -/
def nextPick (s : State) (r : Nat) : Nat :=
  match s.weft.pick with | some (q, j, _) => if q = r then j + 1 else 0 | none => 0

/-- R635: pick j starts at j × P ÷ (M × S) after its refresh. -/
def execPickStart (s : State) : Out :=
  match s.time.beat, s.time.refresh, s.weft.geom with
  | some k, some r, some g =>
    let j := nextPick s r
    let m := refreshCount s
    if runs s && s.boot.censusDone && j < g.scan && decide (partStart s k (m * g.scan) (r * g.scan + j) ≤ counterOf s) then
      .next (modWeft (fun w => { w with pick := some (r, j, s.now), activeAt := none, lit := pickLit s g r j }) s)
    else .next s
  | _, _, _ => .next s

/-- A = Q + g has come: the active part counts clocks from here (Table 13.3). -/
def openPick (s : State) : State :=
  match s.weft.pick, s.weft.timing, s.weft.activeAt with
  | some (_, _, q), some t, none =>
    if q + nsT (500 * t.g) ≤ s.now then modWeft (fun w => { w with activeAt := some s.clk.count }) s else s
  | _, _, _ => s

end Sys2Proof.Machine
end

