-- ==== Sys2Proof/Machine/Beat.lean ====
section
/-!
DEFINITION. The reed beat (08 R365 to R370) and everything that takes effect at one (01 R38, R39).
-/
namespace Sys2Proof.Machine
open Sys2Proof

/-! ### Straps and pins (03 R104, R106, R122; 10 R500, R501) -/

/-- The code accepted last goes to the heddle; a lead may start a change for it (10 R484). -/
def handScene (s : State) : State :=
  match s.live.sceneDue with
  | none => s
  | some c => { s with live := { s.live with sceneDue := none }, scene := { s.scene with offered := some c, handed := leads s } }

/-- `IDENT_N` shows or ends the locate pattern; the canvas returns after a release of `BLANK_N`. -/
def pinsAtBeat (s : State) : State :=
  modLive (fun z => { z with
      identShown := z.identDue.getD z.identShown, identDue := none
      blanked := z.blanked && !z.blank.level }) s

/-! ### Groups joined while the tile runs (06 R225, 07 R284) -/

/-- The PTP and SAP groups, once the census is complete and the tile has its place. -/
def joinServices (s : State) : State :=
  if s.boot.censusDone && (tilePlace s).isSome && netRuns s then setJoin sapGroup true (setJoin ptpGroup true s) else s

/-! ### Standby (04 R161, R170) -/

/-- B, or the wait before it; a prepared scene is abandoned with its groups. -/
def standbyBeat (k : Nat) (s : State) : State :=
  let before := enteringStandby s
  let s := standbyAtBeat k s
  if enteringStandby s && !before then abandon s else s

/-! ### The visible self-test (06 R248, R250, R258) -/

def beginVisible (s : State) : State :=
  if s.test.visibleDue then
    muteAll .selftest (audRamp s) (modTest (fun z => { z with
      visibleDue := false, endDue := none, visible := some { step := 1, sub := 0, since := s.now } }) s)
  else s

def endVisible (s : State) : State :=
  match s.test.endDue with
  | none => s
  | some aborted =>
    let s := if aborted then addResult testVisible .aborted s else s
    unmuteAll .selftest (audRamp s) (modTest (fun z => { z with visible := none, endDue := none }) s)

/-! ### The key swap (17 R847, R849, R857) -/

/-- Fault-log records are tagged under the key derived now. -/
def takeLogKey (s : State) : State :=
  if s.keys.debug then s else modLdg (fun z => { z with logKey := (storedKey s .faultLog).getD [] }) s

/-- The integrators are read again; the block factors go on from where they stand. -/
def reloadWear (s : State) : State :=
  if s.weft.geom.isNone then s
  else
    let old := s.weft.wblk
    modWeft (fun w => { w with wblk := old }) (loadWear s)

/-- A new fault log begins, with what the ring still has to mirror. -/
def newLog (s : State) : State :=
  let s := startLedger .identity (takeLogKey s)
  startMirror (mirrorCount true s) s

def swapKeys (s : State) : State :=
  match s.keys.swapDue with
  | none => s
  | some w =>
    let s := rederive (modKeys (fun z => { z with swapDue := none }) s)
    match w with
    | .rotation => takeLogKey s
    | .transition => newLog (reloadWear (emptyRings (startInit s)))

/-- Every window falls back with a transition's swap, those of a commit at the same beat among them. -/
def swapShown (w : Option Swap) (s : State) : State := if w = some .transition then swapWindows s else s

/-! ### Beat k -/

/-- The beat is emitted: its refreshes and picks follow (R366 to R368). -/
def emitBeat (k : Nat) (s : State) : State :=
  alignScan (modWeft (fun w => { w with pick := none, activeAt := none, lit := [] })
    (modTime (fun t => { t with beat := some k, beatAt := s.now, nextBeat := k + 1, refresh := none }) s))

/-- Time: a step due, and the audio grid with it (R352 to R354, R392, R394). -/
def timeAtBeat (k : Nat) (s : State) : State := playDue (stepAtBeat k s)

/-- What the sequencer applies. -/
def dutiesAtBeat (k : Nat) (s : State) : State :=
  let s := pinsAtBeat (targetsAtBeat k (brightAtBeat (handScene s)))
  let s := swapDacs (endVisible (beginVisible (standbyBeat k (joinServices s))))
  let w := s.keys.swapDue
  swapShown w (changePasses k (commitAtBeat k (swapKeys s)))

/-- The committed scene is admitted again with the rates of the last second (12 R605). -/
def admissionAtBeat (s : State) : State :=
  reevaluate s

/-- A tile whose first ports enter the canvas later shows its idle pattern now (06 R264). -/
def noteIdle (s : State) : State :=
  if s.mark.on && anyCanvas s && !s.boot.idleShown then releaseHeld (modBoot (fun z => { z with idleShown := true }) s) else s

/-- The frame path, the recovered groups, the load and the status read; a reset master serves again. -/
def pictureAtBeat (prev : Option Nat) (k : Nat) (s : State) : State :=
  let s := startReads (loadFrame k (restoreGroups (frameBeat prev k (noteIdle s))))
  modAdm (fun z => { z with masterReset := [] }) s

/-- The acting lead's beat on every fourth index (09 R454). -/
def leadBeat (k : Nat) (s : State) : State := if actingLead s && k % 4 == 0 then sendBeat k s else s

/-- The beat whose time the counter has reached (R366). -/
def beatDue (s : State) : Bool :=
  runs s && domOn s 3 && s.time.running && decide (beatF s s.time.nextBeat ≤ counterOf s)

/-- The flags are those that the status read of the frame just ended found (13 R650). -/
def execReedBeat (flags : List LedFlag) (s : State) : Out :=
  if !beatDue s then .next s
  else
    let prev := s.time.beat
    let k := s.time.nextBeat
    let s := leadBeat k (timeAtBeat k (takeRead flags (emitBeat k (playDue s))))
    .next (trackNight (pictureAtBeat prev k (admissionAtBeat (dutiesAtBeat k s))))

end Sys2Proof.Machine
end

