-- ==== Sys2Proof/Machine/Dispatch.lean ====
section
/-!
DEFINITION. The dispatch of the commands: one arm per row of spec/opcode_table.json, each one call of its meaning.
-/
namespace Sys2Proof.Machine
open Sys2Proof

def exec (i : Instr) (s : State) : Host.Outcome State Fault Refusal :=
  match i with
  | .aonOn banks testEn => Sys2Proof.Machine.execAonOn banks testEn s
  | .fusePairDone took tj => Sys2Proof.Machine.execFusePairDone took tj s
  | .fuseSequenceTempWaitEnd tj => Sys2Proof.Machine.execFuseSequenceTempWaitEnd tj s
  | .d1d2SwitchOn edges => Sys2Proof.Machine.execD1d2SwitchOn edges s
  | .strapPass ref readings => Sys2Proof.Machine.execStrapPass ref readings s
  | .vinBrownout firstFuse => Sys2Proof.Machine.execVinBrownout firstFuse s
  | .railBrownout rail firstFuse => Sys2Proof.Machine.execRailBrownout rail firstFuse s
  | .brownoutRestart banks => Sys2Proof.Machine.execBrownoutRestart banks s
  | .standbyBrownout => Sys2Proof.Machine.execStandbyBrownout s
  | .aonOff => Sys2Proof.Machine.execAonOff s
  | .resetNAssert => Sys2Proof.Machine.execResetNAssert s
  | .resetNRelease banks testEn => Sys2Proof.Machine.execResetNRelease banks testEn s
  | .bankRemeasure bank mv => Sys2Proof.Machine.execBankRemeasure bank mv s
  | .domainSwitchOn => Sys2Proof.Machine.execDomainSwitchOn s
  | .domainPowerGood d => Sys2Proof.Machine.execDomainPowerGood d s
  | .domainSwitchTimeout d => Sys2Proof.Machine.execDomainSwitchTimeout d s
  | .domainRetry d => Sys2Proof.Machine.execDomainRetry d s
  | .domainGateOff d => Sys2Proof.Machine.execDomainGateOff d s
  | .vcoreInitialSet margins dom => Sys2Proof.Machine.execVcoreInitialSet margins dom s
  | .ageingMeasure margin dom => Sys2Proof.Machine.execAgeingMeasure margin dom s
  | .mdllLock run => Sys2Proof.Machine.execMdllLock run s
  | .bootCheckDone romFlips sramFlips flash sensorPf => Sys2Proof.Machine.execBootCheckDone romFlips sramFlips flash sensorPf s
  | .mdllLossOfLock run => Sys2Proof.Machine.execMdllLossOfLock run s
  | .mdllLockTimeout run => Sys2Proof.Machine.execMdllLockTimeout run s
  | .referenceEdgeMissing => Sys2Proof.Machine.execReferenceEdgeMissing s
  | .referenceRecheck edges => Sys2Proof.Machine.execReferenceRecheck edges s
  | .slowCrystalConfirm refPeriods => Sys2Proof.Machine.execSlowCrystalConfirm refPeriods s
  | .slowClockFault cause => Sys2Proof.Machine.execSlowClockFault cause s
  | .slowOscTrim => Sys2Proof.Machine.execSlowOscTrim s
  | .slowCrystalRecheck refPeriods => Sys2Proof.Machine.execSlowCrystalRecheck refPeriods s
  | .standbySlowCrystalStop banks => Sys2Proof.Machine.execStandbySlowCrystalStop banks s
  | .seqWatchdogExpiry => Sys2Proof.Machine.execSeqWatchdogExpiry s
  | .dramTrainingDone failed => Sys2Proof.Machine.execDramTrainingDone failed s
  | .weftCensusComplete ports => Sys2Proof.Machine.execWeftCensusComplete ports s
  | .strapRereadPass ref readings => Sys2Proof.Machine.execStrapRereadPass ref readings s
  | .strapConfirmRead pin reading => Sys2Proof.Machine.execStrapConfirmRead pin reading s
  | .liveStrapRead ref scene bright => Sys2Proof.Machine.execLiveStrapRead ref scene bright s
  | .livePinSample pin high banks => Sys2Proof.Machine.execLivePinSample pin high banks s
  | .selftestHold2s => Sys2Proof.Machine.execSelftestHold2s s
  | .selftestHold10s => Sys2Proof.Machine.execSelftestHold10s s
  | .invisibleSuiteDone => Sys2Proof.Machine.execInvisibleSuiteDone s
  | .visibleStepAdvance => Sys2Proof.Machine.execVisibleStepAdvance s
  | .visibleSequenceEnd => Sys2Proof.Machine.execVisibleSequenceEnd s
  | .testSliceAbandon test => Sys2Proof.Machine.execTestSliceAbandon test s
  | .eyeMarginRead lane margin => Sys2Proof.Machine.execEyeMarginRead lane margin s
  | .dacSwapCalibrate bank trimmed => Sys2Proof.Machine.execDacSwapCalibrate bank trimmed s
  | .romCrcCheck romFlips => Sys2Proof.Machine.execRomCrcCheck romFlips s
  | .otpCheck flipped => Sys2Proof.Machine.execOtpCheck flipped s
  | .sensorRead sites vin vled => Sys2Proof.Machine.execSensorRead sites vin vled s
  | .tempSiteIgnore site => Sys2Proof.Machine.execTempSiteIgnore site s
  | .standbyPowerDown banks => Sys2Proof.Machine.execStandbyPowerDown banks s
  | .cardDialogueStandbyLimit => Sys2Proof.Machine.execCardDialogueStandbyLimit s
  | .nightStandbyDecision => Sys2Proof.Machine.execNightStandbyDecision s
  | .timedWake banks => Sys2Proof.Machine.execTimedWake banks s
  | .slowListenerMatch levels => Sys2Proof.Machine.execSlowListenerMatch levels s
  | .wakeCheck banks => Sys2Proof.Machine.execWakeCheck banks s
  | .moduleInsert port => Sys2Proof.Machine.execModuleInsert port s
  | .moduleIdRead port bytes => Sys2Proof.Machine.execModuleIdRead port bytes s
  | .moduleRemove port => Sys2Proof.Machine.execModuleRemove port s
  | .linkUp port fault => Sys2Proof.Machine.execLinkUp port fault s
  | .linkDown port => Sys2Proof.Machine.execLinkDown port s
  | .netLinkTimeout port => Sys2Proof.Machine.execNetLinkTimeout port s
  | .portListenEnd port => Sys2Proof.Machine.execPortListenEnd port s
  | .frameReceive port frame => Sys2Proof.Machine.execFrameReceive port frame s
  | .macAgeOut mac => Sys2Proof.Machine.execMacAgeOut mac s
  | .mediaQueueRelease port group => Sys2Proof.Machine.execMediaQueueRelease port group s
  | .launchTime port => Sys2Proof.Machine.execLaunchTime port s
  | .guardFrame port g => Sys2Proof.Machine.execGuardFrame port g s
  | .guardSend => Sys2Proof.Machine.execGuardSend s
  | .guardLift port => Sys2Proof.Machine.execGuardLift port s
  | .flushFloodEnd => Sys2Proof.Machine.execFlushFloodEnd s
  | .routerPortExpiry port => Sys2Proof.Machine.execRouterPortExpiry port s
  | .igmpQuerySend => Sys2Proof.Machine.execIgmpQuerySend s
  | .igmpStateReport group => Sys2Proof.Machine.execIgmpStateReport group s
  | .igmpQueryAnswer => Sys2Proof.Machine.execIgmpQueryAnswer s
  | .sdpExpiry group udp => Sys2Proof.Machine.execSdpExpiry group udp s
  | .netSdpTimeout slot => Sys2Proof.Machine.execNetSdpTimeout slot s
  | .senderTimeout slot => Sys2Proof.Machine.execSenderTimeout slot s
  | .arpProbe => Sys2Proof.Machine.execArpProbe s
  | .addressClaim => Sys2Proof.Machine.execAddressClaim s
  | .positionalAddressRetry => Sys2Proof.Machine.execPositionalAddressRetry s
  | .statusRecordLaunch => Sys2Proof.Machine.execStatusRecordLaunch s
  | .announce port h a => Sys2Proof.Machine.execAnnounce port h a s
  | .sync port h twoStep origin => Sys2Proof.Machine.execSync port h twoStep origin s
  | .followUp h origin => Sys2Proof.Machine.execFollowUp h origin s
  | .followUpTimeout => Sys2Proof.Machine.execFollowUpTimeout s
  | .delayReq => Sys2Proof.Machine.execDelayReq s
  | .delayResp h requester received logInterval => Sys2Proof.Machine.execDelayResp h requester received logInterval s
  | .masterLoss => Sys2Proof.Machine.execMasterLoss s
  | .servoRangeTimeout => Sys2Proof.Machine.execServoRangeTimeout s
  | .timeNomasterTimeout => Sys2Proof.Machine.execTimeNomasterTimeout s
  | .followerStepTimeout => Sys2Proof.Machine.execFollowerStepTimeout s
  | .beatInconsistentTimeout => Sys2Proof.Machine.execBeatInconsistentTimeout s
  | .leadChangeHoldTimeout => Sys2Proof.Machine.execLeadChangeHoldTimeout s
  | .reedBeat flags => Sys2Proof.Machine.execReedBeat flags s
  | .refreshStart => Sys2Proof.Machine.execRefreshStart s
  | .pickStart => Sys2Proof.Machine.execPickStart s
  | .blockLock link headers => Sys2Proof.Machine.execBlockLock link headers s
  | .blockLockLoss link headers => Sys2Proof.Machine.execBlockLockLoss link headers s
  | .hello link run => Sys2Proof.Machine.execHello link run s
  | .helloSend => Sys2Proof.Machine.execHelloSend s
  | .helloTimeout link => Sys2Proof.Machine.execHelloTimeout link s
  | .svLinkTimeout link => Sys2Proof.Machine.execSvLinkTimeout link s
  | .markReqSend link => Sys2Proof.Machine.execMarkReqSend link s
  | .markReq link value => Sys2Proof.Machine.execMarkReq link value s
  | .markRsp link value => Sys2Proof.Machine.execMarkRsp link value s
  | .markBeat link value => Sys2Proof.Machine.execMarkBeat link value s
  | .pos link run => Sys2Proof.Machine.execPos link run s
  | .posSend => Sys2Proof.Machine.execPosSend s
  | .census link run => Sys2Proof.Machine.execCensus link run s
  | .censusSend => Sys2Proof.Machine.execCensusSend s
  | .censusLapse serial => Sys2Proof.Machine.execCensusLapse serial s
  | .lead link run => Sys2Proof.Machine.execLead link run s
  | .leadSend => Sys2Proof.Machine.execLeadSend s
  | .leadSettle => Sys2Proof.Machine.execLeadSettle s
  | .becomeActingLead => Sys2Proof.Machine.execBecomeActingLead s
  | .leadLost => Sys2Proof.Machine.execLeadLost s
  | .noLeadTimeout => Sys2Proof.Machine.execNoLeadTimeout s
  | .positionInconsistency link => Sys2Proof.Machine.execPositionInconsistency link s
  | .beat link run => Sys2Proof.Machine.execBeat link run s
  | .fault link run => Sys2Proof.Machine.execFault link run s
  | .faultKnotSend => Sys2Proof.Machine.execFaultKnotSend s
  | .sceneChangeStart => Sys2Proof.Machine.execSceneChangeStart s
  | .prepareRepeat => Sys2Proof.Machine.execPrepareRepeat s
  | .prepare link run => Sys2Proof.Machine.execPrepare link run s
  | .readySend => Sys2Proof.Machine.execReadySend s
  | .ready link run => Sys2Proof.Machine.execReady link run s
  | .sceneDecision => Sys2Proof.Machine.execSceneDecision s
  | .commitRepeat => Sys2Proof.Machine.execCommitRepeat s
  | .commit link run => Sys2Proof.Machine.execCommit link run s
  | .commitEcho => Sys2Proof.Machine.execCommitEcho s
  | .echoPreparedCommit => Sys2Proof.Machine.execEchoPreparedCommit s
  | .commitDeadlineMiss => Sys2Proof.Machine.execCommitDeadlineMiss s
  | .unsolicitedReady => Sys2Proof.Machine.execUnsolicitedReady s
  | .streamLossTimeout w => Sys2Proof.Machine.execStreamLossTimeout w s
  | .memRead m offset upset => Sys2Proof.Machine.execMemRead m offset upset s
  | .memWriteWhole m offset data => Sys2Proof.Machine.execMemWriteWhole m offset data s
  | .memWritePartial m offset data upset => Sys2Proof.Machine.execMemWritePartial m offset data upset s
  | .scrubLine upset => Sys2Proof.Machine.execScrubLine upset s
  | .xbTransaction m write address length => Sys2Proof.Machine.execXbTransaction m write address length s
  | .xbHang m => Sys2Proof.Machine.execXbHang m s
  | .weftPinTrip pin edges others => Sys2Proof.Machine.execWeftPinTrip pin edges others s
  | .weftSdoMismatch port echo => Sys2Proof.Machine.execWeftSdoMismatch port echo s
  | .weftRetest pin pass => Sys2Proof.Machine.execWeftRetest pin pass s
  | .wearUpdate => Sys2Proof.Machine.execWearUpdate s
  | .wearFlush => Sys2Proof.Machine.execWearFlush s
  | .ledgerProgramDone ok => Sys2Proof.Machine.execLedgerProgramDone ok s
  | .ambientConvert picoamps => Sys2Proof.Machine.execAmbientConvert picoamps s
  | .ambientReport => Sys2Proof.Machine.execAmbientReport s
  | .brightTargetCompute => Sys2Proof.Machine.execBrightTargetCompute s
  | .bright link run => Sys2Proof.Machine.execBright link run s
  | .markerUpdate meas vled => Sys2Proof.Machine.execMarkerUpdate meas vled s
  | .markerRetest ch first second vled => Sys2Proof.Machine.execMarkerRetest ch first second vled s
  | .supplyShortRetry ch meas vled => Sys2Proof.Machine.execSupplyShortRetry ch meas vled s
  | .retryCountClear ch => Sys2Proof.Machine.execRetryCountClear ch s
  | .markerThermalReduce t => Sys2Proof.Machine.execMarkerThermalReduce t s
  | .vledOutOfRange vled => Sys2Proof.Machine.execVledOutOfRange vled s
  | .vledRestore vled => Sys2Proof.Machine.execVledRestore vled s
  | .nonAudioEnd flow pair => Sys2Proof.Machine.execNonAudioEnd flow pair s
  | .audioFetch => Sys2Proof.Machine.execAudioFetch s
  | .audioSenderTimeout flow => Sys2Proof.Machine.execAudioSenderTimeout flow s
  | .levelChangeApply output channel => Sys2Proof.Machine.execLevelChangeApply output channel s
  | .audNosourceTimeout flow => Sys2Proof.Machine.execAudNosourceTimeout flow s
  | .bobbinFrame levels lost => Sys2Proof.Machine.execBobbinFrame levels lost s
  | .bobbinFrameGap => Sys2Proof.Machine.execBobbinFrameGap s
  | .xon => Sys2Proof.Machine.execXon s
  | .xoff => Sys2Proof.Machine.execXoff s
  | .xoffTimeout => Sys2Proof.Machine.execXoffTimeout s
  | .answerSend echo => Sys2Proof.Machine.execAnswerSend echo s
  | .answerDrop => Sys2Proof.Machine.execAnswerDrop s
  | .rollcallSlot echo => Sys2Proof.Machine.execRollcallSlot echo s
  | .rollcallSend echo => Sys2Proof.Machine.execRollcallSend echo s
  | .rollcallResend echo => Sys2Proof.Machine.execRollcallResend echo s
  | .beaconFrame lows => Sys2Proof.Machine.execBeaconFrame lows s
  | .cardPresent => Sys2Proof.Machine.execCardPresent s
  | .ts levels => Sys2Proof.Machine.execTs levels s
  | .tsTimeout => Sys2Proof.Machine.execTsTimeout s
  | .atrComplete chars => Sys2Proof.Machine.execAtrComplete chars s
  | .ppsEcho chars => Sys2Proof.Machine.execPpsEcho chars s
  | .cardCharacterTimeout cause => Sys2Proof.Machine.execCardCharacterTimeout cause s
  | .cardRemoval => Sys2Proof.Machine.execCardRemoval s
  | .cardReactivate => Sys2Proof.Machine.execCardReactivate s
  | .select chars => Sys2Proof.Machine.execSelect chars s
  | .helloCertificate chars => Sys2Proof.Machine.execHelloCertificate chars s
  | .helloState chars => Sys2Proof.Machine.execHelloState chars s
  | .getResponse chars => Sys2Proof.Machine.execGetResponse chars s
  | .order chars => Sys2Proof.Machine.execOrder chars s
  | .ledgerRetagDone => Sys2Proof.Machine.execLedgerRetagDone s
  | .result chars => Sys2Proof.Machine.execResult chars s
  | .dialogueTimeout => Sys2Proof.Machine.execDialogueTimeout s
  | .tapInstructionLoad trstN ir => Sys2Proof.Machine.execTapInstructionLoad trstN ir s
  | .faultRaise f detail => Sys2Proof.Machine.execFaultRaise f detail s
  | .faultClear f detail => Sys2Proof.Machine.execFaultClear f detail s
  | .faultHandlerEnd sev => Sys2Proof.Machine.execFaultHandlerEnd sev s
  | .handlerTimeout sev => Sys2Proof.Machine.execHandlerTimeout sev s
  | .s3HoldoffEnd banks => Sys2Proof.Machine.execS3HoldoffEnd banks s
  | .ledgerMirror => Sys2Proof.Machine.execLedgerMirror s
  | .cardAbsenceConfirmed => Sys2Proof.Machine.execCardAbsenceConfirmed s
  | .memoryInitComplete => Sys2Proof.Machine.execMemoryInitComplete s
  | .knotSequenceExpiry orig t => Sys2Proof.Machine.execKnotSequenceExpiry orig t s
  | .posClaimExpiry link => Sys2Proof.Machine.execPosClaimExpiry link s
  | .leadClaimLapse => Sys2Proof.Machine.execLeadClaimLapse s
  | .flowControlSend echo => Sys2Proof.Machine.execFlowControlSend echo s
  | .buckPhaseChange milliamps => Sys2Proof.Machine.execBuckPhaseChange milliamps s

end Sys2Proof.Machine
end

