-- ==== Sys2Proof/Machine/Idle.lean ====
section
/-!
DEFINITION. What one system clock does while no command waits (05 R193 to R200; 08 R334; log 1).
-/
namespace Sys2Proof.Machine
open Sys2Proof

/-- m_j of the present injection period. -/
def depthNow (s : State) : Nat := depthAt s.clk.profile s.clk.j

/-- A system-clock period is 1 ns × (1 + m_j ÷ 3,200), so 3,200 + m_j ticks (R193); AON alone lets 1 ns pass. -/
def clockTicks (s : State) : Ticks := if s.clk.running then 3200 + depthNow s else 3200

/-- One clock of the injection period; at its end the DTC accumulates m_j and slips a cycle at 3,200 steps, and the tuning loop takes
over the cell delay it was given a period ago and is given the value of the period after (R184, R193, R194, R198). -/
def sweepClock (m : Nat) (c : Clk) : Clk :=
  if c.sub + 1 < 40 then { c with sub := c.sub + 1, count := c.count + 1 }
  else
    let j := (c.j + 1) % periodsOf c.profile
    { c with
      sub := 0, count := c.count + 1, j := j, dtc := (c.dtc + m) % 3200
      cell := c.cellNext, cellNext := depthAt c.profile ((j + 1) % periodsOf c.profile) }

/-- The counter gains I + ΔI_j, the remainder carried to the next clock (R200, 08 R334). -/
def gainTime (m : Nat) (s : State) : State :=
  if !s.time.running then s
  else
    let i := incrementOf s.time.y
    let n := i * m + s.clk.carry
    let s := modTime (fun t => setCounterF t (counterF t + i + n / 3200)) s
    modClk (fun z => { z with carry := n % 3200 }) s

/-- The counter and every fractional divider in one clock (R200, R201). -/
def countClock (m : Nat) (s : State) : State :=
  let before := counterOf s
  let s := modClk (fun z => { z with div := serialDividers m s z.div }) (gainTime m s)
  audioClock before (counterOf s) (scanClock before (counterOf s) s)

/-- What a MARK is, once it has left. -/
def sentMark (d : Dir) (m : OutMark) : Sent :=
  match m.kind with | .req => .markReq d m.value | .rsp => .markRsp d m.value | .beat => .markBeat d m.value

/-- A block leaves at a boundary, an instant of the counter: a MARK first, then the rest of the knot under way, then the START of the
next knot, else IDLE (09 R410, R414, R415, R418, R426). -/
def sendBlock (d : Dir) (at_ : Int) (s : State) : State :=
  let l := linkOf s d
  match l.marks, l.out, nextKnot l.queue with
  | m :: rest, _, _ => emit (setLink s d (putBlock (markBlock m.kind m.value) (departed m at_ { l with marks := rest }))) (sentMark d m)
  | [], b :: rest, _ => setLink s d (putBlock b { l with out := rest })
  | [], [], some (q, rest) =>
    let bytes := filled l q
    match knotBlocks bytes with
    | b :: out => emit (setLink s d (putBlock b { l with queue := rest, out := out })) (.knot d bytes)
    | [] => setLink s d { l with queue := rest }
  | [], [], none => setLink s d (putBlock idleBlock l)

/-- A link in n ticks, at most one block: its boundary lies where the block before it ends. -/
def laneClock (n : Ticks) (d : Dir) (s : State) : State :=
  let left := (linkOf s d).blockLeft
  if n < left then modLink s d (fun l => { l with blockLeft := left - n })
  else
    let s := sendBlock d (counterOf s - ((n - left) * 4294967296 / 3200 : Nat)) s
    modLink s d (fun l => { l with blockLeft := blockTicks - (n - left) })

/-- What the links and ports send in n ticks (07 R299, 09 R403, R426). -/
def sendClock (n : Ticks) (s : State) : State :=
  let s := if svRuns s && phyRuns s .selvedge then dirs.foldl (fun st d => laneClock n d st) s else s
  if domOn s 3 then ports.foldl servePort s else s

/-- What AON does as time passes: the strap decision, a slow clock that waits, the rail (03 R98, 05 R211, 04 R155). -/
def aonTick (s : State) : State := moveRail (settleSlowDue (settleStraps s))

/-- One system clock; the slices of a requested suite end within it (06 R260). -/
def tick (s : State) : State :=
  let m := depthNow s
  let s := aonTick { s with now := s.now + clockTicks s }
  if !s.clk.running then s
  else
    let s := countClock m { s with clk := sweepClock m s.clk }
    playDue (holdLong (flushFrameDue (trackGating (endSuite (sendClock (3200 + m) (xbClock (openPick s)))))))

end Sys2Proof.Machine
end

