-- ==== Sys2Proof/Machine/GuardBytes.lean ====
section
/-!
DEFINITION. The bytes of a ring-guard frame up to its FCS (07 Table 7.4).
-/
namespace Sys2Proof.Machine
open Sys2Proof

/-- The destination 01-5A-50-57-00-01 and the EtherType 0x88B5. -/
def guardDest : Mac := 0x015A50570001
def guardEtherType : Nat := 0x88B5

/-- Flags: LEAD, LOOPED and FLUSH in bits 7 to 5. -/
def guardFlags (g : Guard) : Nat := 128 * b2n g.lead + 64 * b2n g.looped + 32 * b2n g.flush

/-- Bytes 0 to 59 of a frame from `src`; the FCS follows them. -/
def guardBytes (src : Mac) (g : Guard) : List Byte :=
  beBytes 6 guardDest.toNat ++ beBytes 6 src.toNat ++ beBytes 2 guardEtherType ++ [1] ++ beBytes 1 (guardFlags g) ++
    beBytes 2 g.hops ++ beBytes 1 g.wallId ++ beBytes 1 g.port.val ++ beBytes 8 g.serial.toNat ++ beBytes 2 g.seq ++
    List.replicate 30 0

/-- What Table 7.4 reads from the bytes of a guard frame of version 1; reserved bits are ignored (00 R12). -/
def readGuard (b : List Byte) : Option Guard :=
  if b.length < 60 || fieldAt b 0 6 != guardDest.toNat || fieldAt b 12 2 != guardEtherType || byteAt b 14 != 1 then none
  else some
    { lead := bitAt (byteAt b 15) 7, looped := bitAt (byteAt b 15) 6, flush := bitAt (byteAt b 15) 5
      hops := fieldAt b 16 2, wallId := byteAt b 18, port := Fin.ofNat 4 (byteAt b 19)
      serial := BitVec.ofNat 64 (fieldAt b 20 8), seq := fieldAt b 28 2 }

end Sys2Proof.Machine
end

