-- ==== Sys2Proof/Machine/PinLevels.lean ====
section
/-!
DEFINITION. How the PW64 drives each output pin, as a function of State (02 R56 to R59, R71, R79, R81 to R83, Tables 2.11
and 2.13). The marker sinks have `markerSetting` and `LOCKF` has `lockPin`.
-/
namespace Sys2Proof.Machine
open Sys2Proof

/-- What a pin does. `carries`: it follows the signal of its block, which `sent` and `lit` give. `idle` is electrical idle; `released`
is an open-drain pin that does not sink. `scan`: boundary-scan cells drive it (R83). -/
inductive Drive | hiZ | low | high | released | idle | carries | oscillating | noCurrent | scan
  deriving DecidableEq, Repr

/-- The outputs of Table 2.11, the two TDM ports as 0 and 1. -/
inductive OutPin
  | netTx (port : Port) | netTxDis (port : Port) | netScl | netSda
  | svTx (link : Dir)
  | xtalOut | xt32Out
  | wpClk (p : Fin 64) | wpSdo (p : Fin 64)
  | wgLe (g : Fin 8) | wgA (g : Fin 8) (i : Fin 5) | wgGclk (g : Fin 8) | wgRowenN (g : Fin 8) | wgIret (g : Fin 8)
  | mclk | bclk (o : Fin 2) | fsync (o : Fin 2) | tdmData (o : Fin 2)
  | bobTx | bobDe | irdaTx
  | cardIo | cardClk | cardRstN | cardVccEn
  | ldgCsN | ldgSck | ldgIo (i : Fin 4)
  | faultN | ready | synced | statePin (i : Fin 3)
  | tdo
  deriving DecidableEq, Repr

/-- The inputs of Table 2.11. -/
inductive InPin
  | netRx (port : Port) | netModAbs (port : Port) | netLos (port : Port) | svRx (link : Dir)
  | xtalIn | xt32In
  | wpSdi (p : Fin 64)
  | bobRx | irdaRx | cardPresN
  | selftestN | identN | standbyN | muteN | blankN | armN | resetN
  | cs (i : Fin 48) | ambIn | ambRef
  | tck | tms | tdi | trstN | testEn
  deriving DecidableEq, Repr

/-! ### Pulls (R56, R58) -/

/-- The Pull column: nominal 50 kΩ up or down, the 100 Ω termination of a lane, or 10.0 kΩ to the strap reference. -/
inductive Pull | none | up | down | termination | strap
  deriving DecidableEq, Repr

def outPull : OutPin → Pull
  | .netTxDis _ | .netScl | .netSda | .wgGclk _ | .wgRowenN _ | .bobTx | .cardIo | .ldgCsN | .ldgIo _ => .up
  | .wpClk _ | .wpSdo _ | .wgLe _ | .wgA _ _ | .mclk | .bclk _ | .fsync _ | .tdmData _ | .bobDe | .irdaTx
  | .cardClk | .cardRstN | .cardVccEn | .ldgSck | .ready | .synced | .statePin _ => .down
  | .netTx _ | .svTx _ | .xtalOut | .xt32Out | .wgIret _ | .faultN | .tdo => .none

def inPull : InPin → Pull
  | .netRx _ | .svRx _ => .termination
  | .netModAbs _ | .netLos _ | .bobRx | .irdaRx | .cardPresN | .selftestN | .identN | .standbyN | .muteN | .blankN | .armN
  | .resetN | .tms | .tdi => .up
  | .wpSdi _ | .tck | .trstN | .testEn => .down
  | .cs _ => .strap
  | .xtalIn | .xt32In | .ambIn | .ambRef => .none

/-- What an undriven input reads, and the level of an undriven output: its pull (R56). -/
def restLevel : Pull → Option Bool
  | .up | .strap => some true
  | .down => some false
  | .none | .termination => Option.none

/-! ### Boundary scan (R73) -/

/-- On the chain of IEEE 1149.1: every Weft CMOS, Misc CMOS and open-drain pin; the test port itself shifts it. -/
def outOnChain : OutPin → Bool
  | .netTx _ | .svTx _ | .xtalOut | .xt32Out | .wgIret _ | .tdo => false
  | _ => true

def inOnChain : InPin → Bool
  | .netModAbs _ | .netLos _ | .wpSdi _ | .bobRx | .irdaRx | .cardPresN | .selftestN | .identN | .standbyN | .muteN | .blankN
  | .armN | .resetN | .testEn => true
  | _ => false

/-- The AC-coupled lanes, which IEEE 1149.6 covers. -/
def outAcScan : OutPin → Bool | .netTx _ | .svTx _ => true | _ => false
def inAcScan : InPin → Bool | .netRx _ | .svRx _ => true | _ => false

/-- A pin of the weft bank. -/
def weftPin : OutPin → Bool
  | .wpClk _ | .wpSdo _ | .wgLe _ | .wgA _ _ | .wgGclk _ | .wgRowenN _ | .wgIret _ => true
  | _ => false

/-- A lane: it hangs on neither bank. -/
def lanePin : OutPin → Bool
  | .netTx _ | .svTx _ => true
  | _ => false

/-- The reset state of Table 2.11; "Hi-Z, then" a level turns to the level with AON (R57), a Hi-Z pin resting on its pull (R56). -/
def resetDrive (aon : Bool) : OutPin → Drive
  | .netTx _ | .svTx _ => .idle
  | .xtalOut | .xt32Out => .oscillating
  | .wgIret _ => .noCurrent
  | .netScl | .netSda | .cardIo => .released
  | .netTxDis _ | .bobTx | .ldgCsN => if aon then .high else .hiZ
  | .mclk | .bclk _ | .fsync _ | .tdmData _ | .bobDe | .irdaTx | .cardClk | .cardRstN | .cardVccEn | .ldgSck | .ready | .synced | .statePin _ =>
      if aon then .low else .hiZ
  | .faultN => if aon then .low else .released
  | .wpClk _ | .wpSdo _ | .wgLe _ | .wgA _ _ | .wgGclk _ | .wgRowenN _ | .ldgIo _ | .tdo => .hiZ

/-- Functional in standby (R71). -/
def standbyPin : OutPin → Bool
  | .bobTx | .bobDe | .faultN | .ready | .synced | .statePin _ => true
  | _ => false

def level (b : Bool) : Drive := if b then .high else .low

/-! ### The weft pins (13 Table 13.1, R624, R630, R672, R678, Table 13.3) -/

/-- The domain of a group's pins, D9 or D10 (01 Table 1.5). -/
def groupDom (g : Nat) : Nat := if g < 4 then 9 else 10

/-- The census runs on ports of the group: nothing is latched or lit. -/
def groupCensus (s : State) (g : Nat) : Bool :=
  !s.boot.censusDone || (groupPorts g).any (fun p => s.weft.recensus.any (fun q => q.val == p))

/-- The time since the pick under way started, and its gap. -/
def inPick (s : State) : Option (Nat × Ticks × Ticks) :=
  match s.weft.pick, s.weft.timing with
  | some (_, j, q), some t => some (j, s.now - q, nsT (500 * t.g))
  | _, _ => none

/-- A row is addressed and its supply on: the last 100 ns of the gap, and the active part. -/
def rowOn (s : State) : Bool :=
  match inPick s with | some (_, dt, g) => decide (g ≤ dt + nsT 100) | none => false

/-- Row address: the row of the pick from 100 ns on, and the row before it until then. -/
def rowAddress (s : State) : Nat :=
  match inPick s with
  | some (j, dt, _) => if nsT 100 ≤ dt then j else (j + scanRows s - 1) % scanRows s
  | none => 0

/-- Address lines that the scan uses; the others are low. -/
def rowLines (s : State) : Nat := ((List.range 5).filter (fun i => decide (2 ^ i < scanRows s))).length

/-- `WGg_ROWEN_N` outside the reset state. -/
def rowenDrive (s : State) (g : Nat) : Drive :=
  if (s.weft.group.getD g {}).hiZ then .hiZ
  else level (safeState s || groupCensus s g || groupBlanked s g || rowsOff s || !rowOn s)

/-- Clocks of the active part for classes G and C: 2^n cycles of d clocks (Table 13.3). -/
def lightClocks (s : State) (g : Nat) : Nat :=
  match s.weft.timing with | some t => 2 ^ (s.weft.group.getD g {}).n * t.d | none => 0

/-- The level of the grey-scale clock `c` clocks into its cycles: the high part, which ends each, is ceil(d ÷ 2) clocks (20 Table
20.11). -/
def gclkLevel (d c : Nat) : Bool := decide (d / 2 ≤ c % max 1 d)

/-- `WGg_GCLK` outside the reset state: it lights (class S) or clocks in the active part of a pick, and stops high after its last
cycle. -/
def gclkDrive (s : State) (g : Nat) : Drive :=
  if (s.weft.group.getD g {}).hiZ then .hiZ
  else if safeState s || groupCensus s g || enteringStandby s then .high
  else match s.weft.activeAt with
    | some c =>
      if isClassS s then .carries
      else if c + lightClocks s g ≤ s.clk.count then .high
      else level (gclkLevel (match s.weft.timing with | some t => t.d | none => 1) (s.clk.count - c))
    | none => .high

/-- A port's clock and data outside the reset state. -/
def portDrive (s : State) (p : Nat) : Drive :=
  if portHiZ s p then .hiZ
  else if groupCensus s (p / 8) then .carries
  else if inCanvas s p then .carries else .low

/-- A weft pin outside the reset state. -/
def weftDrive (s : State) : OutPin → Drive
  | .wpClk p | .wpSdo p => portDrive s p.val
  | .wgLe g => if (s.weft.group.getD g.val {}).hiZ then .hiZ else if groupCensus s g.val then .low else .carries
  | .wgA g i => if (s.weft.group.getD g.val {}).hiZ then .hiZ else level (i.val < rowLines s && bitAt (rowAddress s) i.val)
  | .wgGclk g => gclkDrive s g.val
  | .wgRowenN g => rowenDrive s g.val
  | .wgIret _ => if isClassS s then .carries else .noCurrent
  | _ => .hiZ

/-- AON holds the outputs with the system clock stopped: a clock fault, a brown-out or safe hold (05 R216, 04 R142, 19 R910). -/
def aonHoldsPins (s : State) : Bool := !s.clk.running && (s.flt.holdoff.isSome || s.flt.safeHold)

/-- Safe state of an S3 restart, whose pins follow it also while D9 and D10 are off (R81; log 68); a thermal shutdown has no such
claim (R59). -/
def restartSafe (s : State) : Bool := s.flt.safe || s.flt.safeHold

/-- The weft pins are at their reset state while their domain is off (R59) or AON holds them (05 R216); in an S3 restart they
follow safe state (R81; log 68). -/
def weftTaken (s : State) : OutPin → Bool
  | .wpClk p | .wpSdo p => domOn s (portDom p.val) && !aonHoldsPins s
  | .wgLe g | .wgA g _ => domOn s (groupDom g.val) && !aonHoldsPins s
  | .wgGclk g | .wgRowenN g => (domOn s (groupDom g.val) || restartSafe s) && !aonHoldsPins s
  | .wgIret g => domOn s (groupDom g.val) && !aonHoldsPins s
  | _ => false

/-! ### The card pins (16 Table 16.5, R805) -/

/-- An active card, and `t` since I has passed. -/
def cardAfter (s : State) (t : Ticks) : Bool := cardBusy s && decide (s.card.activated + t ≤ s.now)

/-- Step `n` of a deactivation, 10 µs apart, is still to come (R805). -/
def stepToCome (s : State) (n : Nat) : Bool :=
  match s.card.endedAt with | some t => decide (s.card.stage = .ended) && decide (s.now < t + usT (10 * n)) | none => false

/-- The PW64 sends a low. -/
def cardSends (s : State) : Bool :=
  match s.card.tx with
  | some x => (match x.now (etuTicks s.card) s.now with | some (b, _) => !b | none => false)
  | none => false

def cardIoDrive (s : State) : Drive :=
  if cardAfter s (msT 2) then (if cardSends s then .low else .released)
  else if s.card.ioLow && !stepToCome s 2 then .low else .released

/-- The 4 MHz clock at half duty (Table 16.5). -/
def cardClkLevel (s : State) : Bool :=
  domOn s 11 && (cardAfter s (msT 2) || stepToCome s 1) && decide (2 * s.clk.div.card.acc < cardModulus)

/-! ### The other pins -/

/-- A TDM output by its number. -/
def tdmOut (s : State) (o : Fin 2) : AOut := if o.val = 0 then s.aud.outA else s.aud.outB

/-- A pin that its owning block has taken. -/
def miscDrive (s : State) : OutPin → Drive
  | .netTxDis n => level (s.net.port.getD n.val {}).txDis
  | .mclk => level (mclkLevel s)
  | .bclk _ => level (bclkLevel s)
  | .fsync _ => level (fsyncLevel s)
  | .tdmData o => level (dataLevel s (tdmOut s o))
  | .bobTx => level (!bobRuns s || bobTxLevel s)
  | .bobDe => level (bobDeLevel s)
  | .irdaTx => level (irdaLevel s)
  | .cardIo => if domOn s 11 then cardIoDrive s else .released
  | .cardClk => level (cardClkLevel s)
  | .cardRstN => level (domOn s 11 && cardAfter s (usT 2250))
  | .cardVccEn => level (domOn s 11 && (cardBusy s || stepToCome s 3))
  | .ldgCsN => if runs s && s.ldg.busy.isSome then .carries else .high
  | .ldgSck => if runs s && s.ldg.busy.isSome then .carries else .low
  | .ldgIo _ => if runs s && s.ldg.busy.isSome then .carries else .hiZ
  | .faultN => if faultLow s then .low else .released
  | .ready => level (ready s)
  | .synced => level (syncedPin s)
  | .statePin i => level (bitAt (stateCode s) i.val)
  | p => resetDrive s.pwr.aonOn p

/-- A crystal runs: the 25.000 MHz oscillator where it is on, the other from VIN on (05 R182). -/
def crystalDrive (s : State) : OutPin → Drive
  | .xtalOut => if !s.pwr.aonOn || s.clk.oscOn then .oscillating else .low
  | _ => .oscillating

/-- A lane: idle unless its block and its port run (07 R317, Table 4.3). -/
def laneDrive (s : State) : OutPin → Drive
  | .netTx n => if netRuns s && phyRuns s .ethernet && s.pwr.lane.getD n.val false && !(s.net.port.getD n.val {}).txDis then .carries else .idle
  | .svTx _ => if svRuns s && phyRuns s .selvedge then .carries else .idle
  | _ => .idle

/-- The owning blocks have the pins: power, no reset, no standby, no boundary scan (R57, R71, R79, R83). -/
def pinsTaken (s : State) : Bool := !s.pins.boundaryScan && s.pwr.aonOn && !s.boot.inReset && !s.standby.asleep

def crystalPin : OutPin → Bool | .xtalOut | .xt32Out => true | _ => false

/-- How the PW64 drives an output pin. -/
def pinDrive (s : State) (p : OutPin) : Drive :=
  if crystalPin p then crystalDrive s p
  else if !s.pwr.aonOn || s.boot.inReset || (s.standby.asleep && !standbyPin p) then resetDrive s.pwr.aonOn p
  else if scanned s && (outOnChain p || outAcScan p) then .scan
  else if lanePin p then laneDrive s p
  else if weftPin p then
    if bankUsable s .weft && weftTaken s p then weftDrive s p else resetDrive true p
  else if bankUsable s .misc then miscDrive s p else resetDrive true p

/-- The level on a pin that nothing drives: its pull, whatever VIN does, while its bank has a supply (R56). -/
def pinRest (s : State) (p : OutPin) (bankSupplied : Bool) : Option Bool :=
  match pinDrive s p with
  | .hiZ | .released => if bankSupplied then restLevel (outPull p) else none
  | .low => some false
  | .high => some true
  | _ => none

end Sys2Proof.Machine
end

