-- ==== Sys2Proof/Safety.lean ====
section
/-!
DEFINITION. What counts as a safe run, and the terms that the statements use: an outcome that is a next state, the invariant
that every step keeps, the fuses that never come back, and the parts of the state that each command may change.
-/
namespace Sys2Proof.Safety
open Sys2Proof Sys2Proof.Machine

/-- The command ends in a next state, and `P` holds of it. -/
def Goes (o : Host.Outcome State Fault Refusal) (P : State → Prop) : Prop := ∃ t, o = .next t ∧ P t

/-- Frame memory stands in its canonical form: offsets rising, no listed byte equal to what an unlisted one reads as. -/
def MemoryCanonical (s : State) : Prop := Memory.wf s.mem.bytes = true

/-- Every fuse programmed in `s` is programmed in `t` (17 R818: a fuse is programmed once, and never back). -/
def FusesKept (s t : State) : Prop := ∀ f ∈ s.otp.fuse, f ∈ t.otp.fuse

/-- An instance of a fault is active. -/
def Stands (f : FaultName) (detail : BitVec 32) (s : State) : Prop := activeKey s f (faultKey f detail) = true

/-- The entry that a raise writes: name, not cleared, detail. -/
def RingHolds (f : FaultName) (cleared : Bool) (detail : BitVec 32) (s : State) : Prop :=
  ∃ e ∈ s.flt.ring, e.f = f ∧ e.cleared = cleared ∧ e.detail = detail

/-- No step of the next `n` stops, and frame memory is canonical after each. -/
def SafeFor : Nat → State → Prop
  | 0, s => MemoryCanonical s
  | n + 1, s => MemoryCanonical s ∧ Goes (step s) (SafeFor n)

/-- The parts of the state that a frame speaks of: all but the fault manager, the records, knots and frames that announce a
fault, and what has left the part, which any command that raises or clears a fault may change. -/
inductive Part
  | pins | straps | live | pwr | standby | clk | boot | test | otp | keys | ldg | sens | time | scene | mem |
  xb | sram | adm | amb | bri | mark | aud | bob | card | dlg
  deriving DecidableEq, Repr

/-- A part stands as it was. -/
def samePart (s t : State) : Part → Prop
  | .pins => t.pins = s.pins
  | .straps => t.straps = s.straps
  | .live => t.live = s.live
  | .pwr => t.pwr = s.pwr
  | .standby => t.standby = s.standby
  | .clk => t.clk = s.clk
  | .boot => t.boot = s.boot
  | .test => t.test = s.test
  | .otp => t.otp = s.otp
  | .keys => t.keys = s.keys
  | .ldg => t.ldg = s.ldg
  | .sens => t.sens = s.sens
  | .time => t.time = s.time
  | .scene => t.scene = s.scene
  | .mem => t.mem = s.mem
  | .xb => t.xb = s.xb
  | .sram => t.sram = s.sram
  | .adm => t.adm = s.adm
  | .amb => t.amb = s.amb
  | .bri => t.bri = s.bri
  | .mark => t.mark = s.mark
  | .aud => t.aud = s.aud
  | .bob => t.bob = s.bob
  | .card => t.card = s.card
  | .dlg => t.dlg = s.dlg

/-- The parts that a command may change. `none`: a command that begins or ends the core's life, or may raise a fault of S3, and so
may change any part. -/
def touches : Instr → Option (List Part)
  | .aonOn .. | .d1d2SwitchOn .. | .vinBrownout .. | .railBrownout .. | .brownoutRestart .. | .standbyBrownout ..
  | .aonOff .. | .resetNAssert .. | .resetNRelease .. | .bootCheckDone .. | .mdllLossOfLock ..
  | .mdllLockTimeout .. | .referenceEdgeMissing .. | .standbySlowCrystalStop .. | .seqWatchdogExpiry ..
  | .dramTrainingDone .. | .livePinSample .. | .romCrcCheck .. | .standbyPowerDown ..
  | .timedWake .. | .wakeCheck .. | .reedBeat .. | .memWritePartial .. | .scrubLine ..
  | .xbHang .. | .faultRaise .. | .handlerTimeout .. | .s3HoldoffEnd .. => none
  | .fusePairDone .. => some [.clk, .otp, .keys, .ldg, .dlg]
  | .fuseSequenceTempWaitEnd .. => some [.keys]
  | .strapPass .. => some [.straps, .live, .clk]
  | .bankRemeasure .. | .domainSwitchTimeout .. | .vcoreInitialSet .. | .moduleInsert .. | .buckPhaseChange .. => some [.pwr]
  | .domainSwitchOn .. | .domainRetry .. => some [.pwr, .clk, .boot]
  | .domainGateOff .. | .ageingMeasure .. | .moduleRemove .. => some [.pwr, .test]
  | .domainPowerGood .. => some [.pwr, .time, .xb]
  | .mdllLock .. => some [.pwr, .clk, .boot, .sram]
  | .referenceRecheck .. | .slowCrystalConfirm .. | .slowClockFault .. | .slowOscTrim .. | .slowCrystalRecheck ..
    => some [.clk]
  | .weftCensusComplete .. => some [.live, .pwr, .boot, .test, .ldg, .bri, .mark, .aud]
  | .strapRereadPass .. | .strapConfirmRead .. => some [.straps, .test]
  | .liveStrapRead .. => some [.straps, .live]
  | .selftestHold2s .. | .selftestHold10s .. => some [.live, .test]
  | .visibleStepAdvance .. | .visibleSequenceEnd .. | .testSliceAbandon .. | .eyeMarginRead ..
  | .dacSwapCalibrate .. | .otpCheck .. | .linkDown .. | .invisibleSuiteDone .. => some [.test]
  | .slowListenerMatch .. => some [.standby, .clk, .boot]
  | .sensorRead .. => some [.test, .keys, .sens, .aud]
  | .tempSiteIgnore .. => some [.sens]
  | .cardDialogueStandbyLimit .. | .ts .. | .tsTimeout .. | .atrComplete .. | .ppsEcho ..
  | .cardCharacterTimeout .. | .cardRemoval .. | .select .. | .helloCertificate .. | .helloState ..
  | .getResponse .. | .result .. | .dialogueTimeout .. => some [.keys, .card, .dlg]
  | .nightStandbyDecision .. | .bright .. => some [.standby, .bri]
  | .moduleIdRead .. | .netLinkTimeout .. | .portListenEnd .. | .macAgeOut .. | .mediaQueueRelease ..
  | .guardFrame .. | .guardSend .. | .guardLift .. | .flushFloodEnd .. | .routerPortExpiry .. | .igmpQuerySend ..
  | .igmpStateReport .. | .igmpQueryAnswer .. | .sdpExpiry .. | .netSdpTimeout .. | .senderTimeout ..
  | .arpProbe .. | .addressClaim .. | .positionalAddressRetry .. | .timeNomasterTimeout .. | .pickStart ..
  | .blockLock .. | .blockLockLoss .. | .hello .. | .helloSend .. | .helloTimeout .. | .svLinkTimeout ..
  | .markReqSend .. | .markReq .. | .markRsp .. | .markBeat .. | .pos .. | .posSend .. | .censusLapse ..
  | .leadSettle .. | .noLeadTimeout .. | .positionInconsistency .. | .fault .. | .faultKnotSend ..
  | .weftPinTrip .. | .weftSdoMismatch .. | .weftRetest .. | .wearUpdate .. | .beaconFrame .. | .faultClear ..
  | .faultHandlerEnd .. | .knotSequenceExpiry .. | .posClaimExpiry .. | .leadClaimLapse .. => some []
  | .linkUp .. | .launchTime .. | .announce .. | .sync .. | .followUp .. | .followUpTimeout .. | .delayReq ..
  | .delayResp .. | .masterLoss .. | .servoRangeTimeout .. | .followerStepTimeout .. | .beatInconsistentTimeout ..
  | .leadChangeHoldTimeout .. | .refreshStart .. | .leadLost .. | .beat .. => some [.time]
  | .frameReceive .. => some [.scene, .mem, .aud]
  | .statusRecordLaunch .. => some [.standby, .scene, .aud, .bob]
  | .census .. | .censusSend .. | .leadSend .. | .prepareRepeat .. | .ready .. | .commitRepeat .. | .commitEcho ..
  | .streamLossTimeout .. => some [.scene]
  | .lead .. => some [.keys, .time, .scene, .aud]
  | .becomeActingLead .. => some [.standby, .keys, .time, .scene, .bri, .aud, .bob]
  | .sceneChangeStart .. | .prepare .. | .sceneDecision .. | .commit .. | .commitDeadlineMiss ..
    => some [.keys, .scene, .aud]
  | .readySend .. | .unsolicitedReady .. => some [.scene, .adm]
  | .echoPreparedCommit .. => some [.scene, .aud]
  | .memRead .. | .memWriteWhole .. => some [.mem, .xb]
  | .xbTransaction .. => some [.xb]
  | .wearFlush .. | .ledgerMirror .. => some [.ldg]
  | .ledgerProgramDone .. | .ledgerRetagDone .. => some [.keys, .ldg, .dlg]
  | .ambientConvert .. => some [.amb]
  | .ambientReport .. => some [.amb, .bri]
  | .brightTargetCompute .. => some [.bri]
  | .markerUpdate .. => some [.test, .mark]
  | .markerRetest .. | .supplyShortRetry .. | .retryCountClear .. | .markerThermalReduce ..
  | .vledOutOfRange .. | .vledRestore .. => some [.mark]
  | .nonAudioEnd .. | .audioSenderTimeout .. | .levelChangeApply .. | .audNosourceTimeout .. => some [.aud]
  | .audioFetch .. => some [.time, .aud]
  | .bobbinFrame .. | .answerSend .. | .answerDrop .. => some [.standby, .aud, .bob]
  | .bobbinFrameGap .. | .xon .. | .xoff .. | .xoffTimeout .. | .rollcallSlot .. | .rollcallSend ..
  | .rollcallResend .. | .flowControlSend .. => some [.bob]
  | .cardPresent .. | .cardReactivate .. | .cardAbsenceConfirmed .. => some [.card]
  | .order .. => some [.keys, .ldg, .card, .dlg]
  | .tapInstructionLoad .. => some [.pins, .keys, .ldg, .scene, .mem, .aud, .card, .dlg]
  | .memoryInitComplete .. => some [.mem]

/-- What a command keeps: every part that it does not touch. -/
def FrameOf (c : Instr) (s t : State) : Prop := ∀ l, touches c = some l → ∀ p : Part, p ∉ l → samePart s t p

end Sys2Proof.Safety
end

