-- ==== Sys2Proof/Certificates/Slice0/Obligations.lean ====
section
/-!
DEFINITION. The statements for the provers: what the commands of each part of the block do, what every step keeps, and what the encoders and
decoders of knots agree on. A clause in which a command changes nothing because it comes before its time or without its object
is the model's choice (log 12).
-/
open Sys2Proof Sys2Proof.Machine Sys2Proof.Safety

/-! ### Power and reset (04, 06) -/

/-- 04 R141, R145, 06 R222, R231, 02 R70: with AON off, `AON_ON` begins a power-up bring-up at the present instant, with
bring-up number 0, `TEST_EN` sampled, the fuse shadow read from the fuses and every domain D1 to D11 off; `AON_OFF` loses
the fault ring and all other D0 state, while fuses and the ledger flash stay. Completion: `AON_ON`, `AON_OFF` end in the
next state said here, under conditions on the state and the operands alone. -/
def Obligations.AonPowersUpAndLosesD0 : Prop :=
  (∀ (banks : BankMv) (testEn : Bool) (s : State), s.pwr.aonOn = false →
    Goes (exec (.aonOn banks testEn) s) (fun t =>
      t.pwr.aonOn = true ∧ t.boot.kind = .powerUp ∧ t.boot.started = true ∧ t.boot.ref = s.now ∧ t.flt.bringUp = 0 ∧
      t.pins.testEn = testEn ∧ t.keys.debug = testEn ∧ t.otp.shadow = s.otp.fuse ∧ t.otp.fuse = s.otp.fuse ∧
      t.clk.running = false ∧ (∀ d : Nat, 1 ≤ d → domOn t d = false))) ∧
  (∀ s : State, Goes (exec .aonOff s) (fun t =>
    t.flt = {} ∧ t.pwr = {} ∧ t.straps = {} ∧ t.live = {} ∧ t.standby = {} ∧ t.clk = {} ∧ t.boot = {} ∧ t.status = {} ∧
    t.bob = {} ∧ t.mark = {} ∧ t.mem = {} ∧ t.otp.fuse = s.otp.fuse ∧ t.ldg.log = s.ldg.log ∧ t.ldg.copies = s.ldg.copies))

/-- 06 R235: an accepted `RESET_N` clears D1 to D11 and all D0 state but the fault ring, the slow-clock selection and the
fuse shadow; with no pair in programming the fuses and the shadow are as they were. Its release begins a bring-up of kind 1
that reads the shadow afresh and samples `TEST_EN` (02 R70), once no brown-out is awaited. Completion: `RESET_N_ASSERT`,
`RESET_N_RELEASE` end in the next state said here, under conditions on the state and the operands alone. -/
def Obligations.ResetClearsAllButRing : Prop :=
  (∀ s : State, s.pwr.aonOn = true → s.boot.inReset = false →
    Goes (exec .resetNAssert s) (fun t =>
      t.boot.inReset = true ∧ t.flt.ring = s.flt.ring ∧ t.clk.slowXtal = s.clk.slowXtal ∧
      t.clk.substituted = s.clk.substituted ∧ (s.keys.seq = none → t.otp = s.otp) ∧
      t.clk.running = false ∧ (∀ d : Nat, 1 ≤ d → domOn t d = false) ∧
      t.straps = {} ∧ t.live = {} ∧ t.standby = {} ∧ t.status = {} ∧ t.flt.holdoff = none ∧ t.flt.safeHold = false ∧
      t.time = {} ∧ t.sv = {} ∧ t.disc = {} ∧ t.scene = {} ∧ t.mem = {} ∧ t.xb = {} ∧ t.weft = {} ∧ t.bri = {} ∧ t.mark = {} ∧
      t.aud = {} ∧ t.bob = {} ∧ t.bea = {} ∧ t.card = {} ∧ t.dlg = {} ∧ t.keys.store = [])) ∧
  (∀ (banks : BankMv) (testEn : Bool) (s : State), s.boot.inReset = true → s.pwr.vinLow = false →
    Goes (exec (.resetNRelease banks testEn) s) (fun t =>
      t.boot.inReset = false ∧ t.boot.kind = .resetN ∧ t.boot.ref = s.now ∧ t.boot.started = true ∧
      t.otp.shadow = s.otp.fuse ∧ t.pins.testEn = testEn ∧ t.flt.restarts = []))

/-- 04 R142 to R144, R975: a brown-out while AON is on and the tile is not asleep, or of a rail while the buck runs, loses
D1 to D11 with the buck; in standby the fault is the whole effect. Once VIN has stayed above 1.70 V for 10 ms the restart is
a bring-up from the present instant, and is not counted among the S3 restarts. Completion: `VIN_BROWNOUT`, `RAIL_BROWNOUT`,
`BROWNOUT_RESTART`, `STANDBY_BROWNOUT` end in the next state said here, under conditions on the state and the operands
alone. -/
def Obligations.BrownoutLosesCoreAndRestarts : Prop :=
  (∀ (firstFuse : Bool) (s : State), s.pwr.aonOn = true → s.standby.asleep = false →
    Goes (exec (.vinBrownout firstFuse) s) (fun t =>
      t.pwr.vinLow = true ∧ t.pwr.buckOn = false ∧ t.clk.running = false ∧ (∀ d : Nat, 1 ≤ d → domOn t d = false) ∧
      t.mem = {} ∧ t.scene = {} ∧ t.time = {} ∧ t.keys.seq = none)) ∧
  (∀ (rail : Rail) (firstFuse : Bool) (s : State), s.pwr.buckOn = true →
    Goes (exec (.railBrownout rail firstFuse) s) (fun t =>
      t.pwr.buckOn = false ∧ t.clk.running = false ∧ (∀ d : Nat, 1 ≤ d → domOn t d = false) ∧ t.mem = {} ∧ t.scene = {})) ∧
  (∀ s : State, s.standby.asleep = true →
    exec .standbyBrownout s = .next (raise .pwrBrownout 0 s)) ∧
  (∀ (banks : BankMv) (s : State), s.pwr.aonOn = true → s.pwr.vinLow = true → s.flt.safeHold = false →
    s.standby.asleep = false → s.boot.inReset = false → s.flt.holdoff.map Holdoff.f = some .pwrBrownout →
    Goes (exec (.brownoutRestart banks) s) (fun t =>
      t.pwr.vinLow = false ∧ t.boot.kind = .brownout ∧ t.boot.ref = s.now ∧ t.boot.started = true ∧
      t.flt.restarts = s.flt.restarts ∧ t.flt.holdoff = none))

/-- 04 R148, R150, R151: the domain that is switched on next enters switching at the present instant; power-good held for 20
µs completes it; without power-good after 1 ms the first failure is off and retried after 10 ms, a second one holds the
domain off and is retried after 10 s. With gating enabled, a domain whose *off when* condition has held for 10 s goes off,
and no other domain changes. Completion: `DOMAIN_SWITCH_ON`, `DOMAIN_POWER_GOOD`, `DOMAIN_SWITCH_TIMEOUT`, `DOMAIN_RETRY`,
`DOMAIN_GATE_OFF` end in the next state said here, under conditions on the state and the operands alone. -/
def Obligations.DomainsSwitchOnAndGateOff : Prop :=
  (∀ (d : Nat) (s : State), maySwitch s = true → nextDomain s = some d →
    exec .domainSwitchOn s = .next (startSwitch d s)) ∧
  (∀ (d : Dom) (t : Ticks) (s : State), (domAt s d.val).phase = .switching t → t + usT 20 ≤ s.now →
    exec (.domainPowerGood d) s =
      let u := domainStarts d (domAt s d.val).heldOff
        (setDom s d.val (fun x => { x with phase := .on, fails := 0, heldOff := false, retryAt := none, offSince := none }))
      .next (if (domAt s d.val).heldOff then settlePower u else u)) ∧
  (∀ (d : Dom) (t : Ticks) (s : State), (domAt s d.val).phase = .switching t → d.val < s.pwr.dom.length → t + usT 20 ≤ s.now →
    d.val ∉ [3, 4, 5, 6, 9, 10] → (domAt s d.val).heldOff = false →
    Goes (exec (.domainPowerGood d) s) (fun u => domOn u d.val = true ∧ (domAt u d.val).fails = 0 ∧
      (∀ e : Nat, e ≠ d.val → domAt u e = domAt s e) ∧ u = { s with pwr := u.pwr })) ∧
  (∀ (d : Dom) (t : Ticks) (s : State), (domAt s d.val).phase = .switching t → d.val < s.pwr.dom.length → t + msT 1 ≤ s.now →
    (domAt s d.val).heldOff = false → (domAt s d.val).fails = 0 →
    Goes (exec (.domainSwitchTimeout d) s) (fun u => domAt u d.val =
        { domAt s d.val with phase := .off, fails := 1, retryAt := some (s.now + msT 10) } ∧
      (∀ e : Nat, e ≠ d.val → domAt u e = domAt s e) ∧ u = { s with pwr := u.pwr })) ∧
  (∀ (d : Dom) (t : Ticks) (s : State), (domAt s d.val).phase = .switching t → d.val < s.pwr.dom.length → t + msT 1 ≤ s.now →
    1 ≤ (domAt s d.val).fails →
    Goes (exec (.domainSwitchTimeout d) s) (fun u => (domAt u d.val).phase = .off ∧ (domAt u d.val).heldOff = true ∧
      (domAt u d.val).retryAt = some (s.now + secT 10))) ∧
  (∀ (d : Dom) (s : State), maySwitch s = true → isOff s d.val = true → dueBy s.now (domAt s d.val).retryAt = true →
    exec (.domainRetry d) s = .next (startSwitch d.val s)) ∧
  (∀ (d : Nat) (s : State), d < s.pwr.dom.length → (domAt (startSwitch d s) d).phase = .switching s.now ∧
    (startSwitch d s).pwr.lastSwitchOn = some s.now) ∧
  (∀ (d : Dom) (s : State), gating s = true → domOn s d.val = true → needed s d.val = false →
    passed s.now (domAt s d.val).offSince (secT 10) = true →
    Goes (exec (.domainGateOff d) s) (fun t => (domAt t d.val).phase = .off ∧ (∀ e : Nat, e ≠ d.val → domAt t e = domAt s e) ∧
      t = { s with pwr := t.pwr, test := t.test, weft := t.weft }))

/-- 04 R134, R135, R137, R153, R154, R156: 40 ms after the reference instant VCORE takes the lowest set point with a margin
of 8 %; in service it rises by 2.5 mV below 8 %, falls by 2.5 mV above 12 %, and never leaves 0.750 V to 0.800 V; a step
waits for 1 ms after a domain was switched on (R176; log 71), and the rail follows in steps of 2.5 mV every 10 µs. A bank
level is set by 3 equal readings in a band and kept while readings stay in it; a third reading outside its band loses the
bank. The buck runs 3 phases above 6 A, 2 from 3 A to 5.5 A and 1 below 2.5 A (between these: log 21). The banks are read
every 10 ms. Completion: `BANK_REMEASURE`, `VCORE_INITIAL_SET`, `AGEING_MEASURE`, `BUCK_PHASE_CHANGE` end in the next state
said here, under conditions on the state and the operands alone. -/
def Obligations.VcoreBanksAndPhases : Prop :=
  (∀ (margins : List Nat) (dom : Dom) (s : State), s.clk.running = true → s.pwr.vcoreSet = false → s.boot.ref + msT 40 ≤ s.now →
    mayStep s = true →
    Goes (exec (.vcoreInitialSet margins dom) s) (fun t => t.pwr.vcoreSet = true ∧ t.pwr.vcore = initialVcore margins ∧
      t.pwr.marginDom = dom ∧ t.pwr.ageNext = some (s.now + secT 3600))) ∧
  (∀ (margin : Nat) (dom : Dom) (s : State), s.clk.running = true → dueBy s.now s.pwr.ageNext = true →
    Goes (exec (.ageingMeasure margin dom) s) (fun t => t.pwr.margin = margin ∧ t.pwr.marginDom = dom ∧
      (mayStep s = true → margin < 800 → s.pwr.vcore ≤ 8000 → t.pwr.vcore = min (s.pwr.vcore + 25) 8000) ∧
      (800 ≤ margin → margin ≤ 1200 → t.pwr.vcore = s.pwr.vcore ∧ t.pwr.ageNext = some (s.now + secT 3600)) ∧
      (mayStep s = true → nearDayHigh s = true → 1200 < margin → 7500 ≤ s.pwr.vcore → t.pwr.vcore = max (s.pwr.vcore - 25) 7500) ∧
      (mayStep s = false ∨ (1200 < margin ∧ nearDayHigh s = false) → t.pwr.vcore = s.pwr.vcore) ∧
      (7500 ≤ s.pwr.vcore → s.pwr.vcore ≤ 8000 → 7500 ≤ t.pwr.vcore ∧ t.pwr.vcore ≤ 8000))) ∧
  (∀ (margins : List Nat) (i : Nat), margins.findIdx? (fun m => 800 ≤ m) = some i → i ≤ 20 →
    initialVcore margins = 7500 + 25 * i) ∧
  (∀ (b : Bank) (mv : Nat) (s : State), s.pwr.aonOn = true → s.standby.asleep = false → s.boot.inReset = false →
    (bankSt s b).next ≤ s.now → (bankSt s b).level ≠ .none → (bankSt s b).lost = false → bandOf mv = (bankSt s b).level →
    exec (.bankRemeasure b mv) s = .next (setBank b { bankSt s b with run := 0, next := s.now + msT 10 } s)) ∧
  (∀ (b : Bank) (mv : Nat) (s : State), s.pwr.aonOn = true → s.standby.asleep = false → s.boot.inReset = false →
    (bankSt s b).next ≤ s.now → (bankSt s b).level ≠ .none → (bankSt s b).lost = false → bandOf mv ≠ (bankSt s b).level →
    Goes (exec (.bankRemeasure b mv) s) (fun t => (bankSt t b).level = (bankSt s b).level ∧ (bankSt t b).next = s.now + msT 10 ∧
      ((bankSt s b).run = 2 → (bankSt t b).lost = true ∧ bankUsable t b = false) ∧
      ((bankSt s b).run ≠ 2 → (bankSt t b).lost = false ∧ (bankSt t b).run = (bankSt s b).run + 1))) ∧
  (∀ (b : Bank) (mv : Nat) (s : State), s.pwr.aonOn = true → s.standby.asleep = false → s.boot.inReset = false →
    (bankSt s b).next ≤ s.now → (bankSt s b).level = .none → bandOf mv ≠ .none →
    Goes (exec (.bankRemeasure b mv) s) (fun t => (bankSt t b).lastBand = bandOf mv ∧ (bankSt t b).next = s.now + msT 10 ∧
      ((bankSt s b).lastBand = bandOf mv → (bankSt s b).run = 2 → (bankSt t b).level = bandOf mv) ∧
      ((bankSt s b).lastBand = bandOf mv → (bankSt s b).run < 2 → (bankSt t b).level = .none ∧ (bankSt t b).run = (bankSt s b).run + 1) ∧
      ((bankSt s b).lastBand ≠ bandOf mv → (bankSt t b).level = .none ∧ (bankSt t b).run = 1))) ∧
  (∀ (ma : Nat) (s : State), s.pwr.buckOn = true →
    Goes (exec (.buckPhaseChange ma) s) (fun t => t = { s with pwr := { s.pwr with phases := t.pwr.phases } } ∧
      (6000 < ma → t.pwr.phases = 3) ∧ (3000 ≤ ma → ma < 5500 → t.pwr.phases = 2) ∧ (ma < 2500 → t.pwr.phases = 1))) ∧
  (∀ s : State, s.pwr.rail ≠ s.pwr.vcore → s.pwr.railAt + usT 10 ≤ s.now →
    moveRail s = { s with pwr := { s.pwr with
      rail := if s.pwr.rail < s.pwr.vcore then min s.pwr.vcore (s.pwr.rail + 25) else max s.pwr.vcore (s.pwr.rail - 25)
      railAt := s.now, lastStep := some s.now } })

/-! ### The clock and the rest of a bring-up (05, 06, 12) -/

/-- 05 R181 to R183, R185 to R187, R198, R215, R982: D1 and D2 are switched on together once the reference passes its count,
and `f:CLK_XTAL` is raised where it fails; after a run of 4,096 injections without an error cycle, within 20 ms of D2, the
system clock starts: with its injection index at floor(L × k ÷ 16) where the profile is known, and without a sweep until it
is; lock is lost at 64 error cycles of 1,024, and a lock not reached 20 ms after D2 gives the same fault; a missing
reference edge, before lock or after, gives `f:CLK_XTAL`. Completion: `D1_D2_SWITCH_ON`, `MDLL_LOCK`, `MDLL_LOSS_OF_LOCK`,
`MDLL_LOCK_TIMEOUT`, `REFERENCE_EDGE_MISSING` end in the next state said here, under conditions on the state and the
operands alone. -/
def Obligations.ClockStartsAndUnlocks : Prop :=
  (∀ (edges : Nat) (s : State), s.pwr.aonOn = true → wantsCore s = true → s.clk.oscOn = true → s.clk.refWait ≤ s.now →
    s.clk.refCheckAt = none →
    (690 ≤ edges → edges ≤ 840 → Goes (exec (.d1d2SwitchOn edges) s) (fun t =>
      t.boot.d1d2 = true ∧ t.clk.refPresent = true ∧ t.clk.d2OnAt = some s.now ∧ t.pwr.buckOn = true ∧ t.pwr.vcore = 8000)) ∧
    (edges < 690 ∨ 840 < edges → exec (.d1d2SwitchOn edges) s = .next (xtalFault 0 s))) ∧
  (∀ (run : List Injections) (s : State), domOn s 1 = true → domOn s 2 = true → s.clk.locked = false → s.clk.refPresent = true →
    s.flt.holdoff = none → s.flt.safeHold = false → s.boot.checking = false → lockRun run s = true →
    Goes (exec (.mdllLock run) s) (fun t => t.clk.locked = true ∧ t.clk.running = true ∧ t.clk.sub = 0 ∧ t.clk.dtc = 0 ∧
      t.sram = { bytes := [], zeroed := true } ∧
      (sweepKnown s = true → t.clk.profile = chooseProfile s ∧ t.clk.j = startIndex s (chooseProfile s)) ∧
      (sweepKnown s = false → t.clk.profile = .off ∧ t.clk.j = 0) ∧
      t = { s with clk := t.clk, sram := t.sram, boot := t.boot, pwr := { s.pwr with lane := t.pwr.lane } })) ∧
  (∀ (run : List Injections) (s : State), domOn s 1 = true → domOn s 2 = true → s.clk.locked = false → s.clk.refPresent = true →
    s.flt.holdoff = none → s.flt.safeHold = false → s.boot.checking = true → lockRun run s = true →
    exec (.mdllLock run) s = .next { s with clk := { s.clk with locked := true } }) ∧
  (∀ (run : List Injections) (s : State), s.clk.locked = true → s.clk.running = true → 64 ≤ errorCount run →
    exec (.mdllLossOfLock run) s = .next (unlockFault (errorCount run) s)) ∧
  (∀ (run : List Injections) (s : State), domOn s 2 = true → s.clk.locked = false → s.clk.refPresent = true → s.flt.holdoff = none →
    s.flt.safeHold = false → passed s.now s.clk.d2OnAt (msT 20) = true →
    exec (.mdllLockTimeout run) s = .next (unlockFault (errorCount run) s)) ∧
  (∀ s : State, s.clk.running = true → exec .referenceEdgeMissing s = .next (xtalFault 1 s)) ∧
  (∀ s : State, s.clk.running = false → domOn s 2 = true → s.clk.locked = false → s.clk.refPresent = true → s.flt.holdoff = none →
    s.flt.safeHold = false → exec .referenceEdgeMissing s = .next (xtalFault 1 s))

/-- 05 Table 5.4, R181, R217, R219: the reference is counted every 100 ms; once it has passed for 100 ms the hold-off of
`f:CLK_XTAL` may end. AON takes the slow crystal once 1,024 of its periods span 781,250 ± 781 reference periods; one that
fails is replaced by the internal oscillator, which is trimmed every second and gives way to a crystal found again; a change
waits for the end of a fuse pair or of a strap pass (R211). Completion: `REFERENCE_RECHECK`, `SLOW_CRYSTAL_CONFIRM`,
`SLOW_CLOCK_FAULT`, `SLOW_OSC_TRIM`, `SLOW_CRYSTAL_RECHECK`, `STANDBY_SLOW_CRYSTAL_STOP` end in the next state said here,
under conditions on the state and the operands alone. -/
def Obligations.ReferenceAndSlowClock : Prop :=
  (∀ (edges : Nat) (s : State), dueBy s.now s.clk.refCheckAt = true →
    Goes (exec (.referenceRecheck edges) s) (fun t =>
      (edges < 690 ∨ 840 < edges → t.clk.refGoodSince = none ∧ t.clk.refCheckAt = some (s.now + msT 100) ∧ t.flt = s.flt) ∧
      (690 ≤ edges → edges ≤ 840 → t.clk.refGoodSince = some (s.clk.refGoodSince.getD s.now)) ∧
      (690 ≤ edges → edges ≤ 840 → passed s.now s.clk.refGoodSince (msT 100) = true → s.flt.holdoff = some ⟨.clkXtal, none, false⟩ →
        t.flt.holdoff = some ⟨.clkXtal, some s.now, false⟩))) ∧
  (∀ (n : Nat) (s : State), s.pwr.aonOn = true → s.clk.refPresent = true → s.clk.slowXtal = false → s.clk.substituted = false →
    780469 ≤ n → n ≤ 782031 →
    Goes (exec (.slowCrystalConfirm n) s) (fun t =>
      (slowBusy s = false → t.clk.slowXtal = true ∧ t.clk.substituted = false) ∧
      (slowBusy s = true → t = { s with clk := { s.clk with slowDue := some .crystal } }))) ∧
  (∀ s : State, s.pwr.aonOn = true → s.standby.asleep = false → s.clk.substituted = false → s.clk.slowXtal = true →
    Goes (exec (.slowClockFault .stopped) s) (fun t =>
      (slowBusy s = false → t.clk.slowXtal = false ∧ t.clk.substituted = true ∧ t.clk.nextTrim = some (s.now + secT 1) ∧
        t.clk.nextSlowCheck = some (s.now + secT 10)) ∧
      (slowBusy s = true → t = { s with clk := { s.clk with slowDue := some (.substitute 1) } }))) ∧
  (∀ (n : Nat) (s : State), s.pwr.aonOn = true → s.standby.asleep = false → s.clk.substituted = false → s.clk.slowXtal = true →
    s.clk.running = true → n < 32752 ∨ 32784 < n →
    Goes (exec (.slowClockFault (.rate n)) s) (fun t =>
      (slowBusy s = false → t.clk.slowXtal = false ∧ t.clk.substituted = true ∧ t.clk.nextTrim = some (s.now + secT 1) ∧
        t.clk.nextSlowCheck = some (s.now + secT 10)) ∧
      (slowBusy s = true → t = { s with clk := { s.clk with slowDue := some (.substitute 2) } }))) ∧
  (∀ s : State, s.pwr.aonOn = true → s.standby.asleep = false → s.clk.substituted = false → s.clk.slowXtal = false →
    s.boot.ref + secT 3 ≤ s.now →
    Goes (exec (.slowClockFault .unconfirmed) s) (fun t =>
      (slowBusy s = false → t.clk.slowXtal = false ∧ t.clk.substituted = true ∧ t.clk.nextTrim = some (s.now + secT 1) ∧
        t.clk.nextSlowCheck = some (s.now + secT 10)) ∧
      (slowBusy s = true → t = { s with clk := { s.clk with slowDue := some (.substitute 0) } }))) ∧
  (∀ s : State, s.clk.substituted = true → s.clk.running = true → dueBy s.now s.clk.nextTrim = true →
    exec .slowOscTrim s = .next { s with clk := { s.clk with trimmed := true, nextTrim := some (s.now + secT 1) } }) ∧
  (∀ (n : Nat) (s : State), s.clk.substituted = true → s.clk.refPresent = true → dueBy s.now s.clk.nextSlowCheck = true →
    Goes (exec (.slowCrystalRecheck n) s) (fun t =>
      (slowSpanOk n = true → slowBusy s = false → t.clk.slowXtal = true ∧ t.clk.substituted = false) ∧
      (slowSpanOk n = true → slowBusy s = true → t = { s with clk := { s.clk with slowDue := some .crystal } }) ∧
      (slowSpanOk n = false → t = { s with clk := { s.clk with nextSlowCheck := some (s.now + secT 10) } }))) ∧
  (∀ (banks : BankMv) (s : State), s.standby.asleep = true →
    Goes (exec (.standbySlowCrystalStop banks) s) (fun t => t.boot.kind = .wake ∧ t.boot.ref = s.now ∧ t.boot.started = true ∧
      t.standby.asleep = false ∧ t.clk.substituted = true))

/-- 06 R225, R227 to R230: the boot check passes to the policy sequencer only with a matching ROM CRC and a sound SRAM, read
back as zeros; a mismatch raises `f:SEQ_ROM` and a bad SRAM bank `f:SEQ_WATCHDOG` (both at once: log 75); frame memory is
ready after training, and holds zero. Completion: `BOOT_CHECK_DONE`, `DRAM_TRAINING_DONE` end in the next state said here,
under conditions on the state and the operands alone. -/
def Obligations.BootCheckAndTraining : Prop :=
  (∀ (romFlips sramFlips : List (Nat × Byte)) (flash : Option Sfdp) (pf : Nat) (s : State), s.clk.running = true → domOn s 1 = true →
    s.boot.started = true → s.boot.remap = false → s.straps.decided = true → romPasses romFlips s = true →
    exec (.bootCheckDone romFlips sramFlips flash pf) s = .next (match sramFails sramFlips s with
      | none => reportProgress (startSequencer flash pf s)
      | some b => raise .seqWatchdog (BitVec.ofNat 32 (1 + b)) s)) ∧
  (∀ (romFlips sramFlips : List (Nat × Byte)) (flash : Option Sfdp) (pf : Nat) (s : State), s.clk.running = true → domOn s 1 = true →
    s.boot.started = true → s.boot.remap = false → s.straps.decided = true → romPasses romFlips s = false →
    exec (.bootCheckDone romFlips sramFlips flash pf) s = .next (raise .seqRom 0 s)) ∧
  (∀ s : State, s.sram.bytes = [] → sramFails [] s = none) ∧
  (∀ (a : Nat) (b : Byte) (s : State), a < 0x100000 → b ≠ 0 → sramFails [(a, b)] s = some (a / 0x40000)) ∧
  (∀ s : State, runs s = true → domOn s 6 = true → s.boot.remap = true → s.boot.dramTrained = false →
    Goes (exec (.dramTrainingDone none) s) (fun t => t.mem.ready = true ∧ t.boot.dramTrained = true ∧
      (∀ a : Nat, Memory.get t.mem.bytes a = 0) ∧ t.mem.bad = [])) ∧
  (∀ (c : Fin 8) (s : State), runs s = true → domOn s 6 = true → s.boot.remap = true → s.boot.dramTrained = false →
    exec (.dramTrainingDone (some c)) s = .next (raise .memTrain (BitVec.ofNat 32 c.val) s))

/-- 05 R193, R194, R200, 08 R334: a clock of the sweep lengthens the period by the depth of its place, and the places follow
one another, each for 40 clocks; the counter of time gains the increment over the length of each clock, with the remainder
carried. The cell in use is the one prepared one injection period before (R184). Without the system clock a step moves the
ruler by 1 ns and does what AON does (the model's choice: log 1). -/
def Obligations.SweepFollowsItsProfile : Prop :=
  (∀ s : State, s.clk.running = false → tick s = aonTick { s with now := s.now + 3200 }) ∧
  (∀ (m : Nat) (x : Clk), x.sub < 39 → sweepClock m x = { x with sub := x.sub + 1, count := x.count + 1 }) ∧
  (∀ (m : Nat) (x : Clk), x.sub = 39 → sweepClock m x = { x with
    sub := 0, count := x.count + 1, j := (x.j + 1) % periodsOf x.profile, dtc := (x.dtc + m) % 3200
    cell := x.cellNext, cellNext := depthAt x.profile (((x.j + 1) % periodsOf x.profile + 1) % periodsOf x.profile) }) ∧
  (∀ (s : State), s.time.running = true → s.time.sec.toNat < 2 ^ 63 → incrementOf s.time.y < 2 ^ 33 → depthNow s < 3200 →
    s.clk.carry < 3200 → ∃ n : Nat, (countClock (depthNow s) s).clk.carry < 3200 ∧
    counterF (countClock (depthNow s) s).time = counterF s.time + n ∧
    3200 * n + (countClock (depthNow s) s).clk.carry =
      incrementOf s.time.y * (3200 + depthNow s) + s.clk.carry)

/-! ### Faults (19) -/

/-- 19 R906: a raise of a fault that is active already adds no ring entry and no queue entry, whether a part of the block
raises it or `FAULT_RAISE` does. -/
def Obligations.ActiveFaultIsNotRaisedAgain : Prop :=
  (∀ (f : FaultName) (detail : BitVec 32) (s : State), Stands f detail s →
    (raise f detail s).flt.ring = s.flt.ring ∧ (raise f detail s).flt.queue = s.flt.queue) ∧
  (∀ (f : FaultName) (detail : BitVec 32) (s : State), Stands f detail s →
    Goes (exec (.faultRaise f detail) s) (fun t => t.flt.ring = s.flt.ring ∧ t.flt.queue = s.flt.queue))

/-- 19 R904, R905, Table 19.1: a raise of S1 or S2 makes the instance active and adds 1 to the count of its severity. With
the clock running it is handled at once where no handler of its priority or above runs, and its entry is then the newest of
the ring; else it joins the queue of 16, or is counted as lost. A clear of an active instance ends it. Completion:
`FAULT_RAISE`, `FAULT_CLEAR` end in the next state said here, under conditions on the state and the operands alone. -/
def Obligations.RaisedFaultIsHandledQueuedOrLost : Prop :=
  (∀ (f : FaultName) (detail : BitVec 32) (s : State), s.pwr.aonOn = true → (sevOf f = 1 ∨ sevOf f = 2) → ¬ Stands f detail s →
    Goes (exec (.faultRaise f detail) s) (fun t => Stands f detail t ∧
      t.flt.counts = updAt s.flt.counts (sevOf f).val (fun c => if c == 0xFFFF#16 then c else c + 1) ∧
      t.mem = s.mem ∧ t.otp = s.otp ∧ t.scene = s.scene)) ∧
  (∀ (f : FaultName) (detail : BitVec 32) (s : State), s.pwr.aonOn = true → sevOf f ≠ 3 → ¬ Stands f detail s →
    s.clk.running = true → preempts (sevOf f) s = true → s.flt.holdoff = none →
    Goes (exec (.faultRaise f detail) s) (fun t => t.flt.ring.getLast? = some (entryNow f false detail s) ∧
      t.flt.queue = s.flt.queue ∧ t.flt.lost = s.flt.lost ∧
      t.flt.handlers = ⟨arrival f (faultKey f detail) detail false s, sevOf f, s.now⟩ :: s.flt.handlers)) ∧
  (∀ (f : FaultName) (detail : BitVec 32) (s : State), s.pwr.aonOn = true → sevOf f ≠ 3 → ¬ Stands f detail s →
    s.clk.running = true → preempts (sevOf f) s = false → s.flt.queue.length < 16 →
    Goes (exec (.faultRaise f detail) s) (fun t => t.flt.ring = s.flt.ring ∧
      t.flt.queue = s.flt.queue ++ [arrival f (faultKey f detail) detail false s] ∧ t.flt.handlers = s.flt.handlers)) ∧
  (∀ (f : FaultName) (detail : BitVec 32) (s : State), s.pwr.aonOn = true → sevOf f ≠ 3 → ¬ Stands f detail s →
    s.clk.running = true → preempts (sevOf f) s = false → 16 ≤ s.flt.queue.length → s.flt.lost.toNat < 255 →
    Goes (exec (.faultRaise f detail) s) (fun t => t.flt.ring = s.flt.ring ∧ t.flt.queue = s.flt.queue ∧
      t.flt.lost = s.flt.lost + 1)) ∧
  (∀ (f : FaultName) (detail : BitVec 32) (s : State), Stands f detail s →
    Goes (exec (.faultClear f detail) s) (fun t => ¬ Stands f detail t ∧ t.flt.counts = s.flt.counts ∧ t.mem = s.mem ∧ t.otp = s.otp))

/-- 19 R913, R914: the ring holds 256 entries; a new entry is its newest, and a full ring loses its oldest, which is counted
while it had not been mirrored. -/
def Obligations.RingKeeps256 : Prop :=
  ∀ (e : RingEntry) (s : State), s.flt.ring.length ≤ 256 →
    (addEntry e s).flt.ring.getLast? = some e ∧ (addEntry e s).flt.ring.length ≤ 256 ∧
    (s.flt.ring.length < 256 → (addEntry e s).flt.ring = s.flt.ring ++ [e] ∧ (addEntry e s).flt.ringLost = s.flt.ringLost) ∧
    (∀ (old : RingEntry) (rest : List RingEntry), s.flt.ring = old :: rest → rest.length = 255 →
      (addEntry e s).flt.ring = rest ++ [e] ∧
      (old.mirrored = true → (addEntry e s).flt.ringLost = s.flt.ringLost) ∧
      (old.mirrored = false → s.flt.ringLost ≠ 255 → (addEntry e s).flt.ringLost = s.flt.ringLost + 1))

/-- 19 R903 to R905, R907: the end of the acting handler lets the queue be served; a handler that exceeds 10 ms raises
`f:FM_DOUBLE`; entries of S2 and S3 go to the ledger flash. Completion: `FAULT_HANDLER_END`, `HANDLER_TIMEOUT`,
`LEDGER_MIRROR` end in the next state said here, under conditions on the state and the operands alone. -/
def Obligations.HandlersEndAndTimeOut : Prop :=
  (∀ (sev : Sev) (h : Handler) (rest : List Handler) (s : State), s.flt.handlers = h :: rest → h.prio = sev → s.flt.queue = [] →
    exec (.faultHandlerEnd sev) s = .next { s with flt := { s.flt with handlers := rest } }) ∧
  (∀ (sev : Sev) (h : Handler) (rest : List Handler) (q : Queued) (s : State), s.flt.handlers = h :: rest → h.prio = sev →
    s.flt.queue = [q] → rest.all (fun x => x.prio < prioOf q) = true → s.flt.holdoff = none → s.flt.lostSince = 0 →
    Goes (exec (.faultHandlerEnd sev) s) (fun t => t.flt.queue = [] ∧ t.flt.handlers = ⟨q, prioOf q, s.now⟩ :: rest ∧
      (∃ e, t.flt.ring.getLast? = some e ∧ e.f = q.f ∧ e.cleared = q.cleared ∧ e.detail = q.detail))) ∧
  (∀ (sev : Sev) (h : Handler) (rest : List Handler) (s : State), s.flt.handlers = h :: rest → h.prio = sev →
    h.started + msT 10 ≤ s.now →
    exec (.handlerTimeout sev) s = .next (raise .fmDouble 1 { s with flt := { s.flt with handlers := rest } })) ∧
  (∀ (s : State), s.ldg.usable = true → bankUsable s .misc = true → s.keys.debug = false → s.keys.phase ≠ .manufacture → s.ldg.stopped = [] →
    s.ldg.busy = none → 0 < mirrorCount false s →
    Goes (exec .ledgerMirror s) (fun t => t.ldg.busy = some .faultLog ∧ mirrorCount false s ≤ t.ldg.mirroring ∧
      t = { s with ldg := t.ldg }))

/-- 19 R902, R907 to R910, Table 19.2: outside a hold-off an S3 fault puts the outputs in safe state and begins its hold-off
(1 ms for `f:CLK_UNLOCK`, 2 s for `f:FM_DOUBLE`, 100 ms for the others with a length), or safe hold where 3 counted restarts
lie in the 10 minutes before its end; the end of the hold-off begins a bring-up of kind 2. So does a policy sequencer with
D1 on that has not reported for 250 ms (06 R237). Completion: `SEQ_WATCHDOG_EXPIRY`, `S3_HOLDOFF_END` end in the next state
said here, under conditions on the state and the operands alone. -/
def Obligations.S3FaultHoldsOffAndRestarts : Prop :=
  (∀ (f : FaultName) (detail : BitVec 32) (s : State), sevOf f = 3 → ¬ Stands f detail s → s3RingOnly s = false → s.flt.holdoff = none →
    raise f detail s = handleS3 f detail s) ∧
  (∀ (f : FaultName) (detail : BitVec 32) (d : Ticks) (s : State), sevOf f = 3 → f ≠ .pwrBrownout → holdoffOf f = some d →
    (handleS3 f detail s).flt.safe = true ∧ (handleS3 f detail s).boot.started = false ∧ (handleS3 f detail s).ldg.usable = false ∧
    (restartsBefore s (s.now + d) < 3 →
      (handleS3 f detail s).flt.holdoff = some ⟨f, some (s.now + d), decide (f = .fmDouble)⟩) ∧
    (3 ≤ restartsBefore s (s.now + d) →
      (handleS3 f detail s).flt.safeHold = true ∧ (handleS3 f detail s).flt.holdoff = none ∧
      (handleS3 f detail s).clk.running = false)) ∧
  (holdoffOf .clkUnlock = some (msT 1) ∧ holdoffOf .fmDouble = some (secT 2) ∧ holdoffOf .seqWatchdog = some (msT 100) ∧
    holdoffOf .clkXtal = none ∧ holdoffOf .pwrBrownout = none) ∧
  (∀ (banks : BankMv) (h : Holdoff) (u : Ticks) (s : State), s.flt.holdoff = some h → h.until_ = some u → u ≤ s.now →
    s.pwr.vinLow = false → s.keys.seq = none → (h.f = .pwrBrownout ∨ restartsBefore s s.now < 3) →
    exec (.s3HoldoffEnd banks) s = .next (s3Restart h.f banks s)) ∧
  (∀ (banks : BankMv) (f : FaultName) (s : State), f ≠ .pwrBrownout →
    (s3Restart f banks s).boot.kind = .s3 ∧ (s3Restart f banks s).boot.ref = s.now ∧ (s3Restart f banks s).boot.started = true ∧
    (s3Restart f banks s).flt.holdoff = none ∧ s.now ∈ (s3Restart f banks s).flt.restarts) ∧
  (∀ s : State, domOn s 1 = true → passed s.now s.boot.reportAt (msT 250) = true → s.flt.holdoff = none → s.flt.safeHold = false →
    s.standby.asleep = false → s.boot.inReset = false → activeKey s .seqWatchdog (faultKey .seqWatchdog 0) = false →
    Goes (exec .seqWatchdogExpiry s) (fun t => t.flt.safe = true ∧ t.boot.started = false ∧ t.ldg.usable = false ∧
      (restartsBefore s (s.now + msT 100) < 3 → t.flt.holdoff = some ⟨.seqWatchdog, some (s.now + msT 100), false⟩)))

/-! ### Fuses (17) -/

/-- 17 R831 to R833, R847, R944: a pair of a sequence is programmed in the order of the sequence, one at a time, with both
fuses, in the array and in the shadow, and every fuse programmed before stays; above 105 °C the next pair waits. The last
pair of the intent leads to the body of a transition; without `ARM_N` low no intent is written; the last pair of the body
reads the phase from the shadow and swaps the keys at the next beat. A rotation re-tags the fault log with the new key
before its old slot is destroyed. Completion: `FUSE_PAIR_DONE`, `FUSE_SEQUENCE_TEMP_WAIT_END`, `LEDGER_RETAG_DONE` end in
the next state said here, under conditions on the state and the operands alone. -/
def Obligations.FuseSequencesRunInOrder : Prop :=
  (∀ (tj : Int) (q : FuseSeq) (p p2 : Nat) (rest : List Nat) (s : State), s.keys.seq = some q → q.todo = p :: p2 :: rest → q.hot = false →
    Goes (exec (.fusePairDone true tj) s) (fun t => 2 * p ∈ t.otp.fuse ∧ 2 * p + 1 ∈ t.otp.fuse ∧
      (∀ x : Nat, x ∈ t.otp.fuse ↔ x = 2 * p ∨ x = 2 * p + 1 ∨ x ∈ s.otp.fuse) ∧
      (∀ x : Nat, x ∈ t.otp.shadow ↔ x = 2 * p ∨ x = 2 * p + 1 ∨ x ∈ s.otp.shadow) ∧
      t.keys.seq = some { q with todo := p2 :: rest, hot := decide (1680 < tj) } ∧
      (s.clk.slowDue = none → t = { s with otp := t.otp, keys := { s.keys with seq := t.keys.seq } }))) ∧
  (∀ (took : Bool) (tj : Int) (q : FuseSeq) (s : State), s.keys.seq = some q → q.hot = true → exec (.fusePairDone took tj) s = .next s) ∧
  (∀ (tj : Int) (q : FuseSeq) (s : State), s.keys.seq = some q → q.hot = true → tj ≤ 1680 →
    exec (.fuseSequenceTempWaitEnd tj) s = .next { s with keys := { s.keys with seq := some { q with hot := false } } }) ∧
  (∀ (tj : Int) (e p : Nat) (q : FuseSeq) (s : State), s.keys.seq = some q → q.kind = .release e → q.stage = .intent →
    q.todo = [p] → q.hot = false →
    Goes (exec (.fusePairDone true tj) s) (fun t => ∃ q2, t.keys.seq = some q2 ∧ q2.stage = .body ∧ q2.kind = .release e ∧
      q2.todo = bodyPairs t (.release e) (2 * e) ∧ q2.todo.getLast? = some (recState (2 * e)) ∧ t.keys.phase = s.keys.phase)) ∧
  (∀ (tj : Int) (p : Nat) (q : FuseSeq) (s : State), s.keys.seq = some q → q.kind = .retire → q.stage = .body →
    q.todo = [p] → q.hot = false →
    Goes (exec (.fusePairDone true tj) s) (fun t => t.keys.seq = none ∧ t.keys.phase = phaseOf t.otp.shadow ∧
      t.keys.swapDue = some .transition ∧ (s.dlg.order.isSome = true → t.dlg.outcome = some 0))) ∧
  (∀ (q : FuseSeq) (r : Nat) (s : State), seqRecord q.kind = some r → s.live.arm.level = true →
    beginIntent q s = dropOrder q (refuseOrder 4 s)) ∧
  (∀ (q : FuseSeq) (r : Nat) (s : State), seqRecord q.kind = some r → s.live.arm.level = false →
    beginIntent q s = { s with keys := { s.keys with seq := some { q with stage := .intent, todo := [recIntent r] } } }) ∧
  (∀ (slot old : Nat) (q : FuseSeq) (k : List Byte) (s : State), s.ldg.busy = some .retag → s.ldg.todo = [] → s.keys.seq = some q →
    q.kind = .rotate slot old → q.stage = .retag → keyValue s .faultLog = some k →
    Goes (exec .ledgerRetagDone s) (fun t => t.ldg.busy = none ∧
      t.ldg.log = s.ldg.log.map (fun r => if r.keyed = s.ldg.logKey then { r with keyed := k } else r) ∧
      (∃ q2, t.keys.seq = some q2 ∧ q2.stage = .destroyOld ∧ q2.todo = destroyPairs old)))

/-- 17 R818, R833: no command removes a fuse, and none adds one but `FUSE_PAIR_DONE`, the pair that `RESET_N` lets end (02
R79) and the first fuse of a pair that a brown-out cut off. So it is in every step. -/
def Obligations.FusesAreNeverUndone : Prop :=
  (∀ (c : Instr) (s t : State), exec c s = .next t → FusesKept s t) ∧
  (∀ (c : Instr) (s t : State), exec c s = .next t → (∀ (took : Bool) (tj : Int), c ≠ .fusePairDone took tj) →
    (∀ b, c ≠ .railBrownout b true) → c ≠ .vinBrownout true → c ≠ .resetNAssert → t.otp.fuse = s.otp.fuse) ∧
  (∀ s t : State, step s = .next t → FusesKept s t)

/-- 17 R827: of the 16 slots, the ACTIVE one with the highest index holds the active site root; with no ACTIVE slot there is
none. -/
def Obligations.ActiveSiteRootIsTheHighestActiveSlot : Prop :=
  (∀ (fuses : List Nat) (k : Nat), activeSlot fuses = some k ↔
    (k < 16 ∧ slotState fuses k = .active ∧ ∀ j : Nat, j < 16 → slotState fuses j = .active → j ≤ k)) ∧
  (∀ fuses : List Nat, activeSlot fuses = none ↔ ∀ j : Nat, j < 16 → slotState fuses j ≠ .active)

/-! ### Straps, live pins and self-test (03, 06) -/

/-- 03 R94, R95: pass 1 reads the straps 10 ms and pass 2 20 ms after the reference instant; a pin both passes find in one
band decides that code, and the fields are decided after pass 2, 23 ms after the reference instant (06 Table 6.1).
Completion: `STRAP_PASS` ends in the next state said here, under conditions on the state and the operands alone. -/
def Obligations.StrapsReadTwice : Prop :=
  (∀ (ref : Nat) (readings : List Reading) (s : State), s.pwr.aonOn = true → s.boot.inReset = false → s.boot.started = true →
    s.straps.decided = false → s.straps.decideDue = none → s.straps.pass1 = [] → s.boot.ref + msT 10 ≤ s.now →
    exec (.strapPass ref readings) s = .next { s with straps := { s.straps with
      pass1 := readings.map decideReading, ref1 := refInRange ref, passEnd := s.now + usT 2420 } }) ∧
  (∀ (ref : Nat) (readings : List Reading) (d : Decided) (l : List Decided) (s : State), s.pwr.aonOn = true → s.boot.inReset = false →
    s.boot.started = true → s.straps.decided = false → s.straps.decideDue = none → s.straps.pass1 = d :: l → s.boot.ref + msT 20 ≤ s.now →
    Goes (exec (.strapPass ref readings) s) (fun t => t.straps.pass1 = d :: l ∧ t.straps.pass2 = readings.map decideReading ∧
      t.straps.ref2 = refInRange ref ∧ t.straps.passEnd = s.now + usT 2420 ∧ t.keys = s.keys ∧ t.mem = s.mem ∧
      (s.now < s.boot.ref + msT 23 → t.straps.decided = false ∧ t.straps.decideDue.isSome = true ∧ t.live = s.live) ∧
      (s.boot.ref + msT 23 ≤ s.now → t.straps.decided = true ∧ t.straps.code.getD pinScene 15 = t.live.sceneCode))) ∧
  (∀ (x : Code) (s : State), s.straps.decideDue = some x → s.boot.ref + msT 23 ≤ s.now →
    (settleStraps s).straps.decided = true ∧ (settleStraps s).straps.decideDue = none ∧
    (settleStraps s).straps.code.getD pinScene 15 = (settleStraps s).live.sceneCode) ∧
  (∀ (x : Straps) (p : Nat) (c : Code), x.ref1 = true → x.ref2 = true →
    (pinCode x p = some c ↔ readAt x.pass1 p = .firm c ∧ readAt x.pass2 p = .firm c)) ∧
  (∀ (x : Straps) (p : Nat), x.ref1 = false ∨ x.ref2 = false → pinCode x p = none ∧ fieldCode x p = 15)

/-- 03 R100, R102 to R106: every 60 s the straps are read again; a code that a second reading 10 ms later confirms is
pending, and its field is not changed; a third marginal re-read in a row is reported. `CS_SCENE` and `CS_BRIGHT` are read
every 10 ms from 30 ms after the reference instant; the third equal firm reading of `CS_SCENE` in a row is accepted, and a
slot with the reference out of range gives no reading. Completion: `STRAP_REREAD_PASS`, `STRAP_CONFIRM_READ`,
`LIVE_STRAP_READ` end in the next state said here, under conditions on the state and the operands alone. -/
def Obligations.StrapsAreReread : Prop :=
  (∀ (ref : Nat) (readings : List Reading) (s : State), s.pwr.aonOn = true → s.boot.inReset = false → s.straps.decided = true →
    s.straps.nextReread ≤ s.now → refInRange ref = false → s.straps.refBad = false →
    Goes (exec (.strapRereadPass ref readings) s) (fun t => Stands .strapAmbig 255 t ∧ t.straps =
      { s.straps with nextReread := s.now + secT 60, recheck := [], passEnd := s.now + usT 2340, refBad := true })) ∧
  (∀ (ref : Nat) (readings : List Reading) (s : State), s.pwr.aonOn = true → s.boot.inReset = false → s.straps.decided = true →
    s.straps.nextReread ≤ s.now → refInRange ref = true →
    Goes (exec (.strapRereadPass ref readings) s) (fun t => t.straps.nextReread = s.now + secT 60 ∧ t.straps.refBad = false ∧
      t.straps.inUse = s.straps.inUse ∧ t.straps.code = s.straps.code ∧ t.straps.pend = s.straps.pend)) ∧
  (∀ (pin : Fin 48) (reading : Reading) (c : Code) (due : Ticks) (l : List (Nat × Code × Ticks)) (s : State),
    s.straps.recheck = (pin.val, c, due) :: l → due ≤ s.now → decideReading reading = .firm c →
    pin.val < s.straps.pend.length →
    Goes (exec (.strapConfirmRead pin reading) s) (fun t => t.straps.pend.getD pin.val 15 = c ∧ t.straps.inUse = s.straps.inUse ∧
      t.straps.code = s.straps.code ∧ (∀ y ∈ t.straps.recheck, y.1 ≠ pin.val))) ∧
  (∀ (p : Nat) (r : Reading) (s : State), decideReading r = .marginal → s.straps.marginalRun.getD p 0 = 2 →
    p < s.straps.marginalRun.length →
    ∃ u : State, rereadPin p r s = raise .strapAmbig (BitVec.ofNat 32 p) u ∧ u.straps.marginalRun.getD p 0 = 3) ∧
  (∀ (ref : Nat) (scene bright : Reading) (x : Code) (s : State), runs s = true → s.straps.decided = true → s.boot.ref + msT 30 ≤ s.now →
    s.live.readNext ≤ s.now → refInRange ref = true → decideReading scene = .firm x →
    Goes (exec (.liveStrapRead ref scene bright) s) (fun t => t.live.readNext = s.now + msT 10 ∧ t.keys = s.keys ∧ t.mem = s.mem ∧
      (s.live.sceneRun = some (x, 2) → s.live.sceneCode ≠ x → t.live.sceneCode = x ∧ t.live.sceneDue = some x ∧
        t.live.sceneMiss = 0 ∧ t.flt = s.flt) ∧
      (s.live.sceneRun = some (x, 1) → s.live.sceneMiss < 99 → t.live.sceneCode = s.live.sceneCode ∧
        t.live.sceneRun = some (x, 2) ∧ t.live.sceneDue = s.live.sceneDue) ∧
      ((∀ m, s.live.sceneRun ≠ some (x, m)) → s.live.sceneMiss < 99 → t.live.sceneCode = s.live.sceneCode ∧
        t.live.sceneRun = some (x, 1) ∧ t.live.sceneDue = s.live.sceneDue))) ∧
  (∀ (ref : Nat) (scene bright : Reading) (s : State), s.now < s.live.readNext → exec (.liveStrapRead ref scene bright) s = .next s) ∧
  (∀ (ref : Nat) (scene bright : Reading) (s : State), runs s = true → s.straps.decided = true → s.boot.ref + msT 30 ≤ s.now →
    s.live.readNext ≤ s.now → refInRange ref = false →
    exec (.liveStrapRead ref scene bright) s = .next { s with live := { s.live with readNext := s.now + msT 10 } })

/-- 03 R109: a level of a live pin is accepted after 5 equal samples (3 for `BLANK_N`) that differ from the accepted level,
and a sample that does not change the accepted level changes the filter alone; the samples are 1 ms apart (100 µs for
`BLANK_N`), in standby those of `STANDBY_N` alone 32 periods of the slow clock. Completion: `LIVE_PIN_SAMPLE` ends in the
next state said here, under conditions on the state and the operands alone. -/
def Obligations.LivePinsAreFiltered : Prop :=
  (∀ (pin : LivePin) (high : Bool) (banks : BankMv) (s : State), s.pwr.aonOn = true → s.boot.inReset = false →
    (s.standby.asleep = false ∨ pin = .standby) → (pinFilter s.live pin).next ≤ s.now →
    exec (.livePinSample pin high banks) s =
      let r := sampleFilter (samplesOf pin) { pinFilter s.live pin with next := s.now + samplePeriod s.standby.asleep pin } high
      let u : State := { s with live := setPinFilter s.live pin r.1 }
      .next (if r.2 then pinAccept pin high banks u else u)) ∧
  (∀ (k : Nat) (f : PinFilter) (high : Bool), 1 ≤ k →
    ((sampleFilter k f high).2 = true ↔ f.level ≠ high ∧ k ≤ f.run + 1) ∧ (sampleFilter k f high).1.next = f.next ∧
    ((sampleFilter k f high).2 = true → (sampleFilter k f high).1.level = high ∧ (sampleFilter k f high).1.run = 0) ∧
    ((sampleFilter k f high).2 = false → (sampleFilter k f high).1.level = f.level)) ∧
  (∀ (pin : LivePin) (high : Bool) (banks : BankMv) (s : State), s.pwr.aonOn = true → s.boot.inReset = false → s.standby.asleep = false →
    (pinFilter s.live pin).next ≤ s.now → (pinFilter s.live pin).level ≠ high → (pinFilter s.live pin).run + 1 < samplesOf pin →
    exec (.livePinSample pin high banks) s = .next { s with
      live := (setPinFilter s.live pin { level := !high, run := (pinFilter s.live pin).run + 1, next := s.now + samplePeriod false pin }) }) ∧
  (∀ (pin : LivePin) (high : Bool) (banks : BankMv) (s : State), s.pwr.aonOn = true → s.boot.inReset = false → s.standby.asleep = false →
    (pinFilter s.live pin).next ≤ s.now → (pinFilter s.live pin).level = high →
    exec (.livePinSample pin high banks) s = .next { s with
      live := (setPinFilter s.live pin { level := high, run := 0, next := s.now + samplePeriod false pin }) }) ∧
  (∀ (high : Bool) (banks : BankMv) (s : State), s.pwr.aonOn = true → s.boot.inReset = false → s.standby.asleep = false →
    s.live.mute.next ≤ s.now → s.live.mute.level ≠ high → s.live.mute.run = 4 →
    exec (.livePinSample .mute high banks) s =
      let u : State := { s with live := { s.live with mute := { level := high, run := 0, next := s.now + msT 1 } } }
      .next (if high then unmuteAll .pin (audRamp u) u else muteAll .pin (audRamp u) u)) ∧
  (samplesOf .blank = 3 ∧ samplesOf .selftest = 5 ∧ samplesOf .ident = 5 ∧ samplesOf .standby = 5 ∧ samplesOf .mute = 5 ∧
    samplesOf .arm = 5) ∧
  (samplePeriod false .blank = usT 100 ∧ samplePeriod false .mute = msT 1 ∧ samplePeriod true .standby = 3125000000)

/-- 06 R246 to R248, R250 to R252, R257, Table 6.5: `SELFTEST_N` low for 2 s starts the visible sequence where no window has
a source, and refuses it over content; low for 10 s it starts over content too. Each part of the sequence follows the one
before, with the number of parts and the length of Table 6.5; the last part gives the result, with a record sent at once;
each test of the suite runs once and leaves its result, and the suite then ends as PASS or FAIL. Completion:
`SELFTEST_HOLD_2S`, `SELFTEST_HOLD_10S`, `INVISIBLE_SUITE_DONE`, `VISIBLE_STEP_ADVANCE`, `VISIBLE_SEQUENCE_END` end in the
next state said here, under conditions on the state and the operands alone. -/
def Obligations.SelfTestsStartRunAndEnd : Prop :=
  (∀ s : State, runs s = true → lowFor s (secT 2) = true → s.live.refusedNow = false → s.boot.idleShown = true → anySource s = false →
    exec .selftestHold2s s = .next { s with test := { s.test with visibleDue := true }, live := { s.live with acted := true } }) ∧
  (∀ s : State, runs s = true → lowFor s (secT 2) = true → s.live.refusedNow = false → s.boot.idleShown = true → anySource s = true →
    exec .selftestHold2s s = .next (addResult testVisible .refused { s with live := { s.live with refusedNow := true } })) ∧
  (∀ s : State, runs s = true → lowFor s (secT 10) = true → s.boot.idleShown = true →
    exec .selftestHold10s s = .next { s with test := { s.test with visibleDue := true }, live := { s.live with acted := true } }) ∧
  (∀ s : State, runs s = true → lowFor s (secT 2) = true → s.live.refusedNow = false → s.boot.idleShown = false →
    exec .selftestHold2s s =
      .next { s with test := { s.test with held := some (.visible false) }, live := { s.live with acted := true } }) ∧
  (∀ (v : Visible) (s : State), s.test.visible = some v → atBeat s = true → partElapsed s v = true → atLastPart s v = false →
    exec .visibleStepAdvance s = .next { s with test := { s.test with visible := some (nextPart s v) } }) ∧
  (∀ (v : Visible) (s : State), (nextPart s v).since = s.now ∧
    (v.sub + 1 < (stepParts s v.step).1 → (nextPart s v).step = v.step ∧ (nextPart s v).sub = v.sub + 1) ∧
    ((stepParts s v.step).1 ≤ v.sub + 1 → (nextPart s v).step = v.step + 1 ∧ (nextPart s v).sub = 0)) ∧
  (∀ s : State, stepParts s 1 = (1, secT 2) ∧ stepParts s 2 = (4, secT 2) ∧ stepParts s 3 = (1, secT 2) ∧
    stepParts s 4 = (64, secT 1 / 8)) ∧
  (∀ (v : Visible) (s : State), s.test.visible = some v → partElapsed s v = true → atLastPart s v = true → s.test.endDue = none →
    exec .visibleSequenceEnd s = .next (launchRecord 4 (addResult testVisible
      (if v.failed then .fail else .pass) { s with test := { s.test with endDue := some false } }))) ∧
  (∀ (q : Suite) (s : State), s.test.suite = some q → runs s = true → q.todo = [] → q.ending = false →
    exec .invisibleSuiteDone s = .next (launchRecord 4 (addResult testSuite (if q.failed = [] then .pass else .fail)
      { s with test := { s.test with suite := none } }))) ∧
  (∀ (q : Suite) (i : SuiteItem) (s : State), s.test.suite = some q → i ∈ q.todo →
    (∀ j ∈ q.todo, j ≠ i → itemTest j ≠ itemTest i) →
    noteTest i false s = addResult (testNo (itemTest i)) (if itemTest i ∈ q.failed then .fail else .pass)
      { s with test := { s.test with suite := some { q with todo := q.todo.filter (fun j => !decide (j = i)) } } })

/-- 06 R242 to R245, Table 6.4: a slice that did not finish is run again; margins are recorded; a trimmed spare DAC waits
for the beat and one that cannot be trimmed stops its bank with `f:AGE_MARGIN`; a ROM CRC that differs raises `f:SEQ_ROM`,
and each fuse pair that differs from the shadow `f:KEY_VERIFY`, each checked once an hour. Completion: `TEST_SLICE_ABANDON`,
`EYE_MARGIN_READ`, `DAC_SWAP_CALIBRATE`, `ROM_CRC_CHECK`, `OTP_CHECK` end in the next state said here, under conditions on
the state and the operands alone. -/
def Obligations.BackgroundTests : Prop :=
  (∀ (test : TestKind) (s : State), Goes (exec (.testSliceAbandon test) s) (fun t => test ∈ t.test.again ∧
    (∀ x : TestKind, x ≠ test → (x ∈ t.test.again ↔ x ∈ s.test.again)) ∧ t = { s with test := { s.test with again := t.test.again } })) ∧
  (∀ (lane : Fin 8) (margin : Nat) (s : State), runs s = true → laneUp s lane.val = true →
    (∀ t : Ticks, s.test.eyeNext.getD lane.val none = some t → t ≤ s.now) →
    Goes (exec (.eyeMarginRead lane margin) s) (fun t => t.test.eye = updAt s.test.eye lane.val (fun _ => margin) ∧
      t.test.eyeNext = updAt s.test.eyeNext lane.val (fun _ => some (s.now + secT 600)) ∧ TestKind.eye ∉ t.test.again ∧
      t = { s with test := t.test })) ∧
  (∀ (bank : Fin 5) (b : DacBank) (s : State), runs s = true → s.test.dac[bank.val]? = some b → b.stopped = false → b.ready = false →
    dacDue s bank.val b = true → Goes (exec (.dacSwapCalibrate bank true) s) (fun t =>
      t.test.dac[bank.val]? = some { b with ready := true, loaded := outputSetting s bank.val b.next } ∧ t = { s with test := t.test })) ∧
  (∀ (bank : Fin 5) (b : DacBank) (s : State), runs s = true → s.test.dac[bank.val]? = some b → b.stopped = false → b.ready = false →
    dacDue s bank.val b = true → Goes (exec (.dacSwapCalibrate bank false) s) (fun t => Stands .ageMargin (BitVec.ofNat 32 (0x80 + bank.val)) t ∧
      t.test.dac[bank.val]? = some { b with retired := b.spare :: b.retired, stopped := true })) ∧
  (∀ (romFlips : List (Nat × Byte)) (s : State), runs s = true → s.boot.remap = true → hourlyDue s .rom s.test.romNext = true →
    (romPasses romFlips s = true → Goes (exec (.romCrcCheck romFlips) s) (fun t => t.test.romNext = some (s.now + secT 3600) ∧
      (s.test.suite = none → t.test.results = s.test.results) ∧ t = { s with test := t.test })) ∧
    (romPasses romFlips s = false → Goes (exec (.romCrcCheck romFlips) s) (fun t => ∃ u : State, t = raise .seqRom 0 u ∧
      u.test.romNext = some (s.now + secT 3600) ∧ (s.test.suite = none → ∃ r, u.test.results = s.test.results ++ [r] ∧ r.result = .fail) ∧
      u = { s with test := u.test }))) ∧
  (∀ (flipped : List Nat) (s : State), runs s = true → s.keys.seq = none → hourlyDue s .otp s.test.otpNext = true →
    Goes (exec (.otpCheck flipped) s) (fun t => ∃ u : State,
      t = (pairsOff (fusesRead flipped s) s.otp.shadow).foldl (fun st p => verifyPair p st) u ∧
      u.test.otpNext = some (s.now + secT 3600) ∧ u.otp = s.otp ∧
      (s.test.suite = none → pairsOff (fusesRead flipped s) s.otp.shadow = [] → u.test.results = s.test.results)))

/-! ### Standby (04, 16) -/

/-- 04 Table 4.5, R159, R161, R163, R164, R173, R974, 16 R790, R791: once the flush has ended, a tile in its entry powers
down: the buck, the clocks and D1 to D11 are off and their state is lost, the fault ring, the fuses and the straps stay; a
wake accepted in the entry takes effect at once. A tile that entered at night wakes after 60 min; a frame the slow listener
matches powers D1 and D2 for its check, which wakes the tile, from the end of the frame on, only for a fresh and authentic
`b:WAKE` without a body, and else returns it to standby with D1 and D2 off. Completion: `STANDBY_POWER_DOWN`, `TIMED_WAKE`,
`SLOW_LISTENER_MATCH`, `WAKE_CHECK` end in the next state said here, under conditions on the state and the operands alone.
-/
def Obligations.StandbySleepsAndWakes : Prop :=
  (∀ (banks : BankMv) (e : Entry) (s : State), s.standby.entry = some e → e.stage = .flushing → flushDone s = true → s.flt.holdoff = none →
    s.flt.safeHold = false → e.wakeAfter = false →
    Goes (exec (.standbyPowerDown banks) s) (fun t => t.standby.asleep = true ∧ t.standby.source = some e.source ∧ t.standby.entry = none ∧
      t.standby.enteredAt = some e.at_ ∧ t.pwr.buckOn = false ∧ t.clk.running = false ∧ (∀ d : Nat, 1 ≤ d → domOn t d = false) ∧
      t.mem = {} ∧ t.scene = {} ∧ t.time = {} ∧ t.flt.ring = s.flt.ring ∧ t.otp = s.otp ∧ t.straps = s.straps ∧
      t.ldg.log = s.ldg.log)) ∧
  (∀ (banks : BankMv) (e : Entry) (s : State), s.standby.entry = some e → e.stage = .flushing → flushDone s = true → s.flt.holdoff = none →
    s.flt.safeHold = false → e.wakeAfter = true →
    Goes (exec (.standbyPowerDown banks) s) (fun t => t.standby.asleep = false ∧ t.boot.kind = .wake ∧ t.boot.ref = s.now ∧
      t.boot.started = true ∧ t.clk.running = false)) ∧
  (∀ (banks : BankMv) (s : State), s.ldg.busy ≠ none → exec (.standbyPowerDown banks) s = .next s) ∧
  (∀ (banks : BankMv) (s : State), s.standby.asleep = true → s.standby.source = some .night →
    passed s.now s.standby.enteredAt (secT 3600) = true →
    Goes (exec (.timedWake banks) s) (fun t => t.standby.asleep = false ∧ t.boot.kind = .wake ∧ t.boot.ref = s.now ∧
      t.boot.started = true ∧ t.standby.nightWoke = some s.now)) ∧
  (∀ (levels : List Bool) (g : BSeg) (f : Byte × List Byte) (s : State), s.standby.asleep = true → s.boot.checking = false →
    (segsOf ((slowReceive {} levels).map (fun c => (0, c)))).getLast? = some g → listenFrame s g = some f →
    Goes (exec (.slowListenerMatch levels) s) (fun t => t.boot.checking = true ∧ t.standby.asleep = true ∧
      t.standby.listened = some (f.1, f.2, s.now) ∧ t.clk.oscOn = true ∧ t.clk.refWait = s.now + msT 2)) ∧
  (∀ (banks : BankMv) (s : State), s.standby.asleep = true → s.boot.checking = true → wakeFrame s = none →
    Goes (exec (.wakeCheck banks) s) (fun t => t.boot.checking = false ∧ t.standby.asleep = true ∧ t.standby.listened = none ∧
      domOn t 1 = false ∧ domOn t 2 = false ∧ t.pwr.buckOn = false ∧ t.clk.locked = false)) ∧
  (∀ (banks : BankMv) (f : BFrame) (s : State), s.standby.asleep = true → s.boot.checking = true → wakeFrame s = some f →
    Goes (exec (.wakeCheck banks) s) (fun t => t.standby.asleep = false ∧ t.boot.kind = .wake ∧ t.boot.ref = f.at_ ∧
      t.boot.started = true)) ∧
  (∀ (f : BFrame) (s : State), wakeFrame s = some f → f.type = 0x21 ∧ f.body = [] ∧ wakeTagOk s f = true ∧ freshOrder s f = true ∧
    s.standby.source ≠ some .pin ∧ powerCode s ≠ 1 ∧ s.live.standby.level = true)

/-! ### The network (07, 19) -/

/-- 07 R267 to R271, R329, Table 7.9: an inserted module is read 300 ms later, its transmitter off; an identification with a
sound sum gives the lane mode and turns the transmitter on; the third unsound one, or a 10G module with a strapped 25G mode,
raises `f:NET_MODULE`; a removed module takes its link and its lane down. Completion: `MODULE_INSERT`, `MODULE_ID_READ`,
`MODULE_REMOVE` end in the next state said here, under conditions on the state and the operands alone. -/
def Obligations.ModulesAreIdentified : Prop :=
  (∀ (port : Port) (s : State), runs s = true → (netPort s port).module = .absent →
    exec (.moduleInsert port) s = .next (setLane port (domOn s 4)
      (setNetPort s port (fun q => { q with module := .waiting s.now 0 (s.now + msT 300), txDis := true })))) ∧
  (∀ (port : Port) (bytes : List Byte) (since readAt : Ticks) (tries : Nat) (m : LaneMode) (s : State), runs s = true →
    (netPort s port).module = .waiting since tries readAt → readAt ≤ s.now → port.val < s.net.port.length →
    idCheck bytes = true → laneFor s (idIs25 bytes) = some m →
    Goes (exec (.moduleIdRead port bytes) s) (fun t => (netPort t port).module = .identified (idIs25 bytes) (idClass bytes) ∧
      (netPort t port).mode = some m ∧ (netPort t port).txDis = false ∧ (netPort t port).noLinkSince = some s.now ∧
      ¬ Stands .netModule (moduleDetail 0 port) t ∧ (∀ p : Port, p ≠ port → netPort t p = netPort s p))) ∧
  (∀ (port : Port) (bytes : List Byte) (since readAt : Ticks) (tries : Nat) (s : State), runs s = true →
    (netPort s port).module = .waiting since tries readAt → readAt ≤ s.now →
    idCheck bytes = true → laneFor s (idIs25 bytes) = none →
    exec (.moduleIdRead port bytes) s = .next (raise .netModule (moduleDetail 1 port)
      (setNetPort (readModule port s) port (fun q => { q with module := .unsupported, mode := none, txDis := true })))) ∧
  (∀ (port : Port) (bytes : List Byte) (since readAt : Ticks) (tries : Nat) (s : State), runs s = true →
    (netPort s port).module = .waiting since tries readAt → readAt ≤ s.now → idCheck bytes = false →
    (tries < 2 → exec (.moduleIdRead port bytes) s =
      .next (setNetPort (readModule port s) port (fun q => { q with module := .waiting since (tries + 1) (s.now + secT 1) }))) ∧
    (2 ≤ tries → exec (.moduleIdRead port bytes) s = .next (raise .netModule (moduleDetail 0 port)
      (setNetPort (readModule port s) port (fun q => { q with module := .failed, txDis := true }))))) ∧
  (∀ (port : Port) (s : State), (readModule port s).sent =
    .moduleRead port :: .busSwitch (BitVec.ofNat 8 (2 ^ port.val)) :: s.sent ∧ (∀ p : Port, netPort (readModule port s) p = netPort s p)) ∧
  (∀ (b : Bool) (s : State), laneFor s b = none ↔ (code s pinNetmode = 1 ∨ code s pinNetmode = 2 ∨ code s pinNetmode = 3) ∧ b = false) ∧
  (∀ (port : Port) (s : State), s.pwr.aonOn = true → s.standby.asleep = false → s.boot.inReset = false → modulePresent s port = true →
    port.val < s.net.port.length →
    Goes (exec (.moduleRemove port) s) (fun t => (netPort t port).module = .absent ∧ (netPort t port).mode = none ∧
      (netPort t port).txDis = true ∧ (netPort t port).linkUp = none ∧
      ((netPort s port).carried = true → Stands .netModule (moduleDetail 2 port) t)))

/-- 07 R272, R291, R329, R303: a link that comes up listens, and forwards 30 ms later; one that goes down empties its queue
and raises `f:NET_LINK`, as does a known module without a link for 10 s; at its launch instant a frame leaves in the order
of service. Completion: `LINK_UP`, `LINK_DOWN`, `NET_LINK_TIMEOUT`, `PORT_LISTEN_END`, `LAUNCH_TIME` end in the next state
said here, under conditions on the state and the operands alone. -/
def Obligations.LinksListenThenForward : Prop :=
  (∀ (port : Port) (fault : LinkFault) (m : LaneMode) (s : State), netRuns s = true → (netPort s port).txDis = false → (netPort s port).mode = some m →
    (netPort s port).linkUp = none → pastFlush s = false → port.val < s.net.port.length →
    Goes (exec (.linkUp port fault) s) (fun t => (netPort t port).linkUp = some s.now ∧ (netPort t port).fwd = .listening s.now ∧
      (netPort t port).fault = fault ∧ (netPort t port).carried = true ∧ portForwards t port = false ∧
      (∀ p : Port, p ≠ port → netPort t p = netPort s p) ∧ t.flt = s.flt ∧ t.mem = s.mem)) ∧
  (∀ (port : Port) (fault : LinkFault) (m : LaneMode) (t0 : Ticks) (s : State), netRuns s = true → (netPort s port).txDis = false →
    (netPort s port).mode = some m → (netPort s port).linkUp = some t0 → pastFlush s = false →
    exec (.linkUp port fault) s = .next (setNetPort s port (fun q => { q with fault := fault }))) ∧
  (∀ (port : Port) (t0 : Ticks) (s : State), netRuns s = true → (netPort s port).fwd = .listening t0 → t0 + msT 30 ≤ s.now →
    exec (.portListenEnd port) s = .next (setNetPort s port (fun q => { q with fwd := .forwarding }))) ∧
  (∀ (port : Port) (t0 : Ticks) (s : State), (netPort s port).fwd = .listening t0 → s.now < t0 + msT 30 →
    exec (.portListenEnd port) s = .next s) ∧
  (∀ (port : Port) (s : State), portUp s port = true → port.val < s.net.port.length → port.val < s.net.queue.length →
    Goes (exec (.linkDown port) s) (fun t => portUp t port = false ∧ (netPort t port).fwd = .down ∧
      Stands .netLink (BitVec.ofNat 32 port.val) t ∧ (∀ p : Port, p ≠ port → netPort t p = netPort s p))) ∧
  (∀ (port : Port) (r : Bool) (c : ModClass) (s : State), runs s = true → (netPort s port).module = .identified r c →
    (netPort s port).linkUp = none → passed s.now (netPort s port).noLinkSince (secT 10) = true →
    exec (.netLinkTimeout port) s = .next (raise .netLink (BitVec.ofNat 32 port.val) s)) ∧
  (∀ (port : Port) (s : State), netRuns s = true → launchDue s port = true →
    exec (.launchTime port) s = .next (servePort s port)) ∧
  (∀ (port : Port) (r : Nat × State) (f : QFrame) (g : Frame) (s : State), portSends s port = true → pickFrame (dropHeld s port) port = some r →
    (portQueue r.2 port)[r.1]? = some f → f.payload = .relayed g → (∀ m : PtpRelay, g.body ≠ .ptp m) →
    port.val < s.net.queue.length →
    portQueue (servePort s port) port = (portQueue r.2 port).eraseIdx r.1 ∧
    (servePort s port).sent = .frame port (.relayed g) :: s.sent)

/-- 07 R273, R283 to R286, R291: a frame over 2,000 bytes, with a bad FCS or under 64 bytes is only counted; one on a port
that does not forward is not acted on; any other teaches its source, is forwarded, and goes to the local sinks. A frame for
this tile is not forwarded, one for a learned address goes to its port alone. 07 R283, R286, R300, R306, R307, R309, Table
7.9: table entries end with their time and no other: a MAC address after 300 s, a router port after 255 s, a media queue
after 10 s, an SDP after 3,600 s with its flow's binding, a sender after 100 ms; a flow without an SDP for 10 s raises
`f:NET_SDP`. Completion: `FRAME_RECEIVE`, `MAC_AGE_OUT`, `MEDIA_QUEUE_RELEASE`, `FLUSH_FLOOD_END`, `ROUTER_PORT_EXPIRY`,
`SDP_EXPIRY`, `NET_SDP_TIMEOUT`, `SENDER_TIMEOUT` end in the next state said here, under conditions on the state and the
operands alone. -/
def Obligations.FramesAreCheckedLearnedAndForwarded : Prop :=
  (∀ (port : Port) (f : Frame) (c : Nat) (s : State), netRuns s = true → portUp s port = true →
    (netPort s port).fault ≠ .localFault → frameCheck f = some c →
    exec (.frameReceive port f) s = .next (countUp c 1 s)) ∧
  (∀ (port : Port) (f : Frame) (s : State), portForwards s port = false → frameCheck f = none → exec (.frameReceive port f) s = .next s) ∧
  (∀ (port : Port) (f : Frame) (s : State), netRuns s = true → portUp s port = true →
    (netPort s port).fault ≠ .localFault → frameCheck f = none → portForwards s port = true →
    exec (.frameReceive port f) s = .next (localIn port f (forwardFrame port f (learnMac port f.src s)))) ∧
  (∀ (f : Frame), frameCheck f = none ↔ 64 ≤ f.len ∧ f.len ≤ 2000 ∧ f.fcsOk = true) ∧
  (∀ (p : Port) (m : Mac) (s : State), s.net.mac.length < 4096 → ⟨m, p, s.now⟩ ∈ (learnMac p m s).net.mac ∧
    (∀ e : MacEntry, e.mac ≠ m → (e ∈ (learnMac p m s).net.mac ↔ e ∈ s.net.mac))) ∧
  (∀ (p : Port) (f : Frame) (s : State), f.dst = ownMac s → forwardFrame p f s = s) ∧
  (∀ (p q : Port) (f : Frame) (e : MacEntry) (s : State), f.dst ≠ ownMac s → groupAddress f.dst = false →
    s.net.mac.find? (fun x => x.mac == f.dst) = some e → q ∈ (egressOf p f s).1 → q = e.port ∧ q ≠ p) ∧
  (∀ (mac : Mac) (s : State), Goes (exec (.macAgeOut mac) s) (fun t =>
    (∀ e : MacEntry, e ∈ t.net.mac ↔ e ∈ s.net.mac ∧ (e.mac = mac → s.now < e.heard + secT 300)) ∧
    t = { s with net := { s.net with mac := t.net.mac } })) ∧
  (∀ (port : Port) (group : Ip4) (s : State), Goes (exec (.mediaQueueRelease port group) s) (fun t =>
    (∀ m : MediaQ, m ∈ t.net.mediaQ ↔ m ∈ s.net.mediaQ ∧ (m.port = port → m.group = group → s.now < m.last + secT 10)) ∧
    t = { s with net := { s.net with mediaQ := t.net.mediaQ } })) ∧
  (∀ (group : Ip4) (udp : Nat) (e : SdpEntry) (s : State), e ∈ s.net.sdp → e.sdp.group = group → e.sdp.port = udp →
    e.announced + secT 3600 ≤ s.now →
    Goes (exec (.sdpExpiry group udp) s) (fun t => (∀ x ∈ t.net.sdp, ¬ (x.sdp.group = group ∧ x.sdp.port = udp)) ∧
      (∀ x ∈ s.net.sdp, ¬ (x.sdp.group = group ∧ x.sdp.port = udp) → x ∈ t.net.sdp) ∧
      (∀ f ∈ t.net.flows, ∀ d : Sdp, f.sdp = some d → ¬ (d.group = group ∧ d.port = udp)))) ∧
  (∀ (slot : Fin 256) (f : Flow) (s : State), netRuns s = true → f ∈ s.net.flows → f.slot = slot.val → f.sdp = none →
    passed s.now f.rtpSince (secT 10) = true →
    exec (.netSdpTimeout slot) s = .next (raise .netSdp (BitVec.ofNat 32 slot.val) s)) ∧
  (∀ (slot : Fin 256) (s : State), Goes (exec (.senderTimeout slot) s) (fun t =>
    t.net.flows.length = s.net.flows.length ∧
    (∀ f ∈ t.net.flows, f.kind = .video → f.slot = slot.val → ∀ d : Sender, f.sender = some d → s.now < d.heard + msT 100) ∧
    t = { s with net := { s.net with flows := t.net.flows } })) ∧
  (∀ (port : Port) (s : State), passed s.now (netPort s port).queryAt (secT 255) = true →
    exec (.routerPortExpiry port) s = .next (setNetPort s port (fun q => { q with queryAt := none }))) ∧
  (∀ s : State, dueBy s.now s.net.guard.floodUntil = true →
    exec .flushFloodEnd s = .next { s with net := { s.net with guard := { s.net.guard with floodUntil := none } } })

/-- 07 R283, R292 to R296, R298: an accepted guard frame teaches the address it came from; a guard frame of the same wall
that is not the tile's own is relayed on every other port that is up with one hop less; one of another wall is discarded;
one with a single hop left raises `f:NET_RING` but at the acting lead. The tile sends its own frames at its period while it
is not silenced, and lifts a block, with FLUSH frames, once no own frame returns, its own MAC table emptied and its groups
flooded for 2 s. Completion: `GUARD_FRAME`, `GUARD_SEND`, `GUARD_LIFT` end in the next state said here, under conditions on
the state and the operands alone. -/
def Obligations.RingGuardBlocksAndLifts : Prop :=
  (∀ (port : Port) (g : Guard) (s : State), netRuns s = true → portUp s port = true → g.wallId ≠ wallId s →
    exec (.guardFrame port g) s = .next (learnMac port (guardMac g) s)) ∧
  (∀ (port : Port) (g : Guard) (s : State), netRuns s = true → portUp s port = true → g.wallId = wallId s → g.serial ≠ serialOf s →
    g.hops ≤ 1 → g.lead = false → g.looped = false → g.flush = false → actingLead s = false →
    exec (.guardFrame port g) s = .next (raise .netRing 2 (learnMac port (guardMac g) s))) ∧
  (∀ (port : Port) (g : Guard) (s : State), netRuns s = true → portUp s port = true → g.wallId = wallId s → g.serial = serialOf s →
    silenced s = false → Goes (exec (.guardFrame port g) s) (fun t => looped t = true ∧
      (∃ r ∈ t.net.guard.returned, r = (g.port, port, s.now)) ∧ ¬ Stands .netRing 0 t)) ∧
  (∀ (p q : Port) (s : State), returnPorts s = [p, q] → q.val < s.net.port.length → (netPort s q).blocked = none →
    (netPort (blockLoop s) q).blocked = some s.now ∧ portForwards (blockLoop s) q = false ∧ (blockLoop s).flt = s.flt) ∧
  (∀ s : State, netRuns s = true → silenced s = false → (∀ t : Ticks, s.net.guard.lastSend = some t → t + guardPeriod s ≤ s.now) →
    exec .guardSend s = .next (sendGuard false (modGuard (fun x => { x with lastSend := some s.now }) s))) ∧
  (∀ s : State, silenced s = true → exec .guardSend s = .next s) ∧
  (∀ (port : Port) (t0 : Ticks) (s : State), netRuns s = true → (netPort s port).blocked = some t0 → silencedLong s = false →
    noReturn s port = true →
    exec (.guardLift port) s = .next (startFlushFrames (raise .netRing 0 (unblock port s)))) ∧
  (∀ s : State, (startFlushFrames s).net.guard.flushLeft = 2 ∧ (startFlushFrames s).net.guard.flushAt = s.now + msT 1 ∧
    (startFlushFrames s).net.mac = [] ∧ (startFlushFrames s).net.guard.floodUntil = some (s.now + secT 2))

/-- 07 R277 to R280, R286 to R288, R326, Table 7.9: a state change of a group is reported at once and again 1 s later; a
query is answered with one report for each joined group; the acting lead sends a query every 125 s unless it has heard one
from a lower address within 255 s. A claim of an address sends three probes 200 ms apart, takes the address 200 ms after the
third, and then announces it twice; a positional claim ends `f:NET_IPCONFLICT`, and is tried again every 60 s after a
conflict. Completion: `IGMP_QUERY_SEND`, `IGMP_STATE_REPORT`, `IGMP_QUERY_ANSWER`, `ARP_PROBE`, `ADDRESS_CLAIM`,
`POSITIONAL_ADDRESS_RETRY` end in the next state said here, under conditions on the state and the operands alone. -/
def Obligations.GroupsAndAddressesAreClaimed : Prop :=
  (∀ (g : Ip4) (join : Bool) (s : State), joinedLocal s g = join → setJoin g join s = s) ∧
  (∀ (g : Ip4) (join : Bool) (s : State), joinedLocal s g ≠ join →
    setJoin g join s = reportFrame g join (modNet (fun z => { z with
      joins := ⟨g, join, some (s.now + secT 1)⟩ :: s.net.joins.filter (fun j => j.group != g) }) s)) ∧
  (∀ (group : Ip4) (j : Join) (s : State), netRuns s = true → s.net.joins.find? (fun x => x.group == group) = some j →
    dueBy s.now j.repeatAt = true →
    exec (.igmpStateReport group) s = .next (reportFrame group j.joined (modNet (fun z => { z with
      joins := (if j.joined then [{ j with repeatAt := none }] else []) ++ s.net.joins.filter (fun x => x.group != group) }) s))) ∧
  (∀ (t0 : Ticks) (s : State), netRuns s = true → s.net.answerBy = some t0 →
    Goes (exec .igmpQueryAnswer s) (fun t => t.net.answerBy = none ∧ t.net.joins = s.net.joins ∧ t.flt = s.flt)) ∧
  (∀ s : State, netRuns s = true → s.disc.role = .acting → (∀ t : Ticks, s.net.lowerQuery = some t → t + secT 255 ≤ s.now) →
    (∀ t : Ticks, s.net.nextQuery = some t → t ≤ s.now) →
    exec .igmpQuerySend s = .next (originOn (modNet (fun z => { z with nextQuery := some (s.now + secT 125) }) s)
      (forwardingPorts s) .control minFrame (launchNow s) (.igmpQuery 100 2 125))) ∧
  (∀ (t0 : Ticks) (s : State), s.net.lowerQuery = some t0 → s.now < t0 + secT 255 → exec .igmpQuerySend s = .next s) ∧
  (∀ (c : AClaim) (s : State), netRuns s = true → s.net.addr.prov = some c → c.next ≤ s.now → c.frames < 3 →
    Goes (exec .arpProbe s) (fun t => t.net.addr = { s.net.addr with prov := some { c with frames := c.frames + 1, next := s.now + msT 200 } } ∧
      t.flt = s.flt ∧ t.mem = s.mem)) ∧
  (∀ (c : AClaim) (s : State), s.net.addr.pos = some c → c.frames = 3 → c.next ≤ s.now → s.net.addr.claimed ≠ some c.addr →
    Goes (exec .addressClaim s) (fun t => t.net.addr.claimed = some c.addr ∧ t.net.addr.claimedPositional = true ∧
      t.net.addr.prov = none ∧ t.net.addr.pos = some { c with next := s.now } ∧ t.net.addr.positionalRetry = none ∧
      isActive t .netIpconflict = false)) ∧
  (∀ (c : AClaim) (s : State), s.net.addr.pos = none → s.net.addr.prov = some c → c.frames = 3 → c.next ≤ s.now →
    s.net.addr.claimed ≠ some c.addr → s.net.addr.claimedPositional = false →
    Goes (exec .addressClaim s) (fun t => t.net.addr = { s.net.addr with
      claimed := some c.addr, defendedAt := none, prov := some { c with next := s.now } } ∧ t.flt = s.flt)) ∧
  (∀ (c : AClaim) (s : State), netRuns s = true → s.net.addr.prov = none → s.net.addr.pos = some c → c.next ≤ s.now →
    3 ≤ c.frames → s.net.addr.claimed = some c.addr →
    Goes (exec .arpProbe s) (fun t => t.net.addr = { s.net.addr with
      pos := if c.frames = 4 then none else some { c with frames := c.frames + 1, next := s.now + msT 200 } })) ∧
  (∀ s : State, netRuns s = true → positionKnown s = true → dueBy s.now s.net.addr.positionalRetry = true →
    exec .positionalAddressRetry s = .next (startPositional (modNet (fun z => { z with
      addr := { z.addr with positionalRetry := some (s.now + secT 60) } }) s))) ∧
  (∀ (offset : Nat) (s : State), provisionalIp s offset =
    ip4 169 254 (129 + (serialLow s + offset) % 2 ^ 32 % 126) (1 + (serialLow s + offset) % 2 ^ 32 / 126 % 254))

/-- 07 R282, R328, 19 R915: one periodic record per second, at its offset in the second, unless a record sent for a fault in
the last 50 ms stands for it; a record beyond 10 in a second is withheld; the interval counts begin afresh. Completion:
`STATUS_RECORD_LAUNCH` ends in the next state said here, under conditions on the state and the operands alone. -/
def Obligations.StatusRecordOncePerSecond : Prop :=
  (∀ s : State, recordsRun s = true → s.status.lastWindow ≠ s.time.sec.toNat + 1 → launchOffset s * 1000000 ≤ s.time.ns.toNat →
    replaced s = false →
    exec .statusRecordLaunch s = .next (resetIntervals (launchRecord 0
      { s with status := { s.status with lastWindow := s.time.sec.toNat + 1 } }))) ∧
  (∀ s : State, recordsRun s = true → s.status.lastWindow ≠ s.time.sec.toNat + 1 → launchOffset s * 1000000 ≤ s.time.ns.toNat →
    replaced s = true →
    exec .statusRecordLaunch s = .next (resetIntervals { s with status := { s.status with lastWindow := s.time.sec.toNat + 1 } })) ∧
  (∀ s : State, s.status.lastWindow = s.time.sec.toNat + 1 → exec .statusRecordLaunch s = .next s) ∧
  (∀ (kind : BitVec 8) (s : State), recordsRun s = true → sentLastSecond s < 10 →
    (launchRecord kind s).status.seq = s.status.seq + 1 ∧ sentLastSecond (launchRecord kind s) = sentLastSecond s + 1 ∧
    (launchRecord kind s).flt = s.flt) ∧
  (∀ (kind : BitVec 8) (s : State), recordsRun s = true → 10 ≤ sentLastSecond s →
    launchRecord kind s = { s with status := { s.status with withheld := s.status.withheld + 1 } })

/-- 19 R917: a record with sequence number n, in bytes 2 to 5, carries detail page n mod 8 in the 96 bytes before its
signature. -/
def Obligations.RecordsCarryTheirDetailPage : Prop :=
  ∀ (kind : Nat) (n : BitVec 32) (s : State), (recordBody s kind n).length = 504 ∧
    ((recordBody s kind n).drop 2).take 4 = beBytes 4 n.toNat ∧
    (recordBody s kind n).drop 408 = detailPage s (n.toNat % 8)

/-! ### Time (08) -/

/-- 08 R339 to R341, R379, R383 to R385, R390, R397, R401, Table 8.9: an Announce within the limits of the profile makes its
sender known, and the second one within four intervals selects it, in ACQUIRE; one removed by 255 steps is not used. A
master unheard for 3 Announce or 16 Sync intervals, or a servo for 60 s at its limit, is lost; a tile without a master
reports it after 10 s; a follower whose lead announces no step makes its own after 4 s; in HOLDOVER, beats inconsistent for
1 s or a change of lead for 2 s end in FREERUN. Completion: `ANNOUNCE`, `MASTER_LOSS`, `SERVO_RANGE_TIMEOUT`,
`TIME_NOMASTER_TIMEOUT`, `FOLLOWER_STEP_TIMEOUT`, `BEAT_INCONSISTENT_TIMEOUT`, `LEAD_CHANGE_HOLD_TIMEOUT` end in the next
state said here, under conditions on the state and the operands alone. -/
def Obligations.MastersAreSelectedAndLost : Prop :=
  (∀ (port : Port) (h : PtpHeader) (a : AnnounceSet) (s : State), 255 ≤ a.stepsRemoved → exec (.announce port h a) s = .next s) ∧
  (∀ (port : Port) (h : PtpHeader) (a : AnnounceSet) (s : State), ptpOk s 320 h = true → portForwards s port = true →
    a.stepsRemoved < 255 → (timeProfile s).annLo ≤ a.logAnnounce → a.logAnnounce ≤ (timeProfile s).annHi →
    (timeProfile s).syncLo ≤ a.logSync → a.logSync ≤ (timeProfile s).syncHi →
    Goes (exec (.announce port h a) s) (fun t =>
      (∃ f ∈ t.time.masters, f.id = h.source ∧ f.set_ = a ∧ f.port = port ∧ f.heard.head? = some s.now) ∧
      (∀ m : Master_, t.time.master = some m → m.id = h.source → m.set_ = a ∧ m.lastAnnounce = s.now) ∧
      t.flt = s.flt ∧ t.mem = s.mem)) ∧
  (∀ (port : Port) (h : PtpHeader) (a : AnnounceSet) (s : State), ptpOk s 320 h = true → portForwards s port = true →
    a.stepsRemoved < 255 → (timeProfile s).annLo ≤ a.logAnnounce → a.logAnnounce ≤ (timeProfile s).annHi →
    (timeProfile s).syncLo ≤ a.logSync → a.logSync ≤ (timeProfile s).syncHi → s.time.masters = [] → s.time.master = none →
    exec (.announce port h a) s =
      .next (modTime (fun t => { t with masters := [⟨h.source, a, [s.now], port⟩], master := none }) s)) ∧
  (∀ (port p0 : Port) (h : PtpHeader) (a a0 : AnnounceSet) (t0 : Ticks) (s : State), ptpOk s 320 h = true → portForwards s port = true →
    a.stepsRemoved < 255 → (timeProfile s).annLo ≤ a.logAnnounce → a.logAnnounce ≤ (timeProfile s).annHi →
    (timeProfile s).syncLo ≤ a.logSync → a.logSync ≤ (timeProfile s).syncHi → s.time.masters = [⟨h.source, a0, [t0], p0⟩] →
    s.time.master = none → s.now ≤ t0 + 4 * logTicks a.logAnnounce → s.time.servo = .listen →
    Goes (exec (.announce port h a) s) (fun t => t.time.master = some ⟨h.source, a, s.now, s.now⟩ ∧ t.time.servo = .acquire ∧
      t.time.slavePort = none ∧ t.time.synced = false ∧ t.time.acq = [])) ∧
  (∀ (m : Master_) (s : State), s.time.master = some m → m.lastAnnounce + 3 * logTicks m.set_.logAnnounce ≤ s.now →
    exec .masterLoss s = .next (loseMaster s)) ∧
  (∀ (m : Master_) (s : State), s.time.master = some m → m.lastSync + 16 * logTicks m.set_.logSync ≤ s.now →
    exec .masterLoss s = .next (loseMaster s)) ∧
  (∀ (m : Master_) (s : State), s.time.master = some m → s.time.masters = [] → s.time.servo = .track → s.time.ptpOrigin = true →
    s.disc.role = .acting → (loseMaster s).time.master = none ∧ (loseMaster s).time.servo = .freerun ∧
      (loseMaster s).time.synced = false ∧ (loseMaster s).time.y = s.time.yInt) ∧
  (∀ s : State, s.time.servo = .track → passed s.now s.time.limitSince (secT 60) = true →
    exec .servoRangeTimeout s = .next (loseMaster s)) ∧
  (∀ s : State, runs s = true → s.time.servo = .listen → s.time.master = none → passed s.now s.time.firstLink (secT 10) = true →
    exec .timeNomasterTimeout s = .next (raise .timeNomaster 0 s)) ∧
  (∀ (theta : Int) (t0 : Ticks) (s : State), s.time.stepNeed = some (theta, t0) → follower s = true → s.time.stepAnn = none →
    t0 + secT 4 ≤ s.now → exec .followerStepTimeout s = .next { s with time := { s.time with ownStep := true } }) ∧
  (∀ s : State, s.time.servo = .holdover → passed s.now s.time.inconsistentSince (secT 1) = true → followable s = false →
    exec .beatInconsistentTimeout s = .next (enterFreerun s)) ∧
  (∀ s : State, s.time.servo = .holdover → passed s.now s.time.leadHold (secT 2) = true →
    exec .leadChangeHoldTimeout s = .next (enterFreerun s))

/-- 08 R342 to R347, R385: a two-step Sync of the master waits for its Follow_Up, which gives its origin time and both
corrections; a one-step Sync is used at once; one on another port than the slave port, heard within a sync interval, is only
counted; Syncs without a Follow_Up for two sync intervals are discarded. A Delay_Req due is sent on the slave port and the
next one armed; the 16th unanswered one loses the master; a Delay_Resp to the own port identity gives half of the sum of
both ways to the filter of the path delay. Completion: `SYNC`, `FOLLOW_UP`, `FOLLOW_UP_TIMEOUT`, `DELAY_REQ`, `DELAY_RESP`
end in the next state said here, under conditions on the state and the operands alone. -/
def Obligations.OffsetAndDelayAreMeasured : Prop :=
  (∀ (port : Port) (h : PtpHeader) (origin : PtpTime) (m : Master_) (s : State), s.time.master = some m → m.id = h.source →
    ptpOk s 319 h = true → portForwards s port = true →
    (s.time.slavePort = none ∨ s.time.slavePort = some port) →
    exec (.sync port h true origin) s = .next (modTime (fun t => { t with
      slavePort := some port, slaveHeard := s.now
      pend := ⟨h.seq, counterOf s - rxLatencyF s port, h.correction, s.now⟩ :: s.time.pend.filter (fun p => p.seq != h.seq) }) s)) ∧
  (∀ (port : Port) (h : PtpHeader) (origin : PtpTime) (m : Master_) (s : State), s.time.master = some m → m.id = h.source →
    ptpOk s 319 h = true → portForwards s port = true →
    (s.time.slavePort = none ∨ s.time.slavePort = some port) →
    exec (.sync port h false origin) s = .next (usableSync (ptpF origin) (counterOf s - rxLatencyF s port) (corrF h.correction)
      (modTime (fun t => { t with slavePort := some port, slaveHeard := s.now }) s))) ∧
  (∀ (port q : Port) (h : PtpHeader) (two : Bool) (origin : PtpTime) (m : Master_) (s : State), s.time.master = some m → m.id = h.source →
    ptpOk s 319 h = true → portForwards s port = true → s.time.slavePort = some q → port ≠ q →
    s.now < s.time.slaveHeard + logTicks m.set_.logSync → exec (.sync port h two origin) s = .next (countUp ctOffPort 1 s)) ∧
  (∀ (h : PtpHeader) (origin : PtpTime) (m : Master_) (p : PendSync) (s : State), s.time.master = some m → m.id = h.source →
    ptpOk s 320 h = true →
    s.time.pend.find? (fun x => x.seq == h.seq && decide (s.now ≤ x.at_ + 2 * logTicks m.set_.logSync)) = some p →
    exec (.followUp h origin) s = .next (usableSync (ptpF origin) p.t2 (corrF (p.corr + h.correction))
      (modTime (fun t => { t with pend := t.pend.filter (fun x => x.seq != h.seq) }) s))) ∧
  (∀ (t1 t2 c : Int) (s : State), s.time.servo = .track → s.time.portHold = none → s.time.delayMeanSet = true → s.time.runMilli < 15 →
    (usableSync t1 t2 c s).time.lastTms = some (t2 - t1 - c) ∧ (usableSync t1 t2 c s).time.theta = t2 - t1 - c - s.time.delayMean) ∧
  (∀ (m : Master_) (s : State), s.time.master = some m → exec .followUpTimeout s =
    .next (modTime (fun t => { t with pend := t.pend.filter (fun p => s.now < p.at_ + 2 * logTicks m.set_.logSync) }) s)) ∧
  (∀ (p : Port) (m : Master_) (s : State), netRuns s = true → s.time.master = some m → dueBy s.now s.time.nextDelayReq = true →
    s.time.unanswered < 16 → s.time.slavePort = some p → portUp s p = true →
    exec .delayReq s = .next (armDelayReq (sendDelayReq p s))) ∧
  (∀ (m : Master_) (s : State), netRuns s = true → s.time.master = some m → dueBy s.now s.time.nextDelayReq = true →
    16 ≤ s.time.unanswered → exec .delayReq s = .next (loseMaster s)) ∧
  (∀ (p : Port) (s : State), (sendDelayReq p s).time.unanswered = s.time.unanswered + 1 ∧
    (sendDelayReq p s).time.delaySeq = (s.time.delaySeq + 1) % 65536) ∧
  (∀ (h : PtpHeader) (requester : BitVec 80) (received : PtpTime) (logInterval : Int) (m : Master_) (q : Nat) (t3 v : Int)
    (s : State), s.time.master = some m → ptpOk s 320 h = true → m.id = h.source →
    requester = Config.portIdentity (serialOf s).toNat → s.time.delayOut.find? (fun x => x.1 == h.seq) = some (q, some t3, some v) →
    exec (.delayResp h requester received logInterval) s =
      .next (takeDelay ((v + (ptpF received - t3 - corrF h.correction)) / 2) (modTime (fun t => { t with
        unanswered := 0, delayLog := some logInterval, delayOut := t.delayOut.filter (fun x => x.1 != q) }) s))) ∧
  (∀ (d : Int) (s : State), s.time.dFilter = [] → s.time.servo ≠ .acquire →
    (takeDelay d s).time.delayMeanSet = true ∧ (takeDelay d s).time.delayMean = d ∧ (takeDelay d s).time.dFilter = [d])

/-- 08 R350, R351: `SYNCED` is high in TRACK alone: leaving TRACK ends it, 8 Syncs in a row under 200 ns raise it, and 3 in a
row at or above 1 µs end it; 16 in a row above 1 ms need a step. -/
def Obligations.SyncedOnlyInTrack : Prop :=
  (∀ (v : Servo) (s : State), v ≠ .track → (enterServo v s).time.synced = false ∧ (enterServo v s).time.servo = v) ∧
  (∀ t : TimeSt, t.servo ≠ .track → judgeSynced t = t) ∧
  (∀ (theta : Int) (t : TimeSt), t.servo = .track → t.synced = false →
    ((judgeSynced (countSync theta t)).synced = true ↔ |theta| < nsF 200 ∧ 7 ≤ t.run200)) ∧
  (∀ (theta : Int) (t : TimeSt), t.servo = .track → t.synced = true →
    ((judgeSynced (countSync theta t)).synced = false ↔ nsF 1000 ≤ |theta| ∧ 2 ≤ t.runMicro)) ∧
  (∀ (theta tau : Int) (s : State), s.time.servo = .track → s.time.stepNeed = none → nsF 1000000 < |theta| → s.time.runMilli = 15 →
    (∃ u : State, trackSync theta tau s = needStep theta u))

/-- 08 R366 to R368, 13 R635, R639, R640: a beat is emitted once its time has come, each number once and in order; refresh r
of a frame and pick j of a refresh follow at their parts of the frame, each in turn; a pick lights the rows of its scan
position, and a code is lit for its high part of units, plus one in the refreshes that its reversed low part names.
Completion: `REED_BEAT`, `REFRESH_START`, `PICK_START` end in the next state said here, under conditions on the state and
the operands alone. -/
def Obligations.BeatsRefreshesAndPicks : Prop :=
  (∀ (flags : List LedFlag) (s : State), beatDue s = false → exec (.reedBeat flags) s = .next s) ∧
  (∀ (flags : List LedFlag) (s : State), beatDue s = true → Goes (exec (.reedBeat flags) s) (fun t =>
    t.time.beat = some s.time.nextBeat ∧ t.live.sceneDue = none ∧ t.live.identDue = none ∧ t.keys.swapDue = none)) ∧
  (∀ (k : Nat) (s : State), s.time.beat = some k → runs s = true → domOn s 3 = true → nextRefresh s < refreshCount s →
    partStart s k (refreshCount s) (nextRefresh s) ≤ counterOf s →
    exec .refreshStart s = .next { s with
      weft := { s.weft with pick := none, activeAt := none, lit := [] }, time := { s.time with refresh := some (nextRefresh s) } }) ∧
  (∀ (k r : Nat) (g : WGeom) (s : State), s.time.beat = some k → s.time.refresh = some r → s.weft.geom = some g → runs s = true →
    s.boot.censusDone = true → nextPick s r < g.scan → partStart s k (refreshCount s * g.scan) (r * g.scan + nextPick s r) ≤ counterOf s →
    exec .pickStart s = .next { s with
      weft := { s.weft with pick := some (r, nextPick s r, s.now), activeAt := none, lit := pickLit s g r (nextPick s r) } }) ∧
  (∀ (n kp v : Nat), n + kp ≤ 16 → v < 2 ^ 16 →
    ((List.range (2 ^ kp)).map (fun r => litUnits false n kp r v)).sum = v / 2 ^ (16 - (n + kp)))

/-! ### Selvedge links and discovery (09) -/

/-- 09 R411, R412, R415, R430 to R432, R434, R435, R455, Table 9.7: the 64th valid header in a row locks a link, and an
invalid one moves the candidate offset; 16 invalid ones of 64 unlock it; a locked link joins at the third matching `k:HELLO`
within 30 ms; one from a port that is not the complement is crossed, and raises `f:SV_LINK`; loss of lock, or 50 ms without
a `k:HELLO`, unjoins it. A MARK REQ goes out every 10 ms on a joined link and is answered, both at the next block boundary
of the lane, whose instant is noted; its answer gives the turnaround; a value more than 5 ns from the mean is not taken,
until the fourth such value in a row discards the mean; the first MARK BEAT of a value on a link with a valid delay is
stamped and leaves on every other joined link. Completion: `BLOCK_LOCK`, `BLOCK_LOCK_LOSS`, `HELLO`, `HELLO_SEND`,
`HELLO_TIMEOUT`, `SV_LINK_TIMEOUT`, `MARK_REQ_SEND`, `MARK_REQ`, `MARK_RSP`, `MARK_BEAT` end in the next state said here,
under conditions on the state and the operands alone. -/
def Obligations.LinksJoinAndMeasureDelay : Prop :=
  (∀ (link : Dir) (headers : List (BitVec 2)) (s : State), svRuns s = true →
    exec (.blockLock link headers) s = .next (modLink s link (fun l => headers.foldl huntHeader l))) ∧
  (∀ l : Link, l.locked = false → (∀ h : BitVec 2, validHeader h = true → l.hunt = 63 → (huntHeader l h).locked = true) ∧
    (∀ h : BitVec 2, validHeader h = true → l.hunt < 63 → huntHeader l h = { l with hunt := l.hunt + 1 }) ∧
    (∀ h : BitVec 2, validHeader h = false → huntHeader l h = { l with hunt := 0, offset := (l.offset + 1) % 66 })) ∧
  (∀ (link : Dir) (headers : List (BitVec 2)) (s : State), svRuns s = true → (linkOf s link).locked = true →
    (lockFails (watchHeaders headers (linkOf s link)) = true →
      Goes (exec (.blockLockLoss link headers) s) (fun t => (linkOf t link).locked = false ∧ (linkOf t link).joined = none ∧
        (linkOf t link).hellos = [] ∧ (∃ u : State, t = raise .svAlign (BitVec.ofNat 32 (dirNo link)) u))) ∧
    (lockFails (watchHeaders headers (linkOf s link)) = false →
      exec (.blockLockLoss link headers) s = .next (modLink s link (watchHeaders headers)))) ∧
  (∀ (link : Dir) (run : BlockRun) (bytes : List Byte) (x : Head) (s u : State), arrive link run s = (u, some bytes) → standalone u = false →
    readKnot .hello bytes = some x → (readHello bytes).port = dirNo (opposite link) → (readHello bytes).wallId = wallId u →
    (readHello bytes).standalone = false → exec (.hello link run) s = .next (takeHello link (readHello bytes) u)) ∧
  (∀ (link : Dir) (run : BlockRun) (bytes : List Byte) (x : Head) (s u : State), arrive link run s = (u, some bytes) → standalone u = false →
    readKnot .hello bytes = some x → (readHello bytes).port ≠ dirNo (opposite link) →
    Goes (exec (.hello link run) s) (fun t => (linkOf t link).crossed = true ∧ (linkOf t link).joined = none ∧
      Stands .svLink (svDetail 1 link) t)) ∧
  (∀ (link : Dir) (run : BlockRun) (bytes : List Byte) (s u : State), arrive link run s = (u, some bytes) → standalone u = false →
    readKnot .hello bytes = none → exec (.hello link run) s = .next (discardKnot link .hello bytes u)) ∧
  (∀ (link : Dir) (h : Hello) (a b : Ticks) (s : State), (linkOf s link).joined = none → (linkOf s link).hellos = [a, b] →
    s.now ≤ a + msT 30 → s.now ≤ b + msT 30 → (linkOf (takeHello link h s) link).joined = some s.now) ∧
  (∀ (link : Dir) (h : Hello) (s : State), (linkOf s link).joined = none → (linkOf s link).hellos = [] →
    (linkOf (takeHello link h s) link).joined = none) ∧
  (∀ (link : Dir) (t0 : Ticks) (s : State), (linkOf s link).joined = some t0 → passed s.now (linkOf s link).lastHello (msT 50) = true →
    Goes (exec (.helloTimeout link) s) (fun t => (linkOf t link).joined = none ∧ (linkOf t link).claim = none ∧
      (linkOf t link).unjoinedSince = some s.now)) ∧
  (∀ s : State, svRuns s = true → (∀ t : Ticks, s.disc.lastHelloSent = some t → t + msT 10 ≤ s.now) → exec .helloSend s =
    .next ((dirs.filter (fun d => (linkOf s d).locked)).foldl (fun st d => sendHello d st)
      (modDisc (fun x => { x with lastHelloSent := some s.now }) s))) ∧
  (∀ (link : Dir) (s : State), svRuns s = true → standalone s = false → (linkOf s link).crossed = false → (linkOf s link).joined = none →
    (linkOf s link).everJoined = true → passed s.now (linkOf s link).unjoinedSince (secT 1) = true →
    exec (.svLinkTimeout link) s = .next (raise .svLink (svDetail 0 link) s)) ∧
  (∀ (link : Dir) (t0 : Ticks) (s : State), svRuns s = true → (linkOf s link).joined = some t0 → 
    (∀ t : Ticks, (linkOf s link).reqAt = some t → t + msT 10 ≤ s.now) →
    exec (.markReqSend link) s = .next (modLink s link (fun l => { l with
      reqSeq := l.reqSeq + 1, reqAt := some s.now, marks := l.marks ++ [⟨.req, l.reqSeq + 1, 0⟩] }))) ∧
  (∀ (link : Dir) (value : BitVec 16) (t0 : Ticks) (s : State), svRuns s = true → (linkOf s link).joined = some t0 →
    exec (.markReq link value) s = .next (modLink s link (fun l => { l with marks := l.marks ++ [⟨.rsp, value, counterOf s⟩] }))) ∧
  (∀ (link : Dir) (value : BitVec 16) (t0 : Ticks) (t1 : Int) (s : State), svRuns s = true → (linkOf s link).joined = some t0 →
    (linkOf s link).req = some (value, t1) →
    exec (.markRsp link value) s = .next (modLink s link (fun l => { l with req := none, rtt := some (value, counterOf s - t1) }))) ∧
  (∀ (link : Dir) (value : BitVec 16) (t0 : Ticks) (s : State), svRuns s = true → actingLead s = false →
    (linkOf s link).joined = some t0 → delayValid (linkOf s link) = true → markHeard value s = false →
    Goes (exec (.markBeat link value) s) (fun t => t.disc.markSeen = some ⟨value, link, counterOf s⟩ ∧ t.sent = s.sent ∧
      (∀ d : Dir, (linkOf t d).marks = (linkOf s d).marks ++
        (if d ∈ joinedDirs s ∧ d ≠ link then [⟨.beat, value, 0⟩] else [])))) ∧
  (∀ (m : OutMark) (at_ : Int) (l : Link), (m.kind = .req → departed m at_ l = { l with req := some (m.value, at_) }) ∧
    (m.kind = .rsp → departed m at_ l = { l with answered := (m.value, ((at_ - m.since) / 65536).toNat) }) ∧
    (m.kind = .beat → departed m at_ l = { l with beatOut := some (m.value, at_) })) ∧
  (∀ (d : Int) (l : Link), l.delays ≠ [] → nsF 5 < |d - linkDelay l| → l.rejects < 3 →
    (takeLinkDelay d l).delays = l.delays ∧ (takeLinkDelay d l).rejects = l.rejects + 1) ∧
  (∀ (d : Int) (l : Link), l.delays ≠ [] → nsF 5 < |d - linkDelay l| → 3 ≤ l.rejects → (takeLinkDelay d l).delays = []) ∧
  (∀ (d : Int) (l : Link), l.delays = [] ∨ |d - linkDelay l| ≤ nsF 5 →
    (takeLinkDelay d l).delays = (d :: l.delays).take 16 ∧ (takeLinkDelay d l).rejects = 0)

/-- 09 R437, R438: a tile with a strapped position keeps its own claim; else no claim it holds ranks above its choice. -/
def Obligations.BestClaimIsChosen : Prop :=
  (∀ s : State, fixedPos s = true →
    bestChoice s = some ⟨serialOf s, true, 0, code s pinPosY, code s pinPosX, none⟩) ∧
  (∀ (c : Choice) (s : State), fixedPos s = false → c ∈ (ownClaim s).toList ++ receivedChoices s →
    ∃ b, bestChoice s = some b ∧ b ∈ (ownClaim s).toList ++ receivedChoices s ∧ betterChoice c b = false)

/-- 09 R424, R428, R438 to R441, R445, R455, R456, R465: a claim received on a joined link is held and the choice made
again, and is dropped 300 ms after; the choice is sent every 100 ms; the lead takes a census into its table and others relay
it upstream; an entry unheard for 15 s lapses. A `k:BEAT` on the link of its MARK is relayed with its delay added and used;
a `k:FAULT` is noted; a held `k:FAULT` leaves once fewer than 4 were sent in the last second; a pair of origin and type
unheard for 500 ms is dropped. Completion: `POS`, `POS_SEND`, `CENSUS`, `CENSUS_SEND`, `CENSUS_LAPSE`,
`POSITION_INCONSISTENCY`, `BEAT`, `FAULT`, `FAULT_KNOT_SEND`, `KNOT_SEQUENCE_EXPIRY`, `POS_CLAIM_EXPIRY` end in the next
state said here, under conditions on the state and the operands alone. -/
def Obligations.ClaimsCensusAndFloodsCirculate : Prop :=
  (∀ (link : Dir) (run : BlockRun) (bytes : List Byte) (h : Head) (s r u : State), arrive link run s = (r, some bytes) →
    receiveLocal r link .pos bytes = .taken u h → (readPos bytes).seed ≠ serialOf u → (readPos bytes).hops < 0xFFFE →
    exec (.pos link run) s =
      let b := readPos bytes
      .next (rechoose (modLink u link (fun l => { l with claim := some ⟨b.seed, b.fixed, b.hops, b.row, b.col, u.now⟩ })))) ∧
  (∀ (link : Dir) (c : Claim) (s : State), (linkOf s link).claim = some c → c.at_ + msT 300 ≤ s.now →
    Goes (exec (.posClaimExpiry link) s) (fun t => (linkOf t link).claim = none)) ∧
  (∀ (c : Choice) (s : State), svRuns s = true → s.disc.choice = some c →
    (∀ t : Ticks, s.disc.lastPos = some t → t + msT 100 ≤ s.now) →
    exec .posSend s = .next (bumpSeq (floodBut (modDisc (fun d => { d with lastPos := some s.now }) s) none .pos
      (ownKnot s .pos false (posBytes ⟨c.seed, c.fixed, c.hops, c.row, c.col⟩))) .pos)) ∧
  (∀ (link : Dir) (run : BlockRun) (bytes : List Byte) (h : Head) (s r u : State), arrive link run s = (r, some bytes) →
    receiveLocal r link .census bytes = .taken u h →
    (actingLead u = true → exec (.census link run) s = .next (takeCensus h.orig (readCensus bytes) u)) ∧
    (actingLead u = false → exec (.census link run) s = .next (relayUp u .census bytes))) ∧
  (∀ (c : Choice) (s : State), svRuns s = true → standalone s = false → s.disc.choice = some c → 
    (s.disc.censusDue = true ∨ ∀ t : Ticks, s.disc.lastCensus = some t → t + secT 5 ≤ s.now) →
    exec .censusSend s =
      let u := modDisc (fun d => { d with censusDue := false, lastCensus := some s.now }) s
      .next (if actingLead s then takeCensus (serialOf s) (ownCensus c s) u else originUp u .census (censusBytes (ownCensus c s)))) ∧
  (∀ (o : Serial) (b : CensusBody) (s : State), ∃ e ∈ (takeCensus o b s).disc.table, e.serial = o ∧ e.row = b.row ∧ e.col = b.col ∧
    e.heard = s.now ∧ e.lapsed = false) ∧
  (∀ (serial : Serial) (s : State), s.disc.role = .acting →
    Goes (exec (.censusLapse serial) s) (fun t => t.disc.table.length = s.disc.table.length ∧
      (∀ e ∈ t.disc.table, e.serial = serial → e.heard + secT 15 ≤ s.now → e.lapsed = true) ∧
      (∀ e ∈ s.disc.table, e.serial ≠ serial → e ∈ t.disc.table))) ∧
  (∀ (link : Dir) (t0 : Ticks) (s : State), svRuns s = true → (linkOf s link).joined = some t0 →
    passed s.now (linkOf s link).diffSince (secT 1) = true → exec (.positionInconsistency link) s = .next (settlePosition s)) ∧
  (∀ (link : Dir) (run : BlockRun) (bytes : List Byte) (h x : Head) (m : MarkSeen) (s r u : State), arrive link run s = (r, some bytes) →
    readKnot .beat bytes = some x → r.disc.markSeen = some m → delayValid (linkOf r link) = true → m.link = link →
    m.value = (readBeat bytes).beat.setWidth 16 → acceptFlood r link .beat bytes = .taken u h →
    Goes (exec (.beat link run) s) (fun t => ∃ v : State, v = relayBeat link m bytes u ∧
      t = if actingLead v then v else useBeat (linkOf v link) h (readBeat bytes) m v)) ∧
  (∀ (link : Dir) (m : MarkSeen) (bytes : List Byte) (s : State), byteAt bytes 6 ≠ 255 →
    relayBeat link m bytes s = floodKnot s (some link) ⟨.beat, hopped .beat bytes, .residence (m.arrival - linkDelay (linkOf s link))⟩) ∧
  (∀ (link : Dir) (run : BlockRun) (bytes : List Byte) (h : Head) (s r u : State), arrive link run s = (r, some bytes) →
    receiveFlood r link .fault bytes = .taken u h →
    exec (.fault link run) s = .next (noteWallFault u ⟨BitVec.ofNat 16 (readFault bytes).code, (readFault bytes).sev,
      (readFault bytes).cleared, (readFault bytes).row, (readFault bytes).col, (readFault bytes).sec⟩)) ∧
  (∀ (q : QKnot) (rest : List QKnot) (s : State), s.disc.faultHeld = q :: rest → svRuns s = true → faultSentRecently s < 4 →
    mayFlood s = true →
    exec .faultKnotSend s = .next (sendFaultBody (modDisc (fun d => { d with faultHeld := rest }) s) q.bytes)) ∧
  (∀ (orig : Serial) (t : KnotType) (s : State), Goes (exec (.knotSequenceExpiry orig t) s) (fun u =>
    (∀ e, e ∈ u.disc.seen ↔ e ∈ s.disc.seen ∧ ¬ (e.1 = orig ∧ e.2.1 = t ∧ e.2.2.2 + msT 500 ≤ s.now)) ∧
    u = { s with disc := { s.disc with seen := u.disc.seen } }))

/-- 09 R443, R447 to R452, Table 9.7: an eligible tile that holds no better claim claims; 300 ms later it leads, with its
census, brightness ramp and roll-call afresh; it leads no more once a `k:LEAD` ranks above it; a lead unheard for 500 ms is
lost, with `f:SV_NOLEAD`; results unchanged for 500 ms are settled. Completion: `LEAD`, `LEAD_SEND`, `LEAD_SETTLE`,
`BECOME_ACTING_LEAD`, `LEAD_LOST`, `NO_LEAD_TIMEOUT`, `LEAD_CLAIM_LAPSE` end in the next state said here, under conditions
on the state and the operands alone. -/
def Obligations.LeadIsElected : Prop :=
  (∀ s : State, mayClaim s = true → s.disc.lead = none → mayFlood s = true → s.disc.lastLeadSent = none →
    Goes (exec .leadSend s) (fun t => t.disc.role = .claiming s.now ∧ t.disc.lastLeadSent = some s.now ∧ t.flt = s.flt)) ∧
  (∀ s : State, svRuns s = true → mayFlood s = true → s.disc.role = .acting → s.disc.resign = 0 →
    (∀ t : Ticks, s.disc.lastLeadSent = some t → t + msT 100 ≤ s.now) →
    exec .leadSend s = .next (sendLead s)) ∧
  (∀ (t0 : Ticks) (s : State), s.disc.role = .claiming t0 → svRuns s = true → betterHeard s = false → t0 + msT 300 ≤ s.now →
    Goes (exec .becomeActingLead s) (fun t => t.disc.role = .acting ∧ t.disc.leadHops = some 0 ∧ t.disc.table = [] ∧
      t.disc.lead = none ∧ t.scene.change = none ∧ t.bri.ramp = none ∧ t.bob.rollNext = some (s.now + secT 10))) ∧
  (∀ (t0 : Ticks) (s : State), s.disc.role = .claiming t0 → s.now < t0 + msT 300 → exec .becomeActingLead s = .next s) ∧
  (∀ (d : Dir) (h : Head) (b : LeadBody) (s : State), s.disc.role = .acting → b.resign = false →
    ranksBefore (b.cls, h.orig) (ownRank s) = true → (takeLead d h b s).disc.role = .idle ∧ (takeLead d h b s).scene.change = none) ∧
  (∀ (link : Dir) (run : BlockRun) (bytes : List Byte) (h : Head) (s r u : State), arrive link run s = (r, some bytes) →
    acceptFlood r link .lead bytes = .taken u h →
    exec (.lead link run) s = .next (takeLead link h (readLead bytes) (relayClaim link (readLead bytes) h bytes u))) ∧
  (∀ (v : LeadView) (s : State), s.disc.lead = some v → s.disc.role = .idle → v.heard + msT 500 ≤ s.now →
    Goes (exec .leadLost s) (fun t => t.disc.lead = none ∧ t.disc.leadHops = none ∧ t.disc.parent = none ∧ Stands .svNolead 0 t)) ∧
  (∀ s : State, svRuns s = true → standalone s = false → s.disc.role = .idle → s.disc.lead = none →
    passed s.now s.disc.firstJoin (secT 2) = true → exec .noLeadTimeout s = .next (raise .svNolead 1 s)) ∧
  (∀ (e : CensusEntry) (l : List CensusEntry) (s : State), s.disc.role = .acting → s.disc.results.settled = false →
    s.disc.table = e :: l → s.disc.results.changedAt + msT 500 ≤ s.now →
    Goes (exec .leadSettle s) (fun t => t.disc.results.settled = true ∧ isActive t .svNolead = false ∧
      t.disc.verdict = some (s.disc.results.dups.contains (serialOf s)))) ∧
  (∀ s : State, Goes (exec .leadClaimLapse s) (fun t => t.disc.heardLeads = recentLeads s ∧
    (mayClaim s = true → t.disc.role = .claiming s.now) ∧ t.flt = s.flt))

/-- 09 R416, R419, R420, R422, Tables 9.2 to 9.4: a knot reads back as the header and the body it was built from, at every
value of its fields that the tables give; one with a reserved value is not taken (R13; log 88); 07 Table 7.4: so does a
guard frame. -/
def Obligations.KnotsReadBack : Prop :=
  (∀ (h : Head) (b : PosBody), h.wall < 256 → h.hops < 256 → b.hops < 65536 → -32768 ≤ b.row → b.row < 32768 → -32768 ≤ b.col →
    b.col < 32768 →
    readKnot .pos (encodeKnot .pos false h (posBytes b)) = some h ∧ readPos (encodeKnot .pos false h (posBytes b)) = b) ∧
  (∀ (h : Head) (b : BeatBody), h.wall < 256 → h.hops < 256 → b.servo < 8 → b.refresh < 256 → b.sec < 2 ^ 48 → b.ns < 2 ^ 32 →
    b.frac < 65536 → -(2 ^ 63) ≤ b.delay → b.delay < 2 ^ 63 → -(2 ^ 63) ≤ b.stepNs → b.stepNs < 2 ^ 63 →
    ((b.servo = 0 ∨ b.servo = 1 ∨ b.servo = 2 ∨ b.servo = 4) → listed pinRefresh b.refresh = true →
      readKnot .beat (encodeKnot .beat true h (beatBytes b)) = some h) ∧ readBeat (encodeKnot .beat true h (beatBytes b)) = b) ∧
  (∀ (h : Head) (b : PrepareBody), h.wall < 256 → h.hops < 256 → b.scene < 256 → b.table < 256 → b.ofs < 256 →
    (b.scene ≤ 15 → b.table ≤ 15 → b.ofs ≤ 15 → listed pinLaytab b.table = true → listed pinLayofs b.ofs = true →
      readKnot .prepare (encodeKnot .prepare true h (prepareBytes b)) = some h) ∧
    (15 < b.scene → readKnot .prepare (encodeKnot .prepare true h (prepareBytes b)) = none) ∧
    readPrepare (encodeKnot .prepare true h (prepareBytes b)) = b) ∧
  (∀ (h : Head) (b : CommitBody), h.wall < 256 → h.hops < 256 → b.n < 256 → b.states.length = 9 → (∀ x ∈ b.states, x.1 < 256 ∧ x.2 < 256) →
    (1 ≤ b.n → b.n ≤ 9 → (∀ x ∈ b.states, stateByteOk true x.1 = true ∧ x.2 ≤ 4) →
      readKnot .commit (encodeKnot .commit true h (commitBytes b)) = some h) ∧
    readCommit (encodeKnot .commit true h (commitBytes b)) = b) ∧
  (∀ (h : Head) (b : BrightBody), h.wall < 256 → h.hops < 256 → b.value < 2 ^ 32 →
    readKnot .bright (encodeKnot .bright b.target h (brightBytes b)) = some h ∧
    readBright (encodeKnot .bright b.target h (brightBytes b)) = b) ∧
  (∀ (h : Head) (b : FaultBody), h.wall < 256 → h.hops < 256 → b.code < 65536 → b.sev < 256 → b.row < 65536 → b.col < 65536 →
    (b.sev ≤ 3 → b.code ∈ faultCodes → readKnot .fault (encodeKnot .fault true h (faultBytes b)) = some h) ∧
    readFault (encodeKnot .fault true h (faultBytes b)) = b) ∧
  (∀ (h : Head) (b : CensusBody), h.wall < 256 → h.hops < 256 → -32768 ≤ b.row → b.row < 32768 → -32768 ≤ b.col → b.col < 32768 →
    b.tileW < 65536 → b.tileH < 65536 → b.ports < 256 → b.role < 256 → b.drv < 256 →
    (listed pinRole b.role = true → listed pinDrv b.drv = true →
      readKnot .census (encodeKnot .census false h (censusBytes b)) = some h) ∧
    readCensus (encodeKnot .census false h (censusBytes b)) = b) ∧
  (∀ (src : Mac) (g : Guard), g.hops < 65536 → g.wallId < 256 → g.seq < 65536 → readGuard (guardBytes src g) = some g)

/-! ### Frame memory and the crossbar (12) -/

/-- 12 R576, R578, R579: a write of a whole line by a master its window names stores the 64 bytes with a valid tag, and a
read gives them back without a flag; every byte outside the line reads as before, and no other part of the state changes.
Completion: `MEM_READ`, `MEM_WRITE_WHOLE`, `MEM_WRITE_PARTIAL` end in the next state said here, under conditions on the
state and the operands alone. -/
def Obligations.MemoryReadsBackWhatWasWritten : Prop :=
  (∀ (l : List Host.Cell) (a x : Nat) (b : Byte), Memory.wf l = true →
    Memory.get (Memory.set l a b) x = if x = a then b else Memory.get l x) ∧
  (∀ (m : Master) (offset : Nat) (data : List Byte) (s : State), runs s = true → mayAccess s m = true → memAnswers s m true offset = true → data.length = 64 →
    MemoryCanonical s →
    Goes (exec (.memWriteWhole m offset data) s) (fun t => lineBytes t (lineOf offset) = data ∧ lineBad t (lineOf offset) = none ∧
      (∀ a : Nat, a / 64 ≠ offset / 64 → Memory.get t.mem.bytes a = Memory.get s.mem.bytes a) ∧
      (∀ l : Nat, l ≠ lineOf offset → lineBad t l = lineBad s l) ∧ MemoryCanonical t ∧ t = { s with mem := t.mem })) ∧
  (∀ (m : Master) (offset : Nat) (data : List Byte) (s : State), runs s = true → mayAccess s m = true → memAnswers s m true offset = true →
    offset % 64 + data.length ≤ 64 → lineBad s (lineOf offset) = none → MemoryCanonical s →
    Goes (exec (.memWritePartial m offset data .none) s) (fun t =>
      (∀ i : Nat, i < data.length → Memory.get t.mem.bytes (offset + i) = data.getD i 0) ∧
      (∀ a : Nat, a < offset ∨ offset + data.length ≤ a → Memory.get t.mem.bytes a = Memory.get s.mem.bytes a) ∧
      lineBad t (lineOf offset) = none ∧ t = { s with mem := t.mem })) ∧
  (∀ (m : Master) (offset : Nat) (s : State), runs s = true → mayAccess s m = true → memAnswers s m false offset = true → lineBad s (lineOf offset) = none →
    exec (.memRead m offset .none) s =
      .next { s with mem := { s.mem with lastRead := some (m, offset, lineBytes s (lineOf offset), false) } })

/-- 12 R577, R578, R580, R583: a corrected line reads without a flag and is reported; data that cannot be trusted reads with
its flag, poison as zeros; a partial write never merges into it but poisons the line; the scrubber rewrites a corrected
line, poisons one that cannot be trusted, and goes on to the next. Completion: `MEM_READ`, `MEM_WRITE_PARTIAL`, `SCRUB_LINE`
end in the next state said here, under conditions on the state and the operands alone. -/
def Obligations.UntrustedLinesArePoisoned : Prop :=
  (∀ (m : Master) (offset : Nat) (s : State), runs s = true → mayAccess s m = true → memAnswers s m false offset = true → lineBad s (lineOf offset) = some .poison →
    Goes (exec (.memRead m offset .none) s) (fun t => t.mem.lastRead = some (m, offset, List.replicate 64 0, true) ∧
      t.mem.bytes = s.mem.bytes ∧ t.mem.bad = s.mem.bad)) ∧
  (∀ (m : Master) (offset : Nat) (s : State), runs s = true → mayAccess s m = true → memAnswers s m false offset = true →
    lineBad s (lineOf offset) = some .uncorrectable →
    Goes (exec (.memRead m offset .none) s) (fun t =>
      t.mem.lastRead = some (m, offset, lineBytes s (lineOf offset), true) ∧ t.mem.bytes = s.mem.bytes)) ∧
  (∀ (m : Master) (offset : Nat) (s : State), runs s = true → mayAccess s m = true → memAnswers s m false offset = true →
    lineBad s (lineOf offset) = some .oneSymbol →
    Goes (exec (.memRead m offset .none) s) (fun t =>
      t.mem.lastRead = some (m, offset, lineBytes s (lineOf offset), false) ∧ t.mem.bytes = s.mem.bytes)) ∧
  (∀ (m : Master) (offset : Nat) (data : List Byte) (s : State), runs s = true → mayAccess s m = true → memAnswers s m true offset = true →
    untrusted (lineBad s (lineOf offset)) = true → MemoryCanonical s →
    Goes (exec (.memWritePartial m offset data .none) s) (fun t => lineBad t (lineOf offset) = some .poison ∧
      lineBytes t (lineOf offset) = List.replicate 64 0 ∧ t.mem.lastMergeFail = some (m, offset) ∧
      (∀ a : Nat, a / 64 ≠ offset / 64 → Memory.get t.mem.bytes a = Memory.get s.mem.bytes a))) ∧
  (∀ s : State, runs s = true → domOn s 6 = true → s.mem.ready = true → lineBad s (lineOf s.mem.scrubAt) = none →
    exec (.scrubLine .none) s = .next { s with mem := if s.mem.scrubAt + 64 < 2 ^ 32 then { s.mem with scrubAt := s.mem.scrubAt + 64 }
      else { s.mem with scrubAt := 0, scrubDone := BitVec.ofNat 32 s.time.sec.toNat, scrubPoison := s.mem.runPoison,
                        scrubCorrected := s.mem.runCorrected, runPoison := 0, runCorrected := 0 } }) ∧
  (∀ s : State, runs s = true → domOn s 6 = true → s.mem.ready = true → lineBad s (lineOf s.mem.scrubAt) = none →
    MemoryCanonical s → Goes (exec (.scrubLine .uncorrectable) s) (fun t => lineBad t (lineOf s.mem.scrubAt) = some .poison ∧
      lineBytes t (lineOf s.mem.scrubAt) = List.replicate 64 0))

/-- 12 R588, R590 to R595, R614, R620, Tables 12.3 and 12.5: a request is split at every 256 bytes; a piece that is answered
at once leaves nothing pending, one for an address without a target stays pending; the hang of a master clears its pieces
and raises `f:XB_HANG`, the third in 10 min `f:FM_DOUBLE`, and that of master 16 `f:SEQ_WATCHDOG`. Completion:
`XB_TRANSACTION`, `XB_HANG` end in the next state said here, under conditions on the state and the operands alone. -/
def Obligations.CrossbarAnswersOrHangs : Prop :=
  (∀ (m : Master) (write : Bool) (address length : Nat) (s : State), runs s = true → mayAccess s m = true →
    exec (.xbTransaction m write address length) s =
      .next ((splitPieces 17 address length).foldl (fun st p => issuePiece m write p.1 p.2 st) s)) ∧
  (∀ (a len : Nat), 0 < len → len ≤ 4096 →
    ((splitPieces 17 a len).map Prod.snd).sum = len ∧
    (∀ p ∈ splitPieces 17 a len, p.1 / 256 = (p.1 + p.2 - 1) / 256 ∧ 0 < p.2 ∧ a ≤ p.1 ∧ p.1 + p.2 ≤ a + len)) ∧
  (∀ (m : Master) (write pooled : Bool) (a len : Nat) (s : State), mayIssue s m = some pooled → answers s (targetOf s m write a) = true →
    targetBusy s (targetOf s m write a) = false → (issuePiece m write a len s).xb.pend = s.xb.pend) ∧
  (∀ (m : Master) (write pooled : Bool) (a len : Nat) (s : State), mayIssue s m = some pooled → targetOf s m write a = .unmapped →
    ∃ p : Piece, (issuePiece m write a len s).xb.pend = s.xb.pend ++ [p] ∧ p.master = m ∧ p.address = a ∧ p.target = .unmapped ∧
      p.issued = s.clk.count) ∧
  (∀ (m : Master) (p : Piece) (s : State), oldestPiece s m = some p → runs s = true → p.issued + hangClocks ≤ s.clk.count → m.val = 16 →
    Goes (exec (.xbHang m) s) (fun t => ∃ u : State, t = raise .seqWatchdog 0 u ∧ u.flt = s.flt ∧
      (∀ q ∈ u.xb.pend, q.master ≠ m) ∧ u.xb.lastHang = some (m, p.address, qosOf m))) ∧
  (∀ (m : Master) (p : Piece) (s : State), oldestPiece s m = some p → runs s = true → p.issued + hangClocks ≤ s.clk.count → m.val ≠ 16 →
    s.flt.hangs = [] →
    Goes (exec (.xbHang m) s) (fun t => Stands .xbHang (BitVec.ofNat 32 m.val) t ∧ (∀ q ∈ t.xb.pend, q.master ≠ m) ∧
      t.xb.lastHang = some (m, p.address, qosOf m) ∧ t.flt.hangs = [(m, s.now)])) ∧
  (∀ (m : Master) (s : State), m.val ≠ 23 → mayAccess s m = true)

/-- 12 R576: frame memory stands in its canonical form in every state a step gives, if it did before. -/
def Obligations.StepKeepsMemoryCanonical : Prop :=
  ∀ s t : State, MemoryCanonical s → step s = .next t → MemoryCanonical t

/-! ### Scenes and brightness (10 to 13) -/

/-- 10 R484 to R490, R495: a change starts at a beat with the next count, never 0, and asks every awaited tile; `k:PREPARE`
repeats every 250 ms until the decision; a tile that takes scenes prepares a new identifier and answers once its preparation
has ended, or after 1.0 s; the lead keeps the latest answer of each tile. Completion: `SCENE_CHANGE_START`,
`PREPARE_REPEAT`, `PREPARE`, `READY_SEND`, `READY` end in the next state said here, under conditions on the state and the
operands alone. -/
def Obligations.ScenesArePreparedAndAnswered : Prop :=
  (∀ s : State, mayStart s = true →
    Goes (exec .sceneChangeStart s) (fun t => t.scene.counter = nextCount s.scene.counter ∧ t.scene.wanted = false ∧
      t.scene.readmit = false ∧ ∃ c, t.scene.change = some c ∧ c.ident = changeIdent s (nextCount s.scene.counter) ∧
        c.key = keyToPrepare s ∧ c.p0 = s.now ∧ c.awaited = awaitedTiles s ∧ c.readies = [] ∧ c.decided = none)) ∧
  (∀ s : State, mayStart s = false → exec .sceneChangeStart s = .next s) ∧
  (∀ c : BitVec 16, nextCount c ≠ 0) ∧
  (∀ (c : Change) (s : State), s.scene.change = some c → runs s = true → c.decided = none → c.nextRepeat ≤ s.now →
    exec .prepareRepeat s = .next (floodPrepare c
      (modScene (fun x => { x with change := some { c with nextRepeat := s.now + msT 250 } }) s))) ∧
  (∀ (link : Dir) (run : BlockRun) (bytes : List Byte) (h : Head) (s r u : State), arrive link run s = (r, some bytes) →
    receiveFlood r link .prepare bytes = .taken u h →
    actingLead u = false → fromLead u h = true → exec (.prepare link run) s = .next (takePrepare h (readPrepare bytes) u)) ∧
  (∀ (h : Head) (b : PrepareBody) (s : State), takesScenes s = true → s.scene.prepared = none → s.scene.committed = none →
    ∃ p, (takePrepare h b s).scene.prepared = some p ∧ p.ident = b.ident ∧ p.key = keyOfPrepare b ∧ p.lead = h.orig ∧
      p.deadline = b.deadline ∧ p.first = s.now ∧ p.commit = none ∧ p.answered = false) ∧
  (∀ (p : Prepared) (s : State), s.scene.prepared = some p → runs s = true → p.answered = false → p.echo = false → p.commit = none →
    (p.first + secT 1 ≤ s.now ∨ preparationEnds s p = true) →
    exec .readySend s = .next (sendReady p.ident (countOf p.key) p.own (modAdm (fun z => { z with lastReady := p.own })
      (modScene (fun x => { x with prepared := some { p with answered := true } }) s)))) ∧
  (∀ (link : Dir) (run : BlockRun) (bytes : List Byte) (h : Head) (s r u : State), arrive link run s = (r, some bytes) →
    receiveLocal r link .ready bytes = .taken u h →
    actingLead u = true → exec (.ready link run) s = .next (takeReady h.orig (readReady bytes).ident
      (pairStates (readReady bytes).n (readReady bytes).states) u)) ∧
  (∀ (o : Serial) (l : List (WState × Reason)) (c : Change) (s : State), s.scene.change = some c → c.decided = none →
    ∃ d, (takeReady o c.ident l s).scene.change = some d ∧ d.readies = (o, l) :: c.readies.filter (fun e => e.1 != o))

/-- 10 R489 to R493, R512, Table 10.5, 11 R555, 12 R584, R604 to R608: the decision falls when every awaited tile has
answered or after 1.5 s, merges the reports, and sets the commit beat; `k:COMMIT` is sent 3 times in all, and echoed each
second; a tile acts once per identifier; a scene without its commit by the deadline beat is abandoned with `f:SV_NOLEAD`. At
its commit beat a prepared scene is committed, its windows come from the other pool, and the agreed states are those of the
commit; an echoed one is planned for the first beat after its preparation, and applied at that beat; a state that has
differed for 2 s is reported unasked; a window without a complete frame for 1 s falls back with `f:FP_NOSTREAM`. Completion:
`SCENE_DECISION`, `COMMIT_REPEAT`, `COMMIT`, `COMMIT_ECHO`, `ECHO_PREPARED_COMMIT`, `COMMIT_DEADLINE_MISS`,
`UNSOLICITED_READY`, `STREAM_LOSS_TIMEOUT` end in the next state said here, under conditions on the state and the operands
alone. -/
def Obligations.ScenesAreDecidedAndCommitted : Prop :=
  (∀ (c : Change) (s : State), s.scene.change = some c → leads s = true → decisionDue s c = true →
    exec .sceneDecision s = .next (takeCommit (serialOf s) c.ident (commitBeatOf s) (agreedOf c)
      (floodCommit c.ident (commitBeatOf s) (agreedOf c) (modScene (fun x => { x with
        change := some { c with decided := some (s.now, commitBeatOf s, 0), agreed := agreedOf c }
        latest := some (c.ident, commitBeatOf s, agreedOf c) }) s)))) ∧
  (∀ (c : Change) (s : State), decisionDue s c = true ↔ c.decided = none ∧
    (c.p0 + msT 1500 ≤ s.now ∨ ∀ o ∈ c.awaited, ∃ r ∈ c.readies, r.1 = o)) ∧
  (∀ (c : Change) (d : Ticks) (beat : BitVec 32) (n : Nat) (s : State), s.scene.change = some c → c.decided = some (d, beat, n) →
    leads s = true → n < 2 → d + msT (20 * (n + 1)) ≤ s.now →
    exec .commitRepeat s = .next (floodCommit c.ident beat c.agreed
      (modScene (fun x => { x with change := some { c with decided := some (d, beat, n + 1) } }) s))) ∧
  (∀ (link : Dir) (run : BlockRun) (bytes : List Byte) (h : Head) (s r u : State), arrive link run s = (r, some bytes) →
    receiveFlood r link .commit bytes = .taken u h →
    actingLead u = false → fromLead u h = true → exec (.commit link run) s = .next (takeCommit h.orig (readCommit bytes).ident
      (readCommit bytes).beat (pairStates (readCommit bytes).n (readCommit bytes).states) u)) ∧
  (∀ (lead : Serial) (ident beat : BitVec 32) (l : List (WState × Reason)) (c : Committed) (s : State), s.scene.committed = some c →
    c.ident = ident → takeCommit lead ident beat l s = s) ∧
  (∀ (i b : BitVec 32) (l : List (WState × Reason)) (s : State), leads s = true → s.scene.change = none →
    (∀ t : Ticks, s.scene.echoAt = some t → t ≤ s.now) →
    s.scene.latest = some (i, b, l) →
    exec .commitEcho s = .next (floodCommit i b l (modScene (fun x => { x with echoAt := some (s.now + secT 1) }) s))) ∧
  (∀ (p : Prepared) (s : State), s.scene.prepared = some p → runs s = true → p.commit = none → p.echo = false →
    beatPast p.deadline (beatNow s) = true → exec .commitDeadlineMiss s = .next (raise .svNolead 2 (abandon s))) ∧
  (∀ (k : Nat) (p : Prepared) (beat : BitVec 32) (l : List (WState × Reason)) (s : State),
    let t := applyCommit k p beat l s
    t.scene.committed = some ⟨p.ident, p.key, l, beat, s.now⟩ ∧ t.scene.prepared = none ∧ t.mem.deckleB = !s.mem.deckleB ∧
    t.mem.bytes = s.mem.bytes ∧ t.scene.win.length = 9 ∧ t.otp = s.otp) ∧
  (∀ (k : Nat) (p : Prepared) (beat : BitVec 32) (l : List (WState × Reason)) (s : State), s.scene.prepared = some p →
    p.commit = some (beat, l) → p.echo = false →
    commitAtBeat k s = if beatPast beat k then applyCommit k p beat l s else s) ∧
  (∀ (p : Prepared) (beat : BitVec 32) (l : List (WState × Reason)) (s : State), s.scene.prepared = some p → p.commit = some (beat, l) →
    runs s = true → p.echo = true → p.due = none → preparationEnds s p = true →
    exec .echoPreparedCommit s = .next (planRoute p.key (beatF s s.time.nextBeat)
      (modScene (fun x => { x with prepared := some { p with due := some (beatNo s.time.nextBeat) } }) s))) ∧
  (∀ (k : Nat) (p : Prepared) (d beat : BitVec 32) (l : List (WState × Reason)) (s : State), s.scene.prepared = some p →
    p.commit = some (beat, l) → p.echo = true → p.due = some d →
    commitAtBeat k s = if beatPast d k then applyCommit k p beat l s else s) ∧
  (∀ (c : Committed) (s : State), s.scene.committed = some c → runs s = true → passed s.now s.adm.diffSince (secT 2) = true →
    sameStates (reportOf s) s.adm.lastReady = false →
    exec .unsolicitedReady s = .next (sendReady c.ident (countOf c.key) (reportOf s)
      (modAdm (fun z => { z with lastReady := reportOf s, diffSince := none }) s))) ∧
  (∀ (w : Fin 9) (c : Committed) (x : Win) (n : Nat) (s : State), s.scene.committed = some c → runs s = true →
    s.scene.win[w.val]? = some x → x.touches = true → x.slot = some n → x.noStream = false → x.lastComplete = none →
    (c.agreed.getD w.val (.served, .none)).1 ≠ .refused → c.at_ + secT 1 ≤ s.now →
    Goes (exec (.streamLossTimeout w) s) (fun t => Stands .fpNostream (BitVec.ofNat 32 w.val) t ∧
      t.scene.win[w.val]? = some { x with noStream := true, completeSince := none, showing := .fallback, out := none, held := false }))

/-- 13 R662 to R667, 14 R696, 04 R158: a conversion is taken every 100 ms; a kept one may change the range, after which 4
are discarded; every second a tile reports, and a lead moves its target towards the goal by at most a factor 2^(1/16) and
names its beat; a TARGET takes effect at its beat. Completion: `NIGHT_STANDBY_DECISION`, `AMBIENT_CONVERT`,
`AMBIENT_REPORT`, `BRIGHT_TARGET_COMPUTE`, `BRIGHT` end in the next state said here, under conditions on the state and the
operands alone. -/
def Obligations.BrightnessIsAgreed : Prop :=
  (∀ (pa : Nat) (s : State), runs s = true → s.amb.sensor = true → dueBy s.now s.amb.convertNext = true → 0 < s.amb.discard →
    exec (.ambientConvert pa) s = .next { s with amb := { s.amb with
      discard := s.amb.discard - 1, convertNext := some (s.now + msT 100) } }) ∧
  (∀ (pa : Nat) (s : State), runs s = true → s.amb.sensor = true → dueBy s.now s.amb.convertNext = true → s.amb.discard = 0 →
    Goes (exec (.ambientConvert pa) s) (fun t => t = { s with amb := t.amb } ∧
      t.amb.convertNext = some (s.now + msT 100) ∧ t.amb.last.head? = some (16 * min pa (fullScale s.amb.range) / 1000) ∧ t.amb.last.length ≤ 10 ∧
      t.amb.range = nextRange s.amb.range (min pa (fullScale s.amb.range)) ∧
      t.amb.discard = if t.amb.range = s.amb.range then 0 else 4)) ∧
  (∀ s : State, runs s = true → dueBy s.now s.amb.reportNext = true →
    exec .ambientReport s =
      let u := modAmb (fun a => { a with reportNext := some (s.now + secT 1) }) s
      .next (if actingLead s = true ∨ standalone s = true ∨ anyJoined s = false then takeReport (serialOf s) (reportValue s) u
        else originUp u .bright (brightBytes ⟨false, false, reportValue s, beatNo (beatNow s)⟩))) ∧
  (∀ s : State, runs s = true → s.mark.on = true → dueBy s.now s.bri.nextCompute = true → governs s = true →
    exec .brightTargetCompute s = .next (moveTarget (modBri (fun b => { b with nextCompute := some (s.now + secT 1) }) s))) ∧
  (∀ (link : Dir) (run : BlockRun) (bytes : List Byte) (h : Head) (s r u : State), arrive link run s = (r, some bytes) →
    byteAt bytes 20 = 1 →
    receiveFlood r link .bright bytes = .taken u h → actingLead u = false → standalone u = false → fromLead u h = true →
    exec (.bright link run) s = .next (takeTarget (readBright bytes) u)) ∧
  (∀ (link : Dir) (run : BlockRun) (bytes : List Byte) (h : Head) (s r u : State), arrive link run s = (r, some bytes) →
    byteAt bytes 20 ≠ 1 →
    receiveLocal r link .bright bytes = .taken u h → actingLead u = true →
    exec (.bright link run) s = .next (takeReport h.orig (readBright bytes).value u)) ∧
  (∀ (k v : Nat) (s : State), s.bri.due = [(beatNo k, v)] → (targetsAtBeat k s).bri.agreed = some v ∧ (targetsAtBeat k s).bri.due = []) ∧
  (∀ s : State, runs s = true → governs s = true → s.time.beat.isSome = true → nightQuiet s = true →
    passed s.now s.standby.nightSince (secT 900) = true →
    exec .nightStandbyDecision s = .next (standbyTrigger .night (.beat (beatNo (beatAhead s 1000000000)))
      (sendTarget true (beatAhead s 1000000000) (unitsOf (targetNow s))
        (modStandby (fun z => { z with
          nightSince := some s.now, nightWoke := some (wakeOf s (beatAhead s 1000000000)) }) s))).1)

/-- 02 R57, R71, R79, R81, R83, Table 2.11, 13 R672, R678, Table 13.3, 19 R902, R911, 06 Table 6.3: from EXTEST on the
boundary-scan cells drive every pin of the chain and the lanes of its AC cells, but in reset and standby; without AON, in
reset and in standby a pin is at its reset state, but for the pins that work in standby; while AON holds the outputs the
weft pins are at their reset state, and safe state otherwise holds `WGg_GCLK` and `WGg_ROWEN_N` high; a tripped port is
high-impedance; `BLANK_N` holds `WGg_ROWEN_N` high; after the gap of a pick its row is addressed and supplied and its `GCLK`
runs for the light of its groups; `FAULT_N` is low for an active fault of S2 or S3; `STATE` shows 5 in standby and 6 in safe
state, with `READY` low. (The level of a weft pin whose domain is off in safe state is the model's reading: log 68.) -/
def Obligations.OutputPinsFollowTheState : Prop :=
  (∀ (p : OutPin) (s : State), scanned s = true → crystalPin p = false → (outOnChain p = true ∨ outAcScan p = true) → pinDrive s p = .scan) ∧
  (∀ (p : OutPin) (s : State), crystalPin p = false → s.pwr.aonOn = false ∨ s.boot.inReset = true →
    pinDrive s p = resetDrive s.pwr.aonOn p) ∧
  (∀ (p : OutPin) (s : State), crystalPin p = false → s.pwr.aonOn = true → s.standby.asleep = true → standbyPin p = false →
    pinDrive s p = resetDrive true p) ∧
  (∀ (g : Fin 8) (s : State), pinsTaken s = true → bankUsable s .weft = true → aonHoldsPins s = false → safeState s = true →
    (domOn s (groupDom g.val) = true ∨ restartSafe s = true) →
    (s.weft.group.getD g.val {}).hiZ = false → pinDrive s (.wgGclk g) = .high ∧ pinDrive s (.wgRowenN g) = .high) ∧
  (∀ (p : OutPin) (s : State), scanned s = false → weftPin p = true → aonHoldsPins s = true → pinDrive s p = resetDrive s.pwr.aonOn p) ∧
  (∀ (p : Fin 64) (s : State), scanned s = false → portHiZ s p.val = true →
    pinDrive s (.wpClk p) = .hiZ ∧ pinDrive s (.wpSdo p) = .hiZ) ∧
  (∀ (g : Fin 8) (s : State), pinsTaken s = true → bankUsable s .weft = true → s.clk.running = true → domOn s (groupDom g.val) = true →
    s.live.blanked = true →
    (s.weft.group.getD g.val {}).hiZ = false → pinDrive s (.wgRowenN g) = .high) ∧
  (∀ (g : Fin 8) (r j : Nat) (q : Ticks) (x : Nat) (t : WTiming) (s : State), pinsTaken s = true → bankUsable s .weft = true →
    s.clk.running = true → domOn s (groupDom g.val) = true → groupCensus s g.val = false → groupBlanked s g.val = false → rowsOff s = false →
    (s.weft.group.getD g.val {}).hiZ = false → s.weft.pick = some (r, j, q) → s.weft.timing = some t → 1 ≤ t.g →
    q + nsT (500 * t.g) ≤ s.now → s.weft.activeAt = some x →
    pinDrive s (.wgRowenN g) = .low ∧
    (isClassS s = true → pinDrive s (.wgGclk g) = .carries) ∧
    (isClassS s = false → x + lightClocks s g.val ≤ s.clk.count → pinDrive s (.wgGclk g) = .high) ∧
    (isClassS s = false → s.clk.count < x + lightClocks s g.val →
      pinDrive s (.wgGclk g) = level (gclkLevel t.d (s.clk.count - x))) ∧
    (∀ i : Fin 5, pinDrive s (.wgA g i) = level (decide (i.val < rowLines s) && bitAt j i.val))) ∧
  (∀ (a : Active) (s : State), scanned s = false → s.pwr.aonOn = true → s.boot.inReset = false →
    bankUsable s .misc = true → a ∈ s.flt.active → 2 ≤ (sevOf a.f).val → pinDrive s .faultN = .low) ∧
  (∀ s : State, s.pwr.aonOn = true → s.boot.inReset = false → s.boot.shadowRead = true →
    bankUsable s .misc = true → s.standby.asleep = true →
    pinDrive s (.statePin 2) = .high ∧ pinDrive s (.statePin 1) = .low ∧ pinDrive s (.statePin 0) = .high ∧
    pinDrive s .ready = .low ∧ pinDrive s .synced = .low) ∧
  (∀ s : State, pinsTaken s = true → s.boot.shadowRead = true → bankUsable s .misc = true → safeState s = true →
    pinDrive s (.statePin 2) = .high ∧ pinDrive s (.statePin 1) = .high ∧ pinDrive s (.statePin 0) = .low ∧
    pinDrive s .ready = .low ∧ pinDrive s .faultN = .low)

/-! ### The weft, the ledger and the markers (13, 14, 19) -/

/-- 13 R630, R634, R660, R661, R678, R680, 19 R914, R920, R926: the census of every port ends with its results placed, the
figures due again in 15 min and the census recorded; a pin trips at 16 edges on which the sampled level differs within
1,024; a pin that trips alone is short, pins that trip on the same edges are in contention, and the pins go high-impedance
until a re-test passes, after 60 s or 10 s; 16 echoes in a row that mismatch raise `f:WEFT_SDO`. Completion:
`WEFT_CENSUS_COMPLETE`, `WEFT_PIN_TRIP`, `WEFT_SDO_MISMATCH`, `WEFT_RETEST`, `WEAR_UPDATE`, `WEAR_FLUSH` end in the next
state said here, under conditions on the state and the operands alone. -/
def Obligations.WeftPortsAreGuarded : Prop :=
  (∀ (l : List CensusPort) (s : State), censusReady s = true →
    Goes (exec (.weftCensusComplete l) s) (fun t => t.boot.censusDone = true ∧ t.weft.recensus = [] ∧
      (s.boot.censusDone = false → t.weft.wearNext = some (s.now + secT 900) ∧ t.weft.flushNext = some (s.now + secT 900)) ∧
      t.otp = s.otp ∧ t.mem.bytes = s.mem.bytes)) ∧
  (∀ l : List CensusPort, ∀ s : State, censusReady s = false → exec (.weftCensusComplete l) s = .next s) ∧
  (∀ (pin : WeftPin) (edges : List Nat) (others : List PinEdges) (s : State), pinDriven s pin = true → trips edges = true →
    (contending s edges others = [] → exec (.weftPinTrip pin edges others) s =
      .next (raise .weftShort (pinDetail pin) (setTrip pin (some (.short, s.now)) s))) ∧
    (contending s edges others ≠ [] → exec (.weftPinTrip pin edges others) s =
      .next (raise .weftContention (pinDetail pin)
        ((pin :: contending s edges others).foldl (fun u q => setTrip q (some (.contention, u.now)) u) s)))) ∧
  (∀ (pin : WeftPin) (edges : List Nat) (others : List PinEdges) (s : State), pinDriven s pin = true → trips edges = false →
    exec (.weftPinTrip pin edges others) s = .next s) ∧
  (∀ edges : List Nat, trips edges = true ↔
    ∃ e ∈ edges, 16 ≤ (edges.eraseDups.filter (fun x => decide (e ≤ x ∧ x < e + 1024))).length) ∧
  (∀ (port : Fin 64) (echo : List EchoWord) (w : WPort) (s : State), runs s = true → s.weft.port[port.val]? = some w →
    w.inCanvas = true → w.sdo = none → portLive s port.val = true →
    (echo.foldl echoStep w.echoRun < 16 → Goes (exec (.weftSdoMismatch port echo) s) (fun t =>
      t.weft.port[port.val]? = some { w with echoRun := echo.foldl echoStep w.echoRun } ∧ t = { s with weft := t.weft })) ∧
    (16 ≤ echo.foldl echoStep w.echoRun → Goes (exec (.weftSdoMismatch port echo) s) (fun t =>
      (t.weft.port[port.val]?).map WPort.sdo = some (some s.now) ∧ Stands .weftSdo (BitVec.ofNat 32 port.val) t))) ∧
  (∀ (e : EchoWord) (n : Nat), n < 16 → (e.sent = e.back → echoStep n e = 0) ∧ (e.sent ≠ e.back → echoStep n e = n + 1)) ∧
  (∀ (pin : WeftPin) (at_ : Ticks) (pass : Bool) (s : State), runs s = true → bankUsable s .weft = true →
    (pinDom pin).all (domOn s) = true → pinTripped s pin = some (.short, at_) →
    (s.now < at_ + secT 60 → exec (.weftRetest pin pass) s = .next s) ∧
    (at_ + secT 60 ≤ s.now → pass = false → exec (.weftRetest pin pass) s = .next (setTrip pin (some (.short, s.now)) s)) ∧
    (at_ + secT 60 ≤ s.now → pass = true → Goes (exec (.weftRetest pin pass) s) (fun t => pinTripped t pin = none ∧
      ¬ Stands .weftShort (pinDetail pin) t))) ∧
  (∀ s : State, runs s = true → s.boot.censusDone = true → dueBy s.now s.weft.wearNext = true →
    exec .wearUpdate s = .next (updateWear { s with weft := { s.weft with wearNext := some (s.now + secT 900) } })) ∧
  (∀ s : State, runs s = true → s.boot.censusDone = true → dueBy s.now s.weft.flushNext = true →
    exec .wearFlush s = .next (startFlush { s with weft := { s.weft with flushNext := some (s.now + secT 900) } }))

/-- 19 R914, R920, R926: an operation of the ledger that ends well leaves its result and lets the next start; one that fails
is tried again once, and after a second failure in a row its region is written no more and `f:LDG_ACCESS` is raised; a
mirrored entry joins the fault log, of at most 16,384 records, under the next number. Completion: `LEDGER_PROGRAM_DONE` ends
in the next state said here, under conditions on the state and the operands alone. -/
def Obligations.LedgerProgramsCompleteOrStop : Prop :=
  (∀ (op : LedgerOp) (s : State), s.ldg.busy = some op → bankUsable s .misc = true → op ≠ .retag →
    exec (.ledgerProgramDone true) s = .next (ledgerFreed (nextLedger (finishLedger op s)))) ∧
  (∀ (op : LedgerOp) (s : State), s.ldg.busy = some op → bankUsable s .misc = true → s.ldg.fails = [] →
    exec (.ledgerProgramDone false) s = .next { s with ldg := { s.ldg with fails := [(op, 1)] } }) ∧
  (∀ (op : LedgerOp) (n : Nat) (s : State), s.ldg.busy = some op → bankUsable s .misc = true → s.ldg.fails = [(op, n)] → s.keys.seq = none →
    Goes (exec (.ledgerProgramDone false) s) (fun t => op ∈ t.ldg.stopped ∧ mayWrite t op = false ∧ Stands .ldgAccess 2 t)) ∧
  (∀ (e : RingEntry) (s : State), s.flt.ring = [e] → e.mirrored = false → s.ldg.mirroring = 1 → s.ldg.log.length < 16384 →
    (finishMirror s).ldg.log = s.ldg.log ++ [⟨{ e with mirrored := true }, s.ldg.nextSeq, s.ldg.logKey⟩] ∧
    (finishMirror s).ldg.nextSeq = s.ldg.nextSeq + 1 ∧ (finishMirror s).flt.ring = [{ e with mirrored := true }]) ∧
  (∀ s : State, s.ldg.log.length ≤ 16384 → (finishMirror s).ldg.log.length ≤ 16384) ∧
  (∀ (c : WearCopy) (s : State), s.ldg.copy = some c → 0 < s.ldg.copyCount →
    (finishFlush s).ldg.copies.head? = some c ∧ (finishFlush s).ldg.copies.length ≤ s.ldg.copyCount ∧ (finishFlush s).ldg.copy = none)

/-- 14 R682, R685, R695 to R703, R714, R715, R717, R718: at every whole millisecond each channel takes the setting of its
pattern, once; with VLED out of range for 10 ms every channel is off until VLED has been back for 100 ms. A regulated
channel under re-test counts its passes, every 10 s, and starts again at a failure; a latched channel is retried every
second and stays off after its 8th retry; 10 min without a supply short clear the count; a channel above 0.5 W for 100 ms is
halved. Completion: `MARKER_UPDATE`, `MARKER_RETEST`, `SUPPLY_SHORT_RETRY`, `RETRY_COUNT_CLEAR`, `MARKER_THERMAL_REDUCE`,
`VLED_OUT_OF_RANGE`, `VLED_RESTORE` end in the next state said here, under conditions on the state and the operands alone.
-/
def Obligations.MarkersAreSetAndGuarded : Prop :=
  (∀ (meas : List MarkMeas) (vled : Nat) (s : State), runs s = true → domOn s 11 = true → s.time.running = true → markDue s = true →
    s.mark.on = false →
    Goes (exec (.markerUpdate meas vled) s) (fun t => t.mark.nextMs = some (wallNs s / 1000000 + 1) ∧ markDue t = false ∧
      (∀ c ∈ t.mark.chan, c.q = 0) ∧ t = { s with mark := t.mark })) ∧
  (∀ (meas : List MarkMeas) (vled : Nat) (s : State), markDue s = false → exec (.markerUpdate meas vled) s = .next s) ∧
  (∀ (meas : List MarkMeas) (vled : Nat) (s : State), runs s = true → domOn s 11 = true → s.time.running = true → markDue s = true →
    Goes (exec (.markerUpdate meas vled) s) (fun t => t.mark.nextMs = some (wallNs s / 1000000 + 1) ∧
      ∃ u : State, t = setAllQ u ∧ u.time = s.time)) ∧
  (∀ (ch : Nat) (s : State), ch < s.mark.chan.length →
    (chanAt (setAllQ s) ch).q = settingAt s (wallNs s / 1000000 * 1000000) ch) ∧
  (∀ (t nn : Nat) (s : State), groupOfChan s nn = none ∨ marksDark s = true ∨ (chanAt s nn).dead = true ∨ (chanAt s nn).latched = true →
    settingAt s t nn = 0) ∧
  (∀ (vled : Nat) (t0 : Ticks) (s : State), runs s = true → domOn s 11 = true → mkGroups s ≠ 0 → s.mark.vledOut = false →
    (vled < 2800 ∨ 17500 < vled) → s.mark.vledBadSince = some t0 → t0 + msT 10 ≤ s.now →
    Goes (exec (.vledOutOfRange vled) s) (fun t => t.mark.vledOut = true ∧ (∀ c ∈ t.mark.chan, c.q = 0) ∧
      Stands .pwrVled (BitVec.ofNat 32 (vled / 100)) t)) ∧
  (∀ (vled : Nat) (t0 : Ticks) (s : State), runs s = true → domOn s 11 = true → s.mark.vledOut = true → 3000 ≤ vled → vled ≤ 17000 →
    s.mark.vledGoodSince = some t0 → t0 + msT 100 ≤ s.now →
    Goes (exec (.vledRestore vled) s) (fun t => t.mark.vledOut = false ∧ ¬ Stands .pwrVled 0 t)) ∧
  (∀ (ch : Fin 48) (first second : MarkMeas) (vled g : Nat) (s : State), groupOfChan s ch.val = some g → marksRun s = true →
    regulated s g = true → ((chanAt s ch.val).openF = true ∨ (chanAt s ch.val).shortF = true) → (chanAt s ch.val).latched = false →
    dueBy s.now (chanAt s ch.val).nextRetest = true →
    (checkPasses (modChan ch.val (fun x => { x with retestMs := some (wallNs s / 1000000) }) s) g ch.val vled first = false ∨
     checkPasses (modChan ch.val (fun x => { x with retestMs := some (wallNs s / 1000000) }) s) g ch.val vled second = false) →
    exec (.markerRetest ch first second vled) s = .next (modChan ch.val (fun x => { x with
      retestMs := some (wallNs s / 1000000), passes := 0, nextRetest := some (s.now + secT 10) }) s)) ∧
  (∀ (ch : Fin 48) (first second : MarkMeas) (vled g : Nat) (s : State), groupOfChan s ch.val = some g → marksRun s = true →
    regulated s g = true → ((chanAt s ch.val).openF = true ∨ (chanAt s ch.val).shortF = true) → (chanAt s ch.val).latched = false →
    dueBy s.now (chanAt s ch.val).nextRetest = true →
    checkPasses (modChan ch.val (fun x => { x with retestMs := some (wallNs s / 1000000) }) s) g ch.val vled first = true →
    checkPasses (modChan ch.val (fun x => { x with retestMs := some (wallNs s / 1000000) }) s) g ch.val vled second = true →
    ch.val < s.mark.chan.length →
    Goes (exec (.markerRetest ch first second vled) s) (fun t => (chanAt t ch.val).passes = (chanAt s ch.val).passes + 1 ∧
      (chanAt t ch.val).nextRetest = some (s.now + secT 10) ∧ ¬ Stands .mkOpen (BitVec.ofNat 32 ch.val) t)) ∧
  (∀ (ch : Fin 48) (meas : List MarkMeas) (vled g : Nat) (s : State), groupOfChan s ch.val = some g → marksRun s = true →
    (chanAt s ch.val).latched = true → (chanAt s ch.val).dead = false → dueBy s.now (chanAt s ch.val).nextRetry = true →
    meas.any (supplyCond vled) = true → ch.val < s.mark.chan.length →
    Goes (exec (.supplyShortRetry ch meas vled) s) (fun t =>
      (chanAt t ch.val).retries = min 15 ((chanAt s ch.val).retries + 1) ∧
      ((chanAt t ch.val).dead = true ↔ 7 ≤ (chanAt s ch.val).retries) ∧ (chanAt t ch.val).latched = true)) ∧
  (∀ (ch : Fin 48) (meas : List MarkMeas) (vled g : Nat) (s : State), groupOfChan s ch.val = some g → marksRun s = true →
    (chanAt s ch.val).latched = true → (chanAt s ch.val).dead = false → dueBy s.now (chanAt s ch.val).nextRetry = true →
    meas.any (supplyCond vled) = false → exec (.supplyShortRetry ch meas vled) s = .next (retryPass ch.val g s)) ∧
  (∀ (ch : Fin 48) (s : State), runs s = true → (chanAt s ch.val).dead = false →
    passed s.now (chanAt s ch.val).lastSupply (secT 600) = true →
    exec (.retryCountClear ch) s = .next (modChan ch.val (fun x => { x with retries := 0, lastSupply := none }) s)) ∧
  (∀ (c : Fin 48) (p : Nat) (t0 : Ticks) (s : State), runs s = true → domOn s 11 = true → c.val < s.mark.chan.length →
    (chanAt s c.val).halved = false → 500000 < p → (chanAt s c.val).overSince = some t0 → t0 + msT 100 ≤ s.now →
    Goes (exec (.markerThermalReduce (.channel c p)) s) (fun t => (chanAt t c.val).halved = true ∧
      Stands .mkThermal (BitVec.ofNat 32 c.val) t)) ∧
  (∀ (c : Fin 48) (p : Nat) (s : State), runs s = true → domOn s 11 = true → c.val < s.mark.chan.length →
    (chanAt s c.val).halved = false → p ≤ 500000 →
    Goes (exec (.markerThermalReduce (.channel c p)) s) (fun t => (chanAt t c.val).halved = false ∧ t = { s with mark := t.mark })) ∧
  (∀ (p : Nat) (s : State), runs s = true → domOn s 11 = true →
    exec (.markerThermalReduce (.total p)) s = .next (reduceTotal (trackTotal p s)))

/-! ### Sound, the card and the Bobbin (15, 16, 18) -/

/-- 15 R723, R728, R743, R744, R749, Table 15.3: a sample is fetched 2 ms before its frame edge; a sender silent for 100 ms
is no longer locked; 8,192 samples without a preamble end non-audio; a pending level applies at a zero crossing or after 20
ms; a flow without an SDP for 10 s reports `f:AUD_NOSOURCE`. Completion: `NON_AUDIO_END`, `AUDIO_FETCH`,
`AUDIO_SENDER_TIMEOUT`, `LEVEL_CHANGE_APPLY`, `AUD_NOSOURCE_TIMEOUT` end in the next state said here, under conditions on
the state and the operands alone. -/
def Obligations.AudioFollowsItsSources : Prop :=
  (∀ (flow : Fin 4) (f : AFlow) (x : Sender) (s : State), s.aud.flows[flow.val]? = some f → f.sender = some x →
    x.heard + msT 100 ≤ s.now → exec (.audioSenderTimeout flow) s = .next (setAFlow false flow.val { f with sender := none } s)) ∧
  (∀ (flow : Fin 4) (pair : Fin 8) (f : AFlow) (j t : Int) (s : State), s.aud.flows[flow.val]? = some f →
    lastPreamble f pair.val = some j → f.top = some t → pair.val ∈ f.nonAudio → j + 8192 ≤ t →
    exec (.nonAudioEnd flow pair) s = .next (setAFlow false flow.val { f with
      nonAudio := f.nonAudio.filter (· != pair.val), sincePre := f.sincePre.filter (fun e => e.1 != pair.val) } s)) ∧
  (∀ s : State, tdmRuns s = true → audioRuns s = true → s.time.running = true →
    edgeTime (playDue s) (fetchIndex (playDue s)) - fetchLead ≤ counterOf (playDue s) →
    exec .audioFetch s = .next (fetchSample (fetchIndex (playDue s)) (switchIfDue (fetchIndex (playDue s)) (playDue s)))) ∧
  (∀ s : State, s.time.stepped = false → s.aud.pipe = [] → playDue s = s) ∧
  (∀ (m : Int) (s : State), (fetchSample m s).aud.m = some (m + 1) ∧
    (fetchSample m s).aud.pipe.length = s.aud.pipe.length + 1) ∧
  (∀ (channel : Fin 32) (s : State), tdmRuns s = true →
    (levelReady s.now s.aud.outA channel.val (match s.aud.pipe with | x :: _ => channelValue x 0 channel.val | [] => 0) = true →
      exec (.levelChangeApply 0 channel) s = .next { s with aud := { s.aud with outA := applyLevel channel.val s.aud.outA } }) ∧
    (levelReady s.now s.aud.outB channel.val (match s.aud.pipe with | x :: _ => channelValue x (tdmData s) channel.val | [] => 0) = true →
      exec (.levelChangeApply 1 channel) s = .next { s with aud := { s.aud with outB := applyLevel channel.val s.aud.outB } })) ∧
  (∀ (now t : Ticks) (q j : Nat) (v : Int) (o : AOut), o.pendLevel = some (q, t, []) → t ≤ now → levelReady now o j v = true) ∧
  (∀ (flow : Fin 4) (f : AFlow) (s : State), s.aud.flows[flow.val]? = some f → runs s = true → f.noSource = false →
    lacksSource s f = true →
    exec (.audNosourceTimeout flow) s = .next (raise .audNosource (BitVec.ofNat 32 flow.val)
      (setAFlow false flow.val { f with noSource := true, goodSince := none } s))) ∧
  (∀ (w : Nat) (v : Int), 0 < w → -(2 ^ (w - 1) : Int) ≤ clipTo w v ∧ clipTo w v ≤ 2 ^ (w - 1) - 1)

/-- 16 R797, R800 to R805, Table 16.8, 18 R863, R892: a card that is present is activated; its TS, ATR and PPS are read from
the line (a character of wrong parity is signalled and taken again, at most four times) and are taken or are a protocol
failure, which deactivates it, and activates it once more 1 s later; removal, 60 s, or 10 s of a standby entry's wait end
its dialogue; it begins anew after a confirmed absence. Completion: `CARD_DIALOGUE_STANDBY_LIMIT`, `CARD_PRESENT`, `TS`,
`TS_TIMEOUT`, `ATR_COMPLETE`, `PPS_ECHO`, `CARD_CHARACTER_TIMEOUT`, `CARD_REMOVAL`, `CARD_REACTIVATE`, `DIALOGUE_TIMEOUT`,
`CARD_ABSENCE_CONFIRMED` end in the next state said here, under conditions on the state and the operands alone. -/
def Obligations.CardIsActivatedOnce : Prop :=
  (∀ s : State, cardRuns s = true → s.card.stage = .absent → exec .cardPresent s = .next (activate s)) ∧
  (∀ s : State, (activate s).card.stage = .awaitTs ∧ (activate s).card.activated = s.now ∧ (activate s).card.failed = s.card.failed) ∧
  (∀ (levels : List Bool) (s : State), cardRuns s = true → s.card.stage = .awaitTs →
    s.card.activated + usT 2350 + levels.length * cardClock ≤ s.now →
    (etuBits s.card 10 levels = tsDirect →
      exec (.ts levels) s = .next { s with card := { s.card with stage := .awaitAtr, direct := true } }) ∧
    (etuBits s.card 10 levels = tsInverse →
      exec (.ts levels) s = .next { s with card := { s.card with stage := .awaitAtr, direct := false } }) ∧
    (etuBits s.card 10 levels ≠ tsDirect → etuBits s.card 10 levels ≠ tsInverse → exec (.ts levels) s = .next (cardFail 0 s))) ∧
  (∀ s : State, cardRuns s = true → s.card.stage = .awaitTs → s.card.activated + usT 12250 ≤ s.now →
    exec .tsTimeout s = .next (cardFail 1 s)) ∧
  (∀ s : State, cardRuns s = true → s.card.stage = .ready → exec (.cardCharacterTimeout .workWaiting) s = .next (cardFail 6 s)) ∧
  (∀ (detail : BitVec 32) (s : State), s.keys.seq = none → s.card.failed = false → (cardFail detail s).card.stage = .ended ∧
    (cardFail detail s).card.retryAt = some (s.now + secT 1) ∧ Stands .cardProtocol detail (cardFail detail s)) ∧
  (∀ s : State, cardRuns s = true → s.card.stage = .ended → dueBy s.now s.card.retryAt = true →
    exec .cardReactivate s = .next (activate s)) ∧
  (∀ (chars : List (BitVec 9)) (bytes : List Byte) (errors : Nat) (a : Atr) (s : State), cardRuns s = true →
    s.card.stage = .awaitAtr → takeChars s.card.direct 0 chars = some (bytes, errors) → parseAtr bytes = some a → a.proto = some 1 →
    exec (.atrComplete chars) s = .next (cardFail 3 (signalErrors errors s))) ∧
  (∀ (chars : List (BitVec 9)) (bytes : List Byte) (errors : Nat) (a : Atr) (s : State), cardRuns s = true →
    s.card.stage = .awaitAtr → takeChars s.card.direct 0 chars = some (bytes, errors) → parseAtr bytes = some a → a.proto = none → a.tc1 = none →
    a.tc2 = none → exec (.atrComplete chars) s = .next (chooseSpeed a { signalErrors errors s with
      card := { (signalErrors errors s).card with guard := 0, wi := 10 } })) ∧
  (∀ (t : Byte) (p : Nat × Nat) (chars : List (BitVec 9)) (bytes : List Byte) (errors : Nat) (s : State),
    s.card.stage = .awaitPps t → cardRuns s = true → takeChars s.card.direct 0 chars = some (bytes, errors) →
    (bytes = ppsRequest t → supported t = some p → exec (.ppsEcho chars) s = .next (beginDialogue { signalErrors errors s with
      card := { (signalErrors errors s).card with fi := p.1, di := p.2 } })) ∧
    (bytes ≠ ppsRequest t → exec (.ppsEcho chars) s = .next (cardFail 4 (signalErrors errors s)))) ∧
  (∀ (bad : Nat) (direct : Bool) (ch : BitVec 9) (l : List (BitVec 9)),
    (evenParity direct ch = true → takeChars direct bad (ch :: l) =
      (takeChars direct 0 l).map (fun r => (charByte direct ch :: r.1, r.2))) ∧
    (evenParity direct ch = false → bad < 4 → takeChars direct bad (ch :: l) =
      (takeChars direct (bad + 1) l).map (fun r => (r.1, r.2 + 1))) ∧
    (evenParity direct ch = false → 4 ≤ bad → takeChars direct bad (ch :: l) = none)) ∧
  (∀ s : State, cardBusy s = true → s.keys.seq = none → Goes (exec .cardRemoval s) (fun t => t.card.stage = .ended ∧
    t.dlg.step = 0 ∧ isActive t .cardProtocol = false ∧ (∀ k ∈ t.keys.store, k.name ≠ .identity))) ∧
  (∀ s : State, cardBusy s = false → Goes (exec .cardAbsenceConfirmed s) (fun t => t.card = { ioLow := s.card.ioLow, endedAt := s.card.endedAt } ∧ isActive t .cardProtocol = false)) ∧
  (∀ s : State, cardBusy s = true → s.card.activated + secT 60 ≤ s.now → exec .dialogueTimeout s = .next (endCard s)) ∧
  (∀ (e : Entry) (s : State), s.standby.entry = some e → e.stage = .waiting → cardBusy s = true →
    passed s.now e.waitSince (secT 10) = true → exec .cardDialogueStandbyLimit s = .next (endCard s))

/-- 18 R867, R871, R879, R881, Table 18.2: the steps of a dialogue follow one another, each only after its status word, read
from the characters of the line by the rules of T = 0; an order is checked in the order of Table 18.7 and refused at its
first failed check without touching the fuses; its receipt ends the dialogue. 17 R850, R851, 12 R576: in BLANK and
COMMISSIONED a debug instruction of the TAP without `ARM_N` low is refused and BYPASS is loaded; else the first one enables
debug; `TRST_N` low resets the TAP; an initialisation that has ended lets frame memory serve again. Completion: `SELECT`,
`HELLO_CERTIFICATE`, `HELLO_STATE`, `GET_RESPONSE`, `ORDER`, `RESULT`, `TAP_INSTRUCTION_LOAD`, `MEMORY_INIT_COMPLETE` end in
the next state said here, under conditions on the state and the operands alone. -/
def Obligations.DialogueFollowsItsSteps : Prop :=
  (∀ (chars : List (BitVec 9)) (bytes : List Byte) (errors : Nat) (sw : BitVec 16) (s : State), atStep 1 s = true →
    takeChars s.card.direct 0 chars = some (bytes, errors) → (t0Run cmdSelect cardAid 0 bytes).sw = some sw → sw = 0x9000 →
    Goes (exec (.select chars) s) (fun t => t.dlg = { s.dlg with step := 1, recStep := 1, recSw := 0x9000 } ∧
      t.sent.head? = some (.apdu cmdSelect cardAid) ∧ t.flt = s.flt ∧ t.otp = s.otp ∧ t.keys = s.keys)) ∧
  (∀ (chars : List (BitVec 9)) (bytes : List Byte) (errors : Nat) (sw : BitVec 16) (s : State), atStep 1 s = true →
    takeChars s.card.direct 0 chars = some (bytes, errors) → (t0Run cmdSelect cardAid 0 bytes).sw = some sw → sw ≠ 0x9000 → s.keys.seq = none →
    Goes (exec (.select chars) s) (fun t => t.card.stage = .ended ∧ t.dlg.step = 0 ∧ t.dlg.recSw = sw)) ∧
  (∀ (chars : List (BitVec 9)) (bytes : List Byte) (errors : Nat) (sw : BitVec 16) (s : State), atStep 2 s = true →
    takeChars s.card.direct 0 chars = some (bytes, errors) → (t0Run cmdCertificate (deviceCertificate s.otp.shadow) 0 bytes).sw = some sw → sw = 0x9000 →
    Goes (exec (.helloCertificate chars) s) (fun t => t.dlg.step = 2 ∧ t.dlg.recStep = 2 ∧
      t.sent.head? = some (.apdu cmdCertificate (deviceCertificate s.otp.shadow)) ∧ t.flt = s.flt ∧ t.otp = s.otp)) ∧
  (∀ (chars : List (BitVec 9)) (bytes : List Byte) (errors : Nat) (sw : BitVec 16) (s : State), atStep 3 s = true →
    takeChars s.card.direct 0 chars = some (bytes, errors) → (t0Run cmdState (helloState (drawNonce s)) 0 bytes).sw = some sw →
    sw = 0x6194 → Goes (exec (.helloState chars) s) (fun t => t.dlg.step = 3 ∧ t.dlg.nT = (drawBytes s 16).1 ∧
      t.sent.head? = some (.apdu cmdState (helloState (drawNonce s))) ∧ t.flt = s.flt ∧ t.otp = s.otp)) ∧
  (∀ (chars : List (BitVec 9)) (bytes : List Byte) (errors : Nat) (sw : BitVec 16) (s : State), atStep 4 s = true →
    takeChars s.card.direct 0 chars = some (bytes, errors) → (t0Run cmdResponse [] 148 bytes).sw = some sw → sw = 0x9000 →
    (t0Run cmdResponse [] 148 bytes).got.length = 148 →
    Goes (exec (.getResponse chars) s) (fun t => t.dlg.step = 4 ∧ t.dlg.reply = some (readReply (t0Run cmdResponse [] 148 bytes).got) ∧
      t.flt = s.flt)) ∧
  (∀ (chars : List (BitVec 9)) (bytes : List Byte) (errors : Nat) (r : CardReply) (s : State), atStep 5 s = true →
    s.dlg.reply = some r → takeChars s.card.direct 0 chars = some (bytes, errors) →
    (t0Run cmdOrder [] 201 bytes).sw = some 0x9000 → (t0Run cmdOrder [] 201 bytes).got.length = 201 →
    exec (.order chars) s = .next (takeOrder r (readOrder (t0Run cmdOrder [] 201 bytes).got)
      (sendStep 5 cmdOrder [] (t0Run cmdOrder [] 201 bytes).out 0x9000 (signalErrors errors s)))) ∧
  (∀ (o : CardOrder) (r : CardReply) (n : Nat) (s : State), refusal s r o = some n →
    (takeOrder r o s).otp = s.otp ∧ (takeOrder r o s).keys = s.keys ∧ (takeOrder r o s).dlg.outcome = some n) ∧
  (∀ (o : CardOrder) (r : CardReply) (s : State), s.live.arm.level = true → o.action ≠ 2 → ∃ n, refusal s r o = some n) ∧
  (∀ (o : CardOrder) (r : CardReply) (s : State), s.keys.debug = true → ∃ n, refusal s r o = some n ∧ (n = 10 ∨ n = 9 ∨ n = 5)) ∧
  (∀ (chars : List (BitVec 9)) (bytes : List Byte) (errors : Nat) (sw : BitVec 16) (n : Nat) (r : CardReply) (s : State),
    s.dlg.outcome = some n → s.dlg.reply = some r → atStep 6 s = true → s.keys.seq = none →
    takeChars s.card.direct 0 chars = some (bytes, errors) →
    (t0Run cmdResult (signReceipt (drawBytes s 32).2 (receiptBody (drawBytes s 32).2 n r.nC) (drawBytes s 32).1) 0 bytes).sw = some sw →
    Goes (exec (.result chars) s) (fun t => t.card.stage = .ended ∧ t.dlg.recOutcome = BitVec.ofNat 8 n ∧
      t.dlg.recCheck = BitVec.ofNat 32 (activeCheck s) ∧ t.dlg.recStep = 6)) ∧
  (∀ (chars : List (BitVec 9)) (s : State), takeChars s.card.direct 0 chars = none →
    (atStep 1 s = true → exec (.select chars) s = .next (cardFail 5 s)) ∧
    (atStep 2 s = true → exec (.helloCertificate chars) s = .next (cardFail 5 s)) ∧
    (atStep 4 s = true → exec (.getResponse chars) s = .next (cardFail 5 s)) ∧
    (atStep 5 s = true → exec (.order chars) s = .next (cardFail 5 s))) ∧
  (∀ (ir : TapIr) (s : State), s.pwr.aonOn = true → s.boot.inReset = false → s.standby.asleep = false → tapForbidden ir s = true →
    Goes (exec (.tapInstructionLoad true ir) s) (fun t => t.pins.tapIr = .bypass ∧ t.keys = s.keys ∧ Stands .lcRefused 5 t)) ∧
  (∀ (ir : TapIr) (s : State), s.pwr.aonOn = true → s.boot.inReset = false → s.standby.asleep = false → debugIr ir = false →
    exec (.tapInstructionLoad true ir) s = .next { s with pins := { s.pins with tapIr := ir, boundaryScan := s.pins.boundaryScan } }) ∧
  (∀ (ir : TapIr) (s : State), s.pwr.aonOn = true → s.boot.inReset = false → s.standby.asleep = false → debugIr ir = true → tapForbidden ir s = false →
    s.keys.debug = false → Goes (exec (.tapInstructionLoad true ir) s) (fun t => t.keys.debug = true ∧ t.pins.tapIr = ir ∧
      Stands .dbgActive 1 t ∧ t.otp.fuse = s.otp.fuse)) ∧
  (∀ (ir : TapIr) (s : State), s.pwr.aonOn = true → s.boot.inReset = false → s.standby.asleep = false →
    exec (.tapInstructionLoad false ir) s = .next { s with pins := { s.pins with tapIr := .idcode, boundaryScan := false } }) ∧
  (∀ s : State, runs s = true → s.mem.initUntil.isSome = true →
    exec .memoryInitComplete s = .next { s with mem := { s.mem with ready := true, initUntil := none } })

/-- 16 R771 to R776, R780 to R788, R792 to R796, R807: XOFF holds sending for 100 ms or until XON; a frame with a gap of
more than 10 character times is discarded; an answer goes out 4 character times after its request, is given up after 100 ms,
and on a collision is not repeated; XOFF is sent once 4 frames wait and XON once none does. A frame for another address only
mutes; one with a bad tag is discarded; an accepted order is later than the last from its source, or is acknowledged as out
of order; the acting lead sends its roll-call every 60 s and a tile answers in its slot; the beacon sends its pages in turn,
with a fault page first. Completion: `BOBBIN_FRAME`, `BOBBIN_FRAME_GAP`, `XON`, `XOFF`, `XOFF_TIMEOUT`, `ANSWER_SEND`,
`ANSWER_DROP`, `ROLLCALL_SLOT`, `ROLLCALL_SEND`, `ROLLCALL_RESEND`, `BEACON_FRAME`, `FLOW_CONTROL_SEND` end in the next
state said here, under conditions on the state and the operands alone. -/
def Obligations.BobbinFramesAndFlow : Prop :=
  (∀ s : State, bobRuns s = true → Goes (exec .xoff s) (fun t => heldByXoff t = true ∧ t.bob.xoffUntil = some (s.now + msT 100) ∧
    t = { s with bob := t.bob })) ∧
  (∀ s : State, bobRuns s = true → Goes (exec .xon s) (fun t => heldByXoff t = false ∧ t = { s with bob := t.bob })) ∧
  (∀ s : State, bobRuns s = true → dueBy s.now s.bob.xoffUntil = true →
    exec .xoffTimeout s = .next { s with bob := { s.bob with xoffUntil := none } }) ∧
  (∀ s : State, bobRuns s = true → s.bob.partial_ = true → passed s.now s.bob.lastChar (10 * bobChar s) = true →
    exec .bobbinFrameGap s = .next (discardFrame s)) ∧
  (∀ (echo : List RxChar) (a : Answer) (s : State), s.bob.answer = some a → bobRuns s = true → sendingNow s = false →
    heldByXoff s = false → answerInTime s a = true → s.bob.waiting = [] → wholeEcho s a.dest a.type a.body echo = true →
    Goes (exec (.answerSend echo) s) (fun t => t.bob.answer = none ∧ t.bob.seqOut = s.bob.seqOut + 1 ∧
      t.sent = .bobbin a.dest (sentChars s a.dest a.type a.body) :: s.sent)) ∧
  (∀ (echo : List RxChar) (a : Answer) (s : State), s.bob.answer = some a → bobRuns s = true → sendingNow s = false →
    heldByXoff s = false → answerInTime s a = true → s.bob.waiting = [] → wholeEcho s a.dest a.type a.body echo = false →
    Goes (exec (.answerSend echo) s) (fun t => t.bob.answer = none ∧ t.bob.seqOut = s.bob.seqOut + 1 ∧
      t.bob.collisions = s.bob.collisions + 1)) ∧
  (∀ (a : Answer) (s : State), s.bob.answer = some a → bobRuns s = true → a.reqEnd + msT 100 ≤ s.now →
    exec .answerDrop s = .next (endAnswer s)) ∧
  (∀ (echo : List RxChar) (s : State), bobRuns s = true → busIdle s = true → 4 ≤ s.bob.waiting.length → s.bob.xoffSent = false →
    Goes (exec (.flowControlSend echo) s) (fun t => t.bob.xoffSent = true ∧ t.bob.xoffCount = s.bob.xoffCount + 1 ∧
      (echoed [(xoffChar, false)] echo = true → t.sent = .xoff :: s.sent ∧ t.flt = s.flt))) ∧
  (∀ (echo : List RxChar) (s : State), bobRuns s = true → busIdle s = true → s.bob.waiting = [] → s.bob.xoffSent = true →
    Goes (exec (.flowControlSend echo) s) (fun t => t.bob.xoffSent = false ∧
      (echoed [(xonChar, false)] echo = true → t.sent = .xon :: s.sent ∧ t.flt = s.flt))) ∧
  (∀ (levels : List Bool) (s : State), bobRuns s = true → s.bob.partial_ = false → strayFlow (receive 0 {} levels) = [] →
    exec (.bobbinFrame levels []) s = .next (busUsed (takeSegs levels.length (segsOf (dropLost [] 0 false (receive 0 {} levels))) s))) ∧
  (∀ (g : BSeg) (last : Bool) (ended : Ticks) (s : State), takesAddr s g.dest.data = false →
    (g.chars.map Prod.snd).filter isFlow = [] → badChars [g.dest] = 0 →
    takeSeg g last ended s = { s with bob := { s.bob with muted := true, partial_ := false } }) ∧
  (∀ b : List Byte, unescape (b.flatMap escapeBob) = some b) ∧
  (∀ (f : BFrame) (s : State), tagOk s f = false → ∃ u : State, checkFrame f s = discardFrame u ∧ u.bob = s.bob ∧ u.aud = s.aud ∧
    u.standby = s.standby) ∧
  (∀ (f : BFrame) (s : State), f.type ≠ 0x22 → freshOrder s f = false → takeOrderFrame f s = ack f 3 s) ∧
  (∀ (f : BFrame) (s : State), freshOrder (noteOrder f s) f = false) ∧
  (∀ (echo : List RxChar) (r a z : Nat) (t : Ticks) (own : Byte) (s : State), s.bob.window = some (r, a, z, t) →
    ownAddress s = some own → bobRuns s = true → actingLead s = false → a ≤ own.toNat → own.toNat ≤ z → heldByXoff s = false →
    t + (own.toNat - a) * 320 * bobChar s + 8 * bobChar s ≤ s.now → s.now < t + (own.toNat - a) * 320 * bobChar s + 320 * bobChar s →
    exec (.rollcallSlot echo) s = .next (closeWindow (sendBob 0xFE 0x02 (statusSubset s) echo s))) ∧
  (∀ (echo : List RxChar) (u s : State), mayRollcall s = true → dueBy s.now s.bob.rollNext = true →
    u = { s with bob := { s.bob with rollNo := s.bob.rollNo + 1 } } →
    Goes (exec (.rollcallSend echo) s) (fun t => t.bob.rollNo = s.bob.rollNo + 1 ∧ t.bob.rollNext = some (s.now + secT 60) ∧
      (wholeEcho u 0xFF 0x03 (rollcallBody u) echo = true → t.bob.resendAt = none ∧ t.bob.answered = [] ∧ t.bob.flagged = []) ∧
      (wholeEcho u 0xFF 0x03 (rollcallBody u) echo = false → t.bob.resendAt = some (s.now + secT 1)))) ∧
  (∀ (echo : List RxChar) (s : State), mayRollcall s = true → dueBy s.now s.bob.resendAt = true →
    Goes (exec (.rollcallResend echo) s) (fun t => t.bob.rollNo = s.bob.rollNo ∧ t.bob.resendAt = none ∧
      t.bob.rollNext = s.bob.rollNext)) ∧
  (∀ (lows : List (Ticks × Ticks)) (s : State), beaconRuns s = true →
    (s.bea.lastEnd = none ∨ passed s.now s.bea.lastEnd (10 * beaconChar s) = true) →
    Goes (exec (.beaconFrame lows) s) (fun t => t.sent = .beacon (beaconFrame s) :: s.sent ∧
      t.bea.lastEnd = some (s.now + (beaconFrame s).length * beaconChar s) ∧ t.bea.page = (nextPage s.bea).page ∧
      t.bea.extra = s.bea.extra.tail ∧
      ((pulsesOf (beaconFrame s)).length ≤ 2 * ((pulsesOf (beaconFrame s)).filter (pulseEchoed (beaconBit s) lows)).length →
        t.flt = s.flt)))

/-! ### Sensors (20) -/

/-- 19 R925, 20 R939, R949, R951, Table 20.17, 00 R17: a reading within the ratings is stored with the hottest site in use
as Tj; the tenth in a row at a threshold raises its fault and the third at the shutdown threshold puts the outputs in safe
state; one beyond the absolute maximum ratings ends the run with the fault of its name. A site that has been off for 10 s is
ignored. (The fault of that end is the model's: log 10.) Completion: `SENSOR_READ`, `TEMP_SITE_IGNORE` end in the next state
said here, under conditions on the state and the operands alone. -/
def Obligations.SensorsGuardTheJunction : Prop :=
  (∀ (sites : List Int) (vin vled : Nat) (s : State), runs s = true → dueBy s.now s.test.sensorNext = true →
    beyondRatings s sites vin vled = false →
    Goes (exec (.sensorRead sites vin vled) s) (fun t => t.sens.tj = hottest (usedSites sites s.sens.ignored) ∧
      t.sens.vin = vin ∧ t.sens.vled = vled ∧ t.sens.sites = sites ∧ t.test.sensorNext = some (s.now + msT 100) ∧
      t.mem = s.mem ∧ t.otp = s.otp ∧
      (s.sens.warnRun = 0 → s.sens.limitRun = 0 → s.sens.shutRun = 0 → s.flt.thermal = false → t.flt.thermal = false))) ∧
  (∀ (sites : List Int) (vin vled : Nat) (s : State), runs s = true → dueBy s.now s.test.sensorNext = true →
    beyondRatings s sites vin vled = false → (thresholds s).1 ≤ hottest (usedSites sites s.sens.ignored) → s.sens.warnRun = 9 →
    Goes (exec (.sensorRead sites vin vled) s) (fun t => isActive t .thWarn = true)) ∧
  (∀ (sites : List Int) (vin vled : Nat) (s : State), runs s = true → dueBy s.now s.test.sensorNext = true →
    beyondRatings s sites vin vled = false → (thresholds s).2.2 ≤ hottest (usedSites sites s.sens.ignored) → s.sens.shutRun = 2 →
    s.flt.thermal = false → s.keys.seq = none →
    Goes (exec (.sensorRead sites vin vled) s) (fun t => t.flt.thermal = true ∧ isActive t .thLimit = true)) ∧
  (∀ (sites : List Int) (vin vled : Nat) (s : State), runs s = true → dueBy s.now s.test.sensorNext = true →
    beyondRatings s sites vin vled = true → exec (.sensorRead sites vin vled) s = .fault .beyondAbsoluteMaximum) ∧
  (∀ (site : Fin 4) (s : State), runs s = true → site ∉ s.sens.ignored →
    passed s.now (s.sens.offSince.getD site.val none) (secT 10) = true →
    exec (.tempSiteIgnore site) s = .next { s with sens := { s.sens with
      ignored := site :: s.sens.ignored, tj := hottest (usedSites s.sens.sites (site :: s.sens.ignored)) } })

/-! ### The whole block -/

/-- A step takes the command at the front of the queue and is that command on the state with the queue's rest; with no command
waiting one system clock passes (the model's choice: log 1). -/
def Obligations.StepRunsFrontCommand : Prop :=
  (∀ (c : Instr) (rest : List Instr) (s : State), s.pending = c :: rest → step s = exec c { s with pending := rest }) ∧
  (∀ s : State, s.pending = [] → step s = .next (tick s))

/-- No command but `SENSOR_READ` stops: every other one answers a next state in every state, and that one does unless its
readings lie beyond the absolute maximum ratings (00 R17; log 10). -/
def Obligations.EveryCommandRuns : Prop :=
  (∀ (c : Instr) (s : State), (∀ sites vin vled, c ≠ .sensorRead sites vin vled) → ∃ t, exec c s = .next t) ∧
  (∀ (sites : List Int) (vin vled : Nat) (s : State), exec (.sensorRead sites vin vled) s = .fault .beyondAbsoluteMaximum ∨
    ∃ t, exec (.sensorRead sites vin vled) s = .next t) ∧
  (∀ (sites : List Int) (vin vled : Nat) (s : State), beyondRatings s sites vin vled = false →
    ∃ t, exec (.sensorRead sites vin vled) s = .next t)

/-- A command leaves the ruler of the model, the queue and the unit as they are; a step without a command adds one clock to
the ruler, and no step changes the unit (the model's choice: log 1). -/
def Obligations.CommandsLeaveRulerQueueAndUnit : Prop :=
  (∀ (c : Instr) (s t : State), exec c s = .next t → t.now = s.now ∧ t.pending = s.pending ∧ t.unit = s.unit) ∧
  (∀ s : State, (tick s).now = s.now + clockTicks s ∧ (tick s).pending = s.pending ∧ (tick s).unit = s.unit ∧
    3200 ≤ clockTicks s)

/-- Each command leaves every part of the state that it does not touch, as the table of `touches` in Safety.lean lists them
for all commands but those that begin or end the core's life or may raise a fault of S3: pins, straps, power, the clock,
fuses, keys, the ledger, sensors, time, scenes, frame memory with every byte of it, the crossbar, brightness, markers, sound,
the Bobbin, the card and its dialogue. The fault manager, records, knots and frames by which a fault is announced are no part
of the frame. -/
def Obligations.CommandsKeepTheirFrame : Prop :=
  ∀ (c : Instr) (s t : State), exec c s = .next t → FrameOf c s t

/-- The state after reset: unpowered, with nothing waiting and memory in its canonical form that reads zero everywhere (the
values the spec does not give are the model's choice: logs 2, 3 and 14). -/
def Obligations.ResetIsUnpowered : Prop :=
  MemoryCanonical State.reset ∧
  State.reset.pending = [] ∧
  State.reset.pwr.aonOn = false ∧
  State.reset.clk.running = false ∧
  State.reset.flt.ring = [] ∧
  (∀ d : Nat, domOn State.reset d = false) ∧
  (∀ a : Nat, Memory.get State.reset.mem.bytes a = 0)
end

