-- ==== Sys2Proof/Laws/Only.lean ====
section
/-!
SUPPORT. What an operation may change, said once: `Only W s t` names the facets `W` of the state in which `t` may differ from `s`.
-/
namespace Sys2Proof.Machine
open Sys2Proof

/-- The facets of the state: each field, and four narrower ones (the supply levels, the fuses themselves, the fuse sequence with
the phase and debug, and the hold-off, restarts and safe states of the fault manager). -/
inductive Facet
  | now | pending | fresh | sent | unit | pins | straps | live | pwr | supply | standby | clk | boot | test |
  otp | fuse | keys | lifecycle | flt | holds | ldg | status | sens | net | time | sv | disc | scene | mem |
  xb | sram | adm | weft | amb | bri | mark | aud | bob | bea | card | dlg
  deriving DecidableEq, Repr

/-- A facet stands as it was. -/
def sameFacet (s t : State) : Facet → Prop
  | .now => t.now = s.now
  | .pending => t.pending = s.pending
  | .fresh => t.fresh = s.fresh
  | .sent => t.sent = s.sent
  | .unit => t.unit = s.unit
  | .pins => t.pins = s.pins
  | .straps => t.straps = s.straps
  | .live => t.live = s.live
  | .pwr => t.pwr = s.pwr
  | .supply => t.pwr.vinLow = s.pwr.vinLow ∧ t.pwr.aonOn = s.pwr.aonOn
  | .standby => t.standby = s.standby
  | .clk => t.clk = s.clk
  | .boot => t.boot = s.boot
  | .test => t.test = s.test
  | .otp => t.otp = s.otp
  | .fuse => t.otp.fuse = s.otp.fuse
  | .keys => t.keys = s.keys
  | .lifecycle => t.keys.seq = s.keys.seq ∧ t.keys.phase = s.keys.phase ∧ t.keys.debug = s.keys.debug
  | .flt => t.flt = s.flt
  | .holds => t.flt.bringUp = s.flt.bringUp ∧ t.flt.holdoff = s.flt.holdoff ∧ t.flt.restarts = s.flt.restarts ∧ t.flt.safe = s.flt.safe ∧ t.flt.thermal = s.flt.thermal ∧ t.flt.safeHold = s.flt.safeHold ∧ t.flt.hangs = s.flt.hangs
  | .ldg => t.ldg = s.ldg
  | .status => t.status = s.status
  | .sens => t.sens = s.sens
  | .net => t.net = s.net
  | .time => t.time = s.time
  | .sv => t.sv = s.sv
  | .disc => t.disc = s.disc
  | .scene => t.scene = s.scene
  | .mem => t.mem = s.mem
  | .xb => t.xb = s.xb
  | .sram => t.sram = s.sram
  | .adm => t.adm = s.adm
  | .weft => t.weft = s.weft
  | .amb => t.amb = s.amb
  | .bri => t.bri = s.bri
  | .mark => t.mark = s.mark
  | .aud => t.aud = s.aud
  | .bob => t.bob = s.bob
  | .bea => t.bea = s.bea
  | .card => t.card = s.card
  | .dlg => t.dlg = s.dlg

/-- `t` differs from `s` in the facets of `W` at most. -/
def Only (W : List Facet) (s t : State) : Prop := ∀ p, p ∉ W → sameFacet s t p

/-- Every facet of the first list stands in the second; both list facets in the order of `Facet`. -/
def Facet.within : List Facet → List Facet → Bool
  | [], _ => true
  | _ :: _, [] => false
  | a :: l, b :: m => if a = b then Facet.within l m else Facet.within (a :: l) m

@[simp] theorem Facet.within_nil (W : List Facet) : Facet.within [] W = true := by cases W <;> rfl
@[simp] theorem Facet.within_end (a : Facet) (l : List Facet) : Facet.within (a :: l) [] = false := rfl
@[simp] theorem Facet.within_cons (a b : Facet) (l m : List Facet) :
    Facet.within (a :: l) (b :: m) = if a = b then Facet.within l m else Facet.within (a :: l) m := rfl

theorem Facet.mem_of_within {M W : List Facet} (h : Facet.within M W = true) {p : Facet} (hp : p ∈ M) : p ∈ W := by
  induction W generalizing M with
  | nil => cases M <;> simp_all
  | cons b m ih =>
    cases M with
    | nil => simp at hp
    | cons a l =>
      simp only [Facet.within_cons] at h
      split at h
      · subst a
        rcases List.mem_cons.1 hp with rfl | hp
        · simp
        · exact List.mem_cons_of_mem _ (ih h hp)
      · exact List.mem_cons_of_mem _ (ih h hp)

@[simp] theorem Facet.within_self (W : List Facet) : Facet.within W W = true := by
  induction W with
  | nil => rfl
  | cons a l ih => simp [ih]

theorem sameFacet_refl (s : State) (p : Facet) : sameFacet s s p := by cases p <;> simp [sameFacet]
theorem Facet.within_tail {z : Facet} {l W : List Facet} (h : Facet.within (z :: l) W = true) : Facet.within l W = true := by
  induction W generalizing z l with
  | nil => simp at h
  | cons b m ih =>
    have hm : Facet.within l m = true := by
      simp only [Facet.within_cons] at h
      split at h
      · exact h
      · exact ih h
    cases l with
    | nil => rfl
    | cons a l =>
      simp only [Facet.within_cons]
      split
      · exact ih hm
      · exact hm

theorem Facet.within_trans {L M W : List Facet} (a : Facet.within L M = true) (b : Facet.within M W = true) :
    Facet.within L W = true := by
  induction W generalizing L M with
  | nil => cases M <;> cases L <;> simp_all
  | cons c n ih =>
    cases L with
    | nil => rfl
    | cons z l =>
      cases M with
      | nil => simp at a
      | cons y m =>
        by_cases hyc : y = c
        · by_cases hzy : z = y
          · simp_all only [Facet.within_cons, if_true]
            exact ih a b
          · subst c
            simp only [Facet.within_cons, hzy, if_false, if_true] at a b ⊢
            exact ih a b
        · simp only [Facet.within_cons (b := c), hyc, if_false] at b
          have t := ih a b
          simp only [Facet.within_cons (b := c)]
          split
          · exact Facet.within_tail t
          · exact t

theorem sameFacet_symm {s t : State} {p : Facet} (h : sameFacet s t p) : sameFacet t s p := by
  cases p <;> simp_all [sameFacet]
theorem sameFacet_trans {s t u : State} {p : Facet} (a : sameFacet s t p) (b : sameFacet t u p) : sameFacet s u p := by
  cases p <;> simp_all [sameFacet]

@[simp] theorem Only.refl (W : List Facet) (s : State) : Only W s s = True := eq_true fun p _ => sameFacet_refl s p
theorem Only.trans {W : List Facet} {s t u : State} (a : Only W s t) (b : Only W t u) : Only W s u :=
  fun p hp => sameFacet_trans (a p hp) (b p hp)
theorem Only.mono {M W : List Facet} {s t : State} (h : Only M s t) (w : Facet.within M W = true) : Only W s t :=
  fun p hp => h p fun hm => hp (Facet.mem_of_within w hm)

/-- An operation that changes only `M` may be passed over wherever all of `M` may change. -/
theorem Only.thru {M W : List Facet} {s t : State} (h : Only M s t) (w : Facet.within M W = true) (x : State) :
    Only W x t = Only W x s :=
  propext ⟨fun a p hp => sameFacet_trans (a p hp) (sameFacet_symm (h.mono w p hp)), fun a => a.trans (h.mono w)⟩

/-- A record update that changes fields of `W` alone. -/
theorem Only.upd {W : List Facet} {x t : State} (y : State) (h : ∀ p, p ∉ W → sameFacet y t p) (hx : Only W x y) : Only W x t :=
  hx.trans h

@[simp] theorem Only.ite (W : List Facet) (x a b : State) (c : Prop) [Decidable c] :
    Only W x (if c then a else b) = if c then Only W x a else Only W x b := by split <;> rfl
@[simp] theorem Only.foldl {α : Type} (W : List Facet) (x s : State) (g : State → α → State) (l : List α)
    (h : ∀ t a, Only W t (g t a)) : Only W x (l.foldl g s) = Only W x s := by
  refine Only.thru (M := W) ?_ (Facet.within_self W) x
  induction l generalizing s with
  | nil => simp
  | cons a l ih => exact (h s a).trans (ih _)

/-- `Only` of the next state that an outcome gives, if it gives one. -/
def OnlyOut (W : List Facet) (s : State) (o : Out) : Prop := ∀ t, o = .next t → Only W s t

@[simp] theorem OnlyOut.next (W : List Facet) (s t : State) : OnlyOut W s (.next t) = Only W s t :=
  propext ⟨fun h => h t rfl, fun h u e => by injection e with e; exact e ▸ h⟩
@[simp] theorem OnlyOut.refused (W : List Facet) (s : State) (r : Refusal) : OnlyOut W s (.refused r) = True :=
  eq_true fun _ e => nomatch e
@[simp] theorem OnlyOut.fault (W : List Facet) (s : State) (f : Fault) : OnlyOut W s (.fault f) = True :=
  eq_true fun _ e => nomatch e
@[simp] theorem OnlyOut.ite (W : List Facet) (s : State) (a b : Out) (c : Prop) [Decidable c] :
    OnlyOut W s (if c then a else b) = if c then OnlyOut W s a else OnlyOut W s b := by split <;> rfl

@[simp] theorem Memory.wf_nil : Memory.wf [] = true := rfl
/-- A fold of steps that keep a property keeps it. -/
theorem foldl_holds {α : Type} (P : State → Prop) (f : State → α → State) (h : ∀ s a, P s → P (f s a)) (l : List α) (s : State)
    (hs : P s) : P (l.foldl f s) := by
  induction l generalizing s with
  | nil => exact hs
  | cons a l ih => exact ih _ (h s a hs)

/-- Frame memory stands in its canonical form. -/
def MemOk (s : State) : Prop := Memory.wf s.mem.bytes = true

/-- What does not touch frame memory keeps its form. -/
theorem Only.memOk {W : List Facet} {s t : State} (h : Only W s t) (w : Facet.mem ∉ W) (hs : MemOk s) : MemOk t := by
  have e : t.mem = s.mem := h .mem w
  unfold MemOk at *
  rw [e]
  exact hs

end Sys2Proof.Machine
end

