-- ==== Sys2Proof/Laws/OnlyCore.lean ====
section
/-!
SUPPORT. Which facets of the state each operation and command may change (`_only`): the shared operations, the fuses, faults, bring-up, power, the clock, the ledger, keys, straps, self-test and standby.
An operation's lemma passes over it wherever all that it changes may change, so that `simp` shows `Only W s t` for a chain of
operations; a command's lemma speaks of its next state.
-/
set_option linter.unusedVariables false
set_option linter.unusedSimpArgs false
set_option linter.unnecessarySeqFocus false
set_option linter.unusedTactic false
set_option linter.unreachableTactic false
namespace Sys2Proof.Machine
open Sys2Proof

@[simp] theorem modPwr_only (f : Pwr → Pwr) (s x : State) (W) (w : Facet.within [.pwr, .supply] W = true) : Only W x
    (modPwr f s) = Only W x s := by
  refine Only.thru (fun p hp => ?_) w x
  cases p <;> simp_all [sameFacet, modPwr]

@[simp] theorem modPwr_only_but (f : Pwr → Pwr) (s x : State) (W) (w : Facet.within [.pwr] W = true) (h : ∀ z, (f
    z).vinLow = z.vinLow ∧ (f z).aonOn = z.aonOn) : Only W x (modPwr f s) = Only W x s := by
  refine Only.thru (fun p hp => ?_) w x
  cases p <;> simp_all [sameFacet, modPwr]

@[simp] theorem modClk_only (f : Clk → Clk) (s x : State) (W) (w : Facet.within [.clk] W = true) : Only W x (modClk f
    s) = Only W x s := by
  refine Only.thru (fun p hp => ?_) w x
  cases p <;> simp_all [sameFacet, modClk]

@[simp] theorem modBoot_only (f : Boot → Boot) (s x : State) (W) (w : Facet.within [.boot] W = true) : Only W x
    (modBoot f s) = Only W x s := by
  refine Only.thru (fun p hp => ?_) w x
  cases p <;> simp_all [sameFacet, modBoot]

@[simp] theorem modTest_only (f : Test → Test) (s x : State) (W) (w : Facet.within [.test] W = true) : Only W x
    (modTest f s) = Only W x s := by
  refine Only.thru (fun p hp => ?_) w x
  cases p <;> simp_all [sameFacet, modTest]

@[simp] theorem modOtp_only (f : Otp → Otp) (s x : State) (W) (w : Facet.within [.otp, .fuse] W = true) : Only W x
    (modOtp f s) = Only W x s := by
  refine Only.thru (fun p hp => ?_) w x
  cases p <;> simp_all [sameFacet, modOtp]

@[simp] theorem modOtp_only_but (f : Otp → Otp) (s x : State) (W) (w : Facet.within [.otp] W = true) (h : ∀ z, (f
    z).fuse = z.fuse) : Only W x (modOtp f s) = Only W x s := by
  refine Only.thru (fun p hp => ?_) w x
  cases p <;> simp_all [sameFacet, modOtp]

@[simp] theorem modKeys_only (f : Keys → Keys) (s x : State) (W) (w : Facet.within [.keys, .lifecycle] W = true) :
    Only W x (modKeys f s) = Only W x s := by
  refine Only.thru (fun p hp => ?_) w x
  cases p <;> simp_all [sameFacet, modKeys]

@[simp] theorem modKeys_only_but (f : Keys → Keys) (s x : State) (W) (w : Facet.within [.keys] W = true) (h : ∀ z, (f
    z).seq = z.seq ∧ (f z).phase = z.phase ∧ (f z).debug = z.debug) : Only W x (modKeys f s) = Only W x s := by
  refine Only.thru (fun p hp => ?_) w x
  cases p <;> simp_all [sameFacet, modKeys]

@[simp] theorem modFlt_only (f : Flt → Flt) (s x : State) (W) (w : Facet.within [.flt, .holds] W = true) : Only W x
    (modFlt f s) = Only W x s := by
  refine Only.thru (fun p hp => ?_) w x
  cases p <;> simp_all [sameFacet, modFlt]

@[simp] theorem modFlt_only_but (f : Flt → Flt) (s x : State) (W) (w : Facet.within [.flt] W = true) (h : ∀ z, (f
    z).bringUp = z.bringUp ∧ (f z).holdoff = z.holdoff ∧ (f z).restarts = z.restarts ∧ (f z).safe = z.safe ∧ (f
    z).thermal = z.thermal ∧ (f z).safeHold = z.safeHold ∧ (f z).hangs = z.hangs) : Only W x (modFlt f s) = Only W x s
    := by
  refine Only.thru (fun p hp => ?_) w x
  cases p <;> simp_all [sameFacet, modFlt]

@[simp] theorem modLdg_only (f : Ledger → Ledger) (s x : State) (W) (w : Facet.within [.ldg] W = true) : Only W x
    (modLdg f s) = Only W x s := by
  refine Only.thru (fun p hp => ?_) w x
  cases p <;> simp_all [sameFacet, modLdg]

@[simp] theorem modStatus_only (f : StatusRec → StatusRec) (s x : State) (W) (w : Facet.within [.status] W = true) :
    Only W x (modStatus f s) = Only W x s := by
  refine Only.thru (fun p hp => ?_) w x
  cases p <;> simp_all [sameFacet, modStatus]

@[simp] theorem modSens_only (f : Sens → Sens) (s x : State) (W) (w : Facet.within [.sens] W = true) : Only W x
    (modSens f s) = Only W x s := by
  refine Only.thru (fun p hp => ?_) w x
  cases p <;> simp_all [sameFacet, modSens]

@[simp] theorem modNet_only (f : Net → Net) (s x : State) (W) (w : Facet.within [.net] W = true) : Only W x (modNet f
    s) = Only W x s := by
  refine Only.thru (fun p hp => ?_) w x
  cases p <;> simp_all [sameFacet, modNet]

@[simp] theorem modTime_only (f : TimeSt → TimeSt) (s x : State) (W) (w : Facet.within [.time] W = true) : Only W x
    (modTime f s) = Only W x s := by
  refine Only.thru (fun p hp => ?_) w x
  cases p <;> simp_all [sameFacet, modTime]

@[simp] theorem modSv_only (f : Sv → Sv) (s x : State) (W) (w : Facet.within [.sv] W = true) : Only W x (modSv f s) =
    Only W x s := by
  refine Only.thru (fun p hp => ?_) w x
  cases p <;> simp_all [sameFacet, modSv]

@[simp] theorem modDisc_only (f : Disc → Disc) (s x : State) (W) (w : Facet.within [.disc] W = true) : Only W x
    (modDisc f s) = Only W x s := by
  refine Only.thru (fun p hp => ?_) w x
  cases p <;> simp_all [sameFacet, modDisc]

@[simp] theorem modScene_only (f : Scene → Scene) (s x : State) (W) (w : Facet.within [.scene] W = true) : Only W x
    (modScene f s) = Only W x s := by
  refine Only.thru (fun p hp => ?_) w x
  cases p <;> simp_all [sameFacet, modScene]

@[simp] theorem modMem_only (f : Mem → Mem) (s x : State) (W) (w : Facet.within [.mem] W = true) : Only W x (modMem f
    s) = Only W x s := by
  refine Only.thru (fun p hp => ?_) w x
  cases p <;> simp_all [sameFacet, modMem]

@[simp] theorem modXb_only (f : Xb → Xb) (s x : State) (W) (w : Facet.within [.xb] W = true) : Only W x (modXb f s) =
    Only W x s := by
  refine Only.thru (fun p hp => ?_) w x
  cases p <;> simp_all [sameFacet, modXb]

@[simp] theorem modAdm_only (f : Adm → Adm) (s x : State) (W) (w : Facet.within [.adm] W = true) : Only W x (modAdm f
    s) = Only W x s := by
  refine Only.thru (fun p hp => ?_) w x
  cases p <;> simp_all [sameFacet, modAdm]

@[simp] theorem modWeft_only (f : Weft → Weft) (s x : State) (W) (w : Facet.within [.weft] W = true) : Only W x
    (modWeft f s) = Only W x s := by
  refine Only.thru (fun p hp => ?_) w x
  cases p <;> simp_all [sameFacet, modWeft]

@[simp] theorem modAmb_only (f : Amb → Amb) (s x : State) (W) (w : Facet.within [.amb] W = true) : Only W x (modAmb f
    s) = Only W x s := by
  refine Only.thru (fun p hp => ?_) w x
  cases p <;> simp_all [sameFacet, modAmb]

@[simp] theorem modBri_only (f : Bri → Bri) (s x : State) (W) (w : Facet.within [.bri] W = true) : Only W x (modBri f
    s) = Only W x s := by
  refine Only.thru (fun p hp => ?_) w x
  cases p <;> simp_all [sameFacet, modBri]

@[simp] theorem modMark_only (f : Mk → Mk) (s x : State) (W) (w : Facet.within [.mark] W = true) : Only W x (modMark f
    s) = Only W x s := by
  refine Only.thru (fun p hp => ?_) w x
  cases p <;> simp_all [sameFacet, modMark]

@[simp] theorem modAud_only (f : Aud → Aud) (s x : State) (W) (w : Facet.within [.aud] W = true) : Only W x (modAud f
    s) = Only W x s := by
  refine Only.thru (fun p hp => ?_) w x
  cases p <;> simp_all [sameFacet, modAud]

@[simp] theorem modBob_only (f : Bob → Bob) (s x : State) (W) (w : Facet.within [.bob] W = true) : Only W x (modBob f
    s) = Only W x s := by
  refine Only.thru (fun p hp => ?_) w x
  cases p <;> simp_all [sameFacet, modBob]

@[simp] theorem modBea_only (f : Bea → Bea) (s x : State) (W) (w : Facet.within [.bea] W = true) : Only W x (modBea f
    s) = Only W x s := by
  refine Only.thru (fun p hp => ?_) w x
  cases p <;> simp_all [sameFacet, modBea]

@[simp] theorem modCard_only (f : Card → Card) (s x : State) (W) (w : Facet.within [.card] W = true) : Only W x
    (modCard f s) = Only W x s := by
  refine Only.thru (fun p hp => ?_) w x
  cases p <;> simp_all [sameFacet, modCard]

@[simp] theorem modDlg_only (f : Dlg → Dlg) (s x : State) (W) (w : Facet.within [.dlg] W = true) : Only W x (modDlg f
    s) = Only W x s := by
  refine Only.thru (fun p hp => ?_) w x
  cases p <;> simp_all [sameFacet, modDlg]

@[simp] theorem modStandby_only (f : Standby → Standby) (s x : State) (W) (w : Facet.within [.standby] W = true) :
    Only W x (modStandby f s) = Only W x s := by
  refine Only.thru (fun p hp => ?_) w x
  cases p <;> simp_all [sameFacet, modStandby]

@[simp] theorem modStraps_only (f : Straps → Straps) (s x : State) (W) (w : Facet.within [.straps] W = true) : Only W
    x (modStraps f s) = Only W x s := by
  refine Only.thru (fun p hp => ?_) w x
  cases p <;> simp_all [sameFacet, modStraps]

@[simp] theorem modLive_only (f : Live → Live) (s x : State) (W) (w : Facet.within [.live] W = true) : Only W x
    (modLive f s) = Only W x s := by
  refine Only.thru (fun p hp => ?_) w x
  cases p <;> simp_all [sameFacet, modLive]

@[simp] theorem modPins_only (f : Pins → Pins) (s x : State) (W) (w : Facet.within [.pins] W = true) : Only W x
    (modPins f s) = Only W x s := by
  refine Only.thru (fun p hp => ?_) w x
  cases p <;> simp_all [sameFacet, modPins]

@[simp] theorem draw_only (s x : State) (a0) (W) (w : Facet.within [.fresh] W = true) : Only W x (draw s a0).2 = Only
    W x s := by
  refine Only.thru ?_ w x
  unfold draw
  (repeat' split) <;> (try simp) <;> (refine Only.upd ?y ?h ?x; (case h => (intro p hp; cases p <;> first | exact absurd (by decide) hp | (dsimp only [sameFacet] <;> (repeat' apply And.intro) <;> rfl))); (case x => simp))

@[simp] theorem drawBytes_only (s x : State) (a0) (W) (w : Facet.within [.fresh] W = true) : Only W x (drawBytes s
    a0).2 = Only W x s := by
  refine Only.thru ?_ w x
  unfold drawBytes
  (repeat' split) <;> (try simp) <;> (refine Only.upd ?y ?h ?x; (case h => (intro p hp; cases p <;> first | exact absurd (by decide) hp | (dsimp only [sameFacet] <;> (repeat' apply And.intro) <;> rfl))); (case x => simp))

@[simp] theorem emit_only (s x : State) (a0) (W) (w : Facet.within [.sent] W = true) : Only W x (emit s a0) = Only W x
    s := by
  refine Only.thru ?_ w x
  unfold emit
  (repeat' split) <;> (try simp) <;> (refine Only.upd ?y ?h ?x; (case h => (intro p hp; cases p <;> first | exact absurd (by decide) hp | (dsimp only [sameFacet] <;> (repeat' apply And.intro) <;> rfl))); (case x => simp))

@[simp] theorem zeroSram_only (s x : State) (W) (w : Facet.within [.sram] W = true) : Only W x (zeroSram s) = Only W x
    s := by
  refine Only.thru ?_ w x
  unfold zeroSram
  (repeat' split) <;> (try simp) <;> (refine Only.upd ?y ?h ?x; (case h => (intro p hp; cases p <;> first | exact absurd (by decide) hp | (dsimp only [sameFacet] <;> (repeat' apply And.intro) <;> rfl))); (case x => simp))

@[simp] theorem setDom_only (s x : State) (a0) (a1) (W) (w : Facet.within [.pwr] W = true) : Only W x (setDom s a0 a1)
    = Only W x s := by
  refine Only.thru ?_ w x
  simp [setDom]

@[simp] theorem setLink_only (s x : State) (a0) (a1) (W) (w : Facet.within [.sv] W = true) : Only W x (setLink s a0
    a1) = Only W x s := by
  refine Only.thru ?_ w x
  unfold setLink
  (repeat' split) <;> simp

@[simp] theorem modLink_only (s x : State) (a0) (a1) (W) (w : Facet.within [.sv] W = true) : Only W x (modLink s a0
    a1) = Only W x s := by
  refine Only.thru ?_ w x
  simp [modLink]

@[simp] theorem setNetPort_only (s x : State) (a0) (a1) (W) (w : Facet.within [.net] W = true) : Only W x (setNetPort
    s a0 a1) = Only W x s := by
  refine Only.thru ?_ w x
  simp [setNetPort]

@[simp] theorem rederive_only (s x : State) (W) (w : Facet.within [.keys] W = true) : Only W x (rederive s) = Only W x
    s := by
  refine Only.thru ?_ w x
  simp [rederive]

@[simp] theorem sevOf_pwrDomain : (sevOf .pwrDomain = 3) = False := by decide
@[simp] theorem sevOf_pwrVled : (sevOf .pwrVled = 3) = False := by decide
@[simp] theorem sevOf_clkSlow : (sevOf .clkSlow = 3) = False := by decide
@[simp] theorem sevOf_strapAmbig : (sevOf .strapAmbig = 3) = False := by decide
@[simp] theorem sevOf_strapReserved : (sevOf .strapReserved = 3) = False := by decide
@[simp] theorem sevOf_strapConflict : (sevOf .strapConflict = 3) = False := by decide
@[simp] theorem sevOf_strapChanged : (sevOf .strapChanged = 3) = False := by decide
@[simp] theorem sevOf_netLink : (sevOf .netLink = 3) = False := by decide
@[simp] theorem sevOf_netModule : (sevOf .netModule = 3) = False := by decide
@[simp] theorem sevOf_netRing : (sevOf .netRing = 3) = False := by decide
@[simp] theorem sevOf_netIpconflict : (sevOf .netIpconflict = 3) = False := by decide
@[simp] theorem sevOf_netQueue : (sevOf .netQueue = 3) = False := by decide
@[simp] theorem sevOf_netSdp : (sevOf .netSdp = 3) = False := by decide
@[simp] theorem sevOf_timeNomaster : (sevOf .timeNomaster = 3) = False := by decide
@[simp] theorem sevOf_timeStep : (sevOf .timeStep = 3) = False := by decide
@[simp] theorem sevOf_timeHoldover : (sevOf .timeHoldover = 3) = False := by decide
@[simp] theorem sevOf_svLink : (sevOf .svLink = 3) = False := by decide
@[simp] theorem sevOf_svAlign : (sevOf .svAlign = 3) = False := by decide
@[simp] theorem sevOf_svPosition : (sevOf .svPosition = 3) = False := by decide
@[simp] theorem sevOf_svNolead : (sevOf .svNolead = 3) = False := by decide
@[simp] theorem sevOf_fpNostream : (sevOf .fpNostream = 3) = False := by decide
@[simp] theorem sevOf_fpFormat : (sevOf .fpFormat = 3) = False := by decide
@[simp] theorem sevOf_fpLate : (sevOf .fpLate = 3) = False := by decide
@[simp] theorem sevOf_fpAuth : (sevOf .fpAuth = 3) = False := by decide
@[simp] theorem sevOf_fpOverload : (sevOf .fpOverload = 3) = False := by decide
@[simp] theorem sevOf_memCorrected : (sevOf .memCorrected = 3) = False := by decide
@[simp] theorem sevOf_memPoison : (sevOf .memPoison = 3) = False := by decide
@[simp] theorem sevOf_xbHang : (sevOf .xbHang = 3) = False := by decide
@[simp] theorem sevOf_weftCensus : (sevOf .weftCensus = 3) = False := by decide
@[simp] theorem sevOf_weftShort : (sevOf .weftShort = 3) = False := by decide
@[simp] theorem sevOf_weftContention : (sevOf .weftContention = 3) = False := by decide
@[simp] theorem sevOf_weftOpenled : (sevOf .weftOpenled = 3) = False := by decide
@[simp] theorem sevOf_weftSdo : (sevOf .weftSdo = 3) = False := by decide
@[simp] theorem sevOf_mkOpen : (sevOf .mkOpen = 3) = False := by decide
@[simp] theorem sevOf_mkShort : (sevOf .mkShort = 3) = False := by decide
@[simp] theorem sevOf_mkSupplyshort : (sevOf .mkSupplyshort = 3) = False := by decide
@[simp] theorem sevOf_mkGroupoff : (sevOf .mkGroupoff = 3) = False := by decide
@[simp] theorem sevOf_mkThermal : (sevOf .mkThermal = 3) = False := by decide
@[simp] theorem sevOf_audNonaudio : (sevOf .audNonaudio = 3) = False := by decide
@[simp] theorem sevOf_audUnderrun : (sevOf .audUnderrun = 3) = False := by decide
@[simp] theorem sevOf_audNosource : (sevOf .audNosource = 3) = False := by decide
@[simp] theorem sevOf_bobNoise : (sevOf .bobNoise = 3) = False := by decide
@[simp] theorem sevOf_bobAuth : (sevOf .bobAuth = 3) = False := by decide
@[simp] theorem sevOf_bobOverrun : (sevOf .bobOverrun = 3) = False := by decide
@[simp] theorem sevOf_cardProtocol : (sevOf .cardProtocol = 3) = False := by decide
@[simp] theorem sevOf_irEcho : (sevOf .irEcho = 3) = False := by decide
@[simp] theorem sevOf_lcResumed : (sevOf .lcResumed = 3) = False := by decide
@[simp] theorem sevOf_lcRefused : (sevOf .lcRefused = 3) = False := by decide
@[simp] theorem sevOf_keyVerify : (sevOf .keyVerify = 3) = False := by decide
@[simp] theorem sevOf_keySlots : (sevOf .keySlots = 3) = False := by decide
@[simp] theorem sevOf_dbgActive : (sevOf .dbgActive = 3) = False := by decide
@[simp] theorem sevOf_thWarn : (sevOf .thWarn = 3) = False := by decide
@[simp] theorem sevOf_thLimit : (sevOf .thLimit = 3) = False := by decide
@[simp] theorem sevOf_ageMargin : (sevOf .ageMargin = 3) = False := by decide
@[simp] theorem sevOf_fmOverflow : (sevOf .fmOverflow = 3) = False := by decide
@[simp] theorem sevOf_ldgAccess : (sevOf .ldgAccess = 3) = False := by decide

@[simp] theorem addResult_only (a0) (a1) (s x : State) (W) (w : Facet.within [.test] W = true) : Only W x (addResult
    a0 a1 s) = Only W x s := by
  refine Only.thru ?_ w x
  simp [addResult]

@[simp] theorem noteTest_only (a0) (a1) (s x : State) (W) (w : Facet.within [.test] W = true) : Only W x (noteTest a0
    a1 s) = Only W x s := by
  refine Only.thru ?_ w x
  unfold noteTest
  (repeat' split) <;> simp

@[simp] theorem ranAgain_only (a0) (s x : State) (W) (w : Facet.within [.test] W = true) : Only W x (ranAgain a0 s) =
    Only W x s := by
  refine Only.thru ?_ w x
  simp [ranAgain]

@[simp] theorem countUp_only (a0) (a1) (s x : State) (W) (w : Facet.within [.status] W = true) : Only W x (countUp a0
    a1 s) = Only W x s := by
  refine Only.thru ?_ w x
  simp [countUp]

@[simp] theorem queueOn_only (s x : State) (a0) (a1) (W) (w : Facet.within [.status, .sv] W = true) : Only W x
    (queueOn s a0 a1) = Only W x s := by
  refine Only.thru ?_ w x
  simp [queueOn]

@[simp] theorem sendOn_only (s x : State) (a0) (a1) (a2) (W) (w : Facet.within [.status, .sv] W = true) : Only W x
    (sendOn s a0 a1 a2) = Only W x s := by
  refine Only.thru ?_ w x
  simp [sendOn]

@[simp] theorem floodKnot_only (s x : State) (a0) (a1) (W) (w : Facet.within [.status, .sv] W = true) : Only W x
    (floodKnot s a0 a1) = Only W x s := by
  refine Only.thru ?_ w x
  simp [floodKnot]

@[simp] theorem floodBut_only (s x : State) (a0) (a1) (a2) (W) (w : Facet.within [.status, .sv] W = true) : Only W x
    (floodBut s a0 a1 a2) = Only W x s := by
  refine Only.thru ?_ w x
  simp [floodBut]

@[simp] theorem bumpSeq_only (s x : State) (a0) (W) (w : Facet.within [.disc] W = true) : Only W x (bumpSeq s a0) =
    Only W x s := by
  refine Only.thru ?_ w x
  simp [bumpSeq]

@[simp] theorem originFlood_only (s x : State) (a0) (a1) (W) (w : Facet.within [.status, .sv, .disc] W = true) : Only
    W x (originFlood s a0 a1) = Only W x s := by
  refine Only.thru ?_ w x
  simp [originFlood]

@[simp] theorem originUp_only (s x : State) (a0) (a1) (W) (w : Facet.within [.status, .sv, .disc] W = true) : Only W x
    (originUp s a0 a1) = Only W x s := by
  refine Only.thru ?_ w x
  unfold originUp
  (repeat' split) <;> simp

@[simp] theorem noteSeen_only (s x : State) (a0) (a1) (W) (w : Facet.within [.disc] W = true) : Only W x (noteSeen s
    a0 a1) = Only W x s := by
  refine Only.thru ?_ w x
  simp [noteSeen]

@[simp] theorem touchSeen_only (s x : State) (a0) (a1) (W) (w : Facet.within [.disc] W = true) : Only W x (touchSeen s
    a0 a1) = Only W x s := by
  refine Only.thru ?_ w x
  simp [touchSeen]

@[simp] theorem relayFlood_only (s x : State) (a0) (a1) (a2) (W) (w : Facet.within [.status, .sv] W = true) : Only W x
    (relayFlood s a0 a1 a2) = Only W x s := by
  refine Only.thru ?_ w x
  simp [relayFlood]

@[simp] theorem relayUp_only (s x : State) (a0) (a1) (W) (w : Facet.within [.status, .sv] W = true) : Only W x
    (relayUp s a0 a1) = Only W x s := by
  refine Only.thru ?_ w x
  unfold relayUp
  (repeat' split) <;> simp

@[simp] theorem discardKnot_only (a0) (a1) (a2) (s x : State) (W) (w : Facet.within [.status, .sv] W = true) : Only W
    x (discardKnot a0 a1 a2 s) = Only W x s := by
  refine Only.thru ?_ w x
  simp [discardKnot]

theorem acceptFlood_ignored {s u : State} {d : Dir} {t : KnotType} {b : List Byte} (h : acceptFlood s d t b = .ignored u) : Only [.status, .sv, .disc] s u := by
  unfold acceptFlood at h
  (repeat' split at h) <;> (first | (cases h; done) | (injection h with h; subst h)) <;> simp
theorem acceptFlood_taken {s u : State} {d : Dir} {t : KnotType} {b : List Byte} {x : Head} (h : acceptFlood s d t b = .taken u x) : Only [.status, .sv, .disc] s u := by
  unfold acceptFlood at h
  (repeat' split at h) <;> (first | (cases h; done) | (injection h with h; subst h)) <;> simp

theorem receiveFlood_ignored {s u : State} {d : Dir} {t : KnotType} {b : List Byte} (h : receiveFlood s d t b = .ignored u) : Only [.status, .sv, .disc] s u := by
  unfold receiveFlood at h
  (repeat' split at h) <;> (first | (cases h; done) | (injection h with h; subst h)) <;> first
    | exact acceptFlood_ignored ‹_›
    | (simp; exact acceptFlood_taken ‹_›)
theorem receiveFlood_taken {s u : State} {d : Dir} {t : KnotType} {b : List Byte} {x : Head} (h : receiveFlood s d t b = .taken u x) : Only [.status, .sv, .disc] s u := by
  unfold receiveFlood at h
  (repeat' split at h) <;> (first | (cases h; done) | (injection h with h; subst h)) <;> first
    | exact acceptFlood_ignored ‹_›
    | (simp; exact acceptFlood_taken ‹_›)

@[simp] theorem noteWallFault_only (s x : State) (a0) (W) (w : Facet.within [.disc] W = true) : Only W x
    (noteWallFault s a0) = Only W x s := by
  refine Only.thru ?_ w x
  simp [noteWallFault]

@[simp] theorem sendFaultBody_only (s x : State) (a0) (W) (w : Facet.within [.status, .sv, .disc] W = true) : Only W x
    (sendFaultBody s a0) = Only W x s := by
  refine Only.thru ?_ w x
  simp [sendFaultBody]

@[simp] theorem originFault_only (a0) (a1) (s x : State) (W) (w : Facet.within [.status, .sv, .disc] W = true) : Only
    W x (originFault a0 a1 s) = Only W x s := by
  refine Only.thru ?_ w x
  simp [originFault]

@[simp] theorem setPortQueue_only (s x : State) (a0) (a1) (W) (w : Facet.within [.net] W = true) : Only W x
    (setPortQueue s a0 a1) = Only W x s := by
  refine Only.thru ?_ w x
  simp [setPortQueue]

@[simp] theorem enqueueFrame_only (s x : State) (a0) (a1) (W) (w : Facet.within [.net] W = true) : Only W x
    (enqueueFrame s a0 a1).1 = Only W x s := by
  refine Only.thru ?_ w x
  unfold enqueueFrame
  dsimp only
  (repeat' split) <;> simp

@[simp] theorem originFrame_only (s x : State) (a0) (a1) (a2) (a3) (a4) (W) (w : Facet.within [.net] W = true) : Only
    W x (originFrame s a0 a1 a2 a3 a4) = Only W x s := by
  refine Only.thru ?_ w x
  simp [originFrame]

@[simp] theorem originOn_only (s x : State) (a0) (a1) (a2) (a3) (a4) (W) (w : Facet.within [.net] W = true) : Only W x
    (originOn s a0 a1 a2 a3 a4) = Only W x s := by
  refine Only.thru ?_ w x
  simp [originOn]

@[simp] theorem stormPass_only (a0) (s x : State) (W) (w : Facet.within [.net] W = true) : Only W x (stormPass a0 s).2
    = Only W x s := by
  refine Only.thru ?_ w x
  unfold stormPass
  dsimp only
  (repeat' split) <;> simp

@[simp] theorem limitedBy_only (a0) (a1) (s x : State) (W) (w : Facet.within [.net] W = true) (h : ∀ t, Only W t (a1 t)) :
    Only W x (limitedBy a0 a1 s) = Only W x s := by
  refine Only.thru (M := W) ?_ (Facet.within_self W) x
  unfold limitedBy
  have hs : Only W s (stormPass a0 s).2 := by simp [w]
  generalize stormPass a0 s = y at *
  obtain ⟨b, t⟩ := y
  cases b
  · exact hs
  · exact hs.trans (h t)

@[simp] theorem chargeShaper_only (s x : State) (a0) (a1) (W) (w : Facet.within [.net] W = true) : Only W x
    (chargeShaper s a0 a1) = Only W x s := by
  refine Only.thru ?_ w x
  simp [chargeShaper]

@[simp] theorem setDeficit_only (a0) (a1) (a2) (s x : State) (W) (w : Facet.within [.net] W = true) : Only W x
    (setDeficit a0 a1 a2 s) = Only W x s := by
  refine Only.thru ?_ w x
  simp [setDeficit]

theorem pickVideo_only {p : Port} {l : List Nat} {s : State} {r : Nat × State} (h : pickVideo p l s = some r) :
    Only [.net] s r.2 := by
  unfold pickVideo at h
  dsimp only at h
  split at h
  · cases h
    rename_i e
    split at e
    · split at e
      · cases e
        simp
      · cases e
    · cases e
  · split at h
    · cases h
    · simp only [Option.map_eq_some_iff] at h
      obtain ⟨q, -, rfl⟩ := h
      simp

theorem pickFrame_only {p : Port} {s : State} {r : Nat × State} (h : pickFrame s p = some r) : Only [.net] s r.2 := by
  unfold pickFrame at h
  split at h
  · cases h
  · exact pickVideo_only h
  · simp only [Option.map_eq_some_iff] at h
    obtain ⟨i, -, rfl⟩ := h
    simp

@[simp] theorem keepResidence_only (a0) (a1) (a2) (s x : State) (W) (w : Facet.within [.time] W = true) : Only W x
    (keepResidence a0 a1 a2 s) = Only W x s := by
  refine Only.thru ?_ w x
  simp [keepResidence]

@[simp] theorem relayPtp_only (a0) (a1) (a2) (a3) (s x : State) (W) (w : Facet.within [.status, .time] W = true) :
    Only W x (relayPtp a0 a1 a2 a3 s).1 = Only W x s := by
  refine Only.thru ?_ w x
  unfold relayPtp
  (repeat' split) <;> simp

@[simp] theorem stampDelayReq_only (a0) (a1) (s x : State) (W) (w : Facet.within [.time] W = true) : Only W x
    (stampDelayReq a0 a1 s).1 = Only W x s := by
  refine Only.thru ?_ w x
  simp [stampDelayReq]

@[simp] theorem leavePayload_only (a0) (a1) (s x : State) (W) (w : Facet.within [.status, .time] W = true) : Only W x
    (leavePayload a0 a1 s).1 = Only W x s := by
  refine Only.thru ?_ w x
  unfold leavePayload
  (repeat' split) <;> simp

@[simp] theorem leaveFrame_only (s x : State) (a0) (a1) (W) (w : Facet.within [.sent, .status, .net, .time] W = true)
    : Only W x (leaveFrame s a0 a1) = Only W x s := by
  refine Only.thru ?_ w x
  unfold leaveFrame
  (repeat' split) <;> simp

@[simp] theorem dropHeld_only (s x : State) (a0) (W) (w : Facet.within [.net] W = true) : Only W x (dropHeld s a0) =
    Only W x s := by
  refine Only.thru ?_ w x
  simp [dropHeld]

@[simp] theorem servePort_only (s x : State) (a0) (W) (w : Facet.within [.sent, .status, .net, .time] W = true) : Only W x
    (servePort s a0) = Only W x s := by
  refine Only.thru ?_ w x
  unfold servePort
  dsimp only
  split
  · simp
  · split
    · simp
    · rename_i h
      have hn := (pickFrame_only h).mono (W := [.sent, .status, .net, .time]) rfl
      simp only [leaveFrame_only, Facet.within_self]
      exact (by simp : Only [.sent, .status, .net, .time] s (dropHeld s a0)).trans hn

@[simp] theorem launchRecord_only (a0) (s x : State) (W) (w : Facet.within [.status, .net] W = true) : Only W x
    (launchRecord a0 s) = Only W x s := by
  refine Only.thru ?_ w x
  simp [launchRecord]

@[simp] theorem addEntry_only (a0) (s x : State) (W) (w : Facet.within [.flt] W = true) : Only W x (addEntry a0 s) =
    Only W x s := by
  refine Only.thru ?_ w x
  unfold addEntry
  (repeat' split) <;> simp

@[simp] theorem writeRing_only (a0) (a1) (a2) (s x : State) (W) (w : Facet.within [.flt] W = true) : Only W x
    (writeRing a0 a1 a2 s) = Only W x s := by
  refine Only.thru ?_ w x
  simp [writeRing]

@[simp] theorem countRaise_only (a0) (s x : State) (W) (w : Facet.within [.flt] W = true) : Only W x (countRaise a0 s)
    = Only W x s := by
  refine Only.thru ?_ w x
  simp [countRaise]

@[simp] theorem setActive_only (a0) (a1) (a2) (s x : State) (W) (w : Facet.within [.flt] W = true) : Only W x
    (setActive a0 a1 a2 s) = Only W x s := by
  refine Only.thru ?_ w x
  simp [setActive]

@[simp] theorem unsetActive_only (a0) (a1) (s x : State) (W) (w : Facet.within [.flt] W = true) : Only W x
    (unsetActive a0 a1 s) = Only W x s := by
  refine Only.thru ?_ w x
  simp [unsetActive]

@[simp] theorem noteRaise_only (a0) (a1) (a2) (s x : State) (W) (w : Facet.within [.flt, .weft] W = true) : Only W x
    (noteRaise a0 a1 a2 s) = Only W x s := by
  refine Only.thru ?_ w x
  simp [noteRaise]

@[simp] theorem writeQueued_only (a0) (s x : State) (W) (w : Facet.within [.flt] W = true) : Only W x (writeQueued a0
    s) = Only W x s := by
  refine Only.thru ?_ w x
  simp [writeQueued]

@[simp] theorem handle_only (a0) (s x : State) (W) (w : Facet.within [.flt, .status, .net, .sv, .disc, .bea] W = true)
    : Only W x (handle a0 s) = Only W x s := by
  refine Only.thru ?_ w x
  simp [handle]

@[simp] theorem submit_only (a0) (s x : State) (W) (w : Facet.within [.flt, .status, .net, .sv, .disc, .bea] W = true)
    : Only W x (submit a0 s) = Only W x s := by
  refine Only.thru ?_ w x
  simp [submit]

@[simp] theorem serveQueue_only (s x : State) (W) (w : Facet.within [.flt, .status, .net, .sv, .disc, .weft, .bea] W =
    true) : Only W x (serveQueue s) = Only W x s := by
  refine Only.thru ?_ w x
  unfold serveQueue
  (repeat' split) <;> simp

@[simp] theorem onOutputs_only (a0) (s x : State) (W) (w : Facet.within [.aud] W = true) : Only W x (onOutputs a0 s) =
    Only W x s := by
  refine Only.thru ?_ w x
  simp [onOutputs]

@[simp] theorem muteAll_only (a0) (a1) (s x : State) (W) (w : Facet.within [.aud] W = true) : Only W x (muteAll a0 a1
    s) = Only W x s := by
  refine Only.thru ?_ w x
  simp [muteAll]

@[simp] theorem unmuteAll_only (a0) (a1) (s x : State) (W) (w : Facet.within [.aud] W = true) : Only W x (unmuteAll a0
    a1 s) = Only W x s := by
  refine Only.thru ?_ w x
  simp [unmuteAll]

@[simp] theorem endSuite_only (s x : State) (W) (w : Facet.within [.test, .status, .net] W = true) : Only W x
    (endSuite s) = Only W x s := by
  refine Only.thru ?_ w x
  unfold endSuite
  (repeat' split) <;> simp

@[simp] theorem abortSuite_only (s x : State) (W) (w : Facet.within [.test] W = true) : Only W x (abortSuite s) = Only
    W x s := by
  refine Only.thru ?_ w x
  simp [abortSuite]

@[simp] theorem abortVisible_only (s x : State) (W) (w : Facet.within [.test, .status, .net, .aud] W = true) : Only W
    x (abortVisible s) = Only W x s := by
  refine Only.thru ?_ w x
  simp [abortVisible]

@[simp] theorem abortTests_only (s x : State) (W) (w : Facet.within [.test, .status, .net, .aud] W = true) : Only W x
    (abortTests s) = Only W x s := by
  refine Only.thru ?_ w x
  simp [abortTests]

@[simp] theorem enterSafe_only (s x : State) (W) (w : Facet.within [.test, .status, .net, .aud] W = true) : Only W x
    (enterSafe s) = Only W x s := by
  refine Only.thru ?_ w x
  simp [enterSafe]

@[simp] theorem ledgerStop_only (s x : State) (W) (w : Facet.within [.ldg, .weft] W = true) : Only W x (ledgerStop s)
    = Only W x s := by
  refine Only.thru ?_ w x
  unfold ledgerStop
  (repeat' split) <;> (try simp) <;> (refine Only.upd ?y ?h ?x; (case h => (intro p hp; cases p <;> first | exact absurd (by decide) hp | (dsimp only [sameFacet] <;> (repeat' apply And.intro) <;> rfl))); (case x => simp))

@[simp] theorem stopClock_only (s x : State) (W) (w : Facet.within [.pwr, .clk, .test, .status, .net, .aud] W = true)
    : Only W x (stopClock s) = Only W x s := by
  refine Only.thru ?_ w x
  unfold stopClock
  (repeat' split) <;> (try simp) <;> (refine Only.upd ?y ?h ?x; (case h => (intro p hp; cases p <;> first | exact absurd (by decide) hp | (dsimp only [sameFacet] <;> (repeat' apply And.intro) <;> rfl))); (case x => simp))

@[simp] theorem clearCore_only (s x : State) (W) (w : Facet.within [.test, .keys, .flt, .holds, .ldg, .status, .sens,
    .net, .time, .sv, .disc, .scene, .mem, .xb, .adm, .weft, .amb, .bri, .mark, .aud, .bob, .bea, .card, .dlg] W =
    true) : Only W x (clearCore s) = Only W x s := by
  refine Only.thru ?_ w x
  unfold clearCore
  (repeat' split) <;> (try simp) <;> (refine Only.upd ?y ?h ?x; (case h => (intro p hp; cases p <;> first | exact absurd (by decide) hp | (dsimp only [sameFacet] <;> (repeat' apply And.intro) <;> rfl))); (case x => simp))

@[simp] theorem loseCore_only (s x : State) (W) (w : Facet.within [.pwr, .clk, .test, .keys, .flt, .holds, .ldg,
    .status, .sens, .net, .time, .sv, .disc, .scene, .mem, .xb, .adm, .weft, .amb, .bri, .mark, .aud, .bob, .bea,
    .card, .dlg] W = true) : Only W x (loseCore s) = Only W x s := by
  refine Only.thru ?_ w x
  simp [loseCore]

@[simp] theorem enterSafeHold_only (s x : State) (W) (w : Facet.within [.pwr, .clk, .test, .flt, .holds, .status,
    .net, .aud] W = true) : Only W x (enterSafeHold s) = Only W x s := by
  refine Only.thru ?_ w x
  simp [enterSafeHold]

@[simp] theorem s3Safe_only (s x : State) (W) (w : Facet.within [.boot, .test, .flt, .holds, .ldg, .status, .net,
    .weft, .aud] W = true) : Only W x (s3Safe s) = Only W x s := by
  refine Only.thru ?_ w x
  simp [s3Safe]

@[simp] theorem beginHold_only (a0) (s x : State) (W) (w : Facet.within [.pwr, .clk, .test, .flt, .holds, .status,
    .net, .aud] W = true) : Only W x (beginHold a0 s) = Only W x s := by
  refine Only.thru ?_ w x
  unfold beginHold
  (repeat' split) <;> simp

@[simp] theorem s3Action_only (a0) (s x : State) (W) (w : Facet.within [.pwr, .clk, .test, .keys, .flt, .holds, .ldg,
    .status, .sens, .net, .time, .sv, .disc, .scene, .mem, .xb, .adm, .weft, .amb, .bri, .mark, .aud, .bob, .bea,
    .card, .dlg] W = true) : Only W x (s3Action a0 s) = Only W x s := by
  refine Only.thru ?_ w x
  unfold s3Action
  (repeat' split) <;> simp

@[simp] theorem handleS3_only (a0) (a1) (s x : State) (W) (w : Facet.within [.pwr, .clk, .boot, .test, .keys, .flt,
    .holds, .ldg, .status, .sens, .net, .time, .sv, .disc, .scene, .mem, .xb, .adm, .weft, .amb, .bri, .mark, .aud,
    .bob, .bea, .card, .dlg] W = true) : Only W x (handleS3 a0 a1 s) = Only W x s := by
  refine Only.thru ?_ w x
  simp [handleS3]

@[simp] theorem takeOver_only (a0) (s x : State) (W) (w : Facet.within [.pwr, .clk, .boot, .test, .keys, .flt, .holds,
    .ldg, .status, .sens, .net, .time, .sv, .disc, .scene, .mem, .xb, .adm, .weft, .amb, .bri, .mark, .aud, .bob,
    .bea, .card, .dlg] W = true) : Only W x (takeOver a0 s) = Only W x s := by
  refine Only.thru ?_ w x
  simp [takeOver]

@[simp] theorem raiseS3_only (a0) (a1) (s x : State) (W) (w : Facet.within [.pwr, .clk, .boot, .test, .keys, .flt,
    .holds, .ldg, .status, .sens, .net, .time, .sv, .disc, .scene, .mem, .xb, .adm, .weft, .amb, .bri, .mark, .aud,
    .bob, .bea, .card, .dlg] W = true) : Only W x (raiseS3 a0 a1 s) = Only W x s := by
  refine Only.thru ?_ w x
  unfold raiseS3
  (repeat' split) <;> simp

@[simp] theorem raise_only (a0) (a1) (s x : State) (W) (w : Facet.within [.pwr, .clk, .boot, .test, .keys, .flt,
    .holds, .ldg, .status, .sens, .net, .time, .sv, .disc, .scene, .mem, .xb, .adm, .weft, .amb, .bri, .mark, .aud,
    .bob, .bea, .card, .dlg] W = true) : Only W x (raise a0 a1 s) = Only W x s := by
  refine Only.thru ?_ w x
  simp [raise]

@[simp] theorem raise_only_low (a0) (a1) (s x : State) (W) (w : Facet.within [.flt, .status, .net, .sv, .disc, .weft, .bea] W = true) (h : sevOf a0 ≠ 3) :
    Only W x (raise a0 a1 s) = Only W x s := by
  refine Only.thru ?_ w x
  unfold raise
  (try simp only [h, if_false])
  (repeat' split) <;> simp [h]

@[simp] theorem clearKey_only (a0) (a1) (s x : State) (W) (w : Facet.within [.flt, .status, .net, .sv, .disc, .bea] W
    = true) : Only W x (clearKey a0 a1 s) = Only W x s := by
  refine Only.thru ?_ w x
  simp [clearKey]

@[simp] theorem clearFault_only (a0) (a1) (s x : State) (W) (w : Facet.within [.flt, .status, .net, .sv, .disc, .bea]
    W = true) : Only W x (clearFault a0 a1 s) = Only W x s := by
  refine Only.thru ?_ w x
  simp [clearFault]

@[simp] theorem clearAll_only (a0) (s x : State) (W) (w : Facet.within [.flt, .status, .net, .sv, .disc, .bea] W =
    true) : Only W x (clearAll a0 s) = Only W x s := by
  refine Only.thru ?_ w x
  simp [clearAll]

@[simp] theorem raiseLimited_only (a0) (a1) (a2) (a3) (s x : State) (W) (w : Facet.within [.pwr, .clk, .boot, .test,
    .keys, .flt, .holds, .ldg, .status, .sens, .net, .time, .sv, .disc, .scene, .mem, .xb, .adm, .weft, .amb, .bri,
    .mark, .aud, .bob, .bea, .card, .dlg] W = true) : Only W x (raiseLimited a0 a1 a2 a3 s) = Only W x s := by
  refine Only.thru ?_ w x
  unfold raiseLimited
  (repeat' split) <;> simp

@[simp] theorem raiseLimited_only_low (a0) (a1) (a2) (a3) (s x : State) (W) (w : Facet.within [.flt, .status, .net, .sv, .disc, .weft, .bea] W = true) (h : sevOf a0 ≠ 3) :
    Only W x (raiseLimited a0 a1 a2 a3 s) = Only W x s := by
  refine Only.thru ?_ w x
  unfold raiseLimited
  (try simp only [h, if_false])
  (repeat' split) <;> simp [h]

@[simp] theorem raiseDirect_only (a0) (a1) (s x : State) (W) (w : Facet.within [.flt, .weft] W = true) : Only W x
    (raiseDirect a0 a1 s) = Only W x s := by
  refine Only.thru ?_ w x
  simp [raiseDirect]

@[simp] theorem flushQueue_only (s x : State) (W) (w : Facet.within [.flt] W = true) : Only W x (flushQueue s) = Only
    W x s := by
  refine Only.thru ?_ w x
  simp [flushQueue]

@[simp] theorem endActive_only (s x : State) (W) (w : Facet.within [.flt] W = true) : Only W x (endActive s) = Only W
    x s := by
  refine Only.thru ?_ w x
  simp [endActive]

@[simp] theorem setBank_only (a0) (a1) (s x : State) (W) (w : Facet.within [.pwr] W = true) : Only W x (setBank a0 a1
    s) = Only W x s := by
  refine Only.thru ?_ w x
  unfold setBank
  (repeat' split) <;> simp

@[simp] theorem measureBank_only (a0) (a1) (s x : State) (W) (w : Facet.within [.pwr, .flt, .status, .net, .sv, .disc,
    .weft, .bea] W = true) : Only W x (measureBank a0 a1 s) = Only W x s := by
  refine Only.thru ?_ w x
  simp [measureBank]

@[simp] theorem measureBanks_only (a0) (s x : State) (W) (w : Facet.within [.pwr, .flt, .status, .net, .sv, .disc,
    .weft, .bea] W = true) : Only W x (measureBanks a0 s) = Only W x s := by
  refine Only.thru ?_ w x
  simp [measureBanks]

@[simp] theorem settlePower_only (s x : State) (W) (w : Facet.within [.flt, .status, .net, .sv, .disc, .bea] W = true)
    : Only W x (settlePower s) = Only W x s := by
  refine Only.thru ?_ w x
  simp [settlePower]

@[simp] theorem verifyPair_only (a0) (s x : State) (W) (w : Facet.within [.flt, .status, .net, .sv, .disc, .weft,
    .bea] W = true) : Only W x (verifyPair a0 s) = Only W x s := by
  refine Only.thru ?_ w x
  simp [verifyPair]

@[simp] theorem readPhase_only (s x : State) (W) (w : Facet.within [.keys, .lifecycle, .flt, .status, .net, .sv,
    .disc, .weft, .bea] W = true) : Only W x (readPhase s) = Only W x s := by
  refine Only.thru ?_ w x
  unfold readPhase
  dsimp only
  (repeat' split) <;> simp

@[simp] theorem readFuses_only (s x : State) (W) (w : Facet.within [.boot, .otp, .keys, .lifecycle, .flt, .status,
    .net, .sv, .disc, .weft, .bea] W = true) : Only W x (readFuses s) = Only W x s := by
  refine Only.thru ?_ w x
  unfold readFuses
  (repeat' split) <;> (try simp) <;> (refine Only.upd ?y ?h ?x; (case h => (intro p hp; cases p <;> first | exact absurd (by decide) hp | (dsimp only [sameFacet] <;> (repeat' apply And.intro) <;> rfl))); (case x => simp))

@[simp] theorem aonLost_only (s x : State) (W) (w : Facet.within [.pins, .straps, .live, .pwr, .supply, .standby,
    .clk, .boot, .test, .otp, .keys, .lifecycle, .flt, .holds, .ldg, .status, .sens, .net, .time, .sv, .disc, .scene,
    .mem, .xb, .sram, .adm, .weft, .amb, .bri, .mark, .aud, .bob, .bea, .card, .dlg] W = true) : Only W x (aonLost s)
    = Only W x s := by
  refine Only.thru ?_ w x
  refine Only.trans (t := s) (by simp) (fun p hp => ?_)
  cases p <;> simp_all [sameFacet, aonLost]

@[simp] theorem resetD0_only (s x : State) (W) (w : Facet.within [.pins, .straps, .live, .pwr, .standby, .clk, .keys,
    .lifecycle, .flt, .holds, .status, .net, .mark, .bob] W = true) : Only W x (resetD0 s) = Only W x s := by
  refine Only.thru ?_ w x
  unfold resetD0
  (repeat' split) <;> (try simp) <;> (refine Only.upd ?y ?h ?x; (case h => (intro p hp; cases p <;> first | exact absurd (by decide) hp | (dsimp only [sameFacet] <;> (repeat' apply And.intro) <;> rfl))); (case x => simp))

@[simp] theorem leaveStandby_only (s x : State) (W) (w : Facet.within [.standby] W = true) : Only W x (leaveStandby s)
    = Only W x s := by
  refine Only.thru ?_ w x
  unfold leaveStandby
  (repeat' split) <;> (try simp) <;> (refine Only.upd ?y ?h ?x; (case h => (intro p hp; cases p <;> first | exact absurd (by decide) hp | (dsimp only [sameFacet] <;> (repeat' apply And.intro) <;> rfl))); (case x => simp))

@[simp] theorem reraiseKept_only (a0) (s x : State) (W) (w : Facet.within [.flt, .status, .net, .sv, .disc, .weft,
    .bea] W = true) : Only W x (reraiseKept a0 s) = Only W x s := by
  refine Only.thru ?_ w x
  simp [reraiseKept]

@[simp] theorem sampleTestEn_only (a0) (s x : State) (W) (w : Facet.within [.pins, .keys, .lifecycle] W = true) : Only
    W x (sampleTestEn a0 s) = Only W x s := by
  refine Only.thru ?_ w x
  unfold sampleTestEn
  (repeat' split) <;> (try simp) <;> (refine Only.upd ?y ?h ?x; (case h => (intro p hp; cases p <;> first | exact absurd (by decide) hp | (dsimp only [sameFacet] <;> (repeat' apply And.intro) <;> rfl))); (case x => simp))

@[simp] theorem forgetModules_only (a0) (s x : State) (W) (w : Facet.within [.net] W = true) : Only W x (forgetModules
    a0 s) = Only W x s := by
  refine Only.thru ?_ w x
  unfold forgetModules
  (repeat' split) <;> simp

@[simp] theorem beginBringUp_only (a0) (a1) (a2) (s x : State) (W) (w : Facet.within [.straps, .live, .pwr, .supply,
    .standby, .clk, .boot, .test, .otp, .keys, .lifecycle, .flt, .holds, .ldg, .status, .sens, .net, .time, .sv,
    .disc, .scene, .mem, .xb, .adm, .weft, .amb, .bri, .mark, .aud, .bob, .bea, .card, .dlg] W = true) : Only W x
    (beginBringUp a0 a1 a2 s) = Only W x s := by
  refine Only.thru ?_ w x
  unfold beginBringUp
  (repeat' split) <;> (try simp) <;> (refine Only.upd ?y ?h ?x; (case h => (intro p hp; cases p <;> first | exact absurd (by decide) hp | (dsimp only [sameFacet] <;> (repeat' apply And.intro) <;> rfl))); (case x => simp))

@[simp] theorem reportProgress_only (s x : State) (W) (w : Facet.within [.boot] W = true) : Only W x (reportProgress
    s) = Only W x s := by
  refine Only.thru ?_ w x
  simp [reportProgress]

@[simp] theorem endSafe_only (s x : State) (W) (w : Facet.within [.flt, .holds, .aud] W = true) : Only W x (endSafe s)
    = Only W x s := by
  refine Only.thru ?_ w x
  simp [endSafe]

theorem execAonOn_only (a0) (a1) (s t : State) (h : execAonOn a0 a1 s = .next t) : Only [.pins, .straps, .live, .pwr,
    .supply, .standby, .clk, .boot, .test, .otp, .keys, .lifecycle, .flt, .holds, .ldg, .status, .sens, .net, .time,
    .sv, .disc, .scene, .mem, .xb, .sram, .adm, .weft, .amb, .bri, .mark, .aud, .bob, .bea, .card, .dlg] s t := by
  revert t h
  show OnlyOut _ _ _
  unfold execAonOn
  (repeat' split) <;> (try simp) <;> (refine Only.upd ?y ?h ?x; (case h => (intro p hp; cases p <;> first | exact absurd (by decide) hp | (dsimp only [sameFacet] <;> (repeat' apply And.intro) <;> rfl))); (case x => simp))

theorem execAonOff_only (s t : State) (h : execAonOff s = .next t) : Only [.pins, .straps, .live, .pwr, .supply,
    .standby, .clk, .boot, .test, .otp, .keys, .lifecycle, .flt, .holds, .ldg, .status, .sens, .net, .time, .sv,
    .disc, .scene, .mem, .xb, .sram, .adm, .weft, .amb, .bri, .mark, .aud, .bob, .bea, .card, .dlg] s t := by
  revert t h
  show OnlyOut _ _ _
  simp [execAonOff]

@[simp] theorem abortFuse_only (a0) (s x : State) (W) (w : Facet.within [.otp, .fuse, .keys, .lifecycle] W = true) :
    Only W x (abortFuse a0 s) = Only W x s := by
  refine Only.thru ?_ w x
  unfold abortFuse
  (repeat' split) <;> simp

@[simp] theorem brownout_only (a0) (a1) (s x : State) (W) (w : Facet.within [.pwr, .supply, .clk, .boot, .test, .otp,
    .fuse, .keys, .lifecycle, .flt, .holds, .ldg, .status, .sens, .net, .time, .sv, .disc, .scene, .mem, .xb, .adm,
    .weft, .amb, .bri, .mark, .aud, .bob, .bea, .card, .dlg] W = true) : Only W x (brownout a0 a1 s) = Only W x s :=
    by
  refine Only.thru ?_ w x
  simp [brownout]

theorem execVinBrownout_only (a0) (s t : State) (h : execVinBrownout a0 s = .next t) : Only [.pwr, .supply, .clk,
    .boot, .test, .otp, .fuse, .keys, .lifecycle, .flt, .holds, .ldg, .status, .sens, .net, .time, .sv, .disc, .scene,
    .mem, .xb, .adm, .weft, .amb, .bri, .mark, .aud, .bob, .bea, .card, .dlg] s t := by
  revert t h
  show OnlyOut _ _ _
  simp [execVinBrownout]

@[simp] theorem checkBrownout_only (a0) (s x : State) (W) (w : Facet.within [.pwr, .standby, .clk, .boot, .test,
    .keys, .flt, .holds, .ldg, .status, .sens, .net, .time, .sv, .disc, .scene, .mem, .xb, .adm, .weft, .amb, .bri,
    .mark, .aud, .bob, .bea, .card, .dlg] W = true) : Only W x (checkBrownout a0 s) = Only W x s := by
  refine Only.thru ?_ w x
  unfold checkBrownout
  (repeat' split) <;> (try simp) <;> (refine Only.upd ?y ?h ?x; (case h => (intro p hp; cases p <;> first | exact absurd (by decide) hp | (dsimp only [sameFacet] <;> (repeat' apply And.intro) <;> rfl))); (case x => simp))

theorem execRailBrownout_only (a0) (a1) (s t : State) (h : execRailBrownout a0 a1 s = .next t) : Only [.pwr, .supply,
    .standby, .clk, .boot, .test, .otp, .fuse, .keys, .lifecycle, .flt, .holds, .ldg, .status, .sens, .net, .time,
    .sv, .disc, .scene, .mem, .xb, .adm, .weft, .amb, .bri, .mark, .aud, .bob, .bea, .card, .dlg] s t := by
  revert t h
  show OnlyOut _ _ _
  simp [execRailBrownout]

theorem execStandbyBrownout_only (s t : State) (h : execStandbyBrownout s = .next t) : Only [.pwr, .clk, .boot, .test,
    .keys, .flt, .holds, .ldg, .status, .sens, .net, .time, .sv, .disc, .scene, .mem, .xb, .adm, .weft, .amb, .bri,
    .mark, .aud, .bob, .bea, .card, .dlg] s t := by
  revert t h
  show OnlyOut _ _ _
  simp [execStandbyBrownout]

@[simp] theorem s3Restart_only (a0) (a1) (s x : State) (W) (w : Facet.within [.straps, .live, .pwr, .supply, .standby,
    .clk, .boot, .test, .otp, .keys, .lifecycle, .flt, .holds, .ldg, .status, .sens, .net, .time, .sv, .disc, .scene,
    .mem, .xb, .adm, .weft, .amb, .bri, .mark, .aud, .bob, .bea, .card, .dlg] W = true) : Only W x (s3Restart a0 a1 s)
    = Only W x s := by
  refine Only.thru ?_ w x
  simp [s3Restart]

theorem execBrownoutRestart_only (a0) (s t : State) (h : execBrownoutRestart a0 s = .next t) : Only [.straps, .live,
    .pwr, .supply, .standby, .clk, .boot, .test, .otp, .keys, .lifecycle, .flt, .holds, .ldg, .status, .sens, .net,
    .time, .sv, .disc, .scene, .mem, .xb, .adm, .weft, .amb, .bri, .mark, .aud, .bob, .bea, .card, .dlg] s t := by
  revert t h
  show OnlyOut _ _ _
  unfold execBrownoutRestart
  dsimp only
  (repeat' split) <;> simp

@[simp] theorem completePair_only (s x : State) (W) (w : Facet.within [.otp, .fuse, .keys, .lifecycle] W = true) :
    Only W x (completePair s) = Only W x s := by
  refine Only.thru ?_ w x
  unfold completePair
  (repeat' split) <;> simp

theorem execResetNAssert_only (s t : State) (h : execResetNAssert s = .next t) : Only [.pins, .straps, .live, .pwr,
    .standby, .clk, .boot, .test, .otp, .fuse, .keys, .lifecycle, .flt, .holds, .ldg, .status, .sens, .net, .time,
    .sv, .disc, .scene, .mem, .xb, .adm, .weft, .amb, .bri, .mark, .aud, .bob, .bea, .card, .dlg] s t := by
  revert t h
  show OnlyOut _ _ _
  unfold execResetNAssert
  (repeat' split) <;> (try simp) <;> (refine Only.upd ?y ?h ?x; (case h => (intro p hp; cases p <;> first | exact absurd (by decide) hp | (dsimp only [sameFacet] <;> (repeat' apply And.intro) <;> rfl))); (case x => simp))

theorem execResetNRelease_only (a0) (a1) (s t : State) (h : execResetNRelease a0 a1 s = .next t) : Only [.pins,
    .straps, .live, .pwr, .supply, .standby, .clk, .boot, .test, .otp, .keys, .lifecycle, .flt, .holds, .ldg, .status,
    .sens, .net, .time, .sv, .disc, .scene, .mem, .xb, .adm, .weft, .amb, .bri, .mark, .aud, .bob, .bea, .card, .dlg]
    s t := by
  revert t h
  show OnlyOut _ _ _
  simp [execResetNRelease]

@[simp] theorem bankWaits_only (a0) (a1) (a2) (s x : State) (W) (w : Facet.within [.pwr] W = true) : Only W x
    (bankWaits a0 a1 a2 s).1 = Only W x s := by
  refine Only.thru ?_ w x
  unfold bankWaits
  dsimp only
  (repeat' split) <;> simp

@[simp] theorem recensusAll_only (s x : State) (W) (w : Facet.within [.weft] W = true) : Only W x (recensusAll s) =
    Only W x s := by
  refine Only.thru ?_ w x
  simp [recensusAll]

theorem execBankRemeasure_only (a0) (a1) (s t : State) (h : execBankRemeasure a0 a1 s = .next t) : Only [.pwr, .flt,
    .status, .net, .sv, .disc, .weft, .bea] s t := by
  revert t h
  show OnlyOut _ _ _
  simp [execBankRemeasure]

@[simp] theorem startSwitch_only (a0) (s x : State) (W) (w : Facet.within [.pwr, .clk, .boot] W = true) : Only W x
    (startSwitch a0 s) = Only W x s := by
  refine Only.thru ?_ w x
  simp [startSwitch]

theorem execDomainSwitchOn_only (s t : State) (h : execDomainSwitchOn s = .next t) : Only [.pwr, .clk, .boot] s t :=
    by
  revert t h
  show OnlyOut _ _ _
  unfold execDomainSwitchOn
  (repeat' split) <;> simp

theorem execDomainSwitchTimeout_only (a0) (s t : State) (h : execDomainSwitchTimeout a0 s = .next t) : Only [.pwr,
    .flt, .status, .net, .sv, .disc, .weft, .bea] s t := by
  revert t h
  show OnlyOut _ _ _
  unfold execDomainSwitchTimeout
  (repeat' split) <;> simp

theorem execDomainRetry_only (a0) (s t : State) (h : execDomainRetry a0 s = .next t) : Only [.pwr, .clk, .boot] s t :=
    by
  revert t h
  show OnlyOut _ _ _
  simp [execDomainRetry]

@[simp] theorem abandonTests_only (a0) (s x : State) (W) (w : Facet.within [.test, .weft] W = true) : Only W x
    (abandonTests a0 s) = Only W x s := by
  refine Only.thru ?_ w x
  simp [abandonTests]

theorem execDomainGateOff_only (a0) (s t : State) (h : execDomainGateOff a0 s = .next t) : Only [.pwr, .test, .weft] s
    t := by
  revert t h
  show OnlyOut _ _ _
  simp [execDomainGateOff]

@[simp] theorem trackGating_only (s x : State) (W) (w : Facet.within [.pwr] W = true) : Only W x (trackGating s) =
    Only W x s := by
  refine Only.thru ?_ w x
  simp [trackGating]

@[simp] theorem setVcore_only (a0) (s x : State) (W) (w : Facet.within [.pwr] W = true) : Only W x (setVcore a0 s) =
    Only W x s := by
  refine Only.thru ?_ w x
  simp [setVcore]

@[simp] theorem moveRail_only (s x : State) (W) (w : Facet.within [.pwr] W = true) : Only W x (moveRail s) = Only W x
    s := by
  refine Only.thru ?_ w x
  simp [moveRail]

@[simp] theorem ageFault_only (a0) (a1) (a2) (s x : State) (W) (w : Facet.within [.flt, .status, .net, .sv, .disc,
    .weft, .bea] W = true) : Only W x (ageFault a0 a1 a2 s) = Only W x s := by
  refine Only.thru ?_ w x
  simp [ageFault]

theorem execVcoreInitialSet_only (a0) (a1) (s t : State) (h : execVcoreInitialSet a0 a1 s = .next t) : Only [.pwr,
    .flt, .status, .net, .sv, .disc, .weft, .bea] s t := by
  revert t h
  show OnlyOut _ _ _
  simp [execVcoreInitialSet]

theorem execAgeingMeasure_only (a0) (a1) (s t : State) (h : execAgeingMeasure a0 a1 s = .next t) : Only [.pwr, .test,
    .flt, .status, .net, .sv, .disc, .weft, .bea] s t := by
  revert t h
  show OnlyOut _ _ _
  simp [execAgeingMeasure]

theorem execBuckPhaseChange_only (a0) (s t : State) (h : execBuckPhaseChange a0 s = .next t) : Only [.pwr] s t := by
  revert t h
  show OnlyOut _ _ _
  simp [execBuckPhaseChange]

@[simp] theorem xtalFault_only (a0) (s x : State) (W) (w : Facet.within [.pwr, .clk, .boot, .test, .keys, .flt,
    .holds, .ldg, .status, .sens, .net, .time, .sv, .disc, .scene, .mem, .xb, .adm, .weft, .amb, .bri, .mark, .aud,
    .bob, .bea, .card, .dlg] W = true) : Only W x (xtalFault a0 s) = Only W x s := by
  refine Only.thru ?_ w x
  simp [xtalFault]

@[simp] theorem powerD1D2_only (s x : State) (W) (w : Facet.within [.pwr, .clk, .boot] W = true) : Only W x (powerD1D2
    s) = Only W x s := by
  refine Only.thru ?_ w x
  unfold powerD1D2
  (repeat' split) <;> (try simp) <;> (refine Only.upd ?y ?h ?x; (case h => (intro p hp; cases p <;> first | exact absurd (by decide) hp | (dsimp only [sameFacet] <;> (repeat' apply And.intro) <;> rfl))); (case x => simp))

theorem execD1d2SwitchOn_only (a0) (s t : State) (h : execD1d2SwitchOn a0 s = .next t) : Only [.pwr, .clk, .boot,
    .test, .keys, .flt, .holds, .ldg, .status, .sens, .net, .time, .sv, .disc, .scene, .mem, .xb, .adm, .weft, .amb,
    .bri, .mark, .aud, .bob, .bea, .card, .dlg] s t := by
  revert t h
  show OnlyOut _ _ _
  simp [execD1d2SwitchOn]

@[simp] theorem startSweep_only (s x : State) (W) (w : Facet.within [.clk] W = true) : Only W x (startSweep s) = Only
    W x s := by
  refine Only.thru ?_ w x
  simp [startSweep]

theorem execMdllLock_only (a0) (s t : State) (h : execMdllLock a0 s = .next t) : Only [.pwr, .clk, .boot, .sram] s t
    := by
  revert t h
  show OnlyOut _ _ _
  unfold execMdllLock
  (repeat' split) <;> (try simp) <;> (refine Only.upd ?y ?h ?x; (case h => (intro p hp; cases p <;> first | exact absurd (by decide) hp | (dsimp only [sameFacet] <;> (repeat' apply And.intro) <;> rfl))); (case x => simp))

@[simp] theorem unlockFault_only (a0) (s x : State) (W) (w : Facet.within [.pwr, .clk, .boot, .test, .keys, .flt,
    .holds, .ldg, .status, .sens, .net, .time, .sv, .disc, .scene, .mem, .xb, .adm, .weft, .amb, .bri, .mark, .aud,
    .bob, .bea, .card, .dlg] W = true) : Only W x (unlockFault a0 s) = Only W x s := by
  refine Only.thru ?_ w x
  simp [unlockFault]

theorem execMdllLossOfLock_only (a0) (s t : State) (h : execMdllLossOfLock a0 s = .next t) : Only [.pwr, .clk, .boot,
    .test, .keys, .flt, .holds, .ldg, .status, .sens, .net, .time, .sv, .disc, .scene, .mem, .xb, .adm, .weft, .amb,
    .bri, .mark, .aud, .bob, .bea, .card, .dlg] s t := by
  revert t h
  show OnlyOut _ _ _
  simp [execMdllLossOfLock]

theorem execMdllLockTimeout_only (a0) (s t : State) (h : execMdllLockTimeout a0 s = .next t) : Only [.pwr, .clk,
    .boot, .test, .keys, .flt, .holds, .ldg, .status, .sens, .net, .time, .sv, .disc, .scene, .mem, .xb, .adm, .weft,
    .amb, .bri, .mark, .aud, .bob, .bea, .card, .dlg] s t := by
  revert t h
  show OnlyOut _ _ _
  simp [execMdllLockTimeout]

theorem execReferenceEdgeMissing_only (s t : State) (h : execReferenceEdgeMissing s = .next t) : Only [.pwr, .clk,
    .boot, .test, .keys, .flt, .holds, .ldg, .status, .sens, .net, .time, .sv, .disc, .scene, .mem, .xb, .adm, .weft,
    .amb, .bri, .mark, .aud, .bob, .bea, .card, .dlg] s t := by
  revert t h
  show OnlyOut _ _ _
  simp [execReferenceEdgeMissing]

theorem execReferenceRecheck_only (a0) (s t : State) (h : execReferenceRecheck a0 s = .next t) : Only [.clk, .flt,
    .holds] s t := by
  revert t h
  show OnlyOut _ _ _
  unfold execReferenceRecheck
  first
    | ((repeat' split) <;> (simp (maxDischargeDepth := 9); done))
    | ((repeat' split) <;> (try simp (maxDischargeDepth := 9)) <;> first | ((with_reducible refine Eq.mpr (Only.foldl _ _ _ _ _ ?h) ?x); (case h => (intro t a; (try dsimp only); (repeat' split) <;> (simp (maxDischargeDepth := 9); done))); (case x => (simp (maxDischargeDepth := 9); done))) | (refine Only.upd ?y ?h ?x; (case h => (intro p hp; cases p <;> first | exact absurd (by decide) hp | (dsimp only [sameFacet] <;> (repeat' apply And.intro) <;> rfl))); (case x => simp)))
    | ((try dsimp only) <;> (repeat' split) <;> first | (simp (maxDischargeDepth := 9); done) | ((with_reducible refine Eq.mpr (Only.foldl _ _ _ _ _ ?h) ?x); (case h => (intro t a; (try dsimp only); (repeat' split) <;> (simp (maxDischargeDepth := 9); done))); (case x => (simp (maxDischargeDepth := 9); done))) | ((try simp (maxDischargeDepth := 9)) <;> (refine Only.upd ?y ?h ?x; (case h => (intro p hp; cases p <;> first | exact absurd (by decide) hp | (dsimp only [sameFacet] <;> (repeat' apply And.intro) <;> rfl))); (case x => simp))))
    | ((try simp (maxDischargeDepth := 9)) <;> (repeat' split) <;> first | (simp (maxDischargeDepth := 9); done) | ((with_reducible refine Eq.mpr (Only.foldl _ _ _ _ _ ?h) ?x); (case h => (intro t a; (try dsimp only); (repeat' split) <;> (simp (maxDischargeDepth := 9); done))); (case x => (simp (maxDischargeDepth := 9); done))))

@[simp] theorem useSlowCrystal_only (s x : State) (W) (w : Facet.within [.clk, .flt, .status, .net, .sv, .disc, .bea]
    W = true) : Only W x (useSlowCrystal s) = Only W x s := by
  refine Only.thru ?_ w x
  simp [useSlowCrystal]

@[simp] theorem takeCrystal_only (s x : State) (W) (w : Facet.within [.clk, .flt, .status, .net, .sv, .disc, .bea] W =
    true) : Only W x (takeCrystal s) = Only W x s := by
  refine Only.thru ?_ w x
  simp [takeCrystal]

theorem execSlowCrystalConfirm_only (a0) (s t : State) (h : execSlowCrystalConfirm a0 s = .next t) : Only [.clk, .flt,
    .status, .net, .sv, .disc, .bea] s t := by
  revert t h
  show OnlyOut _ _ _
  simp [execSlowCrystalConfirm]

@[simp] theorem substituteSlow_only (s x : State) (W) (w : Facet.within [.clk] W = true) : Only W x (substituteSlow s)
    = Only W x s := by
  refine Only.thru ?_ w x
  simp [substituteSlow]

@[simp] theorem takeOscillator_only (a0) (s x : State) (W) (w : Facet.within [.clk, .flt, .status, .net, .sv, .disc,
    .weft, .bea] W = true) : Only W x (takeOscillator a0 s) = Only W x s := by
  refine Only.thru ?_ w x
  simp [takeOscillator]

@[simp] theorem settleSlow_only (s x : State) (W) (w : Facet.within [.clk, .flt, .status, .net, .sv, .disc, .weft,
    .bea] W = true) : Only W x (settleSlow s) = Only W x s := by
  refine Only.thru ?_ w x
  unfold settleSlow
  (repeat' split) <;> simp

@[simp] theorem settleAfterPair_only (s x : State) (W) (w : Facet.within [.clk, .flt, .status, .net, .sv, .disc,
    .weft, .bea] W = true) : Only W x (settleAfterPair s) = Only W x s := by
  refine Only.thru ?_ w x
  simp [settleAfterPair]

@[simp] theorem settleSlowDue_only (s x : State) (W) (w : Facet.within [.clk, .flt, .status, .net, .sv, .disc, .weft,
    .bea] W = true) : Only W x (settleSlowDue s) = Only W x s := by
  refine Only.thru ?_ w x
  simp [settleSlowDue]

theorem execSlowClockFault_only (a0) (s t : State) (h : execSlowClockFault a0 s = .next t) : Only [.clk, .flt,
    .status, .net, .sv, .disc, .weft, .bea] s t := by
  revert t h
  show OnlyOut _ _ _
  unfold execSlowClockFault
  (repeat' split) <;> simp

theorem execSlowOscTrim_only (s t : State) (h : execSlowOscTrim s = .next t) : Only [.clk] s t := by
  revert t h
  show OnlyOut _ _ _
  simp [execSlowOscTrim]

theorem execSlowCrystalRecheck_only (a0) (s t : State) (h : execSlowCrystalRecheck a0 s = .next t) : Only [.clk, .flt,
    .status, .net, .sv, .disc, .bea] s t := by
  revert t h
  show OnlyOut _ _ _
  simp [execSlowCrystalRecheck]

@[simp] theorem wake_only (a0) (s x : State) (W) (w : Facet.within [.straps, .live, .pwr, .supply, .standby, .clk,
    .boot, .test, .otp, .keys, .lifecycle, .flt, .holds, .ldg, .status, .sens, .net, .time, .sv, .disc, .scene, .mem,
    .xb, .adm, .weft, .amb, .bri, .mark, .aud, .bob, .bea, .card, .dlg] W = true) : Only W x (wake a0 s) = Only W x s
    := by
  refine Only.thru ?_ w x
  simp [wake]

theorem execStandbySlowCrystalStop_only (a0) (s t : State) (h : execStandbySlowCrystalStop a0 s = .next t) : Only
    [.straps, .live, .pwr, .supply, .standby, .clk, .boot, .test, .otp, .keys, .lifecycle, .flt, .holds, .ldg,
    .status, .sens, .net, .time, .sv, .disc, .scene, .mem, .xb, .adm, .weft, .amb, .bri, .mark, .aud, .bob, .bea,
    .card, .dlg] s t := by
  revert t h
  show OnlyOut _ _ _
  simp [execStandbySlowCrystalStop]

theorem execSeqWatchdogExpiry_only (s t : State) (h : execSeqWatchdogExpiry s = .next t) : Only [.pwr, .clk, .boot,
    .test, .keys, .flt, .holds, .ldg, .status, .sens, .net, .time, .sv, .disc, .scene, .mem, .xb, .adm, .weft, .amb,
    .bri, .mark, .aud, .bob, .bea, .card, .dlg] s t := by
  revert t h
  show OnlyOut _ _ _
  simp [execSeqWatchdogExpiry]

@[simp] theorem startLedger_only (a0) (s x : State) (W) (w : Facet.within [.ldg] W = true) : Only W x (startLedger a0
    s) = Only W x s := by
  refine Only.thru ?_ w x
  unfold startLedger
  (repeat' split) <;> simp

@[simp] theorem nextLedger_only (s x : State) (W) (w : Facet.within [.ldg] W = true) : Only W x (nextLedger s) = Only
    W x s := by
  refine Only.thru ?_ w x
  unfold nextLedger
  (repeat' split) <;> simp

@[simp] theorem startMirror_only (a0) (s x : State) (W) (w : Facet.within [.ldg] W = true) : Only W x (startMirror a0
    s) = Only W x s := by
  refine Only.thru ?_ w x
  simp [startMirror]

@[simp] theorem finishMirror_only (s x : State) (W) (w : Facet.within [.flt, .ldg] W = true) : Only W x (finishMirror
    s) = Only W x s := by
  refine Only.thru ?_ w x
  unfold finishMirror
  (repeat' split) <;> (try simp) <;> (refine Only.upd ?y ?h ?x; (case h => (intro p hp; cases p <;> first | exact absurd (by decide) hp | (dsimp only [sameFacet] <;> (repeat' apply And.intro) <;> rfl))); (case x => simp))

@[simp] theorem startFlush_only (s x : State) (W) (w : Facet.within [.ldg, .weft] W = true) : Only W x (startFlush s)
    = Only W x s := by
  refine Only.thru ?_ w x
  unfold startFlush
  (repeat' split) <;> (try simp) <;> (refine Only.upd ?y ?h ?x; (case h => (intro p hp; cases p <;> first | exact absurd (by decide) hp | (dsimp only [sameFacet] <;> (repeat' apply And.intro) <;> rfl))); (case x => simp))

@[simp] theorem finishFlush_only (s x : State) (W) (w : Facet.within [.ldg, .weft] W = true) : Only W x (finishFlush
    s) = Only W x s := by
  refine Only.thru ?_ w x
  unfold finishFlush
  (repeat' split) <;> (try simp) <;> (refine Only.upd ?y ?h ?x; (case h => (intro p hp; cases p <;> first | exact absurd (by decide) hp | (dsimp only [sameFacet] <;> (repeat' apply And.intro) <;> rfl))); (case x => simp))

@[simp] theorem noteIdentity_only (s x : State) (W) (w : Facet.within [.ldg] W = true) : Only W x (noteIdentity s) =
    Only W x s := by
  refine Only.thru ?_ w x
  simp [noteIdentity]

@[simp] theorem noteCensus_only (s x : State) (W) (w : Facet.within [.ldg] W = true) : Only W x (noteCensus s) = Only
    W x s := by
  refine Only.thru ?_ w x
  simp [noteCensus]

@[simp] theorem setSeq_only (a0) (s x : State) (W) (w : Facet.within [.keys, .lifecycle] W = true) : Only W x (setSeq
    a0 s) = Only W x s := by
  refine Only.thru ?_ w x
  simp [setSeq]

@[simp] theorem noSeq_only (s x : State) (W) (w : Facet.within [.keys, .lifecycle] W = true) : Only W x (noSeq s) =
    Only W x s := by
  refine Only.thru ?_ w x
  simp [noSeq]

@[simp] theorem markHot_only (a0) (s x : State) (W) (w : Facet.within [.keys, .lifecycle] W = true) : Only W x
    (markHot a0 s) = Only W x s := by
  refine Only.thru ?_ w x
  unfold markHot
  (repeat' split) <;> simp

@[simp] theorem decideOutcome_only (a0) (s x : State) (W) (w : Facet.within [.dlg] W = true) : Only W x (decideOutcome
    a0 s) = Only W x s := by
  refine Only.thru ?_ w x
  simp [decideOutcome]

@[simp] theorem refuseOrder_only (a0) (s x : State) (W) (w : Facet.within [.flt, .status, .net, .sv, .disc, .weft,
    .bea, .dlg] W = true) : Only W x (refuseOrder a0 s) = Only W x s := by
  refine Only.thru ?_ w x
  simp [refuseOrder]

@[simp] theorem reportSlots_only (s x : State) (W) (w : Facet.within [.flt, .status, .net, .sv, .disc, .weft, .bea] W
    = true) : Only W x (reportSlots s) = Only W x s := by
  refine Only.thru ?_ w x
  simp [reportSlots]

@[simp] theorem dropOrder_only (a0) (s x : State) (W) (w : Facet.within [.keys, .lifecycle] W = true) : Only W x
    (dropOrder a0 s) = Only W x s := by
  refine Only.thru ?_ w x
  unfold dropOrder
  (repeat' split) <;> simp

@[simp] theorem beginIntent_only (a0) (s x : State) (W) (w : Facet.within [.keys, .lifecycle, .flt, .status, .net,
    .sv, .disc, .weft, .bea, .dlg] W = true) : Only W x (beginIntent a0 s) = Only W x s := by
  refine Only.thru ?_ w x
  unfold beginIntent
  (repeat' split) <;> simp

@[simp] theorem endStaging_only (a0) (s x : State) (W) (w : Facet.within [.keys, .lifecycle, .flt, .status, .net, .sv,
    .disc, .weft, .bea, .dlg] W = true) : Only W x (endStaging a0 s) = Only W x s := by
  refine Only.thru ?_ w x
  unfold endStaging
  (repeat' split) <;> simp

@[simp] theorem afterFlush_only (a0) (s x : State) (W) (w : Facet.within [.keys, .lifecycle, .flt, .status, .net, .sv,
    .disc, .weft, .bea, .dlg] W = true) : Only W x (afterFlush a0 s) = Only W x s := by
  refine Only.thru ?_ w x
  unfold afterFlush
  (repeat' split) <;> simp

@[simp] theorem carriedOut_only (a0) (s x : State) (W) (w : Facet.within [.keys, .lifecycle, .dlg] W = true) : Only W
    x (carriedOut a0 s) = Only W x s := by
  refine Only.thru ?_ w x
  simp [carriedOut]

@[simp] theorem destroyOldSlot_only (a0) (a1) (s x : State) (W) (w : Facet.within [.keys, .lifecycle] W = true) : Only
    W x (destroyOldSlot a0 a1 s) = Only W x s := by
  refine Only.thru ?_ w x
  simp [destroyOldSlot]

@[simp] theorem beginRetag_only (a0) (a1) (s x : State) (W) (w : Facet.within [.keys, .lifecycle, .ldg] W = true) :
    Only W x (beginRetag a0 a1 s) = Only W x s := by
  refine Only.thru ?_ w x
  simp [beginRetag]

@[simp] theorem nextStage_only (a0) (s x : State) (W) (w : Facet.within [.keys, .lifecycle, .flt, .ldg, .status, .net,
    .sv, .disc, .weft, .bea, .dlg] W = true) : Only W x (nextStage a0 s) = Only W x s := by
  refine Only.thru ?_ w x
  unfold nextStage
  (repeat' split) <;> simp

@[simp] theorem ledgerFreed_only (s x : State) (W) (w : Facet.within [.keys, .lifecycle, .flt, .ldg, .status, .net,
    .sv, .disc, .weft, .bea, .dlg] W = true) : Only W x (ledgerFreed s) = Only W x s := by
  refine Only.thru ?_ w x
  unfold ledgerFreed
  (repeat' split) <;> simp

@[simp] theorem startTransition_only (a0) (a1) (s x : State) (W) (w : Facet.within [.keys, .lifecycle, .flt, .ldg,
    .status, .net, .sv, .disc, .weft, .bea, .dlg] W = true) : Only W x (startTransition a0 a1 s) = Only W x s := by
  refine Only.thru ?_ w x
  simp [startTransition]

@[simp] theorem startRotation_only (a0) (a1) (a2) (s x : State) (W) (w : Facet.within [.keys, .lifecycle, .flt,
    .status, .net, .sv, .disc, .weft, .bea, .dlg] W = true) : Only W x (startRotation a0 a1 a2 s) = Only W x s := by
  refine Only.thru ?_ w x
  simp [startRotation]

@[simp] theorem burnPair_only (a0) (a1) (s x : State) (W) (w : Facet.within [.otp, .fuse] W = true) : Only W x
    (burnPair a0 a1 s) = Only W x s := by
  refine Only.thru ?_ w x
  unfold burnPair
  (repeat' split) <;> (try simp) <;> (refine Only.upd ?y ?h ?x; (case h => (intro p hp; cases p <;> first | exact absurd (by decide) hp | (dsimp only [sameFacet] <;> (repeat' apply And.intro) <;> rfl))); (case x => simp))

theorem execFusePairDone_only (a0) (a1) (s t : State) (h : execFusePairDone a0 a1 s = .next t) : Only [.clk, .otp,
    .fuse, .keys, .lifecycle, .flt, .ldg, .status, .net, .sv, .disc, .weft, .bea, .dlg] s t := by
  revert t h
  show OnlyOut _ _ _
  unfold execFusePairDone
  (repeat' split) <;> simp

theorem execFuseSequenceTempWaitEnd_only (a0) (s t : State) (h : execFuseSequenceTempWaitEnd a0 s = .next t) : Only
    [.keys, .lifecycle] s t := by
  revert t h
  show OnlyOut _ _ _
  unfold execFuseSequenceTempWaitEnd
  (repeat' split) <;> simp

@[simp] theorem retagLog_only (s x : State) (W) (w : Facet.within [.ldg] W = true) : Only W x (retagLog s) = Only W x
    s := by
  refine Only.thru ?_ w x
  unfold retagLog
  (repeat' split) <;> simp

theorem execLedgerRetagDone_only (s t : State) (h : execLedgerRetagDone s = .next t) : Only [.keys, .lifecycle, .flt,
    .ldg, .status, .net, .sv, .disc, .weft, .bea, .dlg] s t := by
  revert t h
  show OnlyOut _ _ _
  simp [execLedgerRetagDone]

@[simp] theorem abandonOrder_only (s x : State) (W) (w : Facet.within [.keys, .lifecycle] W = true) : Only W x
    (abandonOrder s) = Only W x s := by
  refine Only.thru ?_ w x
  unfold abandonOrder
  (repeat' split) <;> simp

@[simp] theorem endCard_only (s x : State) (W) (w : Facet.within [.keys, .lifecycle, .card, .dlg] W = true) : Only W x
    (endCard s) = Only W x s := by
  refine Only.thru ?_ w x
  unfold endCard
  (repeat' split) <;> (try simp) <;> (refine Only.upd ?y ?h ?x; (case h => (intro p hp; cases p <;> first | exact absurd (by decide) hp | (dsimp only [sameFacet] <;> (repeat' apply And.intro) <;> rfl))); (case x => simp))

theorem execFaultRaise_only (a0) (a1) (s t : State) (h : execFaultRaise a0 a1 s = .next t) : Only [.pwr, .supply,
    .clk, .boot, .test, .otp, .fuse, .keys, .lifecycle, .flt, .holds, .ldg, .status, .sens, .net, .time, .sv, .disc,
    .scene, .mem, .xb, .adm, .weft, .amb, .bri, .mark, .aud, .bob, .bea, .card, .dlg] s t := by
  revert t h
  show OnlyOut _ _ _
  unfold execFaultRaise
  (repeat' split) <;> simp

theorem execFaultClear_only (a0) (a1) (s t : State) (h : execFaultClear a0 a1 s = .next t) : Only [.flt, .status,
    .net, .sv, .disc, .bea] s t := by
  revert t h
  show OnlyOut _ _ _
  simp [execFaultClear]

theorem execFaultHandlerEnd_only (a0) (s t : State) (h : execFaultHandlerEnd a0 s = .next t) : Only [.flt, .status,
    .net, .sv, .disc, .weft, .bea] s t := by
  revert t h
  show OnlyOut _ _ _
  unfold execFaultHandlerEnd
  (repeat' split) <;> simp

theorem execHandlerTimeout_only (a0) (s t : State) (h : execHandlerTimeout a0 s = .next t) : Only [.pwr, .clk, .boot,
    .test, .keys, .flt, .holds, .ldg, .status, .sens, .net, .time, .sv, .disc, .scene, .mem, .xb, .adm, .weft, .amb,
    .bri, .mark, .aud, .bob, .bea, .card, .dlg] s t := by
  revert t h
  show OnlyOut _ _ _
  unfold execHandlerTimeout
  (repeat' split) <;> simp

theorem execS3HoldoffEnd_only (a0) (s t : State) (h : execS3HoldoffEnd a0 s = .next t) : Only [.straps, .live, .pwr,
    .supply, .standby, .clk, .boot, .test, .otp, .keys, .lifecycle, .flt, .holds, .ldg, .status, .sens, .net, .time,
    .sv, .disc, .scene, .mem, .xb, .adm, .weft, .amb, .bri, .mark, .aud, .bob, .bea, .card, .dlg] s t := by
  revert t h
  show OnlyOut _ _ _
  unfold execS3HoldoffEnd
  (repeat' split) <;> simp

theorem execLedgerMirror_only (s t : State) (h : execLedgerMirror s = .next t) : Only [.ldg] s t := by
  revert t h
  show OnlyOut _ _ _
  simp [execLedgerMirror]

@[simp] theorem readingFaults_only (s x : State) (W) (w : Facet.within [.straps, .flt, .status, .net, .sv, .disc,
    .weft, .bea] W = true) : Only W x (readingFaults s) = Only W x s := by
  refine Only.thru ?_ w x
  unfold readingFaults
  (repeat' split) <;> (try simp (maxDischargeDepth := 9)) <;> ((with_reducible refine Eq.mpr (Only.foldl _ _ _ _ _ ?h) ?x); (case h => (intro t a; (try dsimp only); (repeat' split) <;> (simp (maxDischargeDepth := 9); done))); (case x => (simp (maxDischargeDepth := 9); done)))

@[simp] theorem setUse_only (a0) (a1) (s x : State) (W) (w : Facet.within [.straps] W = true) : Only W x (setUse a0 a1
    s) = Only W x s := by
  refine Only.thru ?_ w x
  simp [setUse]

@[simp] theorem resolveRow_only (a0) (s x : State) (W) (w : Facet.within [.straps] W = true) : Only W x (resolveRow a0
    s) = Only W x s := by
  refine Only.thru ?_ w x
  unfold resolveRow
  (repeat' split) <;> simp

@[simp] theorem resolveConflicts_only (s x : State) (W) (w : Facet.within [.straps, .flt, .status, .net, .sv, .disc,
    .weft, .bea] W = true) : Only W x (resolveConflicts s) = Only W x s := by
  refine Only.thru ?_ w x
  simp [resolveConflicts]

@[simp] theorem showLive_only (a0) (a1) (s x : State) (W) (w : Facet.within [.straps] W = true) : Only W x (showLive
    a0 a1 s) = Only W x s := by
  refine Only.thru ?_ w x
  simp [showLive]

@[simp] theorem startLive_only (a0) (s x : State) (W) (w : Facet.within [.straps, .live] W = true) : Only W x
    (startLive a0 s) = Only W x s := by
  refine Only.thru ?_ w x
  simp [startLive]

@[simp] theorem lateSweep_only (a0) (s x : State) (W) (w : Facet.within [.clk] W = true) : Only W x (lateSweep a0 s) =
    Only W x s := by
  refine Only.thru ?_ w x
  simp [lateSweep]

@[simp] theorem decideFields_only (a0) (s x : State) (W) (w : Facet.within [.straps, .live, .clk, .flt, .status, .net,
    .sv, .disc, .weft, .bea] W = true) : Only W x (decideFields a0 s) = Only W x s := by
  refine Only.thru ?_ w x
  unfold decideFields
  (repeat' split) <;> (try simp) <;> (refine Only.upd ?y ?h ?x; (case h => (intro p hp; cases p <;> first | exact absurd (by decide) hp | (dsimp only [sameFacet] <;> (repeat' apply And.intro) <;> rfl))); (case x => simp))

@[simp] theorem settleStraps_only (s x : State) (W) (w : Facet.within [.straps, .live, .clk, .flt, .status, .net, .sv,
    .disc, .weft, .bea] W = true) : Only W x (settleStraps s) = Only W x s := by
  refine Only.thru ?_ w x
  unfold settleStraps
  (repeat' split) <;> simp

theorem execStrapPass_only (a0) (a1) (s t : State) (h : execStrapPass a0 a1 s = .next t) : Only [.straps, .live, .clk,
    .flt, .status, .net, .sv, .disc, .weft, .bea] s t := by
  revert t h
  show OnlyOut _ _ _
  simp [execStrapPass]

@[simp] theorem marginalReread_only (a0) (s x : State) (W) (w : Facet.within [.straps, .flt, .status, .net, .sv,
    .disc, .weft, .bea] W = true) : Only W x (marginalReread a0 s) = Only W x s := by
  refine Only.thru ?_ w x
  simp [marginalReread]

@[simp] theorem firmReread_only (a0) (a1) (s x : State) (W) (w : Facet.within [.straps] W = true) : Only W x
    (firmReread a0 a1 s) = Only W x s := by
  refine Only.thru ?_ w x
  simp [firmReread]

@[simp] theorem rereadPin_only (a0) (a1) (s x : State) (W) (w : Facet.within [.straps, .flt, .status, .net, .sv,
    .disc, .weft, .bea] W = true) : Only W x (rereadPin a0 a1 s) = Only W x s := by
  refine Only.thru ?_ w x
  unfold rereadPin
  (repeat' split) <;> simp

theorem execStrapRereadPass_only (a0) (a1) (s t : State) (h : execStrapRereadPass a0 a1 s = .next t) : Only [.straps, .test,
    .flt, .status, .net, .sv, .disc, .weft, .bea] s t := by
  revert t h
  show OnlyOut _ _ _
  unfold execStrapRereadPass
  dsimp only
  split
  · simp
  · split
    · simp only [OnlyOut.next]
      rw [noteTest_only _ _ _ _ _ (by decide), Only.foldl]
      · simp
      · intro t a
        split <;> simp
    · split <;> simp

theorem execStrapConfirmRead_only (a0) (a1) (s t : State) (h : execStrapConfirmRead a0 a1 s = .next t) : Only
    [.straps, .test, .flt, .status, .net, .sv, .disc, .weft, .bea] s t := by
  revert t h
  show OnlyOut _ _ _
  unfold execStrapConfirmRead
  (repeat' split) <;> simp

@[simp] theorem acceptScene_only (a0) (s x : State) (W) (w : Facet.within [.straps, .live] W = true) : Only W x
    (acceptScene a0 s) = Only W x s := by
  refine Only.thru ?_ w x
  simp [acceptScene]

@[simp] theorem readScene_only (a0) (s x : State) (W) (w : Facet.within [.straps, .live, .flt, .status, .net, .sv,
    .disc, .weft, .bea] W = true) : Only W x (readScene a0 s) = Only W x s := by
  refine Only.thru ?_ w x
  unfold readScene
  (repeat' split) <;> simp

@[simp] theorem readBrightPin_only (a0) (s x : State) (W) (w : Facet.within [.straps, .live] W = true) : Only W x
    (readBrightPin a0 s) = Only W x s := by
  refine Only.thru ?_ w x
  simp [readBrightPin]

theorem execLiveStrapRead_only (a0) (a1) (a2) (s t : State) (h : execLiveStrapRead a0 a1 a2 s = .next t) : Only
    [.straps, .live, .flt, .status, .net, .sv, .disc, .weft, .bea] s t := by
  revert t h
  show OnlyOut _ _ _
  simp [execLiveStrapRead]

@[simp] theorem startSuite_only (s x : State) (W) (w : Facet.within [.test] W = true) : Only W x (startSuite s) = Only
    W x s := by
  refine Only.thru ?_ w x
  simp [startSuite]

@[simp] theorem startVisible_only (a0) (s x : State) (W) (w : Facet.within [.live, .test] W = true) : Only W x
    (startVisible a0 s) = Only W x s := by
  refine Only.thru ?_ w x
  unfold startVisible
  (repeat' split) <;> (try simp) <;> (refine Only.upd ?y ?h ?x; (case h => (intro p hp; cases p <;> first | exact absurd (by decide) hp | (dsimp only [sameFacet] <;> (repeat' apply And.intro) <;> rfl))); (case x => simp))

@[simp] theorem releaseHeld_only (s x : State) (W) (w : Facet.within [.live, .test] W = true) : Only W x (releaseHeld
    s) = Only W x s := by
  refine Only.thru ?_ w x
  unfold releaseHeld
  (repeat' split) <;> simp

theorem execSelftestHold2s_only (s t : State) (h : execSelftestHold2s s = .next t) : Only [.live, .test] s t := by
  revert t h
  show OnlyOut _ _ _
  simp [execSelftestHold2s]

theorem execSelftestHold10s_only (s t : State) (h : execSelftestHold10s s = .next t) : Only [.live, .test] s t := by
  revert t h
  show OnlyOut _ _ _
  simp [execSelftestHold10s]

@[simp] theorem selftestFalls_only (s x : State) (W) (w : Facet.within [.live, .test] W = true) : Only W x
    (selftestFalls s) = Only W x s := by
  refine Only.thru ?_ w x
  simp [selftestFalls]

@[simp] theorem selftestRises_only (s x : State) (W) (w : Facet.within [.live, .test] W = true) : Only W x (selftestRises s) =
    Only W x s := by
  refine Only.thru ?_ w x
  unfold selftestRises
  dsimp only
  split <;> simp

theorem execInvisibleSuiteDone_only (s t : State) (h : execInvisibleSuiteDone s = .next t) : Only [.test, .status,
    .net] s t := by
  revert t h
  show OnlyOut _ _ _
  unfold execInvisibleSuiteDone
  (repeat' split) <;> simp

theorem execVisibleStepAdvance_only (s t : State) (h : execVisibleStepAdvance s = .next t) : Only [.test] s t := by
  revert t h
  show OnlyOut _ _ _
  unfold execVisibleStepAdvance
  (repeat' split) <;> simp

theorem execVisibleSequenceEnd_only (s t : State) (h : execVisibleSequenceEnd s = .next t) : Only [.test, .status,
    .net] s t := by
  revert t h
  show OnlyOut _ _ _
  unfold execVisibleSequenceEnd
  (repeat' split) <;> simp

theorem execTestSliceAbandon_only (a0) (s t : State) (h : execTestSliceAbandon a0 s = .next t) : Only [.test] s t :=
    by
  revert t h
  show OnlyOut _ _ _
  simp [execTestSliceAbandon]

theorem execEyeMarginRead_only (a0) (a1) (s t : State) (h : execEyeMarginRead a0 a1 s = .next t) : Only [.test] s t :=
    by
  revert t h
  show OnlyOut _ _ _
  simp [execEyeMarginRead]

@[simp] theorem setBankDac_only (a0) (a1) (s x : State) (W) (w : Facet.within [.test] W = true) : Only W x (setBankDac
    a0 a1 s) = Only W x s := by
  refine Only.thru ?_ w x
  simp [setBankDac]

theorem execDacSwapCalibrate_only (a0) (a1) (s t : State) (h : execDacSwapCalibrate a0 a1 s = .next t) : Only [.test,
    .flt, .status, .net, .sv, .disc, .weft, .bea] s t := by
  revert t h
  show OnlyOut _ _ _
  simp [execDacSwapCalibrate]

@[simp] theorem swapDacs_only (s x : State) (W) (w : Facet.within [.test] W = true) : Only W x (swapDacs s) = Only W x
    s := by
  refine Only.thru ?_ w x
  simp [swapDacs]

theorem execRomCrcCheck_only (a0) (s t : State) (h : execRomCrcCheck a0 s = .next t) : Only [.pwr, .clk, .boot, .test,
    .keys, .flt, .holds, .ldg, .status, .sens, .net, .time, .sv, .disc, .scene, .mem, .xb, .adm, .weft, .amb, .bri,
    .mark, .aud, .bob, .bea, .card, .dlg] s t := by
  revert t h
  show OnlyOut _ _ _
  simp [execRomCrcCheck]

theorem execOtpCheck_only (a0) (s t : State) (h : execOtpCheck a0 s = .next t) : Only [.test, .flt, .status, .net,
    .sv, .disc, .weft, .bea] s t := by
  revert t h
  show OnlyOut _ _ _
  unfold execOtpCheck
  (repeat' split) <;> simp

@[simp] theorem noteIgnored_only (s x : State) (W) (w : Facet.within [.standby] W = true) : Only W x (noteIgnored s) =
    Only W x s := by
  refine Only.thru ?_ w x
  simp [noteIgnored]

@[simp] theorem standbyTrigger_only (a0) (a1) (s x : State) (W) (w : Facet.within [.standby] W = true) : Only W x
    (standbyTrigger a0 a1 s).1 = Only W x s := by
  refine Only.thru ?_ w x
  unfold standbyTrigger
  (repeat' split) <;> simp

@[simp] theorem entryBeat_only (a0) (s x : State) (W) (w : Facet.within [.standby, .test, .ldg, .status, .net, .disc,
    .scene, .weft, .aud] W = true) : Only W x (entryBeat a0 s) = Only W x s := by
  refine Only.thru ?_ w x
  unfold entryBeat
  (repeat' split) <;> (try simp) <;> (refine Only.upd ?y ?h ?x; (case h => (intro p hp; cases p <;> first | exact absurd (by decide) hp | (dsimp only [sameFacet] <;> (repeat' apply And.intro) <;> rfl))); (case x => simp))

@[simp] theorem standbyAtBeat_only (a0) (s x : State) (W) (w : Facet.within [.standby, .test, .ldg, .status, .net,
    .disc, .scene, .weft, .aud] W = true) : Only W x (standbyAtBeat a0 s) = Only W x s := by
  refine Only.thru ?_ w x
  unfold standbyAtBeat
  (repeat' split) <;> simp

@[simp] theorem standbyHighEntry_only (a0) (s x : State) (W) (w : Facet.within [.standby] W = true) : Only W x
    (standbyHighEntry a0 s) = Only W x s := by
  refine Only.thru ?_ w x
  simp [standbyHighEntry]

@[simp] theorem takeOverEntry_only (a0) (s x : State) (W) (w : Facet.within [.standby] W = true) : Only W x
    (takeOverEntry a0 s) = Only W x s := by
  refine Only.thru ?_ w x
  simp [takeOverEntry]

@[simp] theorem lowEndsTests_only (s x : State) (W) (w : Facet.within [.test] W = true) : Only W x (lowEndsTests s) =
    Only W x s := by
  refine Only.thru ?_ w x
  simp [lowEndsTests]

@[simp] theorem standbyLow_only (s x : State) (W) (w : Facet.within [.standby, .test] W = true) : Only W x (standbyLow
    s) = Only W x s := by
  refine Only.thru ?_ w x
  unfold standbyLow
  (repeat' split) <;> simp

@[simp] theorem standbyHigh_only (a0) (s x : State) (W) (w : Facet.within [.straps, .live, .pwr, .supply, .standby,
    .clk, .boot, .test, .otp, .keys, .lifecycle, .flt, .holds, .ldg, .status, .sens, .net, .time, .sv, .disc, .scene,
    .mem, .xb, .adm, .weft, .amb, .bri, .mark, .aud, .bob, .bea, .card, .dlg] W = true) : Only W x (standbyHigh a0 s)
    = Only W x s := by
  refine Only.thru ?_ w x
  unfold standbyHigh
  (repeat' split) <;> simp

@[simp] theorem pinAccept_only (a0) (a1) (a2) (s x : State) (W) (w : Facet.within [.straps, .live, .pwr, .supply,
    .standby, .clk, .boot, .test, .otp, .keys, .lifecycle, .flt, .holds, .ldg, .status, .sens, .net, .time, .sv,
    .disc, .scene, .mem, .xb, .adm, .weft, .amb, .bri, .mark, .aud, .bob, .bea, .card, .dlg] W = true) : Only W x
    (pinAccept a0 a1 a2 s) = Only W x s := by
  refine Only.thru ?_ w x
  unfold pinAccept
  (repeat' split) <;> simp

theorem execLivePinSample_only (a0) (a1) (a2) (s t : State) (h : execLivePinSample a0 a1 a2 s = .next t) : Only
    [.straps, .live, .pwr, .supply, .standby, .clk, .boot, .test, .otp, .keys, .lifecycle, .flt, .holds, .ldg,
    .status, .sens, .net, .time, .sv, .disc, .scene, .mem, .xb, .adm, .weft, .amb, .bri, .mark, .aud, .bob, .bea,
    .card, .dlg] s t := by
  revert t h
  show OnlyOut _ _ _
  unfold execLivePinSample
  (try dsimp only)
  (repeat' split) <;> first | (simp (maxDischargeDepth := 9); done) | ((with_reducible refine Eq.mpr (Only.foldl _ _ _ _ _ ?h) ?x); (case h => (intro t a; (try dsimp only); (repeat' split) <;> (simp (maxDischargeDepth := 9); done))); (case x => (simp (maxDischargeDepth := 9); done))) | ((try simp (maxDischargeDepth := 9)) <;> (refine Only.upd ?y ?h ?x; (case h => (intro p hp; cases p <;> first | exact absurd (by decide) hp | (dsimp only [sameFacet] <;> (repeat' apply And.intro) <;> rfl))); (case x => simp)))

end Sys2Proof.Machine
end

