-- ==== Sys2Proof/Laws/OnlyWall.lean ====
section
/-!
SUPPORT. Which facets of the state each operation and command may change (`_only`): the network, time, the Selvedge links and discovery.
An operation's lemma passes over it wherever all that it changes may change, so that `simp` shows `Only W s t` for a chain of
operations; a command's lemma speaks of its next state.
-/
set_option linter.unusedVariables false
set_option linter.unusedSimpArgs false
set_option linter.unnecessarySeqFocus false
set_option linter.unusedTactic false
set_option linter.unreachableTactic false
namespace Sys2Proof.Machine
open Sys2Proof

@[simp] theorem learnMac_only (a0) (a1) (s x : State) (W) (w : Facet.within [.net] W = true) : Only W x (learnMac a0
    a1 s) = Only W x s := by
  refine Only.thru ?_ w x
  simp [learnMac]

@[simp] theorem reportFrame_only (a0) (a1) (s x : State) (W) (w : Facet.within [.net] W = true) : Only W x
    (reportFrame a0 a1 s) = Only W x s := by
  refine Only.thru ?_ w x
  simp [reportFrame]

@[simp] theorem setJoin_only (a0) (a1) (s x : State) (W) (w : Facet.within [.net] W = true) : Only W x (setJoin a0 a1
    s) = Only W x s := by
  refine Only.thru ?_ w x
  simp [setJoin]

@[simp] theorem joinAll_only (a0) (s x : State) (W) (w : Facet.within [.net] W = true) : Only W x (joinAll a0 s) =
    Only W x s := by
  refine Only.thru ?_ w x
  simp [joinAll]

@[simp] theorem leaveAll_only (a0) (s x : State) (W) (w : Facet.within [.net] W = true) : Only W x (leaveAll a0 s) =
    Only W x s := by
  refine Only.thru ?_ w x
  simp [leaveAll]

@[simp] theorem repeatReport_only (a0) (s x : State) (W) (w : Facet.within [.net] W = true) : Only W x (repeatReport
    a0 s) = Only W x s := by
  refine Only.thru ?_ w x
  unfold repeatReport
  (repeat' split) <;> simp

@[simp] theorem startClaim_only (a0) (a1) (s x : State) (W) (w : Facet.within [.net] W = true) : Only W x (startClaim
    a0 a1 s) = Only W x s := by
  refine Only.thru ?_ w x
  simp [startClaim]

@[simp] theorem startProvisional_only (s x : State) (W) (w : Facet.within [.net] W = true) : Only W x
    (startProvisional s) = Only W x s := by
  refine Only.thru ?_ w x
  simp [startProvisional]

@[simp] theorem startPositional_only (s x : State) (W) (w : Facet.within [.net] W = true) : Only W x (startPositional
    s) = Only W x s := by
  refine Only.thru ?_ w x
  simp [startPositional]

@[simp] theorem claimConflict_only (a0) (s x : State) (W) (w : Facet.within [.flt, .status, .net, .sv, .disc, .weft,
    .bea] W = true) : Only W x (claimConflict a0 s) = Only W x s := by
  refine Only.thru ?_ w x
  simp [claimConflict]

@[simp] theorem arpFrame_only (a0) (a1) (a2) (a3) (s x : State) (W) (w : Facet.within [.net] W = true) : Only W x
    (arpFrame a0 a1 a2 a3 s) = Only W x s := by
  refine Only.thru ?_ w x
  unfold arpFrame
  simp (maxDischargeDepth := 9)

@[simp] theorem claimedConflict_only (a0) (s x : State) (W) (w : Facet.within [.flt, .status, .net, .sv, .disc, .weft,
    .bea] W = true) : Only W x (claimedConflict a0 s) = Only W x s := by
  refine Only.thru ?_ w x
  simp [claimedConflict]

@[simp] theorem arpHeard_only (a0) (a1) (a2) (a3) (s x : State) (W) (w : Facet.within [.flt, .status, .net, .sv,
    .disc, .weft, .bea] W = true) : Only W x (arpHeard a0 a1 a2 a3 s) = Only W x s := by
  refine Only.thru ?_ w x
  unfold arpHeard
  (repeat' split) <;> simp

@[simp] theorem blockLoop_only (s x : State) (W) (w : Facet.within [.flt, .status, .net, .sv, .disc, .weft, .bea] W =
    true) : Only W x (blockLoop s) = Only W x s := by
  refine Only.thru ?_ w x
  unfold blockLoop
  (repeat' split) <;> simp

@[simp] theorem modGuard_only (a0) (s x : State) (W) (w : Facet.within [.net] W = true) : Only W x (modGuard a0 s) =
    Only W x s := by
  refine Only.thru ?_ w x
  unfold modGuard
  (repeat' split) <;> (try simp) <;> (refine Only.upd ?y ?h ?x; (case h => (intro p hp; cases p <;> first | exact absurd (by decide) hp | (dsimp only [sameFacet] <;> (repeat' apply And.intro) <;> rfl))); (case x => simp))

@[simp] theorem guardReturned_only (a0) (a1) (s x : State) (W) (w : Facet.within [.flt, .status, .net, .sv, .disc,
    .weft, .bea] W = true) : Only W x (guardReturned a0 a1 s) = Only W x s := by
  refine Only.thru ?_ w x
  simp [guardReturned]

@[simp] theorem flushTables_only (s x : State) (W) (w : Facet.within [.net] W = true) : Only W x (flushTables s) =
    Only W x s := by
  refine Only.thru ?_ w x
  simp [flushTables]

@[simp] theorem guardHeard_only (a0) (s x : State) (W) (w : Facet.within [.net] W = true) : Only W x (guardHeard a0 s)
    = Only W x s := by
  refine Only.thru ?_ w x
  simp [guardHeard]

@[simp] theorem takeGuard_only (a0) (a1) (s x : State) (W) (w : Facet.within [.flt, .status, .net, .sv, .disc, .weft,
    .bea] W = true) : Only W x (takeGuard a0 a1 s) = Only W x s := by
  refine Only.thru ?_ w x
  unfold takeGuard
  simp (maxDischargeDepth := 9)

@[simp] theorem sendGuard_only (a0) (s x : State) (W) (w : Facet.within [.net] W = true) : Only W x (sendGuard a0 s) =
    Only W x s := by
  refine Only.thru ?_ w x
  unfold sendGuard
  simp (maxDischargeDepth := 9)

@[simp] theorem startFlushFrames_only (s x : State) (W) (w : Facet.within [.net] W = true) : Only W x
    (startFlushFrames s) = Only W x s := by
  refine Only.thru ?_ w x
  simp [startFlushFrames]

@[simp] theorem flushFrameDue_only (s x : State) (W) (w : Facet.within [.net] W = true) : Only W x (flushFrameDue s) =
    Only W x s := by
  refine Only.thru ?_ w x
  simp [flushFrameDue]

@[simp] theorem setLane_only (a0) (a1) (s x : State) (W) (w : Facet.within [.pwr] W = true) : Only W x (setLane a0 a1
    s) = Only W x s := by
  refine Only.thru ?_ w x
  simp [setLane]

theorem execModuleInsert_only (a0) (s t : State) (h : execModuleInsert a0 s = .next t) : Only [.pwr, .net] s t := by
  revert t h
  show OnlyOut _ _ _
  unfold execModuleInsert
  (repeat' split) <;> simp

@[simp] theorem readModule_only (a0) (s x : State) (W) (w : Facet.within [.sent, .net] W = true) : Only W x
    (readModule a0 s) = Only W x s := by
  refine Only.thru ?_ w x
  simp [readModule]

@[simp] theorem identify_only (a0) (a1) (s x : State) (W) (w : Facet.within [.flt, .status, .net, .sv, .disc, .weft,
    .bea] W = true) : Only W x (identify a0 a1 s) = Only W x s := by
  refine Only.thru ?_ w x
  unfold identify
  (repeat' split) <;> simp

theorem execModuleIdRead_only (a0) (a1) (s t : State) (h : execModuleIdRead a0 a1 s = .next t) : Only [.sent, .flt,
    .status, .net, .sv, .disc, .weft, .bea] s t := by
  revert t h
  show OnlyOut _ _ _
  unfold execModuleIdRead
  (repeat' split) <;> simp

@[simp] theorem dropLink_only (a0) (s x : State) (W) (w : Facet.within [.test, .flt, .status, .net, .sv, .disc, .weft,
    .bea] W = true) : Only W x (dropLink a0 s) = Only W x s := by
  refine Only.thru ?_ w x
  unfold dropLink
  (repeat' split) <;> (try simp) <;> (refine Only.upd ?y ?h ?x; (case h => (intro p hp; cases p <;> first | exact absurd (by decide) hp | (dsimp only [sameFacet] <;> (repeat' apply And.intro) <;> rfl))); (case x => simp))

theorem execModuleRemove_only (a0) (s t : State) (h : execModuleRemove a0 s = .next t) : Only [.pwr, .test, .flt,
    .status, .net, .sv, .disc, .weft, .bea] s t := by
  revert t h
  show OnlyOut _ _ _
  simp [execModuleRemove]

@[simp] theorem firstClaims_only (s x : State) (W) (w : Facet.within [.net] W = true) : Only W x (firstClaims s) =
    Only W x s := by
  refine Only.thru ?_ w x
  simp [firstClaims]

theorem execLinkUp_only (a0) (a1) (s t : State) (h : execLinkUp a0 a1 s = .next t) : Only [.net, .time] s t := by
  revert t h
  show OnlyOut _ _ _
  simp [execLinkUp]

theorem execLinkDown_only (a0) (s t : State) (h : execLinkDown a0 s = .next t) : Only [.test, .flt, .status, .net,
    .sv, .disc, .weft, .bea] s t := by
  revert t h
  show OnlyOut _ _ _
  simp [execLinkDown]

theorem execNetLinkTimeout_only (a0) (s t : State) (h : execNetLinkTimeout a0 s = .next t) : Only [.flt, .status,
    .net, .sv, .disc, .weft, .bea] s t := by
  revert t h
  show OnlyOut _ _ _
  simp [execNetLinkTimeout]

theorem execPortListenEnd_only (a0) (s t : State) (h : execPortListenEnd a0 s = .next t) : Only [.net] s t := by
  revert t h
  show OnlyOut _ _ _
  unfold execPortListenEnd
  (repeat' split) <;> simp

theorem execMacAgeOut_only (a0) (s t : State) (h : execMacAgeOut a0 s = .next t) : Only [.net] s t := by
  revert t h
  show OnlyOut _ _ _
  simp [execMacAgeOut]

theorem execMediaQueueRelease_only (a0) (a1) (s t : State) (h : execMediaQueueRelease a0 a1 s = .next t) : Only [.net]
    s t := by
  revert t h
  show OnlyOut _ _ _
  simp [execMediaQueueRelease]

theorem execLaunchTime_only (a0) (s t : State) (h : execLaunchTime a0 s = .next t) : Only [.sent, .status, .net,
    .time] s t := by
  revert t h
  show OnlyOut _ _ _
  simp [execLaunchTime]

theorem execGuardFrame_only (a0) (a1) (s t : State) (h : execGuardFrame a0 a1 s = .next t) : Only [.flt, .status,
    .net, .sv, .disc, .weft, .bea] s t := by
  revert t h
  show OnlyOut _ _ _
  simp [execGuardFrame]

theorem execGuardSend_only (s t : State) (h : execGuardSend s = .next t) : Only [.net] s t := by
  revert t h
  show OnlyOut _ _ _
  simp [execGuardSend]

@[simp] theorem unblock_only (a0) (s x : State) (W) (w : Facet.within [.net] W = true) : Only W x (unblock a0 s) =
    Only W x s := by
  refine Only.thru ?_ w x
  simp [unblock]

theorem execGuardLift_only (a0) (s t : State) (h : execGuardLift a0 s = .next t) : Only [.flt, .status, .net, .sv,
    .disc, .weft, .bea] s t := by
  revert t h
  show OnlyOut _ _ _
  simp [execGuardLift]

theorem execFlushFloodEnd_only (s t : State) (h : execFlushFloodEnd s = .next t) : Only [.net] s t := by
  revert t h
  show OnlyOut _ _ _
  simp [execFlushFloodEnd]

theorem execRouterPortExpiry_only (a0) (s t : State) (h : execRouterPortExpiry a0 s = .next t) : Only [.net] s t := by
  revert t h
  show OnlyOut _ _ _
  simp [execRouterPortExpiry]

theorem execIgmpQuerySend_only (s t : State) (h : execIgmpQuerySend s = .next t) : Only [.net] s t := by
  revert t h
  show OnlyOut _ _ _
  simp [execIgmpQuerySend]

theorem execIgmpStateReport_only (a0) (s t : State) (h : execIgmpStateReport a0 s = .next t) : Only [.net] s t := by
  revert t h
  show OnlyOut _ _ _
  simp [execIgmpStateReport]

theorem execIgmpQueryAnswer_only (s t : State) (h : execIgmpQueryAnswer s = .next t) : Only [.net] s t := by
  revert t h
  show OnlyOut _ _ _
  simp [execIgmpQueryAnswer]

@[simp] theorem dropSdp_only (a0) (a1) (s x : State) (W) (w : Facet.within [.net] W = true) : Only W x (dropSdp a0 a1
    s) = Only W x s := by
  refine Only.thru ?_ w x
  simp [dropSdp]

theorem execSdpExpiry_only (a0) (a1) (s t : State) (h : execSdpExpiry a0 a1 s = .next t) : Only [.net] s t := by
  revert t h
  show OnlyOut _ _ _
  simp [execSdpExpiry]

theorem execNetSdpTimeout_only (a0) (s t : State) (h : execNetSdpTimeout a0 s = .next t) : Only [.flt, .status, .net,
    .sv, .disc, .weft, .bea] s t := by
  revert t h
  show OnlyOut _ _ _
  simp [execNetSdpTimeout]

theorem execSenderTimeout_only (a0) (s t : State) (h : execSenderTimeout a0 s = .next t) : Only [.net] s t := by
  revert t h
  show OnlyOut _ _ _
  simp [execSenderTimeout]

theorem claimFrame_only {c : AClaim} {s : State} {r : Option AClaim × State} (h : claimFrame c s = some r) :
    Only [.net] s r.2 := by
  unfold claimFrame at h
  dsimp only at h
  (repeat' split at h) <;> (first | (cases h; done) | (cases h; simp))

theorem execArpProbe_only (s t : State) (h : execArpProbe s = .next t) : Only [.net] s t := by
  revert t h
  show OnlyOut _ _ _
  unfold execArpProbe
  split
  · simp
  · split
    · rename_i e
      obtain ⟨c, -, e⟩ := Option.bind_eq_some_iff.1 e
      simpa using claimFrame_only e
    · rename_i e
      obtain ⟨c, -, e⟩ := Option.bind_eq_some_iff.1 e
      simpa using claimFrame_only e
    · simp

theorem execAddressClaim_only (s t : State) (h : execAddressClaim s = .next t) : Only [.flt, .status, .net, .sv,
    .disc, .bea] s t := by
  revert t h
  show OnlyOut _ _ _
  unfold execAddressClaim
  (repeat' split) <;> simp

theorem execPositionalAddressRetry_only (s t : State) (h : execPositionalAddressRetry s = .next t) : Only [.net] s t
    := by
  revert t h
  show OnlyOut _ _ _
  simp [execPositionalAddressRetry]

@[simp] theorem resetIntervals_only (s x : State) (W) (w : Facet.within [.standby, .flt, .status, .scene, .weft, .aud,
    .bob] W = true) : Only W x (resetIntervals s) = Only W x s := by
  refine Only.thru ?_ w x
  unfold resetIntervals
  (repeat' split) <;> (try simp) <;> (refine Only.upd ?y ?h ?x; (case h => (intro p hp; cases p <;> first | exact absurd (by decide) hp | (dsimp only [sameFacet] <;> (repeat' apply And.intro) <;> rfl))); (case x => simp))

theorem execStatusRecordLaunch_only (s t : State) (h : execStatusRecordLaunch s = .next t) : Only [.standby, .flt,
    .status, .net, .scene, .weft, .aud, .bob] s t := by
  revert t h
  show OnlyOut _ _ _
  simp [execStatusRecordLaunch]

@[simp] theorem enterServo_only (a0) (s x : State) (W) (w : Facet.within [.flt, .status, .net, .time, .sv, .disc,
    .bea] W = true) : Only W x (enterServo a0 s) = Only W x s := by
  refine Only.thru ?_ w x
  simp [enterServo]

@[simp] theorem listenFault_only (s x : State) (W) (w : Facet.within [.flt, .status, .net, .sv, .disc, .weft, .bea] W
    = true) : Only W x (listenFault s) = Only W x s := by
  refine Only.thru ?_ w x
  simp [listenFault]

@[simp] theorem rearmBeat_only (s x : State) (W) (w : Facet.within [.time] W = true) : Only W x (rearmBeat s) = Only W
    x s := by
  refine Only.thru ?_ w x
  simp [rearmBeat]

@[simp] theorem applyStep_only (a0) (s x : State) (W) (w : Facet.within [.flt, .status, .net, .time, .sv, .disc,
    .weft, .bea] W = true) : Only W x (applyStep a0 s) = Only W x s := by
  refine Only.thru ?_ w x
  simp [applyStep]

@[simp] theorem needStep_only (a0) (s x : State) (W) (w : Facet.within [.flt, .status, .net, .time, .sv, .disc, .weft,
    .bea] W = true) : Only W x (needStep a0 s) = Only W x s := by
  refine Only.thru ?_ w x
  simp [needStep]

@[simp] theorem dropAnn_only (s x : State) (W) (w : Facet.within [.time] W = true) : Only W x (dropAnn s) = Only W x s
    := by
  refine Only.thru ?_ w x
  simp [dropAnn]

@[simp] theorem stepAtBeat_only (a0) (s x : State) (W) (w : Facet.within [.flt, .status, .net, .time, .sv, .disc,
    .weft, .bea] W = true) : Only W x (stepAtBeat a0 s) = Only W x s := by
  refine Only.thru ?_ w x
  unfold stepAtBeat
  (repeat' split) <;> simp

@[simp] theorem announceStep_only (a0) (s x : State) (W) (w : Facet.within [.time] W = true) : Only W x (announceStep
    a0 s) = Only W x s := by
  refine Only.thru ?_ w x
  unfold announceStep
  (repeat' split) <;> simp

@[simp] theorem loopUpdate_only (a0) (a1) (a2) (a3) (s x : State) (W) (w : Facet.within [.time] W = true) : Only W x
    (loopUpdate a0 a1 a2 a3 s) = Only W x s := by
  refine Only.thru ?_ w x
  simp [loopUpdate]

@[simp] theorem enterFreerun_only (s x : State) (W) (w : Facet.within [.flt, .status, .net, .time, .sv, .disc, .weft,
    .bea] W = true) : Only W x (enterFreerun s) = Only W x s := by
  refine Only.thru ?_ w x
  simp [enterFreerun]

@[simp] theorem enterHoldover_only (s x : State) (W) (w : Facet.within [.flt, .status, .net, .time, .sv, .disc, .weft,
    .bea] W = true) : Only W x (enterHoldover s) = Only W x s := by
  refine Only.thru ?_ w x
  simp [enterHoldover]

@[simp] theorem withoutMaster_only (s x : State) (W) (w : Facet.within [.flt, .status, .net, .time, .sv, .disc, .weft,
    .bea] W = true) : Only W x (withoutMaster s) = Only W x s := by
  refine Only.thru ?_ w x
  simp [withoutMaster]

@[simp] theorem armDelayReq_only (s x : State) (W) (w : Facet.within [.fresh, .time] W = true) : Only W x (armDelayReq
    s) = Only W x s := by
  refine Only.thru ?_ w x
  simp [armDelayReq]

@[simp] theorem takeMaster_only (a0) (s x : State) (W) (w : Facet.within [.fresh, .flt, .status, .net, .time, .sv,
    .disc, .bea] W = true) : Only W x (takeMaster a0 s) = Only W x s := by
  refine Only.thru ?_ w x
  simp [takeMaster]

@[simp] theorem selectMaster_only (s x : State) (W) (w : Facet.within [.fresh, .flt, .status, .net, .time, .sv, .disc,
    .bea] W = true) : Only W x (selectMaster s) = Only W x s := by
  refine Only.thru ?_ w x
  unfold selectMaster
  (repeat' split) <;> simp

@[simp] theorem loseMaster_only (s x : State) (W) (w : Facet.within [.fresh, .flt, .status, .net, .time, .sv, .disc,
    .weft, .bea] W = true) : Only W x (loseMaster s) = Only W x s := by
  refine Only.thru ?_ w x
  unfold loseMaster
  (repeat' split) <;> simp

theorem execAnnounce_only (a0) (a1) (a2) (s t : State) (h : execAnnounce a0 a1 a2 s = .next t) : Only [.fresh, .flt,
    .status, .net, .time, .sv, .disc, .bea] s t := by
  revert t h
  show OnlyOut _ _ _
  simp [execAnnounce]

@[simp] theorem tryAcquire_only (s x : State) (W) (w : Facet.within [.flt, .status, .net, .time, .sv, .disc, .weft,
    .bea] W = true) : Only W x (tryAcquire s) = Only W x s := by
  refine Only.thru ?_ w x
  simp [tryAcquire]

@[simp] theorem trackSync_only (a0) (a1) (s x : State) (W) (w : Facet.within [.flt, .status, .net, .time, .sv, .disc,
    .weft, .bea] W = true) : Only W x (trackSync a0 a1 s) = Only W x s := by
  refine Only.thru ?_ w x
  simp [trackSync]

@[simp] theorem holdoverSync_only (a0) (s x : State) (W) (w : Facet.within [.flt, .status, .net, .time, .sv, .disc,
    .bea] W = true) : Only W x (holdoverSync a0 s) = Only W x s := by
  refine Only.thru ?_ w x
  simp [holdoverSync]

@[simp] theorem holdLong_only (s x : State) (W) (w : Facet.within [.time] W = true) : Only W x (holdLong s) = Only W x
    s := by
  refine Only.thru ?_ w x
  unfold holdLong
  (repeat' split) <;> simp

@[simp] theorem usableSync_only (a0) (a1) (a2) (s x : State) (W) (w : Facet.within [.flt, .status, .net, .time, .sv,
    .disc, .weft, .bea] W = true) : Only W x (usableSync a0 a1 a2 s) = Only W x s := by
  refine Only.thru ?_ w x
  unfold usableSync
  dsimp only
  (repeat' split) <;> simp

@[simp] theorem movePort_only (a0) (s x : State) (W) (w : Facet.within [.time] W = true) : Only W x (movePort a0 s) =
    Only W x s := by
  refine Only.thru ?_ w x
  simp [movePort]

theorem slaveTakes_only {p : Port} {m : Master_} {s u : State} (h : slaveTakes p m s = some u) : Only [.time] s u := by
  unfold slaveTakes at h
  (repeat' split at h) <;> (first | (cases h; done) | (injection h with h; subst h)) <;> simp

theorem execSync_only (a0) (a1) (a2) (a3) (s t : State) (h : execSync a0 a1 a2 a3 s = .next t) : Only [.flt, .status,
    .net, .time, .sv, .disc, .weft, .bea] s t := by
  revert t h
  show OnlyOut _ _ _
  unfold execSync
  (repeat' split) <;> (try simp) <;> exact (slaveTakes_only ‹_›).mono rfl

theorem execFollowUp_only (a0) (a1) (s t : State) (h : execFollowUp a0 a1 s = .next t) : Only [.flt, .status, .net,
    .time, .sv, .disc, .weft, .bea] s t := by
  revert t h
  show OnlyOut _ _ _
  unfold execFollowUp
  (repeat' split) <;> simp

theorem execFollowUpTimeout_only (s t : State) (h : execFollowUpTimeout s = .next t) : Only [.time] s t := by
  revert t h
  show OnlyOut _ _ _
  unfold execFollowUpTimeout
  (repeat' split) <;> simp

@[simp] theorem sendDelayReq_only (a0) (s x : State) (W) (w : Facet.within [.net, .time] W = true) : Only W x
    (sendDelayReq a0 s) = Only W x s := by
  refine Only.thru ?_ w x
  simp [sendDelayReq]

theorem execDelayReq_only (s t : State) (h : execDelayReq s = .next t) : Only [.fresh, .flt, .status, .net, .time,
    .sv, .disc, .weft, .bea] s t := by
  revert t h
  show OnlyOut _ _ _
  unfold execDelayReq
  (repeat' split) <;> simp

@[simp] theorem takeDelay_only (a0) (s x : State) (W) (w : Facet.within [.flt, .status, .net, .time, .sv, .disc,
    .weft, .bea] W = true) : Only W x (takeDelay a0 s) = Only W x s := by
  refine Only.thru ?_ w x
  simp [takeDelay]

theorem execDelayResp_only (a0) (a1) (a2) (a3) (s t : State) (h : execDelayResp a0 a1 a2 a3 s = .next t) : Only [.flt,
    .status, .net, .time, .sv, .disc, .weft, .bea] s t := by
  revert t h
  show OnlyOut _ _ _
  unfold execDelayResp
  (repeat' split) <;> simp

theorem execMasterLoss_only (s t : State) (h : execMasterLoss s = .next t) : Only [.fresh, .flt, .status, .net, .time,
    .sv, .disc, .weft, .bea] s t := by
  revert t h
  show OnlyOut _ _ _
  unfold execMasterLoss
  (repeat' split) <;> simp

theorem execServoRangeTimeout_only (s t : State) (h : execServoRangeTimeout s = .next t) : Only [.fresh, .flt,
    .status, .net, .time, .sv, .disc, .weft, .bea] s t := by
  revert t h
  show OnlyOut _ _ _
  simp [execServoRangeTimeout]

theorem execTimeNomasterTimeout_only (s t : State) (h : execTimeNomasterTimeout s = .next t) : Only [.flt, .status,
    .net, .sv, .disc, .weft, .bea] s t := by
  revert t h
  show OnlyOut _ _ _
  simp [execTimeNomasterTimeout]

theorem execFollowerStepTimeout_only (s t : State) (h : execFollowerStepTimeout s = .next t) : Only [.time] s t := by
  revert t h
  show OnlyOut _ _ _
  unfold execFollowerStepTimeout
  (repeat' split) <;> simp

theorem execBeatInconsistentTimeout_only (s t : State) (h : execBeatInconsistentTimeout s = .next t) : Only [.flt,
    .status, .net, .time, .sv, .disc, .weft, .bea] s t := by
  revert t h
  show OnlyOut _ _ _
  simp [execBeatInconsistentTimeout]

theorem execLeadChangeHoldTimeout_only (s t : State) (h : execLeadChangeHoldTimeout s = .next t) : Only [.flt,
    .status, .net, .time, .sv, .disc, .weft, .bea] s t := by
  revert t h
  show OnlyOut _ _ _
  simp [execLeadChangeHoldTimeout]

@[simp] theorem takeAnn_only (a0) (a1) (a2) (s x : State) (W) (w : Facet.within [.time] W = true) : Only W x (takeAnn
    a0 a1 a2 s) = Only W x s := by
  refine Only.thru ?_ w x
  simp [takeAnn]

@[simp] theorem steerBeat_only (a0) (a1) (s x : State) (W) (w : Facet.within [.flt, .status, .net, .time, .sv, .disc,
    .weft, .bea] W = true) : Only W x (steerBeat a0 a1 s) = Only W x s := by
  refine Only.thru ?_ w x
  simp [steerBeat]

@[simp] theorem takeBeat_only (a0) (a1) (a2) (a3) (s x : State) (W) (w : Facet.within [.flt, .status, .net, .time,
    .sv, .disc, .weft, .bea] W = true) : Only W x (takeBeat a0 a1 a2 a3 s) = Only W x s := by
  refine Only.thru ?_ w x
  unfold takeBeat
  dsimp only
  (repeat' split) <;> simp

@[simp] theorem leadChanged_only (s x : State) (W) (w : Facet.within [.time] W = true) : Only W x (leadChanged s) =
    Only W x s := by
  refine Only.thru ?_ w x
  simp [leadChanged]

@[simp] theorem becameLead_only (s x : State) (W) (w : Facet.within [.flt, .status, .net, .time, .sv, .disc, .weft,
    .bea] W = true) : Only W x (becameLead s) = Only W x s := by
  refine Only.thru ?_ w x
  simp [becameLead]

@[simp] theorem syncMarkKeys_only (s x : State) (W) (w : Facet.within [.keys] W = true) : Only W x (syncMarkKeys s) =
    Only W x s := by
  refine Only.thru ?_ w x
  simp [syncMarkKeys]

@[simp] theorem syncGroups_only (s x : State) (W) (w : Facet.within [.keys, .net] W = true) : Only W x (syncGroups s)
    = Only W x s := by
  refine Only.thru ?_ w x
  simp [syncGroups]

@[simp] theorem abandon_only (s x : State) (W) (w : Facet.within [.keys, .net, .scene, .aud] W = true) : Only W x
    (abandon s) = Only W x s := by
  refine Only.thru ?_ w x
  unfold abandon
  (repeat' split) <;> (try simp) <;> (refine Only.upd ?y ?h ?x; (case h => (intro p hp; cases p <;> first | exact absurd (by decide) hp | (dsimp only [sameFacet] <;> (repeat' apply And.intro) <;> rfl))); (case x => simp))

@[simp] theorem startClaiming_only (s x : State) (W) (w : Facet.within [.disc] W = true) : Only W x (startClaiming s)
    = Only W x s := by
  refine Only.thru ?_ w x
  simp [startClaiming]

@[simp] theorem newPosition_only (a0) (s x : State) (W) (w : Facet.within [.net, .disc] W = true) : Only W x
    (newPosition a0 s) = Only W x s := by
  refine Only.thru ?_ w x
  simp [newPosition]

@[simp] theorem settlePosition_only (s x : State) (W) (w : Facet.within [.flt, .status, .net, .sv, .disc, .weft, .bea]
    W = true) : Only W x (settlePosition s) = Only W x s := by
  refine Only.thru ?_ w x
  unfold settlePosition
  (repeat' split) <;> simp

@[simp] theorem compareNeighbour_only (a0) (s x : State) (W) (w : Facet.within [.sv] W = true) : Only W x
    (compareNeighbour a0 s) = Only W x s := by
  refine Only.thru ?_ w x
  simp [compareNeighbour]

@[simp] theorem compareAll_only (s x : State) (W) (w : Facet.within [.sv] W = true) : Only W x (compareAll s) = Only W
    x s := by
  refine Only.thru ?_ w x
  simp [compareAll]

@[simp] theorem dropFrame_only (s x : State) (W) (w : Facet.within [.disc] W = true) : Only W x (dropFrame s) = Only W
    x s := by
  refine Only.thru ?_ w x
  simp [dropFrame]

@[simp] theorem rechoose_only (s x : State) (W) (w : Facet.within [.flt, .status, .net, .sv, .disc, .weft, .bea] W =
    true) : Only W x (rechoose s) = Only W x s := by
  refine Only.thru ?_ w x
  simp [rechoose]

@[simp] theorem joinLink_only (a0) (s x : State) (W) (w : Facet.within [.flt, .status, .net, .sv, .disc, .weft, .bea]
    W = true) : Only W x (joinLink a0 s) = Only W x s := by
  refine Only.thru ?_ w x
  simp [joinLink]

@[simp] theorem unjoinLink_only (a0) (s x : State) (W) (w : Facet.within [.flt, .status, .net, .sv, .disc, .weft,
    .bea] W = true) : Only W x (unjoinLink a0 s) = Only W x s := by
  refine Only.thru ?_ w x
  simp [unjoinLink]

theorem execBlockLock_only (a0) (a1) (s t : State) (h : execBlockLock a0 a1 s = .next t) : Only [.sv] s t := by
  revert t h
  show OnlyOut _ _ _
  simp [execBlockLock]

@[simp] theorem loseLock_only (a0) (s x : State) (W) (w : Facet.within [.flt, .status, .net, .sv, .disc, .weft, .bea]
    W = true) : Only W x (loseLock a0 s) = Only W x s := by
  refine Only.thru ?_ w x
  simp [loseLock]

theorem execBlockLockLoss_only (a0) (a1) (s t : State) (h : execBlockLockLoss a0 a1 s = .next t) : Only [.flt,
    .status, .net, .sv, .disc, .weft, .bea] s t := by
  revert t h
  show OnlyOut _ _ _
  simp [execBlockLockLoss]

@[simp] theorem arrive_only (a0) (a1) (s x : State) (W) (w : Facet.within [.flt, .status, .net, .sv, .disc, .weft,
    .bea] W = true) : Only W x (arrive a0 a1 s).1 = Only W x s := by
  refine Only.thru ?_ w x
  unfold arrive
  dsimp only
  (repeat' split) <;> simp

theorem onKnot_only {d : Dir} {run : BlockRun} {f : List Byte → State → State} {s t : State} {W : List Facet}
    (w : Facet.within [.flt, .status, .net, .sv, .disc, .weft, .bea] W = true) (hf : ∀ b u, Only W u (f b u)) (h : onKnot d run f s = .next t) : Only W s t := by
  have ha : Only W s (arrive d run s).1 := by simp [w]
  unfold onKnot at h
  generalize arrive d run s = y at *
  obtain ⟨u, o⟩ := y
  cases o <;> cases h
  · exact ha
  · exact ha.trans (hf _ _)

@[simp] theorem takeHello_only (a0) (a1) (s x : State) (W) (w : Facet.within [.flt, .status, .net, .sv, .disc, .weft,
    .bea] W = true) : Only W x (takeHello a0 a1 s) = Only W x s := by
  refine Only.thru ?_ w x
  simp [takeHello]

@[simp] theorem helloIn_only (a0) (a1) (s x : State) (W) (w : Facet.within [.flt, .status, .net, .sv, .disc, .weft,
    .bea] W = true) : Only W x (helloIn a0 a1 s) = Only W x s := by
  refine Only.thru ?_ w x
  unfold helloIn
  (repeat' split) <;> simp

theorem execHello_only (a0) (a1) (s t : State) (h : execHello a0 a1 s = .next t) : Only [.flt, .status, .net, .sv,
    .disc, .weft, .bea] s t := by
  exact onKnot_only rfl (by intro b u; simp) h

@[simp] theorem sendHello_only (a0) (s x : State) (W) (w : Facet.within [.status, .sv, .disc] W = true) : Only W x
    (sendHello a0 s) = Only W x s := by
  refine Only.thru ?_ w x
  simp [sendHello]

theorem execHelloSend_only (s t : State) (h : execHelloSend s = .next t) : Only [.status, .sv, .disc] s t := by
  revert t h
  show OnlyOut _ _ _
  simp [execHelloSend]

theorem execHelloTimeout_only (a0) (s t : State) (h : execHelloTimeout a0 s = .next t) : Only [.flt, .status, .net,
    .sv, .disc, .weft, .bea] s t := by
  revert t h
  show OnlyOut _ _ _
  simp [execHelloTimeout]

theorem execSvLinkTimeout_only (a0) (s t : State) (h : execSvLinkTimeout a0 s = .next t) : Only [.flt, .status, .net,
    .sv, .disc, .weft, .bea] s t := by
  revert t h
  show OnlyOut _ _ _
  simp [execSvLinkTimeout]

@[simp] theorem putMark_only (a0) (a1) (s x : State) (W) (w : Facet.within [.sv] W = true) : Only W x (putMark a0 a1
    s) = Only W x s := by
  refine Only.thru ?_ w x
  simp [putMark]

theorem execMarkReqSend_only (a0) (s t : State) (h : execMarkReqSend a0 s = .next t) : Only [.sv] s t := by
  revert t h
  show OnlyOut _ _ _
  simp [execMarkReqSend]

theorem execMarkReq_only (a0) (a1) (s t : State) (h : execMarkReq a0 a1 s = .next t) : Only [.sv] s t := by
  revert t h
  show OnlyOut _ _ _
  simp [execMarkReq]

theorem execMarkRsp_only (a0) (a1) (s t : State) (h : execMarkRsp a0 a1 s = .next t) : Only [.sv] s t := by
  revert t h
  show OnlyOut _ _ _
  unfold execMarkRsp
  (repeat' split) <;> simp

@[simp] theorem putBeats_only (a0) (a1) (s x : State) (W) (w : Facet.within [.sv] W = true) : Only W x (putBeats a0 a1
    s) = Only W x s := by
  refine Only.thru ?_ w x
  simp [putBeats]

theorem execMarkBeat_only (a0) (a1) (s t : State) (h : execMarkBeat a0 a1 s = .next t) : Only [.sv, .disc] s t := by
  revert t h
  show OnlyOut _ _ _
  simp [execMarkBeat]

theorem receiveLocal_ignored {s u : State} {d : Dir} {t : KnotType} {b : List Byte} (h : receiveLocal s d t b = .ignored u) : Only [.status, .sv] s u := by
  unfold receiveLocal at h
  (repeat' split at h) <;> (first | (cases h; done) | (injection h with h; subst h)) <;> simp
theorem receiveLocal_taken {s u : State} {d : Dir} {t : KnotType} {b : List Byte} {x : Head} (h : receiveLocal s d t b = .taken u x) : Only [.status, .sv] s u := by
  unfold receiveLocal at h
  (repeat' split at h) <;> (first | (cases h; done) | (injection h with h; subst h)) <;> simp

@[simp] theorem posIn_only (a0) (a1) (s x : State) (W) (w : Facet.within [.flt, .status, .net, .sv, .disc, .weft,
    .bea] W = true) : Only W x (posIn a0 a1 s) = Only W x s := by
  refine Only.thru ?_ w x
  unfold posIn
  (repeat' split) <;> (try simp (maxDischargeDepth := 9)) <;> first | exact (receiveLocal_ignored ‹_›).mono rfl | exact (receiveLocal_taken ‹_›).mono rfl | exact (acceptFlood_ignored ‹_›).mono rfl | exact (acceptFlood_taken ‹_›).mono rfl | exact (receiveFlood_ignored ‹_›).mono rfl | exact (receiveFlood_taken ‹_›).mono rfl

theorem execPos_only (a0) (a1) (s t : State) (h : execPos a0 a1 s = .next t) : Only [.flt, .status, .net, .sv, .disc,
    .weft, .bea] s t := by
  exact onKnot_only rfl (by intro b u; simp) h

theorem execPosSend_only (s t : State) (h : execPosSend s = .next t) : Only [.status, .sv, .disc] s t := by
  revert t h
  show OnlyOut _ _ _
  unfold execPosSend
  (repeat' split) <;> simp

theorem execPosClaimExpiry_only (a0) (s t : State) (h : execPosClaimExpiry a0 s = .next t) : Only [.flt, .status,
    .net, .sv, .disc, .weft, .bea] s t := by
  revert t h
  show OnlyOut _ _ _
  unfold execPosClaimExpiry
  (repeat' split) <;> simp

@[simp] theorem updateResults_only (a0) (s x : State) (W) (w : Facet.within [.disc, .scene] W = true) : Only W x
    (updateResults a0 s) = Only W x s := by
  refine Only.thru ?_ w x
  simp [updateResults]

@[simp] theorem takeCensus_only (a0) (a1) (s x : State) (W) (w : Facet.within [.disc, .scene] W = true) : Only W x
    (takeCensus a0 a1 s) = Only W x s := by
  refine Only.thru ?_ w x
  simp [takeCensus]

@[simp] theorem censusIn_only (a0) (a1) (s x : State) (W) (w : Facet.within [.status, .sv, .disc, .scene] W = true) :
    Only W x (censusIn a0 a1 s) = Only W x s := by
  refine Only.thru ?_ w x
  unfold censusIn
  (repeat' split) <;> (try simp (maxDischargeDepth := 9)) <;> first | exact (receiveLocal_ignored ‹_›).mono rfl | exact (receiveLocal_taken ‹_›).mono rfl | exact (acceptFlood_ignored ‹_›).mono rfl | exact (acceptFlood_taken ‹_›).mono rfl | exact (receiveFlood_ignored ‹_›).mono rfl | exact (receiveFlood_taken ‹_›).mono rfl

theorem execCensus_only (a0) (a1) (s t : State) (h : execCensus a0 a1 s = .next t) : Only [.flt, .status, .net, .sv,
    .disc, .scene, .weft, .bea] s t := by
  exact onKnot_only rfl (by intro b u; simp) h

theorem execCensusSend_only (s t : State) (h : execCensusSend s = .next t) : Only [.status, .sv, .disc, .scene] s t :=
    by
  revert t h
  show OnlyOut _ _ _
  unfold execCensusSend
  (repeat' split) <;> simp

theorem execCensusLapse_only (a0) (s t : State) (h : execCensusLapse a0 s = .next t) : Only [.disc] s t := by
  revert t h
  show OnlyOut _ _ _
  simp [execCensusLapse]

@[simp] theorem dropOldScene_only (s x : State) (W) (w : Facet.within [.keys, .net, .scene, .aud] W = true) : Only W x
    (dropOldScene s) = Only W x s := by
  refine Only.thru ?_ w x
  unfold dropOldScene
  dsimp only
  (repeat' split) <;> simp

@[simp] theorem leadLost_only (a0) (s x : State) (W) (w : Facet.within [.flt, .status, .net, .time, .sv, .disc, .weft,
    .bea] W = true) : Only W x (leadLost a0 s) = Only W x s := by
  refine Only.thru ?_ w x
  simp [leadLost]

@[simp] theorem endLeading_only (s x : State) (W) (w : Facet.within [.disc, .scene] W = true) : Only W x (endLeading
    s) = Only W x s := by
  refine Only.thru ?_ w x
  simp [endLeading]

@[simp] theorem takePage_only (a0) (s x : State) (W) (w : Facet.within [.disc] W = true) : Only W x (takePage a0 s) =
    Only W x s := by
  refine Only.thru ?_ w x
  simp [takePage]

@[simp] theorem takeLeadView_only (a0) (a1) (a2) (s x : State) (W) (w : Facet.within [.keys, .net, .time, .disc,
    .scene, .aud] W = true) : Only W x (takeLeadView a0 a1 a2 s) = Only W x s := by
  refine Only.thru ?_ w x
  simp [takeLeadView]

@[simp] theorem takeSettled_only (a0) (s x : State) (W) (w : Facet.within [.flt, .status, .net, .sv, .disc, .bea] W =
    true) : Only W x (takeSettled a0 s) = Only W x s := by
  refine Only.thru ?_ w x
  simp [takeSettled]

@[simp] theorem followLead_only (a0) (a1) (a2) (s x : State) (W) (w : Facet.within [.keys, .flt, .status, .net, .time,
    .sv, .disc, .scene, .weft, .aud, .bea] W = true) : Only W x (followLead a0 a1 a2 s) = Only W x s := by
  refine Only.thru ?_ w x
  simp [followLead]

@[simp] theorem yieldTo_only (a0) (s x : State) (W) (w : Facet.within [.disc, .scene] W = true) : Only W x (yieldTo a0
    s) = Only W x s := by
  refine Only.thru ?_ w x
  unfold yieldTo
  (repeat' split) <;> simp

@[simp] theorem noteHeard_only (a0) (a1) (s x : State) (W) (w : Facet.within [.disc] W = true) : Only W x (noteHeard
    a0 a1 s) = Only W x s := by
  refine Only.thru ?_ w x
  simp [noteHeard]

@[simp] theorem relayClaim_only (a0) (a1) (a2) (a3) (s x : State) (W) (w : Facet.within [.status, .sv, .disc] W =
    true) : Only W x (relayClaim a0 a1 a2 a3 s) = Only W x s := by
  refine Only.thru ?_ w x
  simp [relayClaim]

@[simp] theorem takeLead_only (a0) (a1) (a2) (s x : State) (W) (w : Facet.within [.keys, .flt, .status, .net, .time,
    .sv, .disc, .scene, .weft, .aud, .bea] W = true) : Only W x (takeLead a0 a1 a2 s) = Only W x s := by
  refine Only.thru ?_ w x
  simp [takeLead]

@[simp] theorem leadIn_only (a0) (a1) (s x : State) (W) (w : Facet.within [.keys, .flt, .status, .net, .time, .sv,
    .disc, .scene, .weft, .aud, .bea] W = true) : Only W x (leadIn a0 a1 s) = Only W x s := by
  refine Only.thru ?_ w x
  unfold leadIn
  (repeat' split) <;> (try simp (maxDischargeDepth := 9)) <;> first | exact (receiveLocal_ignored ‹_›).mono rfl | exact (receiveLocal_taken ‹_›).mono rfl | exact (acceptFlood_ignored ‹_›).mono rfl | exact (acceptFlood_taken ‹_›).mono rfl | exact (receiveFlood_ignored ‹_›).mono rfl | exact (receiveFlood_taken ‹_›).mono rfl

theorem execLead_only (a0) (a1) (s t : State) (h : execLead a0 a1 s = .next t) : Only [.keys, .flt, .status, .net,
    .time, .sv, .disc, .scene, .weft, .aud, .bea] s t := by
  exact onKnot_only rfl (by intro b u; simp) h

@[simp] theorem sentLead_only (s x : State) (W) (w : Facet.within [.disc] W = true) : Only W x (sentLead s) = Only W x
    s := by
  refine Only.thru ?_ w x
  simp [sentLead]

@[simp] theorem sendLead_only (s x : State) (W) (w : Facet.within [.status, .sv, .disc, .scene] W = true) : Only W x
    (sendLead s) = Only W x s := by
  refine Only.thru ?_ w x
  simp [sendLead]

@[simp] theorem sendResign_only (s x : State) (W) (w : Facet.within [.status, .sv, .disc, .scene] W = true) : Only W x
    (sendResign s) = Only W x s := by
  refine Only.thru ?_ w x
  simp [sendResign]

theorem execLeadSend_only (s t : State) (h : execLeadSend s = .next t) : Only [.status, .sv, .disc, .scene] s t := by
  revert t h
  show OnlyOut _ _ _
  unfold execLeadSend
  (repeat' split) <;> simp

theorem execLeadSettle_only (s t : State) (h : execLeadSettle s = .next t) : Only [.flt, .status, .net, .sv, .disc,
    .weft, .bea] s t := by
  revert t h
  show OnlyOut _ _ _
  simp [execLeadSettle]

theorem execBecomeActingLead_only (s t : State) (h : execBecomeActingLead s = .next t) : Only [.standby, .keys, .flt,
    .status, .net, .time, .sv, .disc, .scene, .weft, .bri, .aud, .bob, .bea] s t := by
  revert t h
  show OnlyOut _ _ _
  unfold execBecomeActingLead
  (repeat' split) <;> (try simp) <;> (refine Only.upd ?y ?h ?x; (case h => (intro p hp; cases p <;> first | exact absurd (by decide) hp | (dsimp only [sameFacet] <;> (repeat' apply And.intro) <;> rfl))); (case x => simp))

theorem execLeadLost_only (s t : State) (h : execLeadLost s = .next t) : Only [.flt, .status, .net, .time, .sv, .disc,
    .weft, .bea] s t := by
  revert t h
  show OnlyOut _ _ _
  unfold execLeadLost
  (repeat' split) <;> simp

theorem execNoLeadTimeout_only (s t : State) (h : execNoLeadTimeout s = .next t) : Only [.flt, .status, .net, .sv,
    .disc, .weft, .bea] s t := by
  revert t h
  show OnlyOut _ _ _
  simp [execNoLeadTimeout]

theorem execLeadClaimLapse_only (s t : State) (h : execLeadClaimLapse s = .next t) : Only [.disc] s t := by
  revert t h
  show OnlyOut _ _ _
  simp [execLeadClaimLapse]

theorem execPositionInconsistency_only (a0) (s t : State) (h : execPositionInconsistency a0 s = .next t) : Only [.flt,
    .status, .net, .sv, .disc, .weft, .bea] s t := by
  revert t h
  show OnlyOut _ _ _
  simp [execPositionInconsistency]

theorem execKnotSequenceExpiry_only (a0) (a1) (s t : State) (h : execKnotSequenceExpiry a0 a1 s = .next t) : Only
    [.disc] s t := by
  revert t h
  show OnlyOut _ _ _
  simp [execKnotSequenceExpiry]

@[simp] theorem sendBeat_only (a0) (s x : State) (W) (w : Facet.within [.status, .time, .sv, .disc] W = true) : Only W
    x (sendBeat a0 s) = Only W x s := by
  refine Only.thru ?_ w x
  simp [sendBeat]

@[simp] theorem useBeat_only (a0) (a1) (a2) (a3) (s x : State) (W) (w : Facet.within [.flt, .status, .net, .time, .sv,
    .disc, .weft, .bea] W = true) : Only W x (useBeat a0 a1 a2 a3 s) = Only W x s := by
  refine Only.thru ?_ w x
  simp [useBeat]

@[simp] theorem relayBeat_only (a0) (a1) (a2) (s x : State) (W) (w : Facet.within [.status, .sv] W = true) : Only W x
    (relayBeat a0 a1 a2 s) = Only W x s := by
  refine Only.thru ?_ w x
  simp [relayBeat]

@[simp] theorem beatIn_only (a0) (a1) (s x : State) (W) (w : Facet.within [.flt, .status, .net, .time, .sv, .disc,
    .weft, .bea] W = true) : Only W x (beatIn a0 a1 s) = Only W x s := by
  refine Only.thru ?_ w x
  unfold beatIn
  (repeat' split) <;> (try simp (maxDischargeDepth := 9)) <;> first | exact (receiveLocal_ignored ‹_›).mono rfl | exact (receiveLocal_taken ‹_›).mono rfl | exact (acceptFlood_ignored ‹_›).mono rfl | exact (acceptFlood_taken ‹_›).mono rfl | exact (receiveFlood_ignored ‹_›).mono rfl | exact (receiveFlood_taken ‹_›).mono rfl

theorem execBeat_only (a0) (a1) (s t : State) (h : execBeat a0 a1 s = .next t) : Only [.flt, .status, .net, .time,
    .sv, .disc, .weft, .bea] s t := by
  exact onKnot_only rfl (by intro b u; simp) h

@[simp] theorem faultIn_only (a0) (a1) (s x : State) (W) (w : Facet.within [.status, .sv, .disc] W = true) : Only W x
    (faultIn a0 a1 s) = Only W x s := by
  refine Only.thru ?_ w x
  unfold faultIn
  (repeat' split) <;> (try simp (maxDischargeDepth := 9)) <;> first | exact (receiveLocal_ignored ‹_›).mono rfl | exact (receiveLocal_taken ‹_›).mono rfl | exact (acceptFlood_ignored ‹_›).mono rfl | exact (acceptFlood_taken ‹_›).mono rfl | exact (receiveFlood_ignored ‹_›).mono rfl | exact (receiveFlood_taken ‹_›).mono rfl

theorem execFault_only (a0) (a1) (s t : State) (h : execFault a0 a1 s = .next t) : Only [.flt, .status, .net, .sv,
    .disc, .weft, .bea] s t := by
  exact onKnot_only rfl (by intro b u; simp) h

theorem execFaultKnotSend_only (s t : State) (h : execFaultKnotSend s = .next t) : Only [.status, .sv, .disc] s t :=
    by
  revert t h
  show OnlyOut _ _ _
  unfold execFaultKnotSend
  (repeat' split) <;> simp

end Sys2Proof.Machine
end

