-- ==== Sys2Proof/Laws/OnlyScene.lean ====
section
/-!
SUPPORT. Which facets of the state each operation and command may change (`_only`): frame memory, scenes, video, sound, frames at a port and brightness.
An operation's lemma passes over it wherever all that it changes may change, so that `simp` shows `Only W s t` for a chain of
operations; a command's lemma speaks of its next state.
-/
set_option linter.unusedVariables false
set_option linter.unusedSimpArgs false
set_option linter.unnecessarySeqFocus false
set_option linter.unusedTactic false
set_option linter.unreachableTactic false
namespace Sys2Proof.Machine
open Sys2Proof

@[simp] theorem setBad_only (a0) (a1) (s x : State) (W) (w : Facet.within [.mem] W = true) : Only W x (setBad a0 a1 s)
    = Only W x s := by
  refine Only.thru ?_ w x
  simp [setBad]

@[simp] theorem noteUpset_only (a0) (a1) (s x : State) (W) (w : Facet.within [.mem] W = true) : Only W x (noteUpset a0
    a1 s) = Only W x s := by
  refine Only.thru ?_ w x
  unfold noteUpset
  (repeat' split) <;> simp

@[simp] theorem poisonLine_only (a0) (s x : State) (W) (w : Facet.within [.mem] W = true) : Only W x (poisonLine a0 s)
    = Only W x s := by
  refine Only.thru ?_ w x
  simp [poisonLine]

@[simp] theorem writeLine_only (a0) (a1) (s x : State) (W) (w : Facet.within [.mem] W = true) : Only W x (writeLine a0
    a1 s) = Only W x s := by
  refine Only.thru ?_ w x
  simp [writeLine]

@[simp] theorem corrected_only (a0) (s x : State) (W) (w : Facet.within [.flt, .status, .net, .sv, .disc, .weft, .bea]
    W = true) : Only W x (corrected a0 s) = Only W x s := by
  refine Only.thru ?_ w x
  simp [corrected]

@[simp] theorem poisoned_only (a0) (s x : State) (W) (w : Facet.within [.flt, .status, .net, .sv, .disc, .weft, .bea]
    W = true) : Only W x (poisoned a0 s) = Only W x s := by
  refine Only.thru ?_ w x
  simp [poisoned]

@[simp] theorem poisonEvent_only (a0) (a1) (s x : State) (W) (w : Facet.within [.pwr, .clk, .boot, .test, .keys, .flt,
    .holds, .ldg, .status, .sens, .net, .time, .sv, .disc, .scene, .mem, .xb, .adm, .weft, .amb, .bri, .mark, .aud,
    .bob, .bea, .card, .dlg] W = true) : Only W x (poisonEvent a0 a1 s) = Only W x s := by
  refine Only.thru ?_ w x
  simp [poisonEvent]

@[simp] theorem grantTo_only (a0) (a1) (a2) (a3) (a4) (s x : State) (W) (w : Facet.within [.xb] W = true) : Only W x
    (grantTo a0 a1 a2 a3 a4 s) = Only W x s := by
  refine Only.thru ?_ w x
  simp [grantTo]

@[simp] theorem issuePiece_only (a0) (a1) (a2) (a3) (s x : State) (W) (w : Facet.within [.xb] W = true) : Only W x
    (issuePiece a0 a1 a2 a3 s) = Only W x s := by
  refine Only.thru ?_ w x
  unfold issuePiece
  (repeat' split) <;> simp

@[simp] theorem grantNext_only (a0) (s x : State) (W) (w : Facet.within [.xb] W = true) : Only W x (grantNext a0 s) =
    Only W x s := by
  refine Only.thru ?_ w x
  unfold grantNext
  (repeat' split) <;> simp

@[simp] theorem releaseRequest_only (s x : State) (W) (w : Facet.within [.xb] W = true) : Only W x (releaseRequest s)
    = Only W x s := by
  refine Only.thru ?_ w x
  unfold releaseRequest
  (repeat' split) <;> simp

@[simp] theorem xbClock_only (s x : State) (W) (w : Facet.within [.xb] W = true) : Only W x (xbClock s) = Only W x s
    := by
  refine Only.thru ?_ w x
  simp [xbClock]

theorem execXbTransaction_only (a0) (a1) (a2) (a3) (s t : State) (h : execXbTransaction a0 a1 a2 a3 s = .next t) :
    Only [.xb] s t := by
  revert t h
  show OnlyOut _ _ _
  simp [execXbTransaction]

@[simp] theorem answerHeld_only (s x : State) (W) (w : Facet.within [.xb] W = true) : Only W x (answerHeld s) = Only W
    x s := by
  refine Only.thru ?_ w x
  simp [answerHeld]

@[simp] theorem resetMaster_only (a0) (s x : State) (W) (w : Facet.within [.net, .adm, .aud] W = true) : Only W x
    (resetMaster a0 s) = Only W x s := by
  refine Only.thru ?_ w x
  simp [resetMaster]

theorem execXbHang_only (a0) (s t : State) (h : execXbHang a0 s = .next t) : Only [.pwr, .clk, .boot, .test, .keys,
    .flt, .holds, .ldg, .status, .sens, .net, .time, .sv, .disc, .scene, .mem, .xb, .adm, .weft, .amb, .bri, .mark,
    .aud, .bob, .bea, .card, .dlg] s t := by
  revert t h
  show OnlyOut _ _ _
  unfold execXbHang
  (repeat' split) <;> simp

@[simp] theorem memBlocked_only (a0) (a1) (a2) (a3) (s x : State) (W) (w : Facet.within [.xb] W = true) : Only W x
    (memBlocked a0 a1 a2 a3 s) = Only W x s := by
  refine Only.thru ?_ w x
  simp [memBlocked]

@[simp] theorem treatPoison_only (a0) (a1) (s x : State) (W) (w : Facet.within [.weft] W = true) : Only W x
    (treatPoison a0 a1 s) = Only W x s := by
  refine Only.thru ?_ w x
  unfold treatPoison
  (repeat' split) <;> simp

@[simp] theorem readMem_only (a0) (a1) (s x : State) (W) (w : Facet.within [.flt, .status, .net, .sv, .disc, .mem,
    .weft, .bea] W = true) : Only W x (readMem a0 a1 s) = Only W x s := by
  refine Only.thru ?_ w x
  unfold readMem
  dsimp only
  (repeat' split) <;> simp

theorem execMemRead_only (a0) (a1) (a2) (s t : State) (h : execMemRead a0 a1 a2 s = .next t) : Only [.flt, .status,
    .net, .sv, .disc, .mem, .xb, .weft, .bea] s t := by
  revert t h
  show OnlyOut _ _ _
  simp [execMemRead]

theorem execMemWriteWhole_only (a0) (a1) (a2) (s t : State) (h : execMemWriteWhole a0 a1 a2 s = .next t) : Only [.mem,
    .xb] s t := by
  revert t h
  show OnlyOut _ _ _
  simp [execMemWriteWhole]

@[simp] theorem mergeMem_only (a0) (a1) (a2) (s x : State) (W) (w : Facet.within [.pwr, .clk, .boot, .test, .keys,
    .flt, .holds, .ldg, .status, .sens, .net, .time, .sv, .disc, .scene, .mem, .xb, .adm, .weft, .amb, .bri, .mark,
    .aud, .bob, .bea, .card, .dlg] W = true) : Only W x (mergeMem a0 a1 a2 s) = Only W x s := by
  refine Only.thru ?_ w x
  simp [mergeMem]

theorem execMemWritePartial_only (a0) (a1) (a2) (a3) (s t : State) (h : execMemWritePartial a0 a1 a2 a3 s = .next t) :
    Only [.pwr, .clk, .boot, .test, .keys, .flt, .holds, .ldg, .status, .sens, .net, .time, .sv, .disc, .scene, .mem,
    .xb, .adm, .weft, .amb, .bri, .mark, .aud, .bob, .bea, .card, .dlg] s t := by
  revert t h
  show OnlyOut _ _ _
  simp [execMemWritePartial]

@[simp] theorem scrubNext_only (s x : State) (W) (w : Facet.within [.mem] W = true) : Only W x (scrubNext s) = Only W
    x s := by
  refine Only.thru ?_ w x
  simp [scrubNext]

@[simp] theorem scrubOne_only (s x : State) (W) (w : Facet.within [.pwr, .clk, .boot, .test, .keys, .flt, .holds,
    .ldg, .status, .sens, .net, .time, .sv, .disc, .scene, .mem, .xb, .adm, .weft, .amb, .bri, .mark, .aud, .bob,
    .bea, .card, .dlg] W = true) : Only W x (scrubOne s) = Only W x s := by
  refine Only.thru ?_ w x
  unfold scrubOne
  dsimp only
  (repeat' split) <;> simp

@[simp] theorem noteScrub_only (s x : State) (W) (w : Facet.within [.test] W = true) : Only W x (noteScrub s) = Only W
    x s := by
  refine Only.thru ?_ w x
  unfold noteScrub
  (repeat' split) <;> simp

theorem execScrubLine_only (a0) (s t : State) (h : execScrubLine a0 s = .next t) : Only [.pwr, .clk, .boot, .test,
    .keys, .flt, .holds, .ldg, .status, .sens, .net, .time, .sv, .disc, .scene, .mem, .xb, .adm, .weft, .amb, .bri,
    .mark, .aud, .bob, .bea, .card, .dlg] s t := by
  revert t h
  show OnlyOut _ _ _
  simp [execScrubLine]

@[simp] theorem initMemory_only (s x : State) (W) (w : Facet.within [.mem] W = true) : Only W x (initMemory s) = Only
    W x s := by
  refine Only.thru ?_ w x
  simp [initMemory]

@[simp] theorem noteFormats_only (a0) (s x : State) (W) (w : Facet.within [.flt, .status, .net, .sv, .disc, .weft,
    .bea] W = true) : Only W x (noteFormats a0 s) = Only W x s := by
  refine Only.thru ?_ w x
  unfold noteFormats
  (repeat' split) <;> (try simp (maxDischargeDepth := 9)) <;> ((with_reducible refine Eq.mpr (Only.foldl _ _ _ _ _ ?h) ?x); (case h => (intro t a; (try dsimp only); (repeat' split) <;> (simp (maxDischargeDepth := 9); done))); (case x => (simp (maxDischargeDepth := 9); done)))

@[simp] theorem prepareScene_only (a0) (a1) (a2) (a3) (a4) (s x : State) (W) (w : Facet.within [.keys, .flt, .status,
    .net, .sv, .disc, .scene, .weft, .aud, .bea] W = true) : Only W x (prepareScene a0 a1 a2 a3 a4 s) = Only W x s :=
    by
  refine Only.thru ?_ w x
  simp [prepareScene]

@[simp] theorem planRoute_only (a0) (a1) (s x : State) (W) (w : Facet.within [.aud] W = true) : Only W x (planRoute a0
    a1 s) = Only W x s := by
  refine Only.thru ?_ w x
  simp [planRoute]

@[simp] theorem floodScene_only (a0) (a1) (s x : State) (W) (w : Facet.within [.status, .sv, .disc] W = true) : Only W
    x (floodScene a0 a1 s) = Only W x s := by
  refine Only.thru ?_ w x
  simp [floodScene]

@[simp] theorem floodPrepare_only (a0) (s x : State) (W) (w : Facet.within [.status, .sv, .disc] W = true) : Only W x
    (floodPrepare a0 s) = Only W x s := by
  refine Only.thru ?_ w x
  simp [floodPrepare]

theorem execSceneChangeStart_only (s t : State) (h : execSceneChangeStart s = .next t) : Only [.keys, .flt, .status,
    .net, .sv, .disc, .scene, .weft, .aud, .bea] s t := by
  revert t h
  show OnlyOut _ _ _
  simp [execSceneChangeStart]

theorem execPrepareRepeat_only (s t : State) (h : execPrepareRepeat s = .next t) : Only [.status, .sv, .disc, .scene]
    s t := by
  revert t h
  show OnlyOut _ _ _
  unfold execPrepareRepeat
  (repeat' split) <;> simp

@[simp] theorem takePrepare_only (a0) (a1) (s x : State) (W) (w : Facet.within [.keys, .flt, .status, .net, .sv,
    .disc, .scene, .weft, .aud, .bea] W = true) : Only W x (takePrepare a0 a1 s) = Only W x s := by
  refine Only.thru ?_ w x
  unfold takePrepare
  dsimp only
  (repeat' split) <;> simp

@[simp] theorem prepareIn_only (a0) (a1) (s x : State) (W) (w : Facet.within [.keys, .flt, .status, .net, .sv, .disc,
    .scene, .weft, .aud, .bea] W = true) : Only W x (prepareIn a0 a1 s) = Only W x s := by
  refine Only.thru ?_ w x
  unfold prepareIn
  (repeat' split) <;> (try simp (maxDischargeDepth := 9)) <;> first | exact (receiveLocal_ignored ‹_›).mono rfl | exact (receiveLocal_taken ‹_›).mono rfl | exact (acceptFlood_ignored ‹_›).mono rfl | exact (acceptFlood_taken ‹_›).mono rfl | exact (receiveFlood_ignored ‹_›).mono rfl | exact (receiveFlood_taken ‹_›).mono rfl

theorem execPrepare_only (a0) (a1) (s t : State) (h : execPrepare a0 a1 s = .next t) : Only [.keys, .flt, .status,
    .net, .sv, .disc, .scene, .weft, .aud, .bea] s t := by
  exact onKnot_only rfl (by intro b u; simp) h

@[simp] theorem noteReady_only (a0) (a1) (s x : State) (W) (w : Facet.within [.scene] W = true) : Only W x (noteReady
    a0 a1 s) = Only W x s := by
  refine Only.thru ?_ w x
  simp [noteReady]

@[simp] theorem takeReady_only (a0) (a1) (a2) (s x : State) (W) (w : Facet.within [.scene] W = true) : Only W x
    (takeReady a0 a1 a2 s) = Only W x s := by
  refine Only.thru ?_ w x
  unfold takeReady
  (repeat' split) <;> simp

@[simp] theorem sendReady_only (a0) (a1) (a2) (s x : State) (W) (w : Facet.within [.status, .sv, .disc, .scene] W =
    true) : Only W x (sendReady a0 a1 a2 s) = Only W x s := by
  refine Only.thru ?_ w x
  simp [sendReady]

theorem execReadySend_only (s t : State) (h : execReadySend s = .next t) : Only [.status, .sv, .disc, .scene, .adm] s
    t := by
  revert t h
  show OnlyOut _ _ _
  unfold execReadySend
  (repeat' split) <;> simp

@[simp] theorem readyIn_only (a0) (a1) (s x : State) (W) (w : Facet.within [.status, .sv, .scene] W = true) : Only W x
    (readyIn a0 a1 s) = Only W x s := by
  refine Only.thru ?_ w x
  unfold readyIn
  (repeat' split) <;> (try simp (maxDischargeDepth := 9)) <;> first | exact (receiveLocal_ignored ‹_›).mono rfl | exact (receiveLocal_taken ‹_›).mono rfl | exact (acceptFlood_ignored ‹_›).mono rfl | exact (acceptFlood_taken ‹_›).mono rfl | exact (receiveFlood_ignored ‹_›).mono rfl | exact (receiveFlood_taken ‹_›).mono rfl

theorem execReady_only (a0) (a1) (s t : State) (h : execReady a0 a1 s = .next t) : Only [.flt, .status, .net, .sv,
    .disc, .scene, .weft, .bea] s t := by
  exact onKnot_only rfl (by intro b u; simp) h

@[simp] theorem floodCommit_only (a0) (a1) (a2) (s x : State) (W) (w : Facet.within [.status, .sv, .disc] W = true) :
    Only W x (floodCommit a0 a1 a2 s) = Only W x s := by
  refine Only.thru ?_ w x
  simp [floodCommit]

@[simp] theorem setCommit_only (a0) (a1) (a2) (s x : State) (W) (w : Facet.within [.scene, .aud] W = true) : Only W x
    (setCommit a0 a1 a2 s) = Only W x s := by
  refine Only.thru ?_ w x
  simp [setCommit]

@[simp] theorem keyOfIdent_only (a0) (s x : State) (W) (w : Facet.within [.fresh] W = true) : Only W x (keyOfIdent a0
    s).2 = Only W x s := by
  refine Only.thru ?_ w x
  unfold keyOfIdent
  (repeat' split) <;> simp

@[simp] theorem prepareLate_only (a0) (a1) (a2) (a3) (s x : State) (W) (w : Facet.within [.fresh, .keys, .flt,
    .status, .net, .sv, .disc, .scene, .weft, .aud, .bea] W = true) : Only W x (prepareLate a0 a1 a2 a3 s) = Only W x
    s := by
  refine Only.thru ?_ w x
  unfold prepareLate
  dsimp only
  (repeat' split) <;> simp

@[simp] theorem takeCommit_only (a0) (a1) (a2) (a3) (s x : State) (W) (w : Facet.within [.fresh, .keys, .flt, .status,
    .net, .sv, .disc, .scene, .weft, .aud, .bea] W = true) : Only W x (takeCommit a0 a1 a2 a3 s) = Only W x s := by
  refine Only.thru ?_ w x
  unfold takeCommit
  (repeat' split) <;> simp

theorem execSceneDecision_only (s t : State) (h : execSceneDecision s = .next t) : Only [.fresh, .keys, .flt, .status,
    .net, .sv, .disc, .scene, .weft, .aud, .bea] s t := by
  revert t h
  show OnlyOut _ _ _
  unfold execSceneDecision
  (repeat' split) <;> simp

theorem execCommitRepeat_only (s t : State) (h : execCommitRepeat s = .next t) : Only [.status, .sv, .disc, .scene] s
    t := by
  revert t h
  show OnlyOut _ _ _
  unfold execCommitRepeat
  (repeat' split) <;> simp

@[simp] theorem commitIn_only (a0) (a1) (s x : State) (W) (w : Facet.within [.fresh, .keys, .flt, .status, .net, .sv,
    .disc, .scene, .weft, .aud, .bea] W = true) : Only W x (commitIn a0 a1 s) = Only W x s := by
  refine Only.thru ?_ w x
  unfold commitIn
  (repeat' split) <;> (try simp (maxDischargeDepth := 9)) <;> first | exact (receiveLocal_ignored ‹_›).mono rfl | exact (receiveLocal_taken ‹_›).mono rfl | exact (acceptFlood_ignored ‹_›).mono rfl | exact (acceptFlood_taken ‹_›).mono rfl | exact (receiveFlood_ignored ‹_›).mono rfl | exact (receiveFlood_taken ‹_›).mono rfl

theorem execCommit_only (a0) (a1) (s t : State) (h : execCommit a0 a1 s = .next t) : Only [.fresh, .keys, .flt,
    .status, .net, .sv, .disc, .scene, .weft, .aud, .bea] s t := by
  exact onKnot_only rfl (by intro b u; simp) h

theorem execCommitEcho_only (s t : State) (h : execCommitEcho s = .next t) : Only [.status, .sv, .disc, .scene] s t :=
    by
  revert t h
  show OnlyOut _ _ _
  unfold execCommitEcho
  (repeat' split) <;> simp

theorem execCommitDeadlineMiss_only (s t : State) (h : execCommitDeadlineMiss s = .next t) : Only [.keys, .flt,
    .status, .net, .sv, .disc, .scene, .weft, .aud, .bea] s t := by
  revert t h
  show OnlyOut _ _ _
  unfold execCommitDeadlineMiss
  (repeat' split) <;> simp

@[simp] theorem overloadFaults_only (a0) (a1) (a2) (s x : State) (W) (w : Facet.within [.flt, .status, .net, .sv,
    .disc, .weft, .bea] W = true) : Only W x (overloadFaults a0 a1 a2 s) = Only W x s := by
  refine Only.thru ?_ w x
  unfold overloadFaults
  (repeat' split) <;> (try simp (maxDischargeDepth := 9)) <;> ((with_reducible refine Eq.mpr (Only.foldl _ _ _ _ _ ?h) ?x); (case h => (intro t a; (try dsimp only); (repeat' split) <;> (simp (maxDischargeDepth := 9); done))); (case x => (simp (maxDischargeDepth := 9); done)))

@[simp] theorem applyCommit_only (a0) (a1) (a2) (a3) (s x : State) (W) (w : Facet.within [.keys, .flt, .status, .net,
    .sv, .disc, .scene, .mem, .adm, .weft, .bea] W = true) : Only W x (applyCommit a0 a1 a2 a3 s) = Only W x s := by
  refine Only.thru ?_ w x
  unfold applyCommit
  (repeat' split) <;> (try simp) <;> (refine Only.upd ?y ?h ?x; (case h => (intro p hp; cases p <;> first | exact absurd (by decide) hp | (dsimp only [sameFacet] <;> (repeat' apply And.intro) <;> rfl))); (case x => simp))

@[simp] theorem commitAtBeat_only (a0) (s x : State) (W) (w : Facet.within [.keys, .flt, .status, .net, .sv, .disc,
    .scene, .mem, .adm, .weft, .bea] W = true) : Only W x (commitAtBeat a0 s) = Only W x s := by
  refine Only.thru ?_ w x
  unfold commitAtBeat
  (repeat' split) <;> simp

@[simp] theorem changePasses_only (a0) (s x : State) (W) (w : Facet.within [.scene] W = true) : Only W x (changePasses
    a0 s) = Only W x s := by
  refine Only.thru ?_ w x
  unfold changePasses
  (repeat' split) <;> simp

theorem execEchoPreparedCommit_only (s t : State) (h : execEchoPreparedCommit s = .next t) : Only [.scene, .aud] s t
    := by
  revert t h
  show OnlyOut _ _ _
  unfold execEchoPreparedCommit
  (repeat' split) <;> simp

@[simp] theorem reevaluate_only (s x : State) (W) (w : Facet.within [.adm] W = true) : Only W x (reevaluate s) = Only
    W x s := by
  refine Only.thru ?_ w x
  unfold reevaluate
  (repeat' split) <;> simp

theorem execUnsolicitedReady_only (s t : State) (h : execUnsolicitedReady s = .next t) : Only [.status, .sv, .disc,
    .scene, .adm] s t := by
  revert t h
  show OnlyOut _ _ _
  unfold execUnsolicitedReady
  (repeat' split) <;> simp

theorem execStreamLossTimeout_only (a0) (s t : State) (h : execStreamLossTimeout a0 s = .next t) : Only [.flt,
    .status, .net, .sv, .disc, .scene, .weft, .bea] s t := by
  revert t h
  show OnlyOut _ _ _
  unfold execStreamLossTimeout
  (repeat' split) <;> simp

@[simp] theorem modFlow_only (a0) (a1) (a2) (s x : State) (W) (w : Facet.within [.net] W = true) : Only W x (modFlow
    a0 a1 a2 s) = Only W x s := by
  refine Only.thru ?_ w x
  simp [modFlow]

@[simp] theorem storeLine_only (a0) (a1) (a2) (s x : State) (W) (w : Facet.within [.mem] W = true) : Only W x
    (storeLine a0 a1 a2 s) = Only W x s := by
  refine Only.thru ?_ w x
  simp [storeLine]

@[simp] theorem fileSrd_only (f d) (y : Buffer × State) (x : State) (W) (w : Facet.within [.mem] W = true) :
    Only W x (fileSrd f d y).2 = Only W x y.2 := by
  refine Only.thru ?_ w x
  unfold fileSrd
  (try dsimp only) <;> (repeat' split) <;> simp

@[simp] theorem fileSrds_only (f) (l : List Srd) (y : Buffer × State) (x : State) (W) (w : Facet.within [.mem] W = true) :
    Only W x (l.foldl (fun x d => fileSrd f d x) y).2 = Only W x y.2 := by
  induction l generalizing y with
  | nil => rfl
  | cons d l ih => rw [List.foldl_cons, ih, fileSrd_only _ _ _ _ _ w]

@[simp] theorem modWin_only (a0) (a1) (a2) (s x : State) (W) (w : Facet.within [.scene] W = true) : Only W x (modWin
    a0 a1 a2 s) = Only W x s := by
  refine Only.thru ?_ w x
  simp [modWin]

@[simp] theorem openBuffer_only (a0) (a1) (a2) (s x : State) (W) (w : Facet.within [.scene] W = true) : Only W x
    (openBuffer a0 a1 a2 s) = Only W x s := by
  refine Only.thru ?_ w x
  unfold openBuffer
  dsimp only
  (repeat' split) <;> simp

@[simp] theorem fillBuffer_only (a0) (a1) (a2) (a3) (s x : State) (W) (w : Facet.within [.scene, .mem] W = true) :
    Only W x (fillBuffer a0 a1 a2 a3 s) = Only W x s := by
  refine Only.thru ?_ w x
  unfold fillBuffer
  dsimp only
  (repeat' split) <;> simp

@[simp] theorem discardSource_only (a0) (a1) (s x : State) (W) (w : Facet.within [.net, .scene] W = true) : Only W x
    (discardSource a0 a1 s) = Only W x s := by
  refine Only.thru ?_ w x
  simp [discardSource]

@[simp] theorem endFrames_only (a0) (s x : State) (W) (w : Facet.within [.scene] W = true) : Only W x (endFrames a0 s)
    = Only W x s := by
  refine Only.thru ?_ w x
  simp [endFrames]

@[simp] theorem noteOutside_only (a0) (a1) (s x : State) (W) (w : Facet.within [.scene] W = true) : Only W x
    (noteOutside a0 a1 s) = Only W x s := by
  refine Only.thru ?_ w x
  simp [noteOutside]

@[simp] theorem beginFrame_only (a0) (a1) (a2) (a3) (a4) (s x : State) (W) (w : Facet.within [.status, .net, .scene] W
    = true) : Only W x (beginFrame a0 a1 a2 a3 a4 s) = Only W x s := by
  refine Only.thru ?_ w x
  unfold beginFrame
  dsimp only
  (repeat' split) <;> simp

@[simp] theorem takePixels_only (a0) (a1) (a2) (s x : State) (W) (w : Facet.within [.status, .net, .scene, .mem] W =
    true) : Only W x (takePixels a0 a1 a2 s) = Only W x s := by
  refine Only.thru ?_ w x
  simp [takePixels]

@[simp] theorem takeBegun_only (a0) (a1) (a2) (s x : State) (W) (w : Facet.within [.status, .net, .scene, .mem] W =
    true) : Only W x (takeBegun a0 a1 a2 s) = Only W x s := by
  refine Only.thru ?_ w x
  simp [takeBegun]

@[simp] theorem takeVideo_only (a0) (a1) (a2) (a3) (a4) (s x : State) (W) (w : Facet.within [.status, .net, .scene,
    .mem] W = true) : Only W x (takeVideo a0 a1 a2 a3 a4 s) = Only W x s := by
  refine Only.thru ?_ w x
  unfold takeVideo
  (repeat' split) <;> simp

@[simp] theorem videoIn_only (a0) (a1) (a2) (a3) (a4) (s x : State) (W) (w : Facet.within [.status, .net, .scene,
    .mem] W = true) : Only W x (videoIn a0 a1 a2 a3 a4 s) = Only W x s := by
  refine Only.thru ?_ w x
  unfold videoIn
  dsimp only
  (repeat' split) <;> simp

@[simp] theorem ancIn_only (a0) (a1) (a2) (a3) (s x : State) (W) (w : Facet.within [.net] W = true) : Only W x (ancIn
    a0 a1 a2 a3 s) = Only W x s := by
  refine Only.thru ?_ w x
  unfold ancIn
  dsimp only
  (repeat' split) <;> simp

@[simp] theorem noteFormat_only (a0) (a1) (a2) (s x : State) (W) (w : Facet.within [.flt, .status, .net, .sv, .disc,
    .scene, .weft, .bea] W = true) : Only W x (noteFormat a0 a1 a2 s) = Only W x s := by
  refine Only.thru ?_ w x
  simp [noteFormat]

@[simp] theorem bindSdp_only (a0) (a1) (s x : State) (W) (w : Facet.within [.flt, .status, .net, .sv, .disc, .scene,
    .weft, .bea] W = true) : Only W x (bindSdp a0 a1 s) = Only W x s := by
  refine Only.thru ?_ w x
  unfold bindSdp
  dsimp only
  (repeat' split) <;> simp

@[simp] theorem sapIn_only (a0) (a1) (s x : State) (W) (w : Facet.within [.flt, .status, .net, .sv, .disc, .scene,
    .weft, .bea] W = true) : Only W x (sapIn a0 a1 s) = Only W x s := by
  refine Only.thru ?_ w x
  simp [sapIn]

@[simp] theorem setAFlow_only (a0) (a1) (a2) (s x : State) (W) (w : Facet.within [.aud] W = true) : Only W x (setAFlow
    a0 a1 a2 s) = Only W x s := by
  refine Only.thru ?_ w x
  simp [setAFlow]

@[simp] theorem endNoSource_only (a0) (a1) (a2) (s x : State) (W) (w : Facet.within [.flt, .status, .net, .sv, .disc,
    .aud, .bea] W = true) : Only W x (endNoSource a0 a1 a2 s) = Only W x s := by
  refine Only.thru ?_ w x
  simp [endNoSource]

@[simp] theorem storeSamplesAt_only (r : Fin 4) (l : List (List (BitVec 32))) (y : Int × State) (x : State) (W)
    (w : Facet.within [.mem] W = true) :
    Only W x (l.foldl (fun (x : Int × State) l => (x.1 + 1, writeLine (ringLine r x.1) (lineOfWords l) x.2)) y).2 =
      Only W x y.2 := by
  induction l generalizing y with
  | nil => rfl
  | cons d l ih => rw [List.foldl_cons, ih, writeLine_only _ _ _ _ _ w]

@[simp] theorem storeSamples_only (a0) (a1) (a2) (s x : State) (W) (w : Facet.within [.mem] W = true) : Only W x
    (storeSamples a0 a1 a2 s) = Only W x s := by
  refine Only.thru ?_ w x
  simp [storeSamples]

@[simp] theorem ingestAudio_only (a0) (a1) (a2) (a3) (a4) (a5) (a6) (a7) (s x : State) (W) (w : Facet.within [.flt,
    .status, .net, .sv, .disc, .mem, .weft, .aud, .bea] W = true) : Only W x (ingestAudio a0 a1 a2 a3 a4 a5 a6 a7 s) =
    Only W x s := by
  refine Only.thru ?_ w x
  unfold ingestAudio
  (repeat' split) <;> simp

@[simp] theorem placeAudio_only (a0) (a1) (a2) (a3) (a4) (a5) (s x : State) (W) (w : Facet.within [.flt, .status,
    .net, .sv, .disc, .mem, .weft, .aud, .bea] W = true) : Only W x (placeAudio a0 a1 a2 a3 a4 a5 s) = Only W x s :=
    by
  refine Only.thru ?_ w x
  simp [placeAudio]

@[simp] theorem audioPlace_only (a0) (s x : State) (W) (w : Facet.within [.aud] W = true) : Only W x (audioPlace a0
    s).2 = Only W x s := by
  refine Only.thru ?_ w x
  unfold audioPlace
  dsimp only
  (repeat' split) <;> simp

@[simp] theorem audioIn_only (a0) (a1) (a2) (a3) (a4) (s x : State) (W) (w : Facet.within [.flt, .status, .net, .sv,
    .disc, .mem, .weft, .aud, .bea] W = true) : Only W x (audioIn a0 a1 a2 a3 a4 s) = Only W x s := by
  refine Only.thru ?_ w x
  unfold audioIn
  extract_lets s1
  have h1 : Only [.flt, .status, .net, .sv, .disc, .mem, .weft, .aud, .bea] s s1 := by simp [s1]
  clear_value s1
  split
  · exact h1
  · split
    · exact h1
    · have h2 : Only [.flt, .status, .net, .sv, .disc, .mem, .weft, .aud, .bea] s (audioPlace a1 s1).2 := by simp [h1]
      generalize audioPlace a1 s1 = y at *
      obtain ⟨o, t⟩ := y
      cases o with
      | none => exact h2
      | some z =>
        obtain ⟨nx, n⟩ := z
        dsimp only at *
        (generalize (if nx = true then t.aud.nextFlows else t.aud.flows).getD n _ = g)
        split <;> simp [h2]

@[simp] theorem mediaQueue_only (a0) (a1) (a2) (a3) (s x : State) (W) (w : Facet.within [.net] W = true) : Only W x
    (mediaQueue a0 a1 a2 a3 s).2.2 = Only W x s := by
  refine Only.thru ?_ w x
  unfold mediaQueue
  (repeat' split) <;> simp

@[simp] theorem queueFault_only (a0) (a1) (s x : State) (W) (w : Facet.within [.flt, .status, .net, .sv, .disc, .weft,
    .bea] W = true) : Only W x (queueFault a0 a1 s) = Only W x s := by
  refine Only.thru ?_ w x
  simp [queueFault]

@[simp] theorem relayTo_only (a0) (a1) (a2) (s x : State) (W) (w : Facet.within [.flt, .status, .net, .sv, .disc,
    .weft, .bea] W = true) : Only W x (relayTo a0 a1 a2 s) = Only W x s := by
  refine Only.thru ?_ w x
  unfold relayTo
  (repeat' split) <;> simp

@[simp] theorem forwardTo_only (a0) (a1) (a2) (a3) (s x : State) (W) (w : Facet.within [.flt, .status, .net, .sv,
    .disc, .weft, .bea] W = true) : Only W x (forwardTo a0 a1 a2 a3 s) = Only W x s := by
  refine Only.thru ?_ w x
  unfold forwardTo
  have h1 : Only [.flt, .status, .net, .sv, .disc, .weft, .bea] s (stormPass a3 s).2 := by simp
  generalize stormPass a3 s = y at *
  obtain ⟨b, t⟩ := y
  cases b <;> (repeat' split) <;> simp_all

@[simp] theorem forwardFrame_only (a0) (a1) (s x : State) (W) (w : Facet.within [.flt, .status, .net, .sv, .disc,
    .weft, .bea] W = true) : Only W x (forwardFrame a0 a1 s) = Only W x s := by
  refine Only.thru ?_ w x
  simp [forwardFrame]

@[simp] theorem igmpIn_only (a0) (a1) (s x : State) (W) (w : Facet.within [.status, .net] W = true) : Only W x (igmpIn
    a0 a1 s) = Only W x s := by
  refine Only.thru ?_ w x
  unfold igmpIn
  (repeat' split) <;> simp

@[simp] theorem mediaIn_only (a0) (a1) (a2) (a3) (a4) (a5) (s x : State) (W) (w : Facet.within [.flt, .status, .net,
    .sv, .disc, .scene, .mem, .weft, .aud, .bea] W = true) : Only W x (mediaIn a0 a1 a2 a3 a4 a5 s) = Only W x s := by
  refine Only.thru ?_ w x
  unfold mediaIn
  (repeat' split) <;> simp

@[simp] theorem localIn_only (a0) (a1) (s x : State) (W) (w : Facet.within [.flt, .status, .net, .sv, .disc, .scene,
    .mem, .weft, .aud, .bea] W = true) : Only W x (localIn a0 a1 s) = Only W x s := by
  refine Only.thru ?_ w x
  unfold localIn
  (repeat' split) <;> simp

theorem execFrameReceive_only (a0) (a1) (s t : State) (h : execFrameReceive a0 a1 s = .next t) : Only [.flt, .status,
    .net, .sv, .disc, .scene, .mem, .weft, .aud, .bea] s t := by
  revert t h
  show OnlyOut _ _ _
  unfold execFrameReceive
  (repeat' split) <;> simp

@[simp] theorem readMarks_only (s x : State) (a0) (a1) (W) (w : Facet.within [.flt, .status, .net, .sv, .disc, .mem,
    .weft, .bea] W = true) : Only W x (readMarks s a0 a1) = Only W x s := by
  refine Only.thru ?_ w x
  simp [readMarks]

@[simp] theorem judgeWin_only (a0) (a1) (a2) (s x : State) (W) (w : Facet.within [.flt, .status, .net, .sv, .disc,
    .scene, .weft, .bea] W = true) : Only W x (judgeWin a0 a1 a2 s) = Only W x s := by
  refine Only.thru ?_ w x
  unfold judgeWin
  dsimp only
  (repeat' split) <;> simp

@[simp] theorem lateFault_only (a0) (s x : State) (W) (w : Facet.within [.flt, .status, .net, .sv, .disc, .weft, .bea]
    W = true) : Only W x (lateFault a0 s) = Only W x s := by
  refine Only.thru ?_ w x
  simp [lateFault]

@[simp] theorem holdWin_only (a0) (s x : State) (W) (w : Facet.within [.flt, .status, .net, .sv, .disc, .scene, .weft,
    .bea] W = true) : Only W x (holdWin a0 s) = Only W x s := by
  refine Only.thru ?_ w x
  simp [holdWin]

@[simp] theorem showFrames_only (a0) (a1) (a2) (a3) (a4) (s x : State) (W) (w : Facet.within [.flt, .status, .net,
    .sv, .disc, .scene, .mem, .weft, .bea] W = true) : Only W x (showFrames a0 a1 a2 a3 a4 s) = Only W x s := by
  refine Only.thru ?_ w x
  unfold showFrames
  (repeat' split) <;> simp

@[simp] theorem takeSelection_only (a0) (a1) (a2) (a3) (a4) (s x : State) (W) (w : Facet.within [.flt, .status, .net,
    .sv, .disc, .scene, .mem, .weft, .bea] W = true) : Only W x (takeSelection a0 a1 a2 a3 a4 s) = Only W x s := by
  refine Only.thru ?_ w x
  unfold takeSelection
  dsimp only
  (repeat' split) <;> simp

@[simp] theorem updateWin_only (a0) (a1) (a2) (a3) (s x : State) (W) (w : Facet.within [.flt, .status, .net, .sv,
    .disc, .scene, .mem, .weft, .bea] W = true) : Only W x (updateWin a0 a1 a2 a3 s) = Only W x s := by
  refine Only.thru ?_ w x
  unfold updateWin
  dsimp only
  (repeat' split) <;> simp

@[simp] theorem presentWin_only (a0) (a1) (a2) (a3) (s x : State) (W) (w : Facet.within [.flt, .status, .net, .sv,
    .disc, .scene, .mem, .weft, .bea] W = true) : Only W x (presentWin a0 a1 a2 a3 s) = Only W x s := by
  refine Only.thru ?_ w x
  simp [presentWin]

@[simp] theorem endNoStream_only (a0) (s x : State) (W) (w : Facet.within [.flt, .status, .net, .sv, .disc, .bea] W =
    true) : Only W x (endNoStream a0 s) = Only W x s := by
  refine Only.thru ?_ w x
  simp [endNoStream]

@[simp] theorem markReady_only (s x : State) (W) (w : Facet.within [.scene] W = true) : Only W x (markReady s) = Only
    W x s := by
  refine Only.thru ?_ w x
  simp [markReady]

@[simp] theorem pruneMarks_only (s x : State) (W) (w : Facet.within [.net] W = true) : Only W x (pruneMarks s) = Only
    W x s := by
  refine Only.thru ?_ w x
  simp [pruneMarks]

@[simp] theorem noteShown_only (s x : State) (W) (w : Facet.within [.scene] W = true) : Only W x (noteShown s) = Only
    W x s := by
  refine Only.thru ?_ w x
  simp [noteShown]

@[simp] theorem frameBeat_only (a0) (a1) (s x : State) (W) (w : Facet.within [.flt, .status, .net, .sv, .disc, .scene,
    .mem, .weft, .bea] W = true) : Only W x (frameBeat a0 a1 s) = Only W x s := by
  refine Only.thru ?_ w x
  unfold frameBeat
  (repeat' split) <;> simp

@[simp] theorem configureGroup_only (a0) (s x : State) (W) (w : Facet.within [.sent, .weft] W = true) : Only W x
    (configureGroup a0 s) = Only W x s := by
  refine Only.thru ?_ w x
  simp [configureGroup]

@[simp] theorem configureChanged_only (a0) (s x : State) (W) (w : Facet.within [.sent, .weft] W = true) : Only W x
    (configureChanged a0 s) = Only W x s := by
  refine Only.thru ?_ w x
  simp [configureChanged]

@[simp] theorem integrateWear_only (a0) (a1) (s x : State) (W) (w : Facet.within [.weft] W = true) : Only W x
    (integrateWear a0 a1 s) = Only W x s := by
  refine Only.thru ?_ w x
  simp [integrateWear]

@[simp] theorem settleWear_only (s x : State) (W) (w : Facet.within [.weft] W = true) : Only W x (settleWear s) = Only
    W x s := by
  refine Only.thru ?_ w x
  simp [settleWear]

@[simp] theorem noDark_only (s x : State) (W) (w : Facet.within [.weft] W = true) : Only W x (noDark s) = Only W x s
    := by
  refine Only.thru ?_ w x
  simp [noDark]

@[simp] theorem loadFrame_only (a0) (s x : State) (W) (w : Facet.within [.sent, .weft] W = true) : Only W x (loadFrame
    a0 s) = Only W x s := by
  refine Only.thru ?_ w x
  unfold loadFrame
  (repeat' split) <;> simp

theorem execAmbientConvert_only (a0) (s t : State) (h : execAmbientConvert a0 s = .next t) : Only [.amb] s t := by
  revert t h
  show OnlyOut _ _ _
  simp [execAmbientConvert]

@[simp] theorem takeReport_only (a0) (a1) (s x : State) (W) (w : Facet.within [.bri] W = true) : Only W x (takeReport
    a0 a1 s) = Only W x s := by
  refine Only.thru ?_ w x
  simp [takeReport]

theorem execAmbientReport_only (s t : State) (h : execAmbientReport s = .next t) : Only [.status, .sv, .disc, .amb,
    .bri] s t := by
  revert t h
  show OnlyOut _ _ _
  simp [execAmbientReport]

@[simp] theorem sendTarget_only (a0) (a1) (a2) (s x : State) (W) (w : Facet.within [.status, .sv, .disc, .bri] W =
    true) : Only W x (sendTarget a0 a1 a2 s) = Only W x s := by
  refine Only.thru ?_ w x
  simp [sendTarget]

@[simp] theorem ownBright_only (a0) (s x : State) (W) (w : Facet.within [.bri] W = true) : Only W x (ownBright a0 s) =
    Only W x s := by
  refine Only.thru ?_ w x
  simp [ownBright]

@[simp] theorem moveTarget_only (s x : State) (W) (w : Facet.within [.status, .sv, .disc, .bri] W = true) : Only W x
    (moveTarget s) = Only W x s := by
  refine Only.thru ?_ w x
  simp [moveTarget]

theorem execBrightTargetCompute_only (s t : State) (h : execBrightTargetCompute s = .next t) : Only [.status, .sv,
    .disc, .bri] s t := by
  revert t h
  show OnlyOut _ _ _
  simp [execBrightTargetCompute]

@[simp] theorem brightAtBeat_only (s x : State) (W) (w : Facet.within [.live, .status, .sv, .disc, .bri] W = true) :
    Only W x (brightAtBeat s) = Only W x s := by
  refine Only.thru ?_ w x
  unfold brightAtBeat
  (repeat' split) <;> simp

@[simp] theorem takeTarget_only (a0) (s x : State) (W) (w : Facet.within [.standby, .bri] W = true) : Only W x
    (takeTarget a0 s) = Only W x s := by
  refine Only.thru ?_ w x
  simp [takeTarget]

@[simp] theorem brightIn_only (a0) (a1) (s x : State) (W) (w : Facet.within [.standby, .status, .sv, .disc, .bri] W =
    true) : Only W x (brightIn a0 a1 s) = Only W x s := by
  refine Only.thru ?_ w x
  unfold brightIn
  (repeat' split) <;> (try simp (maxDischargeDepth := 9)) <;> first | exact (receiveLocal_ignored ‹_›).mono rfl | exact (receiveLocal_taken ‹_›).mono rfl | exact (acceptFlood_ignored ‹_›).mono rfl | exact (acceptFlood_taken ‹_›).mono rfl | exact (receiveFlood_ignored ‹_›).mono rfl | exact (receiveFlood_taken ‹_›).mono rfl

theorem execBright_only (a0) (a1) (s t : State) (h : execBright a0 a1 s = .next t) : Only [.standby, .flt, .status,
    .net, .sv, .disc, .weft, .bri, .bea] s t := by
  exact onKnot_only rfl (by intro b u; simp) h

@[simp] theorem targetsAtBeat_only (a0) (s x : State) (W) (w : Facet.within [.bri] W = true) : Only W x (targetsAtBeat
    a0 s) = Only W x s := by
  refine Only.thru ?_ w x
  unfold targetsAtBeat
  dsimp only
  (repeat' split) <;> simp

@[simp] theorem trackNight_only (s x : State) (W) (w : Facet.within [.standby] W = true) : Only W x (trackNight s) =
    Only W x s := by
  refine Only.thru ?_ w x
  simp [trackNight]

theorem execNightStandbyDecision_only (s t : State) (h : execNightStandbyDecision s = .next t) : Only [.standby,
    .status, .sv, .disc, .bri] s t := by
  revert t h
  show OnlyOut _ _ _
  simp [execNightStandbyDecision]

end Sys2Proof.Machine
end

