-- ==== Sys2Proof/Laws/OnlyEnds.lean ====
section
/-!
SUPPORT. Which facets of the state each operation and command may change (`_only`): weft ports, markers, audio, the card, the Bobbin, sensors, picks, the beat and the tick.
An operation's lemma passes over it wherever all that it changes may change, so that `simp` shows `Only W s t` for a chain of
operations; a command's lemma speaks of its next state.
-/
set_option linter.unusedVariables false
set_option linter.unusedSimpArgs false
set_option linter.unnecessarySeqFocus false
set_option linter.unusedTactic false
set_option linter.unreachableTactic false
namespace Sys2Proof.Machine
open Sys2Proof

@[simp] theorem placeCensus_only (a0) (a1) (a2) (s x : State) (W) (w : Facet.within [.weft] W = true) : Only W x
    (placeCensus a0 a1 a2 s) = Only W x s := by
  refine Only.thru ?_ w x
  simp [placeCensus]

@[simp] theorem censusFaults_only (a0) (s x : State) (W) (w : Facet.within [.flt, .status, .net, .sv, .disc, .weft,
    .bea] W = true) : Only W x (censusFaults a0 s) = Only W x s := by
  refine Only.thru ?_ w x
  simp [censusFaults]

@[simp] theorem loadWear_only (s x : State) (W) (w : Facet.within [.flt, .ldg, .status, .net, .sv, .disc, .weft, .bea]
    W = true) : Only W x (loadWear s) = Only W x s := by
  refine Only.thru ?_ w x
  unfold loadWear
  dsimp only
  (repeat' split) <;> simp

@[simp] theorem gateUnused_only (s x : State) (W) (w : Facet.within [.pwr, .test, .weft] W = true) : Only W x
    (gateUnused s) = Only W x s := by
  refine Only.thru ?_ w x
  simp [gateUnused]

@[simp] theorem firstIdle_only (s x : State) (W) (w : Facet.within [.live, .boot, .test, .flt, .holds, .bri, .mark,
    .aud] W = true) : Only W x (firstIdle s) = Only W x s := by
  refine Only.thru ?_ w x
  unfold firstIdle
  (repeat' split) <;> (try simp) <;> (refine Only.upd ?y ?h ?x; (case h => (intro p hp; cases p <;> first | exact absurd (by decide) hp | (dsimp only [sameFacet] <;> (repeat' apply And.intro) <;> rfl))); (case x => simp))

theorem execWeftCensusComplete_only (a0) (s t : State) (h : execWeftCensusComplete a0 s = .next t) : Only [.sent,
    .live, .pwr, .boot, .test, .flt, .holds, .ldg, .status, .net, .sv, .disc, .weft, .bri, .mark, .aud, .bea] s t :=
    by
  revert t h
  show OnlyOut _ _ _
  simp [execWeftCensusComplete]

@[simp] theorem setTrip_only (a0) (a1) (s x : State) (W) (w : Facet.within [.weft] W = true) : Only W x (setTrip a0 a1
    s) = Only W x s := by
  refine Only.thru ?_ w x
  unfold setTrip
  (repeat' split) <;> simp

theorem execWeftPinTrip_only (a0) (a1) (a2) (s t : State) (h : execWeftPinTrip a0 a1 a2 s = .next t) : Only [.flt,
    .status, .net, .sv, .disc, .weft, .bea] s t := by
  revert t h
  show OnlyOut _ _ _
  unfold execWeftPinTrip
  (repeat' split) <;> simp

@[simp] theorem modPort_only (a0) (a1) (s x : State) (W) (w : Facet.within [.weft] W = true) : Only W x (modPort a0 a1
    s) = Only W x s := by
  refine Only.thru ?_ w x
  simp [modPort]

theorem execWeftSdoMismatch_only (a0) (a1) (s t : State) (h : execWeftSdoMismatch a0 a1 s = .next t) : Only [.flt,
    .status, .net, .sv, .disc, .weft, .bea] s t := by
  revert t h
  show OnlyOut _ _ _
  simp [execWeftSdoMismatch]

@[simp] theorem returnGroup_only (a0) (s x : State) (W) (w : Facet.within [.weft] W = true) : Only W x (returnGroup a0
    s) = Only W x s := by
  refine Only.thru ?_ w x
  simp [returnGroup]

@[simp] theorem recensusFreed_only (a0) (s x : State) (W) (w : Facet.within [.weft] W = true) : Only W x
    (recensusFreed a0 s) = Only W x s := by
  refine Only.thru ?_ w x
  simp [recensusFreed]

@[simp] theorem retestTrip_only (a0) (a1) (a2) (a3) (s x : State) (W) (w : Facet.within [.flt, .status, .net, .sv,
    .disc, .weft, .bea] W = true) : Only W x (retestTrip a0 a1 a2 a3 s) = Only W x s := by
  refine Only.thru ?_ w x
  unfold retestTrip
  (repeat' split) <;> simp

@[simp] theorem retestSdo_only (a0) (a1) (a2) (s x : State) (W) (w : Facet.within [.flt, .status, .net, .sv, .disc,
    .weft, .bea] W = true) : Only W x (retestSdo a0 a1 a2 s) = Only W x s := by
  refine Only.thru ?_ w x
  simp [retestSdo]

theorem execWeftRetest_only (a0) (a1) (s t : State) (h : execWeftRetest a0 a1 s = .next t) : Only [.flt, .status,
    .net, .sv, .disc, .weft, .bea] s t := by
  revert t h
  show OnlyOut _ _ _
  unfold execWeftRetest
  (repeat' split) <;> simp

@[simp] theorem restoreGroups_only (s x : State) (W) (w : Facet.within [.sent, .weft] W = true) : Only W x (restoreGroups s) =
    Only W x s := by
  refine Only.thru ?_ w x
  unfold restoreGroups
  rw [Only.foldl]
  · simp
  · intro t g
    split <;> simp

@[simp] theorem flagChannel_only (a0) (s x : State) (W) (w : Facet.within [.flt, .status, .net, .sv, .disc, .weft,
    .bea] W = true) : Only W x (flagChannel a0 s) = Only W x s := by
  refine Only.thru ?_ w x
  simp [flagChannel]

@[simp] theorem takeFlags_only (a0) (a1) (a2) (a3) (s x : State) (W) (w : Facet.within [.flt, .status, .net, .sv,
    .disc, .weft, .bea] W = true) : Only W x (takeFlags a0 a1 a2 a3 s).1 = Only W x s := by
  refine Only.thru ?_ w x
  simp [takeFlags]

@[simp] theorem endReads_only (a0) (a1) (s x : State) (W) (w : Facet.within [.test, .weft] W = true) : Only W x
    (endReads a0 a1 s) = Only W x s := by
  refine Only.thru ?_ w x
  unfold endReads
  (repeat' split) <;> (try simp) <;> (refine Only.upd ?y ?h ?x; (case h => (intro p hp; cases p <;> first | exact absurd (by decide) hp | (dsimp only [sameFacet] <;> (repeat' apply And.intro) <;> rfl))); (case x => simp))

@[simp] theorem takeRead_only (a0) (s x : State) (W) (w : Facet.within [.test, .flt, .status, .net, .sv, .disc, .weft,
    .bea] W = true) : Only W x (takeRead a0 s) = Only W x s := by
  refine Only.thru ?_ w x
  unfold takeRead
  dsimp only
  (repeat' split) <;> simp

@[simp] theorem startReads_only (s x : State) (W) (w : Facet.within [.weft] W = true) : Only W x (startReads s) = Only
    W x s := by
  refine Only.thru ?_ w x
  simp [startReads]

@[simp] theorem updateWear_only (s x : State) (W) (w : Facet.within [.weft] W = true) : Only W x (updateWear s) = Only
    W x s := by
  refine Only.thru ?_ w x
  simp [updateWear]

theorem execWearUpdate_only (s t : State) (h : execWearUpdate s = .next t) : Only [.weft] s t := by
  revert t h
  show OnlyOut _ _ _
  simp [execWearUpdate]

theorem execWearFlush_only (s t : State) (h : execWearFlush s = .next t) : Only [.ldg, .weft] s t := by
  revert t h
  show OnlyOut _ _ _
  simp [execWearFlush]

@[simp] theorem finishLedger_only (a0) (s x : State) (W) (w : Facet.within [.flt, .ldg, .weft] W = true) : Only W x
    (finishLedger a0 s) = Only W x s := by
  refine Only.thru ?_ w x
  unfold finishLedger
  (repeat' split) <;> simp

@[simp] theorem abandonRegion_only (a0) (s x : State) (W) (w : Facet.within [.flt, .ldg, .status, .net, .sv, .disc,
    .weft, .bea] W = true) : Only W x (abandonRegion a0 s) = Only W x s := by
  refine Only.thru ?_ w x
  simp [abandonRegion]

theorem execLedgerProgramDone_only (a0) (s t : State) (h : execLedgerProgramDone a0 s = .next t) : Only [.keys,
    .lifecycle, .flt, .ldg, .status, .net, .sv, .disc, .weft, .bea, .dlg] s t := by
  revert t h
  show OnlyOut _ _ _
  unfold execLedgerProgramDone
  (repeat' split) <;> simp

@[simp] theorem modChan_only (a0) (a1) (s x : State) (W) (w : Facet.within [.mark] W = true) : Only W x (modChan a0 a1
    s) = Only W x s := by
  refine Only.thru ?_ w x
  simp [modChan]

@[simp] theorem modMGroup_only (a0) (a1) (s x : State) (W) (w : Facet.within [.mark] W = true) : Only W x (modMGroup
    a0 a1 s) = Only W x s := by
  refine Only.thru ?_ w x
  simp [modMGroup]

@[simp] theorem checkOne_only (a0) (a1) (a2) (s x : State) (W) (w : Facet.within [.mark] W = true) : Only W x
    (checkOne a0 a1 a2 s) = Only W x s := by
  refine Only.thru ?_ w x
  unfold checkOne
  (repeat' split) <;> simp

@[simp] theorem groupOff_only (a0) (s x : State) (W) (w : Facet.within [.flt, .status, .net, .sv, .disc, .weft, .mark,
    .bea] W = true) : Only W x (groupOff a0 s) = Only W x s := by
  refine Only.thru ?_ w x
  simp [groupOff]

@[simp] theorem noteMarker_only (s x : State) (W) (w : Facet.within [.test] W = true) : Only W x (noteMarker s) = Only
    W x s := by
  refine Only.thru ?_ w x
  simp [noteMarker]

@[simp] theorem failChan_only (a0) (a1) (s x : State) (W) (w : Facet.within [.mark] W = true) : Only W x (failChan a0
    a1 s) = Only W x s := by
  refine Only.thru ?_ w x
  simp [failChan]

@[simp] theorem noteOpen_only (a0) (a1) (a2) (s x : State) (W) (w : Facet.within [.test, .flt, .status, .net, .sv,
    .disc, .weft, .mark, .bea] W = true) : Only W x (noteOpen a0 a1 a2 s) = Only W x s := by
  refine Only.thru ?_ w x
  simp [noteOpen]

@[simp] theorem noteShort_only (a0) (a1) (a2) (a3) (s x : State) (W) (w : Facet.within [.test, .flt, .status, .net,
    .sv, .disc, .weft, .mark, .bea] W = true) : Only W x (noteShort a0 a1 a2 a3 s) = Only W x s := by
  refine Only.thru ?_ w x
  simp [noteShort]

@[simp] theorem latchOff_only (a0) (a1) (a2) (s x : State) (W) (w : Facet.within [.test, .flt, .status, .net, .sv,
    .disc, .weft, .mark, .bea] W = true) : Only W x (latchOff a0 a1 a2 s) = Only W x s := by
  refine Only.thru ?_ w x
  simp [latchOff]

@[simp] theorem noteSupply_only (a0) (a1) (a2) (s x : State) (W) (w : Facet.within [.test, .flt, .status, .net, .sv,
    .disc, .weft, .mark, .bea] W = true) : Only W x (noteSupply a0 a1 a2 s) = Only W x s := by
  refine Only.thru ?_ w x
  simp [noteSupply]

@[simp] theorem compareRefs_only (a0) (a1) (a2) (s x : State) (W) (w : Facet.within [.test, .flt, .status, .net, .sv, .disc, .weft, .mark, .bea] W = true) : Only W x
    (compareRefs a0 a1 a2 s) = Only W x s := by
  refine Only.thru ?_ w x
  unfold compareRefs
  rw [Only.foldl]
  · simp
  · intro t k
    rw [Only.foldl]
    · simp
    · intro u n
      simp

@[simp] theorem actOn_only (a0) (a1) (s x : State) (W) (w : Facet.within [.test, .flt, .status, .net, .sv, .disc,
    .weft, .mark, .bea] W = true) : Only W x (actOn a0 a1 s) = Only W x s := by
  refine Only.thru ?_ w x
  unfold actOn
  (repeat' split) <;> simp

@[simp] theorem endFaults_only (a0) (s x : State) (W) (w : Facet.within [.flt, .status, .net, .sv, .disc, .mark, .bea]
    W = true) : Only W x (endFaults a0 s) = Only W x s := by
  refine Only.thru ?_ w x
  unfold endFaults
  (repeat' split) <;> simp

@[simp] theorem restoreGroup_only (a0) (s x : State) (W) (w : Facet.within [.flt, .status, .net, .sv, .disc, .mark,
    .bea] W = true) : Only W x (restoreGroup a0 s) = Only W x s := by
  refine Only.thru ?_ w x
  simp [restoreGroup]

@[simp] theorem deadGroup_only (a0) (s x : State) (W) (w : Facet.within [.flt, .status, .net, .sv, .disc, .weft,
    .mark, .bea] W = true) : Only W x (deadGroup a0 s) = Only W x s := by
  refine Only.thru ?_ w x
  simp [deadGroup]

@[simp] theorem trackTotal_only (a0) (s x : State) (W) (w : Facet.within [.mark] W = true) : Only W x (trackTotal a0
    s) = Only W x s := by
  refine Only.thru ?_ w x
  simp [trackTotal]

@[simp] theorem trackPower_only (a0) (s x : State) (W) (w : Facet.within [.mark] W = true) : Only W x (trackPower a0
    s) = Only W x s := by
  refine Only.thru ?_ w x
  simp [trackPower]

@[simp] theorem reduceChan_only (a0) (s x : State) (W) (w : Facet.within [.flt, .status, .net, .sv, .disc, .weft,
    .mark, .bea] W = true) : Only W x (reduceChan a0 s) = Only W x s := by
  refine Only.thru ?_ w x
  simp [reduceChan]

@[simp] theorem reduceTotal_only (s x : State) (W) (w : Facet.within [.flt, .status, .net, .sv, .disc, .weft, .mark,
    .bea] W = true) : Only W x (reduceTotal s) = Only W x s := by
  refine Only.thru ?_ w x
  simp [reduceTotal]

theorem execMarkerThermalReduce_only (a0) (s t : State) (h : execMarkerThermalReduce a0 s = .next t) : Only [.flt,
    .status, .net, .sv, .disc, .weft, .mark, .bea] s t := by
  revert t h
  show OnlyOut _ _ _
  unfold execMarkerThermalReduce
  (repeat' split) <;> simp

@[simp] theorem trackVled_only (a0) (s x : State) (W) (w : Facet.within [.mark] W = true) : Only W x (trackVled a0 s)
    = Only W x s := by
  refine Only.thru ?_ w x
  simp [trackVled]

@[simp] theorem checkAll_only (a0) (a1) (s x : State) (W) (w : Facet.within [.test, .flt, .status, .net, .sv, .disc, .weft, .mark, .bea] W = true) : Only W x (checkAll a0 a1 s) =
    Only W x s := by
  refine Only.thru ?_ w x
  unfold checkAll
  dsimp only
  rw [Only.foldl _ _ _ _ _ (by intro t n; simp), Only.foldl _ _ _ _ _ (by intro t n; simp), Only.foldl _ _ _ _ _ (by intro t n; simp)]
  simp

@[simp] theorem setAllQ_only (s x : State) (W) (w : Facet.within [.mark] W = true) : Only W x (setAllQ s) = Only W x s
    := by
  refine Only.thru ?_ w x
  simp [setAllQ]

theorem execMarkerUpdate_only (a0) (a1) (s t : State) (h : execMarkerUpdate a0 a1 s = .next t) : Only [.test, .flt,
    .status, .net, .sv, .disc, .weft, .mark, .bea] s t := by
  revert t h
  show OnlyOut _ _ _
  simp [execMarkerUpdate]

@[simp] theorem noteRestore_only (a0) (s x : State) (W) (w : Facet.within [.mark] W = true) : Only W x (noteRestore a0
    s) = Only W x s := by
  refine Only.thru ?_ w x
  simp [noteRestore]

theorem execMarkerRetest_only (a0) (a1) (a2) (a3) (s t : State) (h : execMarkerRetest a0 a1 a2 a3 s = .next t) : Only
    [.flt, .status, .net, .sv, .disc, .mark, .bea] s t := by
  revert t h
  show OnlyOut _ _ _
  unfold execMarkerRetest
  (repeat' split) <;> simp

@[simp] theorem retryPass_only (a0) (a1) (s x : State) (W) (w : Facet.within [.mark] W = true) : Only W x (retryPass
    a0 a1 s) = Only W x s := by
  refine Only.thru ?_ w x
  simp [retryPass]

@[simp] theorem retryFail_only (a0) (s x : State) (W) (w : Facet.within [.mark] W = true) : Only W x (retryFail a0 s)
    = Only W x s := by
  refine Only.thru ?_ w x
  simp [retryFail]

theorem execSupplyShortRetry_only (a0) (a1) (a2) (s t : State) (h : execSupplyShortRetry a0 a1 a2 s = .next t) : Only
    [.mark] s t := by
  revert t h
  show OnlyOut _ _ _
  unfold execSupplyShortRetry
  (repeat' split) <;> simp

theorem execRetryCountClear_only (a0) (s t : State) (h : execRetryCountClear a0 s = .next t) : Only [.mark] s t := by
  revert t h
  show OnlyOut _ _ _
  simp [execRetryCountClear]

theorem execVledOutOfRange_only (a0) (s t : State) (h : execVledOutOfRange a0 s = .next t) : Only [.flt, .status,
    .net, .sv, .disc, .weft, .mark, .bea] s t := by
  revert t h
  show OnlyOut _ _ _
  simp [execVledOutOfRange]

theorem execVledRestore_only (a0) (s t : State) (h : execVledRestore a0 s = .next t) : Only [.flt, .status, .net, .sv,
    .disc, .mark, .bea] s t := by
  revert t h
  show OnlyOut _ _ _
  simp [execVledRestore]

@[simp] theorem fetchFaults_only (a0) (a1) (s x : State) (W) (w : Facet.within [.flt, .status, .net, .sv, .disc,
    .weft, .bea] W = true) : Only W x (fetchFaults a0 a1 s) = Only W x s := by
  refine Only.thru ?_ w x
  unfold fetchFaults
  (repeat' split) <;> simp

@[simp] theorem fetchSample_only (a0) (s x : State) (W) (w : Facet.within [.flt, .status, .net, .sv, .disc, .weft,
    .aud, .bea] W = true) : Only W x (fetchSample a0 s) = Only W x s := by
  refine Only.thru ?_ w x
  simp [fetchSample]

@[simp] theorem downPositions_only (a0) (a1) (s x : State) (W) (w : Facet.within [.aud] W = true) : Only W x
    (downPositions a0 a1 s) = Only W x s := by
  refine Only.thru ?_ w x
  simp [downPositions]

@[simp] theorem swapRoute_only (a0) (a1) (s x : State) (W) (w : Facet.within [.aud] W = true) : Only W x (swapRoute a0
    a1 s) = Only W x s := by
  refine Only.thru ?_ w x
  simp [swapRoute]

@[simp] theorem switchIfDue_only (a0) (s x : State) (W) (w : Facet.within [.aud] W = true) : Only W x (switchIfDue a0
    s) = Only W x s := by
  refine Only.thru ?_ w x
  unfold switchIfDue
  (repeat' split) <;> simp

@[simp] theorem startFades_only (a0) (s x : State) (W) (w : Facet.within [.aud] W = true) : Only W x (startFades a0 s)
    = Only W x s := by
  refine Only.thru ?_ w x
  simp [startFades]

@[simp] theorem endSwitch_only (a0) (s x : State) (W) (w : Facet.within [.aud] W = true) : Only W x (endSwitch a0 s) =
    Only W x s := by
  refine Only.thru ?_ w x
  unfold endSwitch
  (repeat' split) <;> simp

@[simp] theorem emitSample_only (a0) (a1) (s x : State) (W) (w : Facet.within [.aud] W = true) : Only W x (emitSample
    a0 a1 s) = Only W x s := by
  refine Only.thru ?_ w x
  simp [emitSample]

@[simp] theorem playAll_only (a0) (s x : State) (W) (w : Facet.within [.aud] W = true) : Only W x (playAll a0 s) =
    Only W x s := by
  induction a0 generalizing s with
  | zero => rfl
  | succ n ih =>
    unfold playAll
    (repeat' split) <;> (try rfl)
    rw [ih, emitSample_only _ _ _ _ _ (Facet.within_trans rfl w)]

@[simp] theorem restartAudio_only (s x : State) (W) (w : Facet.within [.aud] W = true) : Only W x (restartAudio s) =
    Only W x s := by
  refine Only.thru ?_ w x
  simp [restartAudio]

@[simp] theorem playDue_only (s x : State) (W) (w : Facet.within [.time, .aud] W = true) : Only W x (playDue s) = Only
    W x s := by
  refine Only.thru ?_ w x
  simp [playDue]

@[simp] theorem audioClock_only (a0) (a1) (s x : State) (W) (w : Facet.within [.clk, .aud] W = true) : Only W x
    (audioClock a0 a1 s) = Only W x s := by
  refine Only.thru ?_ w x
  unfold audioClock
  (repeat' split) <;> (try simp) <;> (refine Only.upd ?y ?h ?x; (case h => (intro p hp; cases p <;> first | exact absurd (by decide) hp | (dsimp only [sameFacet] <;> (repeat' apply And.intro) <;> rfl))); (case x => simp))

theorem execAudioFetch_only (s t : State) (h : execAudioFetch s = .next t) : Only [.flt, .status, .net, .time, .sv,
    .disc, .weft, .aud, .bea] s t := by
  revert t h
  show OnlyOut _ _ _
  simp [execAudioFetch]

theorem execNonAudioEnd_only (a0) (a1) (s t : State) (h : execNonAudioEnd a0 a1 s = .next t) : Only [.aud] s t := by
  revert t h
  show OnlyOut _ _ _
  unfold execNonAudioEnd
  (repeat' split) <;> simp

theorem execAudioSenderTimeout_only (a0) (s t : State) (h : execAudioSenderTimeout a0 s = .next t) : Only [.aud] s t
    := by
  revert t h
  show OnlyOut _ _ _
  unfold execAudioSenderTimeout
  (repeat' split) <;> simp

theorem execLevelChangeApply_only (a0) (a1) (s t : State) (h : execLevelChangeApply a0 a1 s = .next t) : Only [.aud] s
    t := by
  revert t h
  show OnlyOut _ _ _
  simp [execLevelChangeApply]

theorem execAudNosourceTimeout_only (a0) (s t : State) (h : execAudNosourceTimeout a0 s = .next t) : Only [.flt,
    .status, .net, .sv, .disc, .weft, .aud, .bea] s t := by
  revert t h
  show OnlyOut _ _ _
  unfold execAudNosourceTimeout
  (repeat' split) <;> simp

@[simp] theorem activate_only (s x : State) (W) (w : Facet.within [.card] W = true) : Only W x (activate s) = Only W x
    s := by
  refine Only.thru ?_ w x
  simp [activate]

theorem execCardPresent_only (s t : State) (h : execCardPresent s = .next t) : Only [.card] s t := by
  revert t h
  show OnlyOut _ _ _
  simp [execCardPresent]

@[simp] theorem cardFail_only (a0) (s x : State) (W) (w : Facet.within [.keys, .lifecycle, .flt, .status, .net, .sv,
    .disc, .weft, .bea, .card, .dlg] W = true) : Only W x (cardFail a0 s) = Only W x s := by
  refine Only.thru ?_ w x
  simp [cardFail]

theorem execCardReactivate_only (s t : State) (h : execCardReactivate s = .next t) : Only [.card] s t := by
  revert t h
  show OnlyOut _ _ _
  simp [execCardReactivate]

theorem execCardRemoval_only (s t : State) (h : execCardRemoval s = .next t) : Only [.keys, .lifecycle, .flt, .status,
    .net, .sv, .disc, .bea, .card, .dlg] s t := by
  revert t h
  show OnlyOut _ _ _
  simp [execCardRemoval]

theorem execCardAbsenceConfirmed_only (s t : State) (h : execCardAbsenceConfirmed s = .next t) : Only [.flt, .status,
    .net, .sv, .disc, .bea, .card] s t := by
  revert t h
  show OnlyOut _ _ _
  unfold execCardAbsenceConfirmed
  (repeat' split) <;> (try simp) <;> (refine Only.upd ?y ?h ?x; (case h => (intro p hp; cases p <;> first | exact absurd (by decide) hp | (dsimp only [sameFacet] <;> (repeat' apply And.intro) <;> rfl))); (case x => simp))

theorem execTs_only (a0) (s t : State) (h : execTs a0 s = .next t) : Only [.keys, .lifecycle, .flt, .status, .net,
    .sv, .disc, .weft, .bea, .card, .dlg] s t := by
  revert t h
  show OnlyOut _ _ _
  simp [execTs]

theorem execTsTimeout_only (s t : State) (h : execTsTimeout s = .next t) : Only [.keys, .lifecycle, .flt, .status,
    .net, .sv, .disc, .weft, .bea, .card, .dlg] s t := by
  revert t h
  show OnlyOut _ _ _
  simp [execTsTimeout]

theorem execCardCharacterTimeout_only (a0) (s t : State) (h : execCardCharacterTimeout a0 s = .next t) : Only [.keys,
    .lifecycle, .flt, .status, .net, .sv, .disc, .weft, .bea, .card, .dlg] s t := by
  revert t h
  show OnlyOut _ _ _
  unfold execCardCharacterTimeout
  (repeat' split) <;> simp

@[simp] theorem signalErrors_only (a0) (s x : State) (W) (w : Facet.within [.sent] W = true) : Only W x (signalErrors
    a0 s) = Only W x s := by
  refine Only.thru ?_ w x
  simp [signalErrors]

@[simp] theorem cardSend_only (a0) (a1) (s x : State) (W) (w : Facet.within [.card] W = true) : Only W x (cardSend a0
    a1 s) = Only W x s := by
  refine Only.thru ?_ w x
  simp [cardSend]

@[simp] theorem beginDialogue_only (s x : State) (W) (w : Facet.within [.keys, .lifecycle, .card, .dlg] W = true) :
    Only W x (beginDialogue s) = Only W x s := by
  refine Only.thru ?_ w x
  unfold beginDialogue
  (repeat' split) <;> (try simp) <;> (refine Only.upd ?y ?h ?x; (case h => (intro p hp; cases p <;> first | exact absurd (by decide) hp | (dsimp only [sameFacet] <;> (repeat' apply And.intro) <;> rfl))); (case x => simp))

@[simp] theorem chooseSpeed_only (a0) (s x : State) (W) (w : Facet.within [.sent, .keys, .lifecycle, .flt, .status,
    .net, .sv, .disc, .weft, .bea, .card, .dlg] W = true) : Only W x (chooseSpeed a0 s) = Only W x s := by
  refine Only.thru ?_ w x
  unfold chooseSpeed
  (repeat' split) <;> simp

@[simp] theorem takeAtr_only (a0) (s x : State) (W) (w : Facet.within [.sent, .keys, .lifecycle, .flt, .status, .net,
    .sv, .disc, .weft, .bea, .card, .dlg] W = true) : Only W x (takeAtr a0 s) = Only W x s := by
  refine Only.thru ?_ w x
  unfold takeAtr
  (repeat' split) <;> simp

theorem execAtrComplete_only (a0) (s t : State) (h : execAtrComplete a0 s = .next t) : Only [.sent, .keys, .lifecycle,
    .flt, .status, .net, .sv, .disc, .weft, .bea, .card, .dlg] s t := by
  revert t h
  show OnlyOut _ _ _
  unfold execAtrComplete
  (repeat' split) <;> simp

@[simp] theorem takePps_only (a0) (a1) (s x : State) (W) (w : Facet.within [.keys, .lifecycle, .flt, .status, .net,
    .sv, .disc, .weft, .bea, .card, .dlg] W = true) : Only W x (takePps a0 a1 s) = Only W x s := by
  refine Only.thru ?_ w x
  unfold takePps
  (repeat' split) <;> simp

theorem execPpsEcho_only (a0) (s t : State) (h : execPpsEcho a0 s = .next t) : Only [.sent, .keys, .lifecycle, .flt,
    .status, .net, .sv, .disc, .weft, .bea, .card, .dlg] s t := by
  revert t h
  show OnlyOut _ _ _
  unfold execPpsEcho
  (repeat' split) <;> simp

@[simp] theorem sendStep_only (a0) (a1) (a2) (a3) (a4) (s x : State) (W) (w : Facet.within [.sent, .card, .dlg] W =
    true) : Only W x (sendStep a0 a1 a2 a3 a4 s) = Only W x s := by
  refine Only.thru ?_ w x
  simp [sendStep]

theorem apduStep_only {a0} {a1 a2} {a3} {a4} {f : List Byte → BitVec 16 → State → State} {s t : State} {W : List Facet}
    (w : Facet.within [.sent, .keys, .lifecycle, .flt, .status, .net, .sv, .disc, .weft, .bea, .card, .dlg] W = true) (hf : ∀ b v u, Only W u (f b v u)) (h : apduStep a0 a1 a2 a3 a4 f s = some t) : Only W s t := by
  unfold apduStep at h
  split at h
  · cases h
    exact Only.mono (by simp) w
  · simp only [Option.map_eq_some_iff] at h
    obtain ⟨v, -, rfl⟩ := h
    exact Only.trans (Only.mono (by simp) w) (hf _ _ _)

@[simp] theorem apduStep_getD_only (a0) (a1) (a2) (a3) (a4) (f : List Byte → BitVec 16 → State → State) (s x : State) (W)
    (w : Facet.within [.sent, .keys, .lifecycle, .flt, .status, .net, .sv, .disc, .weft, .bea, .card, .dlg] W = true) (hf : ∀ b v u, Only W u (f b v u)) :
    Only W x ((apduStep a0 a1 a2 a3 a4 f s).getD s) = Only W x s := by
  refine Only.thru (M := W) ?_ (Facet.within_self W) x
  cases h : apduStep a0 a1 a2 a3 a4 f s with
  | none => simp
  | some t => exact apduStep_only w hf h

@[simp] theorem endStep_only (a0) (a1) (a2) (s x : State) (W) (w : Facet.within [.keys, .lifecycle, .card, .dlg] W =
    true) : Only W x (endStep a0 a1 a2 s) = Only W x s := by
  refine Only.thru ?_ w x
  simp [endStep]

theorem execSelect_only (a0) (s t : State) (h : execSelect a0 s = .next t) : Only [.sent, .keys, .lifecycle, .flt,
    .status, .net, .sv, .disc, .weft, .bea, .card, .dlg] s t := by
  revert t h
  show OnlyOut _ _ _
  simp [execSelect]

theorem execHelloCertificate_only (a0) (s t : State) (h : execHelloCertificate a0 s = .next t) : Only [.sent, .keys,
    .lifecycle, .flt, .status, .net, .sv, .disc, .weft, .bea, .card, .dlg] s t := by
  revert t h
  show OnlyOut _ _ _
  simp [execHelloCertificate]

@[simp] theorem drawNonce_only (s x : State) (W) (w : Facet.within [.fresh, .dlg] W = true) : Only W x (drawNonce s) =
    Only W x s := by
  refine Only.thru ?_ w x
  simp [drawNonce]

theorem execHelloState_only (a0) (s t : State) (h : execHelloState a0 s = .next t) : Only [.fresh, .sent, .keys, .lifecycle, .flt, .status, .net, .sv, .disc, .weft, .bea, .card, .dlg] s t := by
  unfold execHelloState at h
  dsimp only at h
  split at h
  · cases h
    cases e : apduStep 3 cmdState (helloState (drawNonce s)) 0 a0 (fun _ sw => endStep 3 0x6194 sw) (drawNonce s) with
    | none => simp
    | some u => exact Only.trans (by simp) (apduStep_only (by decide) (by intro b v u; simp) e)
  · cases h
    simp

@[simp] theorem takeReply_only (a0) (a1) (s x : State) (W) (w : Facet.within [.keys, .lifecycle, .card, .dlg] W =
    true) : Only W x (takeReply a0 a1 s) = Only W x s := by
  refine Only.thru ?_ w x
  simp [takeReply]

theorem execGetResponse_only (a0) (s t : State) (h : execGetResponse a0 s = .next t) : Only [.sent, .keys, .lifecycle,
    .flt, .status, .net, .sv, .disc, .weft, .bea, .card, .dlg] s t := by
  revert t h
  show OnlyOut _ _ _
  simp [execGetResponse]

@[simp] theorem carryRoot_only (a0) (a1) (s x : State) (W) (w : Facet.within [.keys, .lifecycle, .flt, .ldg, .status,
    .net, .sv, .disc, .weft, .bea, .dlg] W = true) : Only W x (carryRoot a0 a1 s) = Only W x s := by
  refine Only.thru ?_ w x
  unfold carryRoot
  (repeat' split) <;> simp

@[simp] theorem carryOut_only (a0) (a1) (s x : State) (W) (w : Facet.within [.keys, .lifecycle, .flt, .ldg, .status,
    .net, .sv, .disc, .weft, .bea, .dlg] W = true) : Only W x (carryOut a0 a1 s) = Only W x s := by
  refine Only.thru ?_ w x
  unfold carryOut
  (repeat' split) <;> simp

@[simp] theorem takeOrder_only (a0) (a1) (s x : State) (W) (w : Facet.within [.keys, .lifecycle, .flt, .ldg, .status,
    .net, .sv, .disc, .weft, .bea, .dlg] W = true) : Only W x (takeOrder a0 a1 s) = Only W x s := by
  refine Only.thru ?_ w x
  unfold takeOrder
  dsimp only
  (repeat' split) <;> simp

@[simp] theorem endOrder_only (a0) (a1) (s x : State) (W) (w : Facet.within [.keys, .lifecycle, .flt, .ldg, .status,
    .net, .sv, .disc, .weft, .bea, .card, .dlg] W = true) : Only W x (endOrder a0 a1 s) = Only W x s := by
  refine Only.thru ?_ w x
  unfold endOrder
  (repeat' split) <;> simp

theorem execOrder_only (a0) (s t : State) (h : execOrder a0 s = .next t) : Only [.sent, .keys, .lifecycle, .flt, .ldg,
    .status, .net, .sv, .disc, .weft, .bea, .card, .dlg] s t := by
  revert t h
  show OnlyOut _ _ _
  simp [execOrder]

@[simp] theorem noteReceipt_only (a0) (a1) (s x : State) (W) (w : Facet.within [.dlg] W = true) : Only W x
    (noteReceipt a0 a1 s) = Only W x s := by
  refine Only.thru ?_ w x
  simp [noteReceipt]

theorem execResult_only (a0) (s t : State) (h : execResult a0 s = .next t) : Only [.fresh, .sent, .keys, .lifecycle, .flt, .status, .net, .sv, .disc, .weft, .bea, .card, .dlg] s t := by
  unfold execResult at h
  dsimp only at h
  split at h
  · rename_i n r _ _
    split at h
    · cases h
      simp
    · cases h
      cases e : apduStep 6 cmdResult (signReceipt (drawBytes s 32).2 (receiptBody (drawBytes s 32).2 n r.nC) (drawBytes s 32).1) 0
        a0 (fun _ _ u => endCard (noteReceipt n (activeCheck s) u)) (drawBytes s 32).2 with
      | none => simp
      | some u => exact Only.trans (by simp) (apduStep_only (by decide) (by intro b v u; simp) e)
  · cases h
    simp

theorem execDialogueTimeout_only (s t : State) (h : execDialogueTimeout s = .next t) : Only [.keys, .lifecycle, .card,
    .dlg] s t := by
  revert t h
  show OnlyOut _ _ _
  simp [execDialogueTimeout]

theorem execCardDialogueStandbyLimit_only (s t : State) (h : execCardDialogueStandbyLimit s = .next t) : Only [.keys,
    .lifecycle, .card, .dlg] s t := by
  revert t h
  show OnlyOut _ _ _
  unfold execCardDialogueStandbyLimit
  (repeat' split) <;> simp

@[simp] theorem startInit_only (s x : State) (W) (w : Facet.within [.mem] W = true) : Only W x (startInit s) = Only W
    x s := by
  refine Only.thru ?_ w x
  simp [startInit]

@[simp] theorem swapWindows_only (s x : State) (W) (w : Facet.within [.scene] W = true) : Only W x (swapWindows s) =
    Only W x s := by
  refine Only.thru ?_ w x
  simp [swapWindows]

@[simp] theorem emptyRings_only (s x : State) (W) (w : Facet.within [.aud] W = true) : Only W x (emptyRings s) = Only
    W x s := by
  refine Only.thru ?_ w x
  simp [emptyRings]

theorem execMemoryInitComplete_only (s t : State) (h : execMemoryInitComplete s = .next t) : Only [.mem] s t := by
  revert t h
  show OnlyOut _ _ _
  simp [execMemoryInitComplete]

@[simp] theorem ledgerHalt_only (s x : State) (W) (w : Facet.within [.ldg, .weft] W = true) : Only W x (ledgerHalt s)
    = Only W x s := by
  refine Only.thru ?_ w x
  unfold ledgerHalt
  (repeat' split) <;> (try simp) <;> (refine Only.upd ?y ?h ?x; (case h => (intro p hp; cases p <;> first | exact absurd (by decide) hp | (dsimp only [sameFacet] <;> (repeat' apply And.intro) <;> rfl))); (case x => simp))

@[simp] theorem debugAbandons_only (s x : State) (W) (w : Facet.within [.keys, .lifecycle, .flt, .status, .net, .sv,
    .disc, .weft, .bea] W = true) : Only W x (debugAbandons s) = Only W x s := by
  refine Only.thru ?_ w x
  unfold debugAbandons
  (repeat' split) <;> simp

@[simp] theorem enableDebug_only (s x : State) (W) (w : Facet.within [.keys, .lifecycle, .flt, .ldg, .status, .net,
    .sv, .disc, .scene, .mem, .weft, .aud, .bea, .card, .dlg] W = true) : Only W x (enableDebug s) = Only W x s := by
  refine Only.thru ?_ w x
  simp [enableDebug]

@[simp] theorem loadIr_only (a0) (s x : State) (W) (w : Facet.within [.pins] W = true) : Only W x (loadIr a0 s) = Only
    W x s := by
  refine Only.thru ?_ w x
  simp [loadIr]

@[simp] theorem resetTap_only (s x : State) (W) (w : Facet.within [.pins] W = true) : Only W x (resetTap s) = Only W x
    s := by
  refine Only.thru ?_ w x
  simp [resetTap]

theorem execTapInstructionLoad_only (a0) (a1) (s t : State) (h : execTapInstructionLoad a0 a1 s = .next t) : Only
    [.pins, .keys, .lifecycle, .flt, .ldg, .status, .net, .sv, .disc, .scene, .mem, .weft, .aud, .bea, .card, .dlg] s
    t := by
  revert t h
  show OnlyOut _ _ _
  simp [execTapInstructionLoad]

@[simp] theorem gotXon_only (s x : State) (W) (w : Facet.within [.bob] W = true) : Only W x (gotXon s) = Only W x s :=
    by
  refine Only.thru ?_ w x
  simp [gotXon]

@[simp] theorem gotXoff_only (s x : State) (W) (w : Facet.within [.bob] W = true) : Only W x (gotXoff s) = Only W x s
    := by
  refine Only.thru ?_ w x
  simp [gotXoff]

@[simp] theorem busUsed_only (s x : State) (W) (w : Facet.within [.bob] W = true) : Only W x (busUsed s) = Only W x s
    := by
  refine Only.thru ?_ w x
  simp [busUsed]

theorem execXon_only (s t : State) (h : execXon s = .next t) : Only [.bob] s t := by
  revert t h
  show OnlyOut _ _ _
  simp [execXon]

theorem execXoff_only (s t : State) (h : execXoff s = .next t) : Only [.bob] s t := by
  revert t h
  show OnlyOut _ _ _
  simp [execXoff]

theorem execXoffTimeout_only (s t : State) (h : execXoffTimeout s = .next t) : Only [.bob] s t := by
  revert t h
  show OnlyOut _ _ _
  simp [execXoffTimeout]

@[simp] theorem takeFlow_only (a0) (s x : State) (W) (w : Facet.within [.bob] W = true) : Only W x (takeFlow a0 s) =
    Only W x s := by
  refine Only.thru ?_ w x
  simp [takeFlow]

@[simp] theorem bobNoise_only (a0) (s x : State) (W) (w : Facet.within [.flt, .status, .net, .sv, .disc, .weft, .bob,
    .bea] W = true) : Only W x (bobNoise a0 s) = Only W x s := by
  refine Only.thru ?_ w x
  simp [bobNoise]

@[simp] theorem flagSlot_only (a0) (s x : State) (W) (w : Facet.within [.bob] W = true) : Only W x (flagSlot a0 s) =
    Only W x s := by
  refine Only.thru ?_ w x
  unfold flagSlot
  (repeat' split) <;> simp

@[simp] theorem discardFrame_only (s x : State) (W) (w : Facet.within [.status, .bob] W = true) : Only W x
    (discardFrame s) = Only W x s := by
  refine Only.thru ?_ w x
  simp [discardFrame]

@[simp] theorem answerTo_only (a0) (a1) (a2) (s x : State) (W) (w : Facet.within [.bob] W = true) : Only W x (answerTo
    a0 a1 a2 s) = Only W x s := by
  refine Only.thru ?_ w x
  simp [answerTo]

@[simp] theorem ack_only (a0) (a1) (s x : State) (W) (w : Facet.within [.bob] W = true) : Only W x (ack a0 a1 s) =
    Only W x s := by
  refine Only.thru ?_ w x
  simp [ack]

@[simp] theorem noteOrder_only (a0) (s x : State) (W) (w : Facet.within [.bob] W = true) : Only W x (noteOrder a0 s) =
    Only W x s := by
  refine Only.thru ?_ w x
  simp [noteOrder]

@[simp] theorem takeStandby_only (a0) (s x : State) (W) (w : Facet.within [.standby, .bob] W = true) : Only W x
    (takeStandby a0 s) = Only W x s := by
  refine Only.thru ?_ w x
  simp [takeStandby]

@[simp] theorem takeLevel_only (a0) (s x : State) (W) (w : Facet.within [.aud, .bob] W = true) : Only W x (takeLevel
    a0 s) = Only W x s := by
  refine Only.thru ?_ w x
  simp [takeLevel]

@[simp] theorem takeOrderFrame_only (a0) (s x : State) (W) (w : Facet.within [.standby, .status, .aud, .bob] W = true)
    : Only W x (takeOrderFrame a0 s) = Only W x s := by
  refine Only.thru ?_ w x
  unfold takeOrderFrame
  (repeat' split) <;> simp

@[simp] theorem takeStatus_only (a0) (s x : State) (W) (w : Facet.within [.bob] W = true) : Only W x (takeStatus a0 s)
    = Only W x s := by
  refine Only.thru ?_ w x
  simp [takeStatus]

@[simp] theorem takeRollcall_only (a0) (s x : State) (W) (w : Facet.within [.bob] W = true) : Only W x (takeRollcall
    a0 s) = Only W x s := by
  refine Only.thru ?_ w x
  simp [takeRollcall]

@[simp] theorem processFrame_only (a0) (s x : State) (W) (w : Facet.within [.standby, .status, .aud, .bob] W = true) :
    Only W x (processFrame a0 s) = Only W x s := by
  refine Only.thru ?_ w x
  unfold processFrame
  (repeat' split) <;> simp

@[simp] theorem processWaiting_only (a0) (s x : State) (W) (w : Facet.within [.standby, .status, .aud, .bob] W = true)
    : Only W x (processWaiting a0 s) = Only W x s := by
  have w' := w
  induction a0 generalizing s with
  | nil => exact (modBob_only _ s x W (Facet.within_trans rfl w))
  | cons f l ih =>
    unfold processWaiting
    split
    · exact (modBob_only _ s x W (Facet.within_trans rfl w))
    · rw [ih, processFrame_only _ _ _ _ (Facet.within_trans rfl w)]

@[simp] theorem acceptFrame_only (a0) (s x : State) (W) (w : Facet.within [.standby, .status, .aud, .bob] W = true) :
    Only W x (acceptFrame a0 s) = Only W x s := by
  refine Only.thru ?_ w x
  simp [acceptFrame]

@[simp] theorem checkFrame_only (a0) (s x : State) (W) (w : Facet.within [.standby, .flt, .status, .net, .sv, .disc,
    .weft, .aud, .bob, .bea] W = true) : Only W x (checkFrame a0 s) = Only W x s := by
  refine Only.thru ?_ w x
  simp [checkFrame]

@[simp] theorem takeSeg_only (a0) (a1) (a2) (s x : State) (W) (w : Facet.within [.standby, .flt, .status, .net, .sv,
    .disc, .weft, .aud, .bob, .bea] W = true) : Only W x (takeSeg a0 a1 a2 s) = Only W x s := by
  refine Only.thru ?_ w x
  unfold takeSeg
  dsimp only
  (repeat' split) <;> simp

@[simp] theorem takeSegs_only (a0) (a1) (s x : State) (W) (w : Facet.within [.standby, .flt, .status, .net, .sv, .disc, .weft, .aud, .bob, .bea] W = true) : Only W x (takeSegs a0 a1 s) =
    Only W x s := by
  induction a1 generalizing s with
  | nil => rfl
  | cons g l ih =>
    unfold takeSegs
    rw [ih, takeSeg_only _ _ _ _ _ _ (Facet.within_trans rfl w)]

@[simp] theorem overran_only (a0) (s x : State) (W) (w : Facet.within [.flt, .status, .net, .sv, .disc, .weft, .bea] W
    = true) : Only W x (overran a0 s) = Only W x s := by
  refine Only.thru ?_ w x
  simp [overran]

theorem execBobbinFrame_only (a0) (a1) (s t : State) (h : execBobbinFrame a0 a1 s = .next t) : Only [.standby, .flt,
    .status, .net, .sv, .disc, .weft, .aud, .bob, .bea] s t := by
  revert t h
  show OnlyOut _ _ _
  simp [execBobbinFrame]

theorem execBobbinFrameGap_only (s t : State) (h : execBobbinFrameGap s = .next t) : Only [.status, .bob] s t := by
  revert t h
  show OnlyOut _ _ _
  simp [execBobbinFrameGap]

@[simp] theorem startSending_only (a0) (s x : State) (W) (w : Facet.within [.bob] W = true) : Only W x (startSending
    a0 s) = Only W x s := by
  refine Only.thru ?_ w x
  simp [startSending]

@[simp] theorem sendChars_only (a0) (a1) (s x : State) (W) (w : Facet.within [.flt, .status, .net, .sv, .disc, .weft,
    .bob, .bea] W = true) : Only W x (sendChars a0 a1 s) = Only W x s := by
  refine Only.thru ?_ w x
  simp [sendChars]

@[simp] theorem sendBob_only (a0) (a1) (a2) (a3) (s x : State) (W) (w : Facet.within [.sent, .flt, .status, .net, .sv,
    .disc, .weft, .bob, .bea] W = true) : Only W x (sendBob a0 a1 a2 a3 s) = Only W x s := by
  refine Only.thru ?_ w x
  simp [sendBob]

@[simp] theorem endAnswer_only (s x : State) (W) (w : Facet.within [.standby, .status, .aud, .bob] W = true) : Only W
    x (endAnswer s) = Only W x s := by
  refine Only.thru ?_ w x
  simp [endAnswer]

theorem execAnswerSend_only (a0) (s t : State) (h : execAnswerSend a0 s = .next t) : Only [.sent, .standby, .flt,
    .status, .net, .sv, .disc, .weft, .aud, .bob, .bea] s t := by
  revert t h
  show OnlyOut _ _ _
  unfold execAnswerSend
  (repeat' split) <;> simp

theorem execAnswerDrop_only (s t : State) (h : execAnswerDrop s = .next t) : Only [.standby, .status, .aud, .bob] s t
    := by
  revert t h
  show OnlyOut _ _ _
  unfold execAnswerDrop
  (repeat' split) <;> simp

@[simp] theorem closeWindow_only (s x : State) (W) (w : Facet.within [.bob] W = true) : Only W x (closeWindow s) =
    Only W x s := by
  refine Only.thru ?_ w x
  simp [closeWindow]

theorem execRollcallSlot_only (a0) (s t : State) (h : execRollcallSlot a0 s = .next t) : Only [.sent, .flt, .status,
    .net, .sv, .disc, .weft, .bob, .bea] s t := by
  revert t h
  show OnlyOut _ _ _
  unfold execRollcallSlot
  (repeat' split) <;> simp

@[simp] theorem sendRollcall_only (a0) (s x : State) (W) (w : Facet.within [.sent, .flt, .status, .net, .sv, .disc,
    .weft, .bob, .bea] W = true) : Only W x (sendRollcall a0 s) = Only W x s := by
  refine Only.thru ?_ w x
  simp [sendRollcall]

theorem execRollcallSend_only (a0) (s t : State) (h : execRollcallSend a0 s = .next t) : Only [.sent, .flt, .status,
    .net, .sv, .disc, .weft, .bob, .bea] s t := by
  revert t h
  show OnlyOut _ _ _
  simp [execRollcallSend]

theorem execRollcallResend_only (a0) (s t : State) (h : execRollcallResend a0 s = .next t) : Only [.sent, .flt,
    .status, .net, .sv, .disc, .weft, .bob, .bea] s t := by
  revert t h
  show OnlyOut _ _ _
  simp [execRollcallResend]

@[simp] theorem sendFlow_only (a0) (a1) (s x : State) (W) (w : Facet.within [.flt, .status, .net, .sv, .disc, .weft,
    .bob, .bea] W = true) : Only W x (sendFlow a0 a1 s) = Only W x s := by
  refine Only.thru ?_ w x
  simp [sendFlow]

theorem execFlowControlSend_only (a0) (s t : State) (h : execFlowControlSend a0 s = .next t) : Only [.sent, .flt,
    .status, .net, .sv, .disc, .weft, .bob, .bea] s t := by
  revert t h
  show OnlyOut _ _ _
  simp [execFlowControlSend]

@[simp] theorem judgeEcho_only (a0) (a1) (s x : State) (W) (w : Facet.within [.flt, .status, .net, .sv, .disc, .weft,
    .bea] W = true) : Only W x (judgeEcho a0 a1 s) = Only W x s := by
  refine Only.thru ?_ w x
  simp [judgeEcho]

theorem execBeaconFrame_only (a0) (s t : State) (h : execBeaconFrame a0 s = .next t) : Only [.sent, .flt, .status,
    .net, .sv, .disc, .weft, .bea] s t := by
  revert t h
  show OnlyOut _ _ _
  simp [execBeaconFrame]

@[simp] theorem drainPort_only (a0) (s x : State) (a1) (W) (w : Facet.within [.sent, .status, .net, .time] W = true) :
    Only W x (drainPort a0 s a1) = Only W x s := by
  induction a0 generalizing s with
  | zero => rfl
  | succ n ih =>
    unfold drainPort
    rw [ih, servePort_only _ _ _ _ (Facet.within_trans rfl w)]

@[simp] theorem drainPorts_only (s x : State) (W) (w : Facet.within [.sent, .status, .net, .time] W = true) : Only W x
    (drainPorts s) = Only W x s := by
  refine Only.thru ?_ w x
  simp [drainPorts]

@[simp] theorem txOff_only (s x : State) (W) (w : Facet.within [.net] W = true) : Only W x (txOff s) = Only W x s :=
    by
  refine Only.thru ?_ w x
  simp [txOff]

@[simp] theorem coreOff_only (s x : State) (W) (w : Facet.within [.pwr, .clk, .boot, .test, .keys, .flt, .holds, .ldg,
    .status, .sens, .net, .time, .sv, .disc, .scene, .mem, .xb, .adm, .weft, .amb, .bri, .mark, .aud, .bob, .bea,
    .card, .dlg] W = true) : Only W x (coreOff s) = Only W x s := by
  refine Only.thru ?_ w x
  unfold coreOff
  (repeat' split) <;> (try simp) <;> (refine Only.upd ?y ?h ?x; (case h => (intro p hp; cases p <;> first | exact absurd (by decide) hp | (dsimp only [sameFacet] <;> (repeat' apply And.intro) <;> rfl))); (case x => simp))

@[simp] theorem fallAsleep_only (a0) (s x : State) (W) (w : Facet.within [.pwr, .standby, .clk, .boot, .test, .keys,
    .flt, .holds, .ldg, .status, .sens, .net, .time, .sv, .disc, .scene, .mem, .xb, .adm, .weft, .amb, .bri, .mark,
    .aud, .bob, .bea, .card, .dlg] W = true) : Only W x (fallAsleep a0 s) = Only W x s := by
  refine Only.thru ?_ w x
  simp [fallAsleep]

theorem execStandbyPowerDown_only (a0) (s t : State) (h : execStandbyPowerDown a0 s = .next t) : Only [.sent, .straps,
    .live, .pwr, .supply, .standby, .clk, .boot, .test, .otp, .keys, .lifecycle, .flt, .holds, .ldg, .status, .sens,
    .net, .time, .sv, .disc, .scene, .mem, .xb, .adm, .weft, .amb, .bri, .mark, .aud, .bob, .bea, .card, .dlg] s t :=
    by
  revert t h
  show OnlyOut _ _ _
  unfold execStandbyPowerDown
  (repeat' split) <;> simp

theorem execTimedWake_only (a0) (s t : State) (h : execTimedWake a0 s = .next t) : Only [.straps, .live, .pwr,
    .supply, .standby, .clk, .boot, .test, .otp, .keys, .lifecycle, .flt, .holds, .ldg, .status, .sens, .net, .time,
    .sv, .disc, .scene, .mem, .xb, .adm, .weft, .amb, .bri, .mark, .aud, .bob, .bea, .card, .dlg] s t := by
  revert t h
  show OnlyOut _ _ _
  simp [execTimedWake]

@[simp] theorem startCheck_only (a0) (s x : State) (W) (w : Facet.within [.standby, .clk, .boot] W = true) : Only W x
    (startCheck a0 s) = Only W x s := by
  refine Only.thru ?_ w x
  unfold startCheck
  (repeat' split) <;> (try simp) <;> (refine Only.upd ?y ?h ?x; (case h => (intro p hp; cases p <;> first | exact absurd (by decide) hp | (dsimp only [sameFacet] <;> (repeat' apply And.intro) <;> rfl))); (case x => simp))

theorem execSlowListenerMatch_only (a0) (s t : State) (h : execSlowListenerMatch a0 s = .next t) : Only [.standby,
    .clk, .boot] s t := by
  revert t h
  show OnlyOut _ _ _
  unfold execSlowListenerMatch
  (repeat' split) <;> simp

@[simp] theorem sleepAgain_only (s x : State) (W) (w : Facet.within [.pwr, .standby, .clk, .boot] W = true) : Only W x
    (sleepAgain s) = Only W x s := by
  refine Only.thru ?_ w x
  unfold sleepAgain
  (repeat' split) <;> (try simp) <;> (refine Only.upd ?y ?h ?x; (case h => (intro p hp; cases p <;> first | exact absurd (by decide) hp | (dsimp only [sameFacet] <;> (repeat' apply And.intro) <;> rfl))); (case x => simp))

theorem execWakeCheck_only (a0) (s t : State) (h : execWakeCheck a0 s = .next t) : Only [.straps, .live, .pwr,
    .supply, .standby, .clk, .boot, .test, .otp, .keys, .lifecycle, .flt, .holds, .ldg, .status, .sens, .net, .time,
    .sv, .disc, .scene, .mem, .xb, .adm, .weft, .amb, .bri, .mark, .aud, .bob, .bea, .card, .dlg] s t := by
  revert t h
  show OnlyOut _ _ _
  unfold execWakeCheck
  (repeat' split) <;> simp

@[simp] theorem storeReading_only (a0) (a1) (a2) (s x : State) (W) (w : Facet.within [.test, .sens] W = true) : Only W
    x (storeReading a0 a1 a2 s) = Only W x s := by
  refine Only.thru ?_ w x
  unfold storeReading
  (repeat' split) <;> (try simp) <;> (refine Only.upd ?y ?h ?x; (case h => (intro p hp; cases p <;> first | exact absurd (by decide) hp | (dsimp only [sameFacet] <;> (repeat' apply And.intro) <;> rfl))); (case x => simp))

@[simp] theorem thermalFaults_only (s x : State) (W) (w : Facet.within [.flt, .status, .net, .sv, .disc, .weft, .bea]
    W = true) : Only W x (thermalFaults s) = Only W x s := by
  refine Only.thru ?_ w x
  simp [thermalFaults]

@[simp] theorem shutDown_only (s x : State) (W) (w : Facet.within [.test, .flt, .holds, .status, .net, .sv, .disc,
    .weft, .aud, .bea] W = true) : Only W x (shutDown s) = Only W x s := by
  refine Only.thru ?_ w x
  simp [shutDown]

@[simp] theorem tryShutDown_only (s x : State) (W) (w : Facet.within [.test, .keys, .lifecycle, .flt, .holds, .status,
    .net, .sv, .disc, .weft, .aud, .bea] W = true) : Only W x (tryShutDown s) = Only W x s := by
  refine Only.thru ?_ w x
  unfold tryShutDown
  (repeat' split) <;> simp

@[simp] theorem endShutDown_only (s x : State) (W) (w : Facet.within [.flt, .holds, .aud] W = true) : Only W x
    (endShutDown s) = Only W x s := by
  refine Only.thru ?_ w x
  simp [endShutDown]

@[simp] theorem thermalShutdown_only (s x : State) (W) (w : Facet.within [.test, .keys, .lifecycle, .flt, .holds,
    .status, .net, .sv, .disc, .weft, .aud, .bea] W = true) : Only W x (thermalShutdown s) = Only W x s := by
  refine Only.thru ?_ w x
  simp [thermalShutdown]

@[simp] theorem noteSensors_only (a0) (s x : State) (W) (w : Facet.within [.test] W = true) : Only W x (noteSensors a0
    s) = Only W x s := by
  refine Only.thru ?_ w x
  simp [noteSensors]

theorem execSensorRead_only (a0) (a1) (a2) (s t : State) (h : execSensorRead a0 a1 a2 s = .next t) : Only [.test,
    .keys, .lifecycle, .flt, .holds, .status, .sens, .net, .sv, .disc, .weft, .aud, .bea] s t := by
  revert t h
  show OnlyOut _ _ _
  simp [execSensorRead]

theorem execTempSiteIgnore_only (a0) (s t : State) (h : execTempSiteIgnore a0 s = .next t) : Only [.sens] s t := by
  revert t h
  show OnlyOut _ _ _
  simp [execTempSiteIgnore]

@[simp] theorem startCounter_only (s x : State) (W) (w : Facet.within [.time] W = true) : Only W x (startCounter s) =
    Only W x s := by
  refine Only.thru ?_ w x
  simp [startCounter]

@[simp] theorem powerLanes_only (s x : State) (W) (w : Facet.within [.pwr] W = true) : Only W x (powerLanes s) = Only
    W x s := by
  refine Only.thru ?_ w x
  simp [powerLanes]

@[simp] theorem startDiscovery_only (s x : State) (W) (w : Facet.within [.flt, .status, .net, .sv, .disc, .weft, .bea]
    W = true) : Only W x (startDiscovery s) = Only W x s := by
  refine Only.thru ?_ w x
  simp [startDiscovery]

@[simp] theorem recensusHalf_only (a0) (s x : State) (W) (w : Facet.within [.weft] W = true) : Only W x (recensusHalf
    a0 s) = Only W x s := by
  refine Only.thru ?_ w x
  simp [recensusHalf]

@[simp] theorem domainStarts_only (a0) (a1) (s x : State) (W) (w : Facet.within [.pwr, .flt, .status, .net, .time,
    .sv, .disc, .xb, .weft, .bea] W = true) : Only W x (domainStarts a0 a1 s) = Only W x s := by
  refine Only.thru ?_ w x
  unfold domainStarts
  (repeat' split) <;> simp

theorem execDomainPowerGood_only (a0) (s t : State) (h : execDomainPowerGood a0 s = .next t) : Only [.pwr, .flt,
    .status, .net, .time, .sv, .disc, .xb, .weft, .bea] s t := by
  revert t h
  show OnlyOut _ _ _
  unfold execDomainPowerGood
  (repeat' split) <;> simp

@[simp] theorem startKeys_only (s x : State) (W) (w : Facet.within [.keys, .flt, .status, .net, .sv, .disc, .weft,
    .bea] W = true) : Only W x (startKeys s) = Only W x s := by
  refine Only.thru ?_ w x
  unfold startKeys
  (repeat' split) <;> simp

@[simp] theorem noLedger_only (a0) (s x : State) (W) (w : Facet.within [.flt, .ldg, .status, .net, .sv, .disc, .weft,
    .bea] W = true) : Only W x (noLedger a0 s) = Only W x s := by
  refine Only.thru ?_ w x
  simp [noLedger]

@[simp] theorem beginLog_only (s x : State) (W) (w : Facet.within [.ldg] W = true) : Only W x (beginLog s) = Only W x
    s := by
  refine Only.thru ?_ w x
  simp [beginLog]

@[simp] theorem startLedgerFlash_only (a0) (s x : State) (W) (w : Facet.within [.flt, .ldg, .status, .net, .sv, .disc,
    .weft, .bea] W = true) : Only W x (startLedgerFlash a0 s) = Only W x s := by
  refine Only.thru ?_ w x
  unfold startLedgerFlash
  (repeat' split) <;> simp

@[simp] theorem startSequencer_only (a0) (a1) (s x : State) (W) (w : Facet.within [.boot, .keys, .flt, .ldg, .status,
    .net, .sv, .disc, .weft, .amb, .bea] W = true) : Only W x (startSequencer a0 a1 s) = Only W x s := by
  refine Only.thru ?_ w x
  unfold startSequencer
  (repeat' split) <;> (try simp) <;> (refine Only.upd ?y ?h ?x; (case h => (intro p hp; cases p <;> first | exact absurd (by decide) hp | (dsimp only [sameFacet] <;> (repeat' apply And.intro) <;> rfl))); (case x => simp))

theorem execBootCheckDone_only (a0) (a1) (a2) (a3) (s t : State) (h : execBootCheckDone a0 a1 a2 a3 s = .next t) :
    Only [.pwr, .clk, .boot, .test, .keys, .flt, .holds, .ldg, .status, .sens, .net, .time, .sv, .disc, .scene, .mem,
    .xb, .adm, .weft, .amb, .bri, .mark, .aud, .bob, .bea, .card, .dlg] s t := by
  revert t h
  show OnlyOut _ _ _
  unfold execBootCheckDone
  (repeat' split) <;> simp

theorem execDramTrainingDone_only (a0) (s t : State) (h : execDramTrainingDone a0 s = .next t) : Only [.pwr, .clk,
    .boot, .test, .keys, .flt, .holds, .ldg, .status, .sens, .net, .time, .sv, .disc, .scene, .mem, .xb, .adm, .weft,
    .amb, .bri, .mark, .aud, .bob, .bea, .card, .dlg] s t := by
  revert t h
  show OnlyOut _ _ _
  unfold execDramTrainingDone
  (repeat' split) <;> simp

@[simp] theorem scanClock_only (a0) (a1) (s x : State) (W) (w : Facet.within [.clk] W = true) : Only W x (scanClock a0
    a1 s) = Only W x s := by
  refine Only.thru ?_ w x
  simp [scanClock]

@[simp] theorem alignScan_only (s x : State) (W) (w : Facet.within [.clk] W = true) : Only W x (alignScan s) = Only W
    x s := by
  refine Only.thru ?_ w x
  simp [alignScan]

theorem execRefreshStart_only (s t : State) (h : execRefreshStart s = .next t) : Only [.time, .weft] s t := by
  revert t h
  show OnlyOut _ _ _
  unfold execRefreshStart
  (repeat' split) <;> simp

theorem execPickStart_only (s t : State) (h : execPickStart s = .next t) : Only [.weft] s t := by
  revert t h
  show OnlyOut _ _ _
  unfold execPickStart
  (repeat' split) <;> simp

@[simp] theorem openPick_only (s x : State) (W) (w : Facet.within [.weft] W = true) : Only W x (openPick s) = Only W x
    s := by
  refine Only.thru ?_ w x
  unfold openPick
  (repeat' split) <;> simp

@[simp] theorem handScene_only (s x : State) (W) (w : Facet.within [.live, .scene] W = true) : Only W x (handScene s)
    = Only W x s := by
  refine Only.thru ?_ w x
  unfold handScene
  (repeat' split) <;> (try simp) <;> (refine Only.upd ?y ?h ?x; (case h => (intro p hp; cases p <;> first | exact absurd (by decide) hp | (dsimp only [sameFacet] <;> (repeat' apply And.intro) <;> rfl))); (case x => simp))

@[simp] theorem pinsAtBeat_only (s x : State) (W) (w : Facet.within [.live] W = true) : Only W x (pinsAtBeat s) = Only
    W x s := by
  refine Only.thru ?_ w x
  simp [pinsAtBeat]

@[simp] theorem joinServices_only (s x : State) (W) (w : Facet.within [.net] W = true) : Only W x (joinServices s) =
    Only W x s := by
  refine Only.thru ?_ w x
  simp [joinServices]

@[simp] theorem standbyBeat_only (a0) (s x : State) (W) (w : Facet.within [.standby, .test, .keys, .ldg, .status,
    .net, .disc, .scene, .weft, .aud] W = true) : Only W x (standbyBeat a0 s) = Only W x s := by
  refine Only.thru ?_ w x
  simp [standbyBeat]

@[simp] theorem beginVisible_only (s x : State) (W) (w : Facet.within [.test, .aud] W = true) : Only W x (beginVisible
    s) = Only W x s := by
  refine Only.thru ?_ w x
  simp [beginVisible]

@[simp] theorem endVisible_only (s x : State) (W) (w : Facet.within [.test, .aud] W = true) : Only W x (endVisible s)
    = Only W x s := by
  refine Only.thru ?_ w x
  unfold endVisible
  (repeat' split) <;> simp

@[simp] theorem takeLogKey_only (s x : State) (W) (w : Facet.within [.ldg] W = true) : Only W x (takeLogKey s) = Only
    W x s := by
  refine Only.thru ?_ w x
  simp [takeLogKey]

@[simp] theorem reloadWear_only (s x : State) (W) (w : Facet.within [.flt, .ldg, .status, .net, .sv, .disc, .weft,
    .bea] W = true) : Only W x (reloadWear s) = Only W x s := by
  refine Only.thru ?_ w x
  simp [reloadWear]

@[simp] theorem newLog_only (s x : State) (W) (w : Facet.within [.ldg] W = true) : Only W x (newLog s) = Only W x s :=
    by
  refine Only.thru ?_ w x
  simp [newLog]

@[simp] theorem swapKeys_only (s x : State) (W) (w : Facet.within [.keys, .flt, .ldg, .status, .net, .sv, .disc, .mem,
    .weft, .aud, .bea] W = true) : Only W x (swapKeys s) = Only W x s := by
  refine Only.thru ?_ w x
  unfold swapKeys
  (repeat' split) <;> simp

@[simp] theorem swapShown_only (a0) (s x : State) (W) (w : Facet.within [.scene] W = true) : Only W x (swapShown a0 s)
    = Only W x s := by
  refine Only.thru ?_ w x
  simp [swapShown]

@[simp] theorem emitBeat_only (a0) (s x : State) (W) (w : Facet.within [.clk, .time, .weft] W = true) : Only W x
    (emitBeat a0 s) = Only W x s := by
  refine Only.thru ?_ w x
  simp [emitBeat]

@[simp] theorem timeAtBeat_only (a0) (s x : State) (W) (w : Facet.within [.flt, .status, .net, .time, .sv, .disc,
    .weft, .aud, .bea] W = true) : Only W x (timeAtBeat a0 s) = Only W x s := by
  refine Only.thru ?_ w x
  simp [timeAtBeat]

@[simp] theorem dutiesAtBeat_only (a0) (s x : State) (W) (w : Facet.within [.live, .standby, .test, .keys, .flt, .ldg,
    .status, .net, .sv, .disc, .scene, .mem, .adm, .weft, .bri, .aud, .bea] W = true) : Only W x (dutiesAtBeat a0 s) =
    Only W x s := by
  refine Only.thru ?_ w x
  simp [dutiesAtBeat]

@[simp] theorem admissionAtBeat_only (s x : State) (W) (w : Facet.within [.adm] W = true) : Only W x (admissionAtBeat
    s) = Only W x s := by
  refine Only.thru ?_ w x
  simp [admissionAtBeat]

@[simp] theorem noteIdle_only (s x : State) (W) (w : Facet.within [.live, .boot, .test] W = true) : Only W x (noteIdle
    s) = Only W x s := by
  refine Only.thru ?_ w x
  simp [noteIdle]

@[simp] theorem pictureAtBeat_only (a0) (a1) (s x : State) (W) (w : Facet.within [.sent, .live, .boot, .test, .flt,
    .status, .net, .sv, .disc, .scene, .mem, .adm, .weft, .bea] W = true) : Only W x (pictureAtBeat a0 a1 s) = Only W
    x s := by
  refine Only.thru ?_ w x
  simp [pictureAtBeat]

@[simp] theorem leadBeat_only (a0) (s x : State) (W) (w : Facet.within [.sent, .status, .time, .sv, .disc] W = true) :
    Only W x (leadBeat a0 s) = Only W x s := by
  refine Only.thru ?_ w x
  simp [leadBeat]

theorem execReedBeat_only (a0) (s t : State) (h : execReedBeat a0 s = .next t) : Only [.sent, .live, .standby, .clk,
    .boot, .test, .keys, .flt, .ldg, .status, .net, .time, .sv, .disc, .scene, .mem, .adm, .weft, .bri, .aud, .bea] s
    t := by
  revert t h
  show OnlyOut _ _ _
  simp [execReedBeat]

@[simp] theorem gainTime_only (a0) (s x : State) (W) (w : Facet.within [.clk, .time] W = true) : Only W x (gainTime a0
    s) = Only W x s := by
  refine Only.thru ?_ w x
  simp [gainTime]

@[simp] theorem countClock_only (a0) (s x : State) (W) (w : Facet.within [.clk, .time, .aud] W = true) : Only W x (countClock a0 s) = Only W x
    s := by
  refine Only.thru ?_ w x
  unfold countClock
  dsimp only
  rw [audioClock_only _ _ _ _ _ (by decide), scanClock_only _ _ _ _ _ (by decide)]
  simp

@[simp] theorem sendBlock_only (a0) (a1) (s x : State) (W) (w : Facet.within [.sent, .sv] W = true) : Only W x
    (sendBlock a0 a1 s) = Only W x s := by
  refine Only.thru ?_ w x
  unfold sendBlock
  dsimp only
  (repeat' split) <;> simp

@[simp] theorem laneClock_only (a0) (a1) (s x : State) (W) (w : Facet.within [.sent, .sv] W = true) : Only W x
    (laneClock a0 a1 s) = Only W x s := by
  refine Only.thru ?_ w x
  simp [laneClock]

@[simp] theorem sendClock_only (a0) (s x : State) (W) (w : Facet.within [.sent, .status, .net, .time, .sv] W = true) :
    Only W x (sendClock a0 s) = Only W x s := by
  refine Only.thru ?_ w x
  simp [sendClock]

@[simp] theorem aonTick_only (s x : State) (W) (w : Facet.within [.straps, .live, .pwr, .clk, .flt, .status, .net,
    .sv, .disc, .weft, .bea] W = true) : Only W x (aonTick s) = Only W x s := by
  refine Only.thru ?_ w x
  simp [aonTick]

@[simp] theorem tick_only (s x : State) (W) (w : Facet.within [.now, .sent, .straps, .live, .pwr, .clk, .test, .flt, .status, .net, .time, .sv, .disc, .xb, .weft, .aud, .bea] W = true) : Only W x (tick s) = Only W x s := by
  refine Only.thru ?_ w x
  have h0 : Only [.now, .sent, .straps, .live, .pwr, .clk, .test, .flt, .status, .net, .time, .sv, .disc, .xb, .weft, .aud, .bea] s (aonTick { s with now := s.now + clockTicks s }) := by
    rw [aonTick_only _ _ _ (by decide)]
    intro p hp
    cases p <;> first | exact absurd (by decide) hp | (dsimp only [sameFacet] <;> (repeat' apply And.intro) <;> rfl)
  unfold tick
  dsimp only
  generalize aonTick { s with now := s.now + clockTicks s } = y at *
  split
  · exact h0
  · rw [playDue_only _ _ _ (by decide), holdLong_only _ _ _ (by decide), flushFrameDue_only _ _ _ (by decide),
      trackGating_only _ _ _ (by decide), endSuite_only _ _ _ (by decide), sendClock_only _ _ _ _ (by decide),
      xbClock_only _ _ _ (by decide), openPick_only _ _ _ (by decide), countClock_only _ _ _ _ (by decide)]
    refine h0.trans fun p hp => ?_
    cases p <;> first | exact absurd (by decide) hp | (dsimp only [sameFacet] <;> (repeat' apply And.intro) <;> rfl)

end Sys2Proof.Machine
end

