-- ==== Sys2Proof/Laws/MemForm.lean ====
section
/-!
SUPPORT. The canonical form of frame memory: every memory operation keeps it, and so does every operation and command that may
write frame memory (`_mem`). A command whose `_only` lemma does not name `mem` keeps it by `Only.memOk`.
-/
set_option linter.unusedVariables false
set_option linter.unusedSimpArgs false
set_option linter.unnecessarySeqFocus false
set_option linter.unusedTactic false
set_option linter.unreachableTactic false
namespace Sys2Proof.Machine
open Sys2Proof

@[simp] theorem mem_of_modMem (f : Mem → Mem) (s : State) : (modMem f s).mem = f s.mem := rfl

theorem Memory.wf_cons (c : Host.Cell) (l : List Host.Cell) :
    Memory.wf (c :: l) = true ↔ c.2 ≠ 0 ∧ (∀ d ∈ l, c.1 < d.1) ∧ Memory.wf l = true := by
  induction l generalizing c with
  | nil => simp [Memory.wf]
  | cons d l ih =>
    simp only [Memory.wf, Bool.and_eq_true, bne_iff_ne, decide_eq_true_eq, List.mem_cons, forall_eq_or_imp]
    constructor
    · rintro ⟨⟨h0, h1⟩, h2⟩
      exact ⟨h0, ⟨h1, fun e he => Nat.lt_trans h1 (((ih d).1 h2).2.1 e he)⟩, h2⟩
    · rintro ⟨h0, ⟨h1, _⟩, h2⟩
      exact ⟨⟨h0, h1⟩, h2⟩

/-- What a write of one byte can list. -/

theorem Memory.mem_set (l : List Host.Cell) (a : Nat) (b : Byte) (c : Host.Cell) (h : c ∈ Memory.set l a b) :
    c ∈ l ∨ (c = (a, b) ∧ b ≠ 0) := by
  induction l with
  | nil => unfold Memory.set at h; split at h <;> simp_all
  | cons d l ih =>
    unfold Memory.set at h
    split at h
    · split at h <;> simp_all
      rcases h with h | h | h <;> simp [h]
    · split at h
      · split at h <;> simp_all
        rcases h with h | h <;> simp [h]
      · simp only [List.mem_cons] at h ⊢
        rcases h with h | h
        · exact .inl (.inl h)
        · rcases ih h with h | h
          · exact .inl (.inr h)
          · exact .inr h

/-- A write of one byte keeps the canonical form. -/

theorem Memory.wf_set (l : List Host.Cell) (a : Nat) (b : Byte) (h : Memory.wf l = true) : Memory.wf (Memory.set l a b) = true := by
  induction l with
  | nil => unfold Memory.set; split <;> simp_all [Memory.wf]
  | cons d l ih =>
    obtain ⟨h0, h1, h2⟩ := (Memory.wf_cons d l).1 h
    unfold Memory.set
    split
    · split
      · exact h
      · rename_i hlt hb
        refine (Memory.wf_cons _ _).2 ⟨hb, fun e he => ?_, h⟩
        rcases List.mem_cons.1 he with rfl | he
        · exact hlt
        · exact Nat.lt_trans hlt (h1 e he)
    · split
      · split
        · exact h2
        · rename_i ha hb
          exact (Memory.wf_cons _ _).2 ⟨hb, fun e he => by simpa [ha] using h1 e he, h2⟩
      · rename_i hlt hne
        refine (Memory.wf_cons _ _).2 ⟨h0, fun e he => ?_, ih h2⟩
        rcases Memory.mem_set _ _ _ _ he with he | ⟨rfl, _⟩
        · exact h1 e he
        · show d.1 < a
          omega

@[simp] theorem Memory.wf_setAll (l : List Host.Cell) (a : Nat) (bs : List Byte) (h : Memory.wf l = true) :
    Memory.wf (Memory.setAll l a bs) = true := by
  induction bs generalizing l a with
  | nil => exact h
  | cons b bs ih => exact ih _ _ (Memory.wf_set _ _ _ h)

/-- Frame memory is canonical in the next state that an outcome gives, if it gives one. -/
def MemOut (o : Out) : Prop := ∀ t, o = .next t → Memory.wf t.mem.bytes = true

@[simp] theorem MemOut.next (t : State) : MemOut (.next t) = (Memory.wf t.mem.bytes = true) :=
  propext ⟨fun h => h t rfl, fun h u e => by injection e with e; exact e ▸ h⟩
@[simp] theorem MemOut.refused (r : Refusal) : MemOut (.refused r) = True := eq_true fun _ e => nomatch e
@[simp] theorem MemOut.fault (f : Fault) : MemOut (.fault f) = True := eq_true fun _ e => nomatch e

@[simp] theorem modPwr_mem (a0) (s : State) (h : Memory.wf s.mem.bytes = true) : Memory.wf (modPwr a0 s).mem.bytes =
    true :=
  Only.memOk (W := [.pwr, .supply]) (by simp) (by decide) h

@[simp] theorem modClk_mem (a0) (s : State) (h : Memory.wf s.mem.bytes = true) : Memory.wf (modClk a0 s).mem.bytes =
    true :=
  Only.memOk (W := [.clk]) (by simp) (by decide) h

@[simp] theorem modBoot_mem (a0) (s : State) (h : Memory.wf s.mem.bytes = true) : Memory.wf (modBoot a0 s).mem.bytes =
    true :=
  Only.memOk (W := [.boot]) (by simp) (by decide) h

@[simp] theorem modTest_mem (a0) (s : State) (h : Memory.wf s.mem.bytes = true) : Memory.wf (modTest a0 s).mem.bytes =
    true :=
  Only.memOk (W := [.test]) (by simp) (by decide) h

@[simp] theorem modOtp_mem (a0) (s : State) (h : Memory.wf s.mem.bytes = true) : Memory.wf (modOtp a0 s).mem.bytes =
    true :=
  Only.memOk (W := [.otp, .fuse]) (by simp) (by decide) h

@[simp] theorem modKeys_mem (a0) (s : State) (h : Memory.wf s.mem.bytes = true) : Memory.wf (modKeys a0 s).mem.bytes =
    true :=
  Only.memOk (W := [.keys, .lifecycle]) (by simp) (by decide) h

@[simp] theorem modFlt_mem (a0) (s : State) (h : Memory.wf s.mem.bytes = true) : Memory.wf (modFlt a0 s).mem.bytes =
    true :=
  Only.memOk (W := [.flt, .holds]) (by simp) (by decide) h

@[simp] theorem modLdg_mem (a0) (s : State) (h : Memory.wf s.mem.bytes = true) : Memory.wf (modLdg a0 s).mem.bytes =
    true :=
  Only.memOk (W := [.ldg]) (by simp) (by decide) h

@[simp] theorem modStatus_mem (a0) (s : State) (h : Memory.wf s.mem.bytes = true) : Memory.wf (modStatus a0
    s).mem.bytes = true :=
  Only.memOk (W := [.status]) (by simp) (by decide) h

@[simp] theorem modSens_mem (a0) (s : State) (h : Memory.wf s.mem.bytes = true) : Memory.wf (modSens a0 s).mem.bytes =
    true :=
  Only.memOk (W := [.sens]) (by simp) (by decide) h

@[simp] theorem modNet_mem (a0) (s : State) (h : Memory.wf s.mem.bytes = true) : Memory.wf (modNet a0 s).mem.bytes =
    true :=
  Only.memOk (W := [.net]) (by simp) (by decide) h

@[simp] theorem modTime_mem (a0) (s : State) (h : Memory.wf s.mem.bytes = true) : Memory.wf (modTime a0 s).mem.bytes =
    true :=
  Only.memOk (W := [.time]) (by simp) (by decide) h

@[simp] theorem modSv_mem (a0) (s : State) (h : Memory.wf s.mem.bytes = true) : Memory.wf (modSv a0 s).mem.bytes =
    true :=
  Only.memOk (W := [.sv]) (by simp) (by decide) h

@[simp] theorem modDisc_mem (a0) (s : State) (h : Memory.wf s.mem.bytes = true) : Memory.wf (modDisc a0 s).mem.bytes =
    true :=
  Only.memOk (W := [.disc]) (by simp) (by decide) h

@[simp] theorem modScene_mem (a0) (s : State) (h : Memory.wf s.mem.bytes = true) : Memory.wf (modScene a0 s).mem.bytes
    = true :=
  Only.memOk (W := [.scene]) (by simp) (by decide) h

@[simp] theorem modXb_mem (a0) (s : State) (h : Memory.wf s.mem.bytes = true) : Memory.wf (modXb a0 s).mem.bytes =
    true :=
  Only.memOk (W := [.xb]) (by simp) (by decide) h

@[simp] theorem modAdm_mem (a0) (s : State) (h : Memory.wf s.mem.bytes = true) : Memory.wf (modAdm a0 s).mem.bytes =
    true :=
  Only.memOk (W := [.adm]) (by simp) (by decide) h

@[simp] theorem modWeft_mem (a0) (s : State) (h : Memory.wf s.mem.bytes = true) : Memory.wf (modWeft a0 s).mem.bytes =
    true :=
  Only.memOk (W := [.weft]) (by simp) (by decide) h

@[simp] theorem modAmb_mem (a0) (s : State) (h : Memory.wf s.mem.bytes = true) : Memory.wf (modAmb a0 s).mem.bytes =
    true :=
  Only.memOk (W := [.amb]) (by simp) (by decide) h

@[simp] theorem modBri_mem (a0) (s : State) (h : Memory.wf s.mem.bytes = true) : Memory.wf (modBri a0 s).mem.bytes =
    true :=
  Only.memOk (W := [.bri]) (by simp) (by decide) h

@[simp] theorem modMark_mem (a0) (s : State) (h : Memory.wf s.mem.bytes = true) : Memory.wf (modMark a0 s).mem.bytes =
    true :=
  Only.memOk (W := [.mark]) (by simp) (by decide) h

@[simp] theorem modAud_mem (a0) (s : State) (h : Memory.wf s.mem.bytes = true) : Memory.wf (modAud a0 s).mem.bytes =
    true :=
  Only.memOk (W := [.aud]) (by simp) (by decide) h

@[simp] theorem modBob_mem (a0) (s : State) (h : Memory.wf s.mem.bytes = true) : Memory.wf (modBob a0 s).mem.bytes =
    true :=
  Only.memOk (W := [.bob]) (by simp) (by decide) h

@[simp] theorem modBea_mem (a0) (s : State) (h : Memory.wf s.mem.bytes = true) : Memory.wf (modBea a0 s).mem.bytes =
    true :=
  Only.memOk (W := [.bea]) (by simp) (by decide) h

@[simp] theorem modCard_mem (a0) (s : State) (h : Memory.wf s.mem.bytes = true) : Memory.wf (modCard a0 s).mem.bytes =
    true :=
  Only.memOk (W := [.card]) (by simp) (by decide) h

@[simp] theorem modDlg_mem (a0) (s : State) (h : Memory.wf s.mem.bytes = true) : Memory.wf (modDlg a0 s).mem.bytes =
    true :=
  Only.memOk (W := [.dlg]) (by simp) (by decide) h

@[simp] theorem modStandby_mem (a0) (s : State) (h : Memory.wf s.mem.bytes = true) : Memory.wf (modStandby a0
    s).mem.bytes = true :=
  Only.memOk (W := [.standby]) (by simp) (by decide) h

@[simp] theorem modStraps_mem (a0) (s : State) (h : Memory.wf s.mem.bytes = true) : Memory.wf (modStraps a0
    s).mem.bytes = true :=
  Only.memOk (W := [.straps]) (by simp) (by decide) h

@[simp] theorem modLive_mem (a0) (s : State) (h : Memory.wf s.mem.bytes = true) : Memory.wf (modLive a0 s).mem.bytes =
    true :=
  Only.memOk (W := [.live]) (by simp) (by decide) h

@[simp] theorem modPins_mem (a0) (s : State) (h : Memory.wf s.mem.bytes = true) : Memory.wf (modPins a0 s).mem.bytes =
    true :=
  Only.memOk (W := [.pins]) (by simp) (by decide) h

@[simp] theorem draw_mem (s : State) (a0) (h : Memory.wf s.mem.bytes = true) : Memory.wf (draw s a0).2.mem.bytes =
    true :=
  Only.memOk (W := [.fresh]) (by simp) (by decide) h

@[simp] theorem drawBytes_mem (s : State) (a0) (h : Memory.wf s.mem.bytes = true) : Memory.wf (drawBytes s
    a0).2.mem.bytes = true :=
  Only.memOk (W := [.fresh]) (by simp) (by decide) h

@[simp] theorem emit_mem (s : State) (a0) (h : Memory.wf s.mem.bytes = true) : Memory.wf (emit s a0).mem.bytes = true
    :=
  Only.memOk (W := [.sent]) (by simp) (by decide) h

@[simp] theorem zeroSram_mem (s : State) (h : Memory.wf s.mem.bytes = true) : Memory.wf (zeroSram s).mem.bytes = true
    :=
  Only.memOk (W := [.sram]) (by simp) (by decide) h

@[simp] theorem setDom_mem (s : State) (a0) (a1) (h : Memory.wf s.mem.bytes = true) : Memory.wf (setDom s a0
    a1).mem.bytes = true :=
  Only.memOk (W := [.pwr]) (by simp) (by decide) h

@[simp] theorem setLink_mem (s : State) (a0) (a1) (h : Memory.wf s.mem.bytes = true) : Memory.wf (setLink s a0
    a1).mem.bytes = true :=
  Only.memOk (W := [.sv]) (by simp) (by decide) h

@[simp] theorem modLink_mem (s : State) (a0) (a1) (h : Memory.wf s.mem.bytes = true) : Memory.wf (modLink s a0
    a1).mem.bytes = true :=
  Only.memOk (W := [.sv]) (by simp) (by decide) h

@[simp] theorem setNetPort_mem (s : State) (a0) (a1) (h : Memory.wf s.mem.bytes = true) : Memory.wf (setNetPort s a0
    a1).mem.bytes = true :=
  Only.memOk (W := [.net]) (by simp) (by decide) h

@[simp] theorem rederive_mem (s : State) (h : Memory.wf s.mem.bytes = true) : Memory.wf (rederive s).mem.bytes = true
    :=
  Only.memOk (W := [.keys]) (by simp) (by decide) h

@[simp] theorem addResult_mem (a0) (a1) (s : State) (h : Memory.wf s.mem.bytes = true) : Memory.wf (addResult a0 a1
    s).mem.bytes = true :=
  Only.memOk (W := [.test]) (by simp) (by decide) h

@[simp] theorem noteTest_mem (a0) (a1) (s : State) (h : Memory.wf s.mem.bytes = true) : Memory.wf (noteTest a0 a1
    s).mem.bytes = true :=
  Only.memOk (W := [.test]) (by simp) (by decide) h

@[simp] theorem ranAgain_mem (a0) (s : State) (h : Memory.wf s.mem.bytes = true) : Memory.wf (ranAgain a0 s).mem.bytes
    = true :=
  Only.memOk (W := [.test]) (by simp) (by decide) h

@[simp] theorem countUp_mem (a0) (a1) (s : State) (h : Memory.wf s.mem.bytes = true) : Memory.wf (countUp a0 a1
    s).mem.bytes = true :=
  Only.memOk (W := [.status]) (by simp) (by decide) h

@[simp] theorem queueOn_mem (s : State) (a0) (a1) (h : Memory.wf s.mem.bytes = true) : Memory.wf (queueOn s a0
    a1).mem.bytes = true :=
  Only.memOk (W := [.status, .sv]) (by simp) (by decide) h

@[simp] theorem sendOn_mem (s : State) (a0) (a1) (a2) (h : Memory.wf s.mem.bytes = true) : Memory.wf (sendOn s a0 a1
    a2).mem.bytes = true :=
  Only.memOk (W := [.status, .sv]) (by simp) (by decide) h

@[simp] theorem floodKnot_mem (s : State) (a0) (a1) (h : Memory.wf s.mem.bytes = true) : Memory.wf (floodKnot s a0
    a1).mem.bytes = true :=
  Only.memOk (W := [.status, .sv]) (by simp) (by decide) h

@[simp] theorem floodBut_mem (s : State) (a0) (a1) (a2) (h : Memory.wf s.mem.bytes = true) : Memory.wf (floodBut s a0
    a1 a2).mem.bytes = true :=
  Only.memOk (W := [.status, .sv]) (by simp) (by decide) h

@[simp] theorem bumpSeq_mem (s : State) (a0) (h : Memory.wf s.mem.bytes = true) : Memory.wf (bumpSeq s a0).mem.bytes =
    true :=
  Only.memOk (W := [.disc]) (by simp) (by decide) h

@[simp] theorem originFlood_mem (s : State) (a0) (a1) (h : Memory.wf s.mem.bytes = true) : Memory.wf (originFlood s a0
    a1).mem.bytes = true :=
  Only.memOk (W := [.status, .sv, .disc]) (by simp) (by decide) h

@[simp] theorem originUp_mem (s : State) (a0) (a1) (h : Memory.wf s.mem.bytes = true) : Memory.wf (originUp s a0
    a1).mem.bytes = true :=
  Only.memOk (W := [.status, .sv, .disc]) (by simp) (by decide) h

@[simp] theorem noteSeen_mem (s : State) (a0) (a1) (h : Memory.wf s.mem.bytes = true) : Memory.wf (noteSeen s a0
    a1).mem.bytes = true :=
  Only.memOk (W := [.disc]) (by simp) (by decide) h

@[simp] theorem touchSeen_mem (s : State) (a0) (a1) (h : Memory.wf s.mem.bytes = true) : Memory.wf (touchSeen s a0
    a1).mem.bytes = true :=
  Only.memOk (W := [.disc]) (by simp) (by decide) h

@[simp] theorem relayFlood_mem (s : State) (a0) (a1) (a2) (h : Memory.wf s.mem.bytes = true) : Memory.wf (relayFlood s
    a0 a1 a2).mem.bytes = true :=
  Only.memOk (W := [.status, .sv]) (by simp) (by decide) h

@[simp] theorem relayUp_mem (s : State) (a0) (a1) (h : Memory.wf s.mem.bytes = true) : Memory.wf (relayUp s a0
    a1).mem.bytes = true :=
  Only.memOk (W := [.status, .sv]) (by simp) (by decide) h

@[simp] theorem discardKnot_mem (a0) (a1) (a2) (s : State) (h : Memory.wf s.mem.bytes = true) : Memory.wf (discardKnot
    a0 a1 a2 s).mem.bytes = true :=
  Only.memOk (W := [.status, .sv]) (by simp) (by decide) h

@[simp] theorem noteWallFault_mem (s : State) (a0) (h : Memory.wf s.mem.bytes = true) : Memory.wf (noteWallFault s
    a0).mem.bytes = true :=
  Only.memOk (W := [.disc]) (by simp) (by decide) h

@[simp] theorem sendFaultBody_mem (s : State) (a0) (h : Memory.wf s.mem.bytes = true) : Memory.wf (sendFaultBody s
    a0).mem.bytes = true :=
  Only.memOk (W := [.status, .sv, .disc]) (by simp) (by decide) h

@[simp] theorem originFault_mem (a0) (a1) (s : State) (h : Memory.wf s.mem.bytes = true) : Memory.wf (originFault a0
    a1 s).mem.bytes = true :=
  Only.memOk (W := [.status, .sv, .disc]) (by simp) (by decide) h

@[simp] theorem setPortQueue_mem (s : State) (a0) (a1) (h : Memory.wf s.mem.bytes = true) : Memory.wf (setPortQueue s
    a0 a1).mem.bytes = true :=
  Only.memOk (W := [.net]) (by simp) (by decide) h

@[simp] theorem enqueueFrame_mem (s : State) (a0) (a1) (h : Memory.wf s.mem.bytes = true) : Memory.wf (enqueueFrame s
    a0 a1).1.mem.bytes = true :=
  Only.memOk (W := [.net]) (by simp) (by decide) h

@[simp] theorem originFrame_mem (s : State) (a0) (a1) (a2) (a3) (a4) (h : Memory.wf s.mem.bytes = true) : Memory.wf
    (originFrame s a0 a1 a2 a3 a4).mem.bytes = true :=
  Only.memOk (W := [.net]) (by simp) (by decide) h

@[simp] theorem originOn_mem (s : State) (a0) (a1) (a2) (a3) (a4) (h : Memory.wf s.mem.bytes = true) : Memory.wf
    (originOn s a0 a1 a2 a3 a4).mem.bytes = true :=
  Only.memOk (W := [.net]) (by simp) (by decide) h

@[simp] theorem stormPass_mem (a0) (s : State) (h : Memory.wf s.mem.bytes = true) : Memory.wf (stormPass a0
    s).2.mem.bytes = true :=
  Only.memOk (W := [.net]) (by simp) (by decide) h

theorem limitedBy_mem (a0) (a1) (s : State) (hf : ∀ t : State, Memory.wf t.mem.bytes = true → Memory.wf (a1 t).mem.bytes = true)
    (h : Memory.wf s.mem.bytes = true) : Memory.wf (limitedBy a0 a1 s).mem.bytes = true := by
  unfold limitedBy
  have hs := stormPass_mem a0 s h
  generalize stormPass a0 s = y at *
  obtain ⟨b, t⟩ := y
  cases b
  · exact hs
  · exact hf _ hs

@[simp] theorem chargeShaper_mem (s : State) (a0) (a1) (h : Memory.wf s.mem.bytes = true) : Memory.wf (chargeShaper s
    a0 a1).mem.bytes = true :=
  Only.memOk (W := [.net]) (by simp) (by decide) h

@[simp] theorem setDeficit_mem (a0) (a1) (a2) (s : State) (h : Memory.wf s.mem.bytes = true) : Memory.wf (setDeficit
    a0 a1 a2 s).mem.bytes = true :=
  Only.memOk (W := [.net]) (by simp) (by decide) h

@[simp] theorem keepResidence_mem (a0) (a1) (a2) (s : State) (h : Memory.wf s.mem.bytes = true) : Memory.wf
    (keepResidence a0 a1 a2 s).mem.bytes = true :=
  Only.memOk (W := [.time]) (by simp) (by decide) h

@[simp] theorem relayPtp_mem (a0) (a1) (a2) (a3) (s : State) (h : Memory.wf s.mem.bytes = true) : Memory.wf (relayPtp
    a0 a1 a2 a3 s).1.mem.bytes = true :=
  Only.memOk (W := [.status, .time]) (by simp) (by decide) h

@[simp] theorem stampDelayReq_mem (a0) (a1) (s : State) (h : Memory.wf s.mem.bytes = true) : Memory.wf (stampDelayReq
    a0 a1 s).1.mem.bytes = true :=
  Only.memOk (W := [.time]) (by simp) (by decide) h

@[simp] theorem leavePayload_mem (a0) (a1) (s : State) (h : Memory.wf s.mem.bytes = true) : Memory.wf (leavePayload a0
    a1 s).1.mem.bytes = true :=
  Only.memOk (W := [.status, .time]) (by simp) (by decide) h

@[simp] theorem leaveFrame_mem (s : State) (a0) (a1) (h : Memory.wf s.mem.bytes = true) : Memory.wf (leaveFrame s a0
    a1).mem.bytes = true :=
  Only.memOk (W := [.sent, .status, .net, .time]) (by simp) (by decide) h

@[simp] theorem dropHeld_mem (s : State) (a0) (h : Memory.wf s.mem.bytes = true) : Memory.wf (dropHeld s a0).mem.bytes
    = true :=
  Only.memOk (W := [.net]) (by simp) (by decide) h

@[simp] theorem servePort_mem (s : State) (a0) (h : Memory.wf s.mem.bytes = true) : Memory.wf (servePort s
    a0).mem.bytes = true :=
  Only.memOk (W := [.sent, .status, .net, .time]) (by simp) (by decide) h

@[simp] theorem launchRecord_mem (a0) (s : State) (h : Memory.wf s.mem.bytes = true) : Memory.wf (launchRecord a0
    s).mem.bytes = true :=
  Only.memOk (W := [.status, .net]) (by simp) (by decide) h

@[simp] theorem addEntry_mem (a0) (s : State) (h : Memory.wf s.mem.bytes = true) : Memory.wf (addEntry a0 s).mem.bytes
    = true :=
  Only.memOk (W := [.flt]) (by simp) (by decide) h

@[simp] theorem writeRing_mem (a0) (a1) (a2) (s : State) (h : Memory.wf s.mem.bytes = true) : Memory.wf (writeRing a0
    a1 a2 s).mem.bytes = true :=
  Only.memOk (W := [.flt]) (by simp) (by decide) h

@[simp] theorem countRaise_mem (a0) (s : State) (h : Memory.wf s.mem.bytes = true) : Memory.wf (countRaise a0
    s).mem.bytes = true :=
  Only.memOk (W := [.flt]) (by simp) (by decide) h

@[simp] theorem setActive_mem (a0) (a1) (a2) (s : State) (h : Memory.wf s.mem.bytes = true) : Memory.wf (setActive a0
    a1 a2 s).mem.bytes = true :=
  Only.memOk (W := [.flt]) (by simp) (by decide) h

@[simp] theorem unsetActive_mem (a0) (a1) (s : State) (h : Memory.wf s.mem.bytes = true) : Memory.wf (unsetActive a0
    a1 s).mem.bytes = true :=
  Only.memOk (W := [.flt]) (by simp) (by decide) h

@[simp] theorem noteRaise_mem (a0) (a1) (a2) (s : State) (h : Memory.wf s.mem.bytes = true) : Memory.wf (noteRaise a0
    a1 a2 s).mem.bytes = true :=
  Only.memOk (W := [.flt, .weft]) (by simp) (by decide) h

@[simp] theorem writeQueued_mem (a0) (s : State) (h : Memory.wf s.mem.bytes = true) : Memory.wf (writeQueued a0
    s).mem.bytes = true :=
  Only.memOk (W := [.flt]) (by simp) (by decide) h

@[simp] theorem handle_mem (a0) (s : State) (h : Memory.wf s.mem.bytes = true) : Memory.wf (handle a0 s).mem.bytes =
    true :=
  Only.memOk (W := [.flt, .status, .net, .sv, .disc, .bea]) (by simp) (by decide) h

@[simp] theorem submit_mem (a0) (s : State) (h : Memory.wf s.mem.bytes = true) : Memory.wf (submit a0 s).mem.bytes =
    true :=
  Only.memOk (W := [.flt, .status, .net, .sv, .disc, .bea]) (by simp) (by decide) h

@[simp] theorem serveQueue_mem (s : State) (h : Memory.wf s.mem.bytes = true) : Memory.wf (serveQueue s).mem.bytes =
    true :=
  Only.memOk (W := [.flt, .status, .net, .sv, .disc, .weft, .bea]) (by simp) (by decide) h

@[simp] theorem onOutputs_mem (a0) (s : State) (h : Memory.wf s.mem.bytes = true) : Memory.wf (onOutputs a0
    s).mem.bytes = true :=
  Only.memOk (W := [.aud]) (by simp) (by decide) h

@[simp] theorem muteAll_mem (a0) (a1) (s : State) (h : Memory.wf s.mem.bytes = true) : Memory.wf (muteAll a0 a1
    s).mem.bytes = true :=
  Only.memOk (W := [.aud]) (by simp) (by decide) h

@[simp] theorem unmuteAll_mem (a0) (a1) (s : State) (h : Memory.wf s.mem.bytes = true) : Memory.wf (unmuteAll a0 a1
    s).mem.bytes = true :=
  Only.memOk (W := [.aud]) (by simp) (by decide) h

@[simp] theorem endSuite_mem (s : State) (h : Memory.wf s.mem.bytes = true) : Memory.wf (endSuite s).mem.bytes = true
    :=
  Only.memOk (W := [.test, .status, .net]) (by simp) (by decide) h

@[simp] theorem abortSuite_mem (s : State) (h : Memory.wf s.mem.bytes = true) : Memory.wf (abortSuite s).mem.bytes =
    true :=
  Only.memOk (W := [.test]) (by simp) (by decide) h

@[simp] theorem abortVisible_mem (s : State) (h : Memory.wf s.mem.bytes = true) : Memory.wf (abortVisible s).mem.bytes
    = true :=
  Only.memOk (W := [.test, .status, .net, .aud]) (by simp) (by decide) h

@[simp] theorem abortTests_mem (s : State) (h : Memory.wf s.mem.bytes = true) : Memory.wf (abortTests s).mem.bytes =
    true :=
  Only.memOk (W := [.test, .status, .net, .aud]) (by simp) (by decide) h

@[simp] theorem enterSafe_mem (s : State) (h : Memory.wf s.mem.bytes = true) : Memory.wf (enterSafe s).mem.bytes =
    true :=
  Only.memOk (W := [.test, .status, .net, .aud]) (by simp) (by decide) h

@[simp] theorem ledgerStop_mem (s : State) (h : Memory.wf s.mem.bytes = true) : Memory.wf (ledgerStop s).mem.bytes =
    true :=
  Only.memOk (W := [.ldg, .weft]) (by simp) (by decide) h

@[simp] theorem stopClock_mem (s : State) (h : Memory.wf s.mem.bytes = true) : Memory.wf (stopClock s).mem.bytes =
    true :=
  Only.memOk (W := [.pwr, .clk, .test, .status, .net, .aud]) (by simp) (by decide) h

@[simp] theorem clearCore_mem (s : State) (h : Memory.wf s.mem.bytes = true) : Memory.wf (clearCore s).mem.bytes =
    true := by
  unfold clearCore
  (try simp [h]) <;> (repeat' split) <;> simp_all (maxDischargeDepth := 99)

@[simp] theorem loseCore_mem (s : State) (h : Memory.wf s.mem.bytes = true) : Memory.wf (loseCore s).mem.bytes = true
    := by
  unfold loseCore
  (try simp [h]) <;> (repeat' split) <;> simp_all (maxDischargeDepth := 99)

@[simp] theorem enterSafeHold_mem (s : State) (h : Memory.wf s.mem.bytes = true) : Memory.wf (enterSafeHold
    s).mem.bytes = true :=
  Only.memOk (W := [.pwr, .clk, .test, .flt, .holds, .status, .net, .aud]) (by simp) (by decide) h

@[simp] theorem s3Safe_mem (s : State) (h : Memory.wf s.mem.bytes = true) : Memory.wf (s3Safe s).mem.bytes = true :=
  Only.memOk (W := [.boot, .test, .flt, .holds, .ldg, .status, .net, .weft, .aud]) (by simp) (by decide) h

@[simp] theorem beginHold_mem (a0) (s : State) (h : Memory.wf s.mem.bytes = true) : Memory.wf (beginHold a0
    s).mem.bytes = true :=
  Only.memOk (W := [.pwr, .clk, .test, .flt, .holds, .status, .net, .aud]) (by simp) (by decide) h

@[simp] theorem s3Action_mem (a0) (s : State) (h : Memory.wf s.mem.bytes = true) : Memory.wf (s3Action a0 s).mem.bytes
    = true := by
  unfold s3Action
  split <;> simp [h]

@[simp] theorem handleS3_mem (a0) (a1) (s : State) (h : Memory.wf s.mem.bytes = true) : Memory.wf (handleS3 a0 a1
    s).mem.bytes = true := by
  unfold handleS3
  (try simp [h]) <;> (repeat' split) <;> simp_all (maxDischargeDepth := 99)

@[simp] theorem takeOver_mem (a0) (s : State) (h : Memory.wf s.mem.bytes = true) : Memory.wf (takeOver a0 s).mem.bytes
    = true := by
  simp [takeOver, h]

@[simp] theorem raiseS3_mem (a0) (a1) (s : State) (h : Memory.wf s.mem.bytes = true) : Memory.wf (raiseS3 a0 a1
    s).mem.bytes = true := by
  unfold raiseS3
  (repeat' split) <;> simp (maxDischargeDepth := 99) [h]

@[simp] theorem raise_mem (a0) (a1) (s : State) (h : Memory.wf s.mem.bytes = true) : Memory.wf (raise a0 a1
    s).mem.bytes = true := by
  unfold raise
  (try simp [h]) <;> (repeat' split) <;> simp_all (maxDischargeDepth := 99)

@[simp] theorem clearKey_mem (a0) (a1) (s : State) (h : Memory.wf s.mem.bytes = true) : Memory.wf (clearKey a0 a1
    s).mem.bytes = true :=
  Only.memOk (W := [.flt, .status, .net, .sv, .disc, .bea]) (by simp) (by decide) h

@[simp] theorem clearFault_mem (a0) (a1) (s : State) (h : Memory.wf s.mem.bytes = true) : Memory.wf (clearFault a0 a1
    s).mem.bytes = true :=
  Only.memOk (W := [.flt, .status, .net, .sv, .disc, .bea]) (by simp) (by decide) h

@[simp] theorem clearAll_mem (a0) (s : State) (h : Memory.wf s.mem.bytes = true) : Memory.wf (clearAll a0 s).mem.bytes
    = true :=
  Only.memOk (W := [.flt, .status, .net, .sv, .disc, .bea]) (by simp) (by decide) h

@[simp] theorem raiseLimited_mem (a0) (a1) (a2) (a3) (s : State) (h : Memory.wf s.mem.bytes = true) : Memory.wf
    (raiseLimited a0 a1 a2 a3 s).mem.bytes = true := by
  unfold raiseLimited
  (repeat' split) <;> simp [h]

@[simp] theorem raiseDirect_mem (a0) (a1) (s : State) (h : Memory.wf s.mem.bytes = true) : Memory.wf (raiseDirect a0
    a1 s).mem.bytes = true :=
  Only.memOk (W := [.flt, .weft]) (by simp) (by decide) h

@[simp] theorem flushQueue_mem (s : State) (h : Memory.wf s.mem.bytes = true) : Memory.wf (flushQueue s).mem.bytes =
    true :=
  Only.memOk (W := [.flt]) (by simp) (by decide) h

@[simp] theorem endActive_mem (s : State) (h : Memory.wf s.mem.bytes = true) : Memory.wf (endActive s).mem.bytes =
    true :=
  Only.memOk (W := [.flt]) (by simp) (by decide) h

@[simp] theorem setBank_mem (a0) (a1) (s : State) (h : Memory.wf s.mem.bytes = true) : Memory.wf (setBank a0 a1
    s).mem.bytes = true :=
  Only.memOk (W := [.pwr]) (by simp) (by decide) h

@[simp] theorem measureBank_mem (a0) (a1) (s : State) (h : Memory.wf s.mem.bytes = true) : Memory.wf (measureBank a0
    a1 s).mem.bytes = true :=
  Only.memOk (W := [.pwr, .flt, .status, .net, .sv, .disc, .weft, .bea]) (by simp) (by decide) h

@[simp] theorem measureBanks_mem (a0) (s : State) (h : Memory.wf s.mem.bytes = true) : Memory.wf (measureBanks a0
    s).mem.bytes = true :=
  Only.memOk (W := [.pwr, .flt, .status, .net, .sv, .disc, .weft, .bea]) (by simp) (by decide) h

@[simp] theorem settlePower_mem (s : State) (h : Memory.wf s.mem.bytes = true) : Memory.wf (settlePower s).mem.bytes =
    true :=
  Only.memOk (W := [.flt, .status, .net, .sv, .disc, .bea]) (by simp) (by decide) h

@[simp] theorem verifyPair_mem (a0) (s : State) (h : Memory.wf s.mem.bytes = true) : Memory.wf (verifyPair a0
    s).mem.bytes = true :=
  Only.memOk (W := [.flt, .status, .net, .sv, .disc, .weft, .bea]) (by simp) (by decide) h

@[simp] theorem readPhase_mem (s : State) (h : Memory.wf s.mem.bytes = true) : Memory.wf (readPhase s).mem.bytes =
    true :=
  Only.memOk (W := [.keys, .lifecycle, .flt, .status, .net, .sv, .disc, .weft, .bea]) (by simp) (by decide) h

@[simp] theorem readFuses_mem (s : State) (h : Memory.wf s.mem.bytes = true) : Memory.wf (readFuses s).mem.bytes =
    true :=
Only.memOk (W := [.boot, .otp, .keys, .lifecycle, .flt, .status, .net, .sv, .disc, .weft, .bea]) (by simp) (by decide)
    h

@[simp] theorem aonLost_mem (s : State) (h : Memory.wf s.mem.bytes = true) : Memory.wf (aonLost s).mem.bytes = true := by
  unfold aonLost
  (try simp [h]) <;> (repeat' split) <;> simp_all (maxDischargeDepth := 99)

@[simp] theorem resetD0_mem (s : State) (h : Memory.wf s.mem.bytes = true) : Memory.wf (resetD0 s).mem.bytes = true :=
Only.memOk (W := [.pins, .straps, .live, .pwr, .standby, .clk, .keys, .lifecycle, .flt, .holds, .status, .net, .mark,
    .bob]) (by simp) (by decide) h

@[simp] theorem leaveStandby_mem (s : State) (h : Memory.wf s.mem.bytes = true) : Memory.wf (leaveStandby s).mem.bytes
    = true :=
  Only.memOk (W := [.standby]) (by simp) (by decide) h

@[simp] theorem reraiseKept_mem (a0) (s : State) (h : Memory.wf s.mem.bytes = true) : Memory.wf (reraiseKept a0
    s).mem.bytes = true :=
  Only.memOk (W := [.flt, .status, .net, .sv, .disc, .weft, .bea]) (by simp) (by decide) h

@[simp] theorem sampleTestEn_mem (a0) (s : State) (h : Memory.wf s.mem.bytes = true) : Memory.wf (sampleTestEn a0
    s).mem.bytes = true :=
  Only.memOk (W := [.pins, .keys, .lifecycle]) (by simp) (by decide) h

@[simp] theorem forgetModules_mem (a0) (s : State) (h : Memory.wf s.mem.bytes = true) : Memory.wf (forgetModules a0
    s).mem.bytes = true :=
  Only.memOk (W := [.net]) (by simp) (by decide) h

@[simp] theorem beginBringUp_mem (a0) (a1) (a2) (s : State) (h : Memory.wf s.mem.bytes = true) : Memory.wf
    (beginBringUp a0 a1 a2 s).mem.bytes = true := by
  unfold beginBringUp
  (repeat' split) <;> simp (maxDischargeDepth := 99) [h]

@[simp] theorem reportProgress_mem (s : State) (h : Memory.wf s.mem.bytes = true) : Memory.wf (reportProgress
    s).mem.bytes = true :=
  Only.memOk (W := [.boot]) (by simp) (by decide) h

@[simp] theorem endSafe_mem (s : State) (h : Memory.wf s.mem.bytes = true) : Memory.wf (endSafe s).mem.bytes = true :=
  Only.memOk (W := [.flt, .holds, .aud]) (by simp) (by decide) h

theorem execAonOn_mem (a0) (a1) (s t : State) (h : execAonOn a0 a1 s = .next t) (hm : Memory.wf s.mem.bytes = true) :
    Memory.wf t.mem.bytes = true := by
  revert t h
  show MemOut _
  unfold execAonOn
  first
    | ((repeat' split) <;> (simp [hm]; done))
    | ((repeat' split) <;> (simp_all (maxDischargeDepth := 99); done))
    | ((try dsimp only) <;> (repeat' split) <;> (simp_all (maxDischargeDepth := 99); done))

theorem execAonOff_mem (s t : State) (h : execAonOff s = .next t) (hm : Memory.wf s.mem.bytes = true) : Memory.wf
    t.mem.bytes = true := by
  revert t h
  show MemOut _
  unfold execAonOff
  first
    | ((repeat' split) <;> (simp [hm]; done))
    | ((repeat' split) <;> (simp_all (maxDischargeDepth := 99); done))
    | ((try dsimp only) <;> (repeat' split) <;> (simp_all (maxDischargeDepth := 99); done))

@[simp] theorem abortFuse_mem (a0) (s : State) (h : Memory.wf s.mem.bytes = true) : Memory.wf (abortFuse a0
    s).mem.bytes = true :=
  Only.memOk (W := [.otp, .fuse, .keys, .lifecycle]) (by simp) (by decide) h

@[simp] theorem brownout_mem (a0) (a1) (s : State) (h : Memory.wf s.mem.bytes = true) : Memory.wf (brownout a0 a1
    s).mem.bytes = true := by
  unfold brownout
  (try simp [h]) <;> (repeat' split) <;> simp_all (maxDischargeDepth := 99)

theorem execVinBrownout_mem (a0) (s t : State) (h : execVinBrownout a0 s = .next t) (hm : Memory.wf s.mem.bytes =
    true) : Memory.wf t.mem.bytes = true := by
  revert t h
  show MemOut _
  unfold execVinBrownout
  first
    | ((repeat' split) <;> (simp [hm]; done))
    | ((repeat' split) <;> (simp_all (maxDischargeDepth := 99); done))
    | ((try dsimp only) <;> (repeat' split) <;> (simp_all (maxDischargeDepth := 99); done))

@[simp] theorem checkBrownout_mem (a0) (s : State) (h : Memory.wf s.mem.bytes = true) : Memory.wf (checkBrownout a0
    s).mem.bytes = true := by
  simp [checkBrownout, h]

theorem execRailBrownout_mem (a0) (a1) (s t : State) (h : execRailBrownout a0 a1 s = .next t) (hm : Memory.wf
    s.mem.bytes = true) : Memory.wf t.mem.bytes = true := by
  revert t h
  show MemOut _
  unfold execRailBrownout
  first
    | ((repeat' split) <;> (simp [hm]; done))
    | ((repeat' split) <;> (simp_all (maxDischargeDepth := 99); done))
    | ((try dsimp only) <;> (repeat' split) <;> (simp_all (maxDischargeDepth := 99); done))

theorem execStandbyBrownout_mem (s t : State) (h : execStandbyBrownout s = .next t) (hm : Memory.wf s.mem.bytes =
    true) : Memory.wf t.mem.bytes = true := by
  revert t h
  show MemOut _
  unfold execStandbyBrownout
  first
    | ((repeat' split) <;> (simp [hm]; done))
    | ((repeat' split) <;> (simp_all (maxDischargeDepth := 99); done))
    | ((try dsimp only) <;> (repeat' split) <;> (simp_all (maxDischargeDepth := 99); done))

@[simp] theorem s3Restart_mem (a0) (a1) (s : State) (h : Memory.wf s.mem.bytes = true) : Memory.wf (s3Restart a0 a1
    s).mem.bytes = true := by
  unfold s3Restart
  split <;> simp [h]

theorem execBrownoutRestart_mem (a0) (s t : State) (h : execBrownoutRestart a0 s = .next t) (hm : Memory.wf
    s.mem.bytes = true) : Memory.wf t.mem.bytes = true := by
  revert t h
  show MemOut _
  unfold execBrownoutRestart
  first
    | ((repeat' split) <;> (simp [hm]; done))
    | ((repeat' split) <;> (simp_all (maxDischargeDepth := 99); done))
    | ((try dsimp only) <;> (repeat' split) <;> (simp_all (maxDischargeDepth := 99); done))

@[simp] theorem completePair_mem (s : State) (h : Memory.wf s.mem.bytes = true) : Memory.wf (completePair s).mem.bytes
    = true :=
  Only.memOk (W := [.otp, .fuse, .keys, .lifecycle]) (by simp) (by decide) h

theorem execResetNAssert_mem (s t : State) (h : execResetNAssert s = .next t) (hm : Memory.wf s.mem.bytes = true) :
    Memory.wf t.mem.bytes = true := by
  revert t h
  show MemOut _
  unfold execResetNAssert
  first
    | ((repeat' split) <;> (simp [hm]; done))
    | ((repeat' split) <;> (simp_all (maxDischargeDepth := 99); done))
    | ((try dsimp only) <;> (repeat' split) <;> (simp_all (maxDischargeDepth := 99); done))

theorem execResetNRelease_mem (a0) (a1) (s t : State) (h : execResetNRelease a0 a1 s = .next t) (hm : Memory.wf
    s.mem.bytes = true) : Memory.wf t.mem.bytes = true := by
  revert t h
  show MemOut _
  unfold execResetNRelease
  first
    | ((repeat' split) <;> (simp [hm]; done))
    | ((repeat' split) <;> (simp_all (maxDischargeDepth := 99); done))
    | ((try dsimp only) <;> (repeat' split) <;> (simp_all (maxDischargeDepth := 99); done))

@[simp] theorem bankWaits_mem (a0) (a1) (a2) (s : State) (h : Memory.wf s.mem.bytes = true) : Memory.wf (bankWaits a0
    a1 a2 s).1.mem.bytes = true :=
  Only.memOk (W := [.pwr]) (by simp) (by decide) h

@[simp] theorem recensusAll_mem (s : State) (h : Memory.wf s.mem.bytes = true) : Memory.wf (recensusAll s).mem.bytes =
    true :=
  Only.memOk (W := [.weft]) (by simp) (by decide) h

@[simp] theorem startSwitch_mem (a0) (s : State) (h : Memory.wf s.mem.bytes = true) : Memory.wf (startSwitch a0
    s).mem.bytes = true :=
  Only.memOk (W := [.pwr, .clk, .boot]) (by simp) (by decide) h

@[simp] theorem abandonTests_mem (a0) (s : State) (h : Memory.wf s.mem.bytes = true) : Memory.wf (abandonTests a0
    s).mem.bytes = true :=
  Only.memOk (W := [.test, .weft]) (by simp) (by decide) h

@[simp] theorem trackGating_mem (s : State) (h : Memory.wf s.mem.bytes = true) : Memory.wf (trackGating s).mem.bytes =
    true :=
  Only.memOk (W := [.pwr]) (by simp) (by decide) h

@[simp] theorem setVcore_mem (a0) (s : State) (h : Memory.wf s.mem.bytes = true) : Memory.wf (setVcore a0 s).mem.bytes
    = true :=
  Only.memOk (W := [.pwr]) (by simp) (by decide) h

@[simp] theorem moveRail_mem (s : State) (h : Memory.wf s.mem.bytes = true) : Memory.wf (moveRail s).mem.bytes = true
    :=
  Only.memOk (W := [.pwr]) (by simp) (by decide) h

@[simp] theorem ageFault_mem (a0) (a1) (a2) (s : State) (h : Memory.wf s.mem.bytes = true) : Memory.wf (ageFault a0 a1
    a2 s).mem.bytes = true :=
  Only.memOk (W := [.flt, .status, .net, .sv, .disc, .weft, .bea]) (by simp) (by decide) h

@[simp] theorem xtalFault_mem (a0) (s : State) (h : Memory.wf s.mem.bytes = true) : Memory.wf (xtalFault a0
    s).mem.bytes = true := by
  simp [xtalFault, h]

@[simp] theorem powerD1D2_mem (s : State) (h : Memory.wf s.mem.bytes = true) : Memory.wf (powerD1D2 s).mem.bytes =
    true :=
  Only.memOk (W := [.pwr, .clk, .boot]) (by simp) (by decide) h

theorem execD1d2SwitchOn_mem (a0) (s t : State) (h : execD1d2SwitchOn a0 s = .next t) (hm : Memory.wf s.mem.bytes =
    true) : Memory.wf t.mem.bytes = true := by
  revert t h
  show MemOut _
  unfold execD1d2SwitchOn
  first
    | ((repeat' split) <;> (simp [hm]; done))
    | ((repeat' split) <;> (simp_all (maxDischargeDepth := 99); done))
    | ((try dsimp only) <;> (repeat' split) <;> (simp_all (maxDischargeDepth := 99); done))

@[simp] theorem startSweep_mem (s : State) (h : Memory.wf s.mem.bytes = true) : Memory.wf (startSweep s).mem.bytes =
    true :=
  Only.memOk (W := [.clk]) (by simp) (by decide) h

@[simp] theorem unlockFault_mem (a0) (s : State) (h : Memory.wf s.mem.bytes = true) : Memory.wf (unlockFault a0
    s).mem.bytes = true := by
  simp [unlockFault, h]

theorem execMdllLossOfLock_mem (a0) (s t : State) (h : execMdllLossOfLock a0 s = .next t) (hm : Memory.wf s.mem.bytes
    = true) : Memory.wf t.mem.bytes = true := by
  revert t h
  show MemOut _
  unfold execMdllLossOfLock
  first
    | ((repeat' split) <;> (simp [hm]; done))
    | ((repeat' split) <;> (simp_all (maxDischargeDepth := 99); done))
    | ((try dsimp only) <;> (repeat' split) <;> (simp_all (maxDischargeDepth := 99); done))

theorem execMdllLockTimeout_mem (a0) (s t : State) (h : execMdllLockTimeout a0 s = .next t) (hm : Memory.wf
    s.mem.bytes = true) : Memory.wf t.mem.bytes = true := by
  revert t h
  show MemOut _
  unfold execMdllLockTimeout
  first
    | ((repeat' split) <;> (simp [hm]; done))
    | ((repeat' split) <;> (simp_all (maxDischargeDepth := 99); done))
    | ((try dsimp only) <;> (repeat' split) <;> (simp_all (maxDischargeDepth := 99); done))

theorem execReferenceEdgeMissing_mem (s t : State) (h : execReferenceEdgeMissing s = .next t) (hm : Memory.wf
    s.mem.bytes = true) : Memory.wf t.mem.bytes = true := by
  revert t h
  show MemOut _
  unfold execReferenceEdgeMissing
  first
    | ((repeat' split) <;> (simp [hm]; done))
    | ((repeat' split) <;> (simp_all (maxDischargeDepth := 99); done))
    | ((try dsimp only) <;> (repeat' split) <;> (simp_all (maxDischargeDepth := 99); done))

@[simp] theorem useSlowCrystal_mem (s : State) (h : Memory.wf s.mem.bytes = true) : Memory.wf (useSlowCrystal
    s).mem.bytes = true :=
  Only.memOk (W := [.clk, .flt, .status, .net, .sv, .disc, .bea]) (by simp) (by decide) h

@[simp] theorem takeCrystal_mem (s : State) (h : Memory.wf s.mem.bytes = true) : Memory.wf (takeCrystal s).mem.bytes =
    true :=
  Only.memOk (W := [.clk, .flt, .status, .net, .sv, .disc, .bea]) (by simp) (by decide) h

@[simp] theorem substituteSlow_mem (s : State) (h : Memory.wf s.mem.bytes = true) : Memory.wf (substituteSlow
    s).mem.bytes = true :=
  Only.memOk (W := [.clk]) (by simp) (by decide) h

@[simp] theorem takeOscillator_mem (a0) (s : State) (h : Memory.wf s.mem.bytes = true) : Memory.wf (takeOscillator a0
    s).mem.bytes = true :=
  Only.memOk (W := [.clk, .flt, .status, .net, .sv, .disc, .weft, .bea]) (by simp) (by decide) h

@[simp] theorem settleSlow_mem (s : State) (h : Memory.wf s.mem.bytes = true) : Memory.wf (settleSlow s).mem.bytes =
    true :=
  Only.memOk (W := [.clk, .flt, .status, .net, .sv, .disc, .weft, .bea]) (by simp) (by decide) h

@[simp] theorem settleAfterPair_mem (s : State) (h : Memory.wf s.mem.bytes = true) : Memory.wf (settleAfterPair
    s).mem.bytes = true :=
  Only.memOk (W := [.clk, .flt, .status, .net, .sv, .disc, .weft, .bea]) (by simp) (by decide) h

@[simp] theorem settleSlowDue_mem (s : State) (h : Memory.wf s.mem.bytes = true) : Memory.wf (settleSlowDue
    s).mem.bytes = true :=
  Only.memOk (W := [.clk, .flt, .status, .net, .sv, .disc, .weft, .bea]) (by simp) (by decide) h

@[simp] theorem wake_mem (a0) (s : State) (h : Memory.wf s.mem.bytes = true) : Memory.wf (wake a0 s).mem.bytes = true
    := by
  simp [wake, h]

theorem execStandbySlowCrystalStop_mem (a0) (s t : State) (h : execStandbySlowCrystalStop a0 s = .next t) (hm :
    Memory.wf s.mem.bytes = true) : Memory.wf t.mem.bytes = true := by
  revert t h
  show MemOut _
  unfold execStandbySlowCrystalStop
  first
    | ((repeat' split) <;> (simp [hm]; done))
    | ((repeat' split) <;> (simp_all (maxDischargeDepth := 99); done))
    | ((try dsimp only) <;> (repeat' split) <;> (simp_all (maxDischargeDepth := 99); done))

theorem execSeqWatchdogExpiry_mem (s t : State) (h : execSeqWatchdogExpiry s = .next t) (hm : Memory.wf s.mem.bytes =
    true) : Memory.wf t.mem.bytes = true := by
  revert t h
  show MemOut _
  unfold execSeqWatchdogExpiry
  first
    | ((repeat' split) <;> (simp [hm]; done))
    | ((repeat' split) <;> (simp_all (maxDischargeDepth := 99); done))
    | ((try dsimp only) <;> (repeat' split) <;> (simp_all (maxDischargeDepth := 99); done))

@[simp] theorem startLedger_mem (a0) (s : State) (h : Memory.wf s.mem.bytes = true) : Memory.wf (startLedger a0
    s).mem.bytes = true :=
  Only.memOk (W := [.ldg]) (by simp) (by decide) h

@[simp] theorem nextLedger_mem (s : State) (h : Memory.wf s.mem.bytes = true) : Memory.wf (nextLedger s).mem.bytes =
    true :=
  Only.memOk (W := [.ldg]) (by simp) (by decide) h

@[simp] theorem startMirror_mem (a0) (s : State) (h : Memory.wf s.mem.bytes = true) : Memory.wf (startMirror a0
    s).mem.bytes = true :=
  Only.memOk (W := [.ldg]) (by simp) (by decide) h

@[simp] theorem finishMirror_mem (s : State) (h : Memory.wf s.mem.bytes = true) : Memory.wf (finishMirror s).mem.bytes
    = true :=
  Only.memOk (W := [.flt, .ldg]) (by simp) (by decide) h

@[simp] theorem startFlush_mem (s : State) (h : Memory.wf s.mem.bytes = true) : Memory.wf (startFlush s).mem.bytes =
    true :=
  Only.memOk (W := [.ldg, .weft]) (by simp) (by decide) h

@[simp] theorem finishFlush_mem (s : State) (h : Memory.wf s.mem.bytes = true) : Memory.wf (finishFlush s).mem.bytes =
    true :=
  Only.memOk (W := [.ldg, .weft]) (by simp) (by decide) h

@[simp] theorem noteIdentity_mem (s : State) (h : Memory.wf s.mem.bytes = true) : Memory.wf (noteIdentity s).mem.bytes
    = true :=
  Only.memOk (W := [.ldg]) (by simp) (by decide) h

@[simp] theorem noteCensus_mem (s : State) (h : Memory.wf s.mem.bytes = true) : Memory.wf (noteCensus s).mem.bytes =
    true :=
  Only.memOk (W := [.ldg]) (by simp) (by decide) h

@[simp] theorem setSeq_mem (a0) (s : State) (h : Memory.wf s.mem.bytes = true) : Memory.wf (setSeq a0 s).mem.bytes =
    true :=
  Only.memOk (W := [.keys, .lifecycle]) (by simp) (by decide) h

@[simp] theorem noSeq_mem (s : State) (h : Memory.wf s.mem.bytes = true) : Memory.wf (noSeq s).mem.bytes = true :=
  Only.memOk (W := [.keys, .lifecycle]) (by simp) (by decide) h

@[simp] theorem markHot_mem (a0) (s : State) (h : Memory.wf s.mem.bytes = true) : Memory.wf (markHot a0 s).mem.bytes =
    true :=
  Only.memOk (W := [.keys, .lifecycle]) (by simp) (by decide) h

@[simp] theorem decideOutcome_mem (a0) (s : State) (h : Memory.wf s.mem.bytes = true) : Memory.wf (decideOutcome a0
    s).mem.bytes = true :=
  Only.memOk (W := [.dlg]) (by simp) (by decide) h

@[simp] theorem refuseOrder_mem (a0) (s : State) (h : Memory.wf s.mem.bytes = true) : Memory.wf (refuseOrder a0
    s).mem.bytes = true :=
  Only.memOk (W := [.flt, .status, .net, .sv, .disc, .weft, .bea, .dlg]) (by simp) (by decide) h

@[simp] theorem reportSlots_mem (s : State) (h : Memory.wf s.mem.bytes = true) : Memory.wf (reportSlots s).mem.bytes =
    true :=
  Only.memOk (W := [.flt, .status, .net, .sv, .disc, .weft, .bea]) (by simp) (by decide) h

@[simp] theorem dropOrder_mem (a0) (s : State) (h : Memory.wf s.mem.bytes = true) : Memory.wf (dropOrder a0
    s).mem.bytes = true :=
  Only.memOk (W := [.keys, .lifecycle]) (by simp) (by decide) h

@[simp] theorem beginIntent_mem (a0) (s : State) (h : Memory.wf s.mem.bytes = true) : Memory.wf (beginIntent a0
    s).mem.bytes = true :=
  Only.memOk (W := [.keys, .lifecycle, .flt, .status, .net, .sv, .disc, .weft, .bea, .dlg]) (by simp) (by decide) h

@[simp] theorem endStaging_mem (a0) (s : State) (h : Memory.wf s.mem.bytes = true) : Memory.wf (endStaging a0
    s).mem.bytes = true :=
  Only.memOk (W := [.keys, .lifecycle, .flt, .status, .net, .sv, .disc, .weft, .bea, .dlg]) (by simp) (by decide) h

@[simp] theorem afterFlush_mem (a0) (s : State) (h : Memory.wf s.mem.bytes = true) : Memory.wf (afterFlush a0
    s).mem.bytes = true :=
  Only.memOk (W := [.keys, .lifecycle, .flt, .status, .net, .sv, .disc, .weft, .bea, .dlg]) (by simp) (by decide) h

@[simp] theorem carriedOut_mem (a0) (s : State) (h : Memory.wf s.mem.bytes = true) : Memory.wf (carriedOut a0
    s).mem.bytes = true :=
  Only.memOk (W := [.keys, .lifecycle, .dlg]) (by simp) (by decide) h

@[simp] theorem destroyOldSlot_mem (a0) (a1) (s : State) (h : Memory.wf s.mem.bytes = true) : Memory.wf
    (destroyOldSlot a0 a1 s).mem.bytes = true :=
  Only.memOk (W := [.keys, .lifecycle]) (by simp) (by decide) h

@[simp] theorem beginRetag_mem (a0) (a1) (s : State) (h : Memory.wf s.mem.bytes = true) : Memory.wf (beginRetag a0 a1
    s).mem.bytes = true :=
  Only.memOk (W := [.keys, .lifecycle, .ldg]) (by simp) (by decide) h

@[simp] theorem nextStage_mem (a0) (s : State) (h : Memory.wf s.mem.bytes = true) : Memory.wf (nextStage a0
    s).mem.bytes = true :=
Only.memOk (W := [.keys, .lifecycle, .flt, .ldg, .status, .net, .sv, .disc, .weft, .bea, .dlg]) (by simp) (by decide)
    h

@[simp] theorem ledgerFreed_mem (s : State) (h : Memory.wf s.mem.bytes = true) : Memory.wf (ledgerFreed s).mem.bytes =
    true :=
Only.memOk (W := [.keys, .lifecycle, .flt, .ldg, .status, .net, .sv, .disc, .weft, .bea, .dlg]) (by simp) (by decide)
    h

@[simp] theorem startTransition_mem (a0) (a1) (s : State) (h : Memory.wf s.mem.bytes = true) : Memory.wf
    (startTransition a0 a1 s).mem.bytes = true :=
Only.memOk (W := [.keys, .lifecycle, .flt, .ldg, .status, .net, .sv, .disc, .weft, .bea, .dlg]) (by simp) (by decide)
    h

@[simp] theorem startRotation_mem (a0) (a1) (a2) (s : State) (h : Memory.wf s.mem.bytes = true) : Memory.wf
    (startRotation a0 a1 a2 s).mem.bytes = true :=
  Only.memOk (W := [.keys, .lifecycle, .flt, .status, .net, .sv, .disc, .weft, .bea, .dlg]) (by simp) (by decide) h

@[simp] theorem burnPair_mem (a0) (a1) (s : State) (h : Memory.wf s.mem.bytes = true) : Memory.wf (burnPair a0 a1
    s).mem.bytes = true :=
  Only.memOk (W := [.otp, .fuse]) (by simp) (by decide) h

@[simp] theorem retagLog_mem (s : State) (h : Memory.wf s.mem.bytes = true) : Memory.wf (retagLog s).mem.bytes = true
    :=
  Only.memOk (W := [.ldg]) (by simp) (by decide) h

@[simp] theorem abandonOrder_mem (s : State) (h : Memory.wf s.mem.bytes = true) : Memory.wf (abandonOrder s).mem.bytes
    = true :=
  Only.memOk (W := [.keys, .lifecycle]) (by simp) (by decide) h

@[simp] theorem endCard_mem (s : State) (h : Memory.wf s.mem.bytes = true) : Memory.wf (endCard s).mem.bytes = true :=
  Only.memOk (W := [.keys, .lifecycle, .card, .dlg]) (by simp) (by decide) h

theorem execFaultRaise_mem (a0) (a1) (s t : State) (h : execFaultRaise a0 a1 s = .next t) (hm : Memory.wf s.mem.bytes
    = true) : Memory.wf t.mem.bytes = true := by
  revert t h
  show MemOut _
  unfold execFaultRaise
  first
    | ((repeat' split) <;> (simp [hm]; done))
    | ((repeat' split) <;> (simp_all (maxDischargeDepth := 99); done))
    | ((try dsimp only) <;> (repeat' split) <;> (simp_all (maxDischargeDepth := 99); done))

theorem execHandlerTimeout_mem (a0) (s t : State) (h : execHandlerTimeout a0 s = .next t) (hm : Memory.wf s.mem.bytes
    = true) : Memory.wf t.mem.bytes = true := by
  revert t h
  show MemOut _
  unfold execHandlerTimeout
  first
    | ((repeat' split) <;> (simp [hm]; done))
    | ((repeat' split) <;> (simp_all (maxDischargeDepth := 99); done))
    | ((try dsimp only) <;> (repeat' split) <;> (simp_all (maxDischargeDepth := 99); done))

theorem execS3HoldoffEnd_mem (a0) (s t : State) (h : execS3HoldoffEnd a0 s = .next t) (hm : Memory.wf s.mem.bytes =
    true) : Memory.wf t.mem.bytes = true := by
  revert t h
  show MemOut _
  unfold execS3HoldoffEnd
  first
    | ((repeat' split) <;> (simp [hm]; done))
    | ((repeat' split) <;> (simp_all (maxDischargeDepth := 99); done))
    | ((try dsimp only) <;> (repeat' split) <;> (simp_all (maxDischargeDepth := 99); done))

@[simp] theorem readingFaults_mem (s : State) (h : Memory.wf s.mem.bytes = true) : Memory.wf (readingFaults
    s).mem.bytes = true :=
  Only.memOk (W := [.straps, .flt, .status, .net, .sv, .disc, .weft, .bea]) (by simp) (by decide) h

@[simp] theorem setUse_mem (a0) (a1) (s : State) (h : Memory.wf s.mem.bytes = true) : Memory.wf (setUse a0 a1
    s).mem.bytes = true :=
  Only.memOk (W := [.straps]) (by simp) (by decide) h

@[simp] theorem resolveRow_mem (a0) (s : State) (h : Memory.wf s.mem.bytes = true) : Memory.wf (resolveRow a0
    s).mem.bytes = true :=
  Only.memOk (W := [.straps]) (by simp) (by decide) h

@[simp] theorem resolveConflicts_mem (s : State) (h : Memory.wf s.mem.bytes = true) : Memory.wf (resolveConflicts
    s).mem.bytes = true :=
  Only.memOk (W := [.straps, .flt, .status, .net, .sv, .disc, .weft, .bea]) (by simp) (by decide) h

@[simp] theorem showLive_mem (a0) (a1) (s : State) (h : Memory.wf s.mem.bytes = true) : Memory.wf (showLive a0 a1
    s).mem.bytes = true :=
  Only.memOk (W := [.straps]) (by simp) (by decide) h

@[simp] theorem startLive_mem (a0) (s : State) (h : Memory.wf s.mem.bytes = true) : Memory.wf (startLive a0
    s).mem.bytes = true :=
  Only.memOk (W := [.straps, .live]) (by simp) (by decide) h

@[simp] theorem lateSweep_mem (a0) (s : State) (h : Memory.wf s.mem.bytes = true) : Memory.wf (lateSweep a0
    s).mem.bytes = true :=
  Only.memOk (W := [.clk]) (by simp) (by decide) h

@[simp] theorem decideFields_mem (a0) (s : State) (h : Memory.wf s.mem.bytes = true) : Memory.wf (decideFields a0
    s).mem.bytes = true :=
  Only.memOk (W := [.straps, .live, .clk, .flt, .status, .net, .sv, .disc, .weft, .bea]) (by simp) (by decide) h

@[simp] theorem settleStraps_mem (s : State) (h : Memory.wf s.mem.bytes = true) : Memory.wf (settleStraps s).mem.bytes
    = true :=
  Only.memOk (W := [.straps, .live, .clk, .flt, .status, .net, .sv, .disc, .weft, .bea]) (by simp) (by decide) h

@[simp] theorem marginalReread_mem (a0) (s : State) (h : Memory.wf s.mem.bytes = true) : Memory.wf (marginalReread a0
    s).mem.bytes = true :=
  Only.memOk (W := [.straps, .flt, .status, .net, .sv, .disc, .weft, .bea]) (by simp) (by decide) h

@[simp] theorem firmReread_mem (a0) (a1) (s : State) (h : Memory.wf s.mem.bytes = true) : Memory.wf (firmReread a0 a1
    s).mem.bytes = true :=
  Only.memOk (W := [.straps]) (by simp) (by decide) h

@[simp] theorem rereadPin_mem (a0) (a1) (s : State) (h : Memory.wf s.mem.bytes = true) : Memory.wf (rereadPin a0 a1
    s).mem.bytes = true :=
  Only.memOk (W := [.straps, .flt, .status, .net, .sv, .disc, .weft, .bea]) (by simp) (by decide) h

@[simp] theorem acceptScene_mem (a0) (s : State) (h : Memory.wf s.mem.bytes = true) : Memory.wf (acceptScene a0
    s).mem.bytes = true :=
  Only.memOk (W := [.straps, .live]) (by simp) (by decide) h

@[simp] theorem readScene_mem (a0) (s : State) (h : Memory.wf s.mem.bytes = true) : Memory.wf (readScene a0
    s).mem.bytes = true :=
  Only.memOk (W := [.straps, .live, .flt, .status, .net, .sv, .disc, .weft, .bea]) (by simp) (by decide) h

@[simp] theorem readBrightPin_mem (a0) (s : State) (h : Memory.wf s.mem.bytes = true) : Memory.wf (readBrightPin a0
    s).mem.bytes = true :=
  Only.memOk (W := [.straps, .live]) (by simp) (by decide) h

@[simp] theorem startSuite_mem (s : State) (h : Memory.wf s.mem.bytes = true) : Memory.wf (startSuite s).mem.bytes =
    true :=
  Only.memOk (W := [.test]) (by simp) (by decide) h

@[simp] theorem startVisible_mem (a0) (s : State) (h : Memory.wf s.mem.bytes = true) : Memory.wf (startVisible a0
    s).mem.bytes = true :=
  Only.memOk (W := [.live, .test]) (by simp) (by decide) h

@[simp] theorem releaseHeld_mem (s : State) (h : Memory.wf s.mem.bytes = true) : Memory.wf (releaseHeld s).mem.bytes =
    true :=
  Only.memOk (W := [.live, .test]) (by simp) (by decide) h

@[simp] theorem selftestFalls_mem (s : State) (h : Memory.wf s.mem.bytes = true) : Memory.wf (selftestFalls
    s).mem.bytes = true :=
  Only.memOk (W := [.live, .test]) (by simp) (by decide) h

@[simp] theorem selftestRises_mem (s : State) (h : Memory.wf s.mem.bytes = true) : Memory.wf (selftestRises
    s).mem.bytes = true :=
  Only.memOk (W := [.live, .test]) (by simp) (by decide) h

@[simp] theorem setBankDac_mem (a0) (a1) (s : State) (h : Memory.wf s.mem.bytes = true) : Memory.wf (setBankDac a0 a1
    s).mem.bytes = true :=
  Only.memOk (W := [.test]) (by simp) (by decide) h

@[simp] theorem swapDacs_mem (s : State) (h : Memory.wf s.mem.bytes = true) : Memory.wf (swapDacs s).mem.bytes = true
    :=
  Only.memOk (W := [.test]) (by simp) (by decide) h

theorem execRomCrcCheck_mem (a0) (s t : State) (h : execRomCrcCheck a0 s = .next t) (hm : Memory.wf s.mem.bytes =
    true) : Memory.wf t.mem.bytes = true := by
  revert t h
  show MemOut _
  unfold execRomCrcCheck
  first
    | ((repeat' split) <;> (simp [hm]; done))
    | ((repeat' split) <;> (simp_all (maxDischargeDepth := 99); done))
    | ((try dsimp only) <;> (repeat' split) <;> (simp_all (maxDischargeDepth := 99); done))

@[simp] theorem noteIgnored_mem (s : State) (h : Memory.wf s.mem.bytes = true) : Memory.wf (noteIgnored s).mem.bytes =
    true :=
  Only.memOk (W := [.standby]) (by simp) (by decide) h

@[simp] theorem standbyTrigger_mem (a0) (a1) (s : State) (h : Memory.wf s.mem.bytes = true) : Memory.wf
    (standbyTrigger a0 a1 s).1.mem.bytes = true :=
  Only.memOk (W := [.standby]) (by simp) (by decide) h

@[simp] theorem entryBeat_mem (a0) (s : State) (h : Memory.wf s.mem.bytes = true) : Memory.wf (entryBeat a0
    s).mem.bytes = true :=
  Only.memOk (W := [.standby, .test, .ldg, .status, .net, .disc, .scene, .weft, .aud]) (by simp) (by decide) h

@[simp] theorem standbyAtBeat_mem (a0) (s : State) (h : Memory.wf s.mem.bytes = true) : Memory.wf (standbyAtBeat a0
    s).mem.bytes = true :=
  Only.memOk (W := [.standby, .test, .ldg, .status, .net, .disc, .scene, .weft, .aud]) (by simp) (by decide) h

@[simp] theorem standbyHighEntry_mem (a0) (s : State) (h : Memory.wf s.mem.bytes = true) : Memory.wf (standbyHighEntry
    a0 s).mem.bytes = true :=
  Only.memOk (W := [.standby]) (by simp) (by decide) h

@[simp] theorem takeOverEntry_mem (a0) (s : State) (h : Memory.wf s.mem.bytes = true) : Memory.wf (takeOverEntry a0
    s).mem.bytes = true :=
  Only.memOk (W := [.standby]) (by simp) (by decide) h

@[simp] theorem lowEndsTests_mem (s : State) (h : Memory.wf s.mem.bytes = true) : Memory.wf (lowEndsTests s).mem.bytes
    = true :=
  Only.memOk (W := [.test]) (by simp) (by decide) h

@[simp] theorem standbyLow_mem (s : State) (h : Memory.wf s.mem.bytes = true) : Memory.wf (standbyLow s).mem.bytes =
    true :=
  Only.memOk (W := [.standby, .test]) (by simp) (by decide) h

@[simp] theorem standbyHigh_mem (a0) (s : State) (h : Memory.wf s.mem.bytes = true) : Memory.wf (standbyHigh a0
    s).mem.bytes = true := by
  unfold standbyHigh
  (repeat' split) <;> simp [h]

@[simp] theorem pinAccept_mem (a0) (a1) (a2) (s : State) (h : Memory.wf s.mem.bytes = true) : Memory.wf (pinAccept a0
    a1 a2 s).mem.bytes = true := by
  unfold pinAccept
  (repeat' split) <;> simp [h]

theorem execLivePinSample_mem (a0) (a1) (a2) (s t : State) (h : execLivePinSample a0 a1 a2 s = .next t) (hm :
    Memory.wf s.mem.bytes = true) : Memory.wf t.mem.bytes = true := by
  revert t h
  show MemOut _
  unfold execLivePinSample
  first
    | ((repeat' split) <;> (simp [hm]; done))
    | ((repeat' split) <;> (simp_all (maxDischargeDepth := 99); done))
    | ((try dsimp only) <;> (repeat' split) <;> (simp_all (maxDischargeDepth := 99); done))

@[simp] theorem learnMac_mem (a0) (a1) (s : State) (h : Memory.wf s.mem.bytes = true) : Memory.wf (learnMac a0 a1
    s).mem.bytes = true :=
  Only.memOk (W := [.net]) (by simp) (by decide) h

@[simp] theorem reportFrame_mem (a0) (a1) (s : State) (h : Memory.wf s.mem.bytes = true) : Memory.wf (reportFrame a0
    a1 s).mem.bytes = true :=
  Only.memOk (W := [.net]) (by simp) (by decide) h

@[simp] theorem setJoin_mem (a0) (a1) (s : State) (h : Memory.wf s.mem.bytes = true) : Memory.wf (setJoin a0 a1
    s).mem.bytes = true :=
  Only.memOk (W := [.net]) (by simp) (by decide) h

@[simp] theorem joinAll_mem (a0) (s : State) (h : Memory.wf s.mem.bytes = true) : Memory.wf (joinAll a0 s).mem.bytes =
    true :=
  Only.memOk (W := [.net]) (by simp) (by decide) h

@[simp] theorem leaveAll_mem (a0) (s : State) (h : Memory.wf s.mem.bytes = true) : Memory.wf (leaveAll a0 s).mem.bytes
    = true :=
  Only.memOk (W := [.net]) (by simp) (by decide) h

@[simp] theorem repeatReport_mem (a0) (s : State) (h : Memory.wf s.mem.bytes = true) : Memory.wf (repeatReport a0
    s).mem.bytes = true :=
  Only.memOk (W := [.net]) (by simp) (by decide) h

@[simp] theorem startClaim_mem (a0) (a1) (s : State) (h : Memory.wf s.mem.bytes = true) : Memory.wf (startClaim a0 a1
    s).mem.bytes = true :=
  Only.memOk (W := [.net]) (by simp) (by decide) h

@[simp] theorem startProvisional_mem (s : State) (h : Memory.wf s.mem.bytes = true) : Memory.wf (startProvisional
    s).mem.bytes = true :=
  Only.memOk (W := [.net]) (by simp) (by decide) h

@[simp] theorem startPositional_mem (s : State) (h : Memory.wf s.mem.bytes = true) : Memory.wf (startPositional
    s).mem.bytes = true :=
  Only.memOk (W := [.net]) (by simp) (by decide) h

@[simp] theorem claimConflict_mem (a0) (s : State) (h : Memory.wf s.mem.bytes = true) : Memory.wf (claimConflict a0
    s).mem.bytes = true :=
  Only.memOk (W := [.flt, .status, .net, .sv, .disc, .weft, .bea]) (by simp) (by decide) h

@[simp] theorem arpFrame_mem (a0) (a1) (a2) (a3) (s : State) (h : Memory.wf s.mem.bytes = true) : Memory.wf (arpFrame
    a0 a1 a2 a3 s).mem.bytes = true :=
  Only.memOk (W := [.net]) (by simp) (by decide) h

@[simp] theorem claimedConflict_mem (a0) (s : State) (h : Memory.wf s.mem.bytes = true) : Memory.wf (claimedConflict
    a0 s).mem.bytes = true :=
  Only.memOk (W := [.flt, .status, .net, .sv, .disc, .weft, .bea]) (by simp) (by decide) h

@[simp] theorem arpHeard_mem (a0) (a1) (a2) (a3) (s : State) (h : Memory.wf s.mem.bytes = true) : Memory.wf (arpHeard
    a0 a1 a2 a3 s).mem.bytes = true :=
  Only.memOk (W := [.flt, .status, .net, .sv, .disc, .weft, .bea]) (by simp) (by decide) h

@[simp] theorem blockLoop_mem (s : State) (h : Memory.wf s.mem.bytes = true) : Memory.wf (blockLoop s).mem.bytes =
    true :=
  Only.memOk (W := [.flt, .status, .net, .sv, .disc, .weft, .bea]) (by simp) (by decide) h

@[simp] theorem modGuard_mem (a0) (s : State) (h : Memory.wf s.mem.bytes = true) : Memory.wf (modGuard a0 s).mem.bytes
    = true :=
  Only.memOk (W := [.net]) (by simp) (by decide) h

@[simp] theorem guardReturned_mem (a0) (a1) (s : State) (h : Memory.wf s.mem.bytes = true) : Memory.wf (guardReturned
    a0 a1 s).mem.bytes = true :=
  Only.memOk (W := [.flt, .status, .net, .sv, .disc, .weft, .bea]) (by simp) (by decide) h

@[simp] theorem flushTables_mem (s : State) (h : Memory.wf s.mem.bytes = true) : Memory.wf (flushTables s).mem.bytes =
    true :=
  Only.memOk (W := [.net]) (by simp) (by decide) h

@[simp] theorem guardHeard_mem (a0) (s : State) (h : Memory.wf s.mem.bytes = true) : Memory.wf (guardHeard a0
    s).mem.bytes = true :=
  Only.memOk (W := [.net]) (by simp) (by decide) h

@[simp] theorem takeGuard_mem (a0) (a1) (s : State) (h : Memory.wf s.mem.bytes = true) : Memory.wf (takeGuard a0 a1
    s).mem.bytes = true :=
  Only.memOk (W := [.flt, .status, .net, .sv, .disc, .weft, .bea]) (by simp) (by decide) h

@[simp] theorem sendGuard_mem (a0) (s : State) (h : Memory.wf s.mem.bytes = true) : Memory.wf (sendGuard a0
    s).mem.bytes = true :=
  Only.memOk (W := [.net]) (by simp) (by decide) h

@[simp] theorem startFlushFrames_mem (s : State) (h : Memory.wf s.mem.bytes = true) : Memory.wf (startFlushFrames
    s).mem.bytes = true :=
  Only.memOk (W := [.net]) (by simp) (by decide) h

@[simp] theorem flushFrameDue_mem (s : State) (h : Memory.wf s.mem.bytes = true) : Memory.wf (flushFrameDue
    s).mem.bytes = true :=
  Only.memOk (W := [.net]) (by simp) (by decide) h

@[simp] theorem setLane_mem (a0) (a1) (s : State) (h : Memory.wf s.mem.bytes = true) : Memory.wf (setLane a0 a1
    s).mem.bytes = true :=
  Only.memOk (W := [.pwr]) (by simp) (by decide) h

@[simp] theorem readModule_mem (a0) (s : State) (h : Memory.wf s.mem.bytes = true) : Memory.wf (readModule a0
    s).mem.bytes = true :=
  Only.memOk (W := [.sent, .net]) (by simp) (by decide) h

@[simp] theorem identify_mem (a0) (a1) (s : State) (h : Memory.wf s.mem.bytes = true) : Memory.wf (identify a0 a1
    s).mem.bytes = true :=
  Only.memOk (W := [.flt, .status, .net, .sv, .disc, .weft, .bea]) (by simp) (by decide) h

@[simp] theorem dropLink_mem (a0) (s : State) (h : Memory.wf s.mem.bytes = true) : Memory.wf (dropLink a0 s).mem.bytes
    = true :=
  Only.memOk (W := [.test, .flt, .status, .net, .sv, .disc, .weft, .bea]) (by simp) (by decide) h

@[simp] theorem firstClaims_mem (s : State) (h : Memory.wf s.mem.bytes = true) : Memory.wf (firstClaims s).mem.bytes =
    true :=
  Only.memOk (W := [.net]) (by simp) (by decide) h

@[simp] theorem unblock_mem (a0) (s : State) (h : Memory.wf s.mem.bytes = true) : Memory.wf (unblock a0 s).mem.bytes =
    true :=
  Only.memOk (W := [.net]) (by simp) (by decide) h

@[simp] theorem dropSdp_mem (a0) (a1) (s : State) (h : Memory.wf s.mem.bytes = true) : Memory.wf (dropSdp a0 a1
    s).mem.bytes = true :=
  Only.memOk (W := [.net]) (by simp) (by decide) h

@[simp] theorem resetIntervals_mem (s : State) (h : Memory.wf s.mem.bytes = true) : Memory.wf (resetIntervals
    s).mem.bytes = true :=
  Only.memOk (W := [.standby, .flt, .status, .scene, .weft, .aud, .bob]) (by simp) (by decide) h

@[simp] theorem enterServo_mem (a0) (s : State) (h : Memory.wf s.mem.bytes = true) : Memory.wf (enterServo a0
    s).mem.bytes = true :=
  Only.memOk (W := [.flt, .status, .net, .time, .sv, .disc, .bea]) (by simp) (by decide) h

@[simp] theorem listenFault_mem (s : State) (h : Memory.wf s.mem.bytes = true) : Memory.wf (listenFault s).mem.bytes =
    true :=
  Only.memOk (W := [.flt, .status, .net, .sv, .disc, .weft, .bea]) (by simp) (by decide) h

@[simp] theorem rearmBeat_mem (s : State) (h : Memory.wf s.mem.bytes = true) : Memory.wf (rearmBeat s).mem.bytes =
    true :=
  Only.memOk (W := [.time]) (by simp) (by decide) h

@[simp] theorem applyStep_mem (a0) (s : State) (h : Memory.wf s.mem.bytes = true) : Memory.wf (applyStep a0
    s).mem.bytes = true :=
  Only.memOk (W := [.flt, .status, .net, .time, .sv, .disc, .weft, .bea]) (by simp) (by decide) h

@[simp] theorem needStep_mem (a0) (s : State) (h : Memory.wf s.mem.bytes = true) : Memory.wf (needStep a0 s).mem.bytes
    = true :=
  Only.memOk (W := [.flt, .status, .net, .time, .sv, .disc, .weft, .bea]) (by simp) (by decide) h

@[simp] theorem dropAnn_mem (s : State) (h : Memory.wf s.mem.bytes = true) : Memory.wf (dropAnn s).mem.bytes = true :=
  Only.memOk (W := [.time]) (by simp) (by decide) h

@[simp] theorem stepAtBeat_mem (a0) (s : State) (h : Memory.wf s.mem.bytes = true) : Memory.wf (stepAtBeat a0
    s).mem.bytes = true :=
  Only.memOk (W := [.flt, .status, .net, .time, .sv, .disc, .weft, .bea]) (by simp) (by decide) h

@[simp] theorem announceStep_mem (a0) (s : State) (h : Memory.wf s.mem.bytes = true) : Memory.wf (announceStep a0
    s).mem.bytes = true :=
  Only.memOk (W := [.time]) (by simp) (by decide) h

@[simp] theorem loopUpdate_mem (a0) (a1) (a2) (a3) (s : State) (h : Memory.wf s.mem.bytes = true) : Memory.wf
    (loopUpdate a0 a1 a2 a3 s).mem.bytes = true :=
  Only.memOk (W := [.time]) (by simp) (by decide) h

@[simp] theorem enterFreerun_mem (s : State) (h : Memory.wf s.mem.bytes = true) : Memory.wf (enterFreerun s).mem.bytes
    = true :=
  Only.memOk (W := [.flt, .status, .net, .time, .sv, .disc, .weft, .bea]) (by simp) (by decide) h

@[simp] theorem enterHoldover_mem (s : State) (h : Memory.wf s.mem.bytes = true) : Memory.wf (enterHoldover
    s).mem.bytes = true :=
  Only.memOk (W := [.flt, .status, .net, .time, .sv, .disc, .weft, .bea]) (by simp) (by decide) h

@[simp] theorem withoutMaster_mem (s : State) (h : Memory.wf s.mem.bytes = true) : Memory.wf (withoutMaster
    s).mem.bytes = true :=
  Only.memOk (W := [.flt, .status, .net, .time, .sv, .disc, .weft, .bea]) (by simp) (by decide) h

@[simp] theorem armDelayReq_mem (s : State) (h : Memory.wf s.mem.bytes = true) : Memory.wf (armDelayReq s).mem.bytes =
    true :=
  Only.memOk (W := [.fresh, .time]) (by simp) (by decide) h

@[simp] theorem takeMaster_mem (a0) (s : State) (h : Memory.wf s.mem.bytes = true) : Memory.wf (takeMaster a0
    s).mem.bytes = true :=
  Only.memOk (W := [.fresh, .flt, .status, .net, .time, .sv, .disc, .bea]) (by simp) (by decide) h

@[simp] theorem selectMaster_mem (s : State) (h : Memory.wf s.mem.bytes = true) : Memory.wf (selectMaster s).mem.bytes
    = true :=
  Only.memOk (W := [.fresh, .flt, .status, .net, .time, .sv, .disc, .bea]) (by simp) (by decide) h

@[simp] theorem loseMaster_mem (s : State) (h : Memory.wf s.mem.bytes = true) : Memory.wf (loseMaster s).mem.bytes =
    true :=
  Only.memOk (W := [.fresh, .flt, .status, .net, .time, .sv, .disc, .weft, .bea]) (by simp) (by decide) h

@[simp] theorem tryAcquire_mem (s : State) (h : Memory.wf s.mem.bytes = true) : Memory.wf (tryAcquire s).mem.bytes =
    true :=
  Only.memOk (W := [.flt, .status, .net, .time, .sv, .disc, .weft, .bea]) (by simp) (by decide) h

@[simp] theorem trackSync_mem (a0) (a1) (s : State) (h : Memory.wf s.mem.bytes = true) : Memory.wf (trackSync a0 a1
    s).mem.bytes = true :=
  Only.memOk (W := [.flt, .status, .net, .time, .sv, .disc, .weft, .bea]) (by simp) (by decide) h

@[simp] theorem holdoverSync_mem (a0) (s : State) (h : Memory.wf s.mem.bytes = true) : Memory.wf (holdoverSync a0
    s).mem.bytes = true :=
  Only.memOk (W := [.flt, .status, .net, .time, .sv, .disc, .bea]) (by simp) (by decide) h

@[simp] theorem holdLong_mem (s : State) (h : Memory.wf s.mem.bytes = true) : Memory.wf (holdLong s).mem.bytes = true
    :=
  Only.memOk (W := [.time]) (by simp) (by decide) h

@[simp] theorem usableSync_mem (a0) (a1) (a2) (s : State) (h : Memory.wf s.mem.bytes = true) : Memory.wf (usableSync
    a0 a1 a2 s).mem.bytes = true :=
  Only.memOk (W := [.flt, .status, .net, .time, .sv, .disc, .weft, .bea]) (by simp) (by decide) h

@[simp] theorem movePort_mem (a0) (s : State) (h : Memory.wf s.mem.bytes = true) : Memory.wf (movePort a0 s).mem.bytes
    = true :=
  Only.memOk (W := [.time]) (by simp) (by decide) h

@[simp] theorem sendDelayReq_mem (a0) (s : State) (h : Memory.wf s.mem.bytes = true) : Memory.wf (sendDelayReq a0
    s).mem.bytes = true :=
  Only.memOk (W := [.net, .time]) (by simp) (by decide) h

@[simp] theorem takeDelay_mem (a0) (s : State) (h : Memory.wf s.mem.bytes = true) : Memory.wf (takeDelay a0
    s).mem.bytes = true :=
  Only.memOk (W := [.flt, .status, .net, .time, .sv, .disc, .weft, .bea]) (by simp) (by decide) h

@[simp] theorem takeAnn_mem (a0) (a1) (a2) (s : State) (h : Memory.wf s.mem.bytes = true) : Memory.wf (takeAnn a0 a1
    a2 s).mem.bytes = true :=
  Only.memOk (W := [.time]) (by simp) (by decide) h

@[simp] theorem steerBeat_mem (a0) (a1) (s : State) (h : Memory.wf s.mem.bytes = true) : Memory.wf (steerBeat a0 a1
    s).mem.bytes = true :=
  Only.memOk (W := [.flt, .status, .net, .time, .sv, .disc, .weft, .bea]) (by simp) (by decide) h

@[simp] theorem takeBeat_mem (a0) (a1) (a2) (a3) (s : State) (h : Memory.wf s.mem.bytes = true) : Memory.wf (takeBeat
    a0 a1 a2 a3 s).mem.bytes = true :=
  Only.memOk (W := [.flt, .status, .net, .time, .sv, .disc, .weft, .bea]) (by simp) (by decide) h

@[simp] theorem leadChanged_mem (s : State) (h : Memory.wf s.mem.bytes = true) : Memory.wf (leadChanged s).mem.bytes =
    true :=
  Only.memOk (W := [.time]) (by simp) (by decide) h

@[simp] theorem becameLead_mem (s : State) (h : Memory.wf s.mem.bytes = true) : Memory.wf (becameLead s).mem.bytes =
    true :=
  Only.memOk (W := [.flt, .status, .net, .time, .sv, .disc, .weft, .bea]) (by simp) (by decide) h

@[simp] theorem syncMarkKeys_mem (s : State) (h : Memory.wf s.mem.bytes = true) : Memory.wf (syncMarkKeys s).mem.bytes
    = true :=
  Only.memOk (W := [.keys]) (by simp) (by decide) h

@[simp] theorem syncGroups_mem (s : State) (h : Memory.wf s.mem.bytes = true) : Memory.wf (syncGroups s).mem.bytes =
    true :=
  Only.memOk (W := [.keys, .net]) (by simp) (by decide) h

@[simp] theorem abandon_mem (s : State) (h : Memory.wf s.mem.bytes = true) : Memory.wf (abandon s).mem.bytes = true :=
  Only.memOk (W := [.keys, .net, .scene, .aud]) (by simp) (by decide) h

@[simp] theorem startClaiming_mem (s : State) (h : Memory.wf s.mem.bytes = true) : Memory.wf (startClaiming
    s).mem.bytes = true :=
  Only.memOk (W := [.disc]) (by simp) (by decide) h

@[simp] theorem newPosition_mem (a0) (s : State) (h : Memory.wf s.mem.bytes = true) : Memory.wf (newPosition a0
    s).mem.bytes = true :=
  Only.memOk (W := [.net, .disc]) (by simp) (by decide) h

@[simp] theorem settlePosition_mem (s : State) (h : Memory.wf s.mem.bytes = true) : Memory.wf (settlePosition
    s).mem.bytes = true :=
  Only.memOk (W := [.flt, .status, .net, .sv, .disc, .weft, .bea]) (by simp) (by decide) h

@[simp] theorem compareNeighbour_mem (a0) (s : State) (h : Memory.wf s.mem.bytes = true) : Memory.wf (compareNeighbour
    a0 s).mem.bytes = true :=
  Only.memOk (W := [.sv]) (by simp) (by decide) h

@[simp] theorem compareAll_mem (s : State) (h : Memory.wf s.mem.bytes = true) : Memory.wf (compareAll s).mem.bytes =
    true :=
  Only.memOk (W := [.sv]) (by simp) (by decide) h

@[simp] theorem dropFrame_mem (s : State) (h : Memory.wf s.mem.bytes = true) : Memory.wf (dropFrame s).mem.bytes =
    true :=
  Only.memOk (W := [.disc]) (by simp) (by decide) h

@[simp] theorem rechoose_mem (s : State) (h : Memory.wf s.mem.bytes = true) : Memory.wf (rechoose s).mem.bytes = true
    :=
  Only.memOk (W := [.flt, .status, .net, .sv, .disc, .weft, .bea]) (by simp) (by decide) h

@[simp] theorem joinLink_mem (a0) (s : State) (h : Memory.wf s.mem.bytes = true) : Memory.wf (joinLink a0 s).mem.bytes
    = true :=
  Only.memOk (W := [.flt, .status, .net, .sv, .disc, .weft, .bea]) (by simp) (by decide) h

@[simp] theorem unjoinLink_mem (a0) (s : State) (h : Memory.wf s.mem.bytes = true) : Memory.wf (unjoinLink a0
    s).mem.bytes = true :=
  Only.memOk (W := [.flt, .status, .net, .sv, .disc, .weft, .bea]) (by simp) (by decide) h

@[simp] theorem loseLock_mem (a0) (s : State) (h : Memory.wf s.mem.bytes = true) : Memory.wf (loseLock a0 s).mem.bytes
    = true :=
  Only.memOk (W := [.flt, .status, .net, .sv, .disc, .weft, .bea]) (by simp) (by decide) h

@[simp] theorem arrive_mem (a0) (a1) (s : State) (h : Memory.wf s.mem.bytes = true) : Memory.wf (arrive a0 a1
    s).1.mem.bytes = true :=
  Only.memOk (W := [.flt, .status, .net, .sv, .disc, .weft, .bea]) (by simp) (by decide) h

@[simp] theorem takeHello_mem (a0) (a1) (s : State) (h : Memory.wf s.mem.bytes = true) : Memory.wf (takeHello a0 a1
    s).mem.bytes = true :=
  Only.memOk (W := [.flt, .status, .net, .sv, .disc, .weft, .bea]) (by simp) (by decide) h

@[simp] theorem helloIn_mem (a0) (a1) (s : State) (h : Memory.wf s.mem.bytes = true) : Memory.wf (helloIn a0 a1
    s).mem.bytes = true :=
  Only.memOk (W := [.flt, .status, .net, .sv, .disc, .weft, .bea]) (by simp) (by decide) h

@[simp] theorem sendHello_mem (a0) (s : State) (h : Memory.wf s.mem.bytes = true) : Memory.wf (sendHello a0
    s).mem.bytes = true :=
  Only.memOk (W := [.status, .sv, .disc]) (by simp) (by decide) h

@[simp] theorem putMark_mem (a0) (a1) (s : State) (h : Memory.wf s.mem.bytes = true) : Memory.wf (putMark a0 a1
    s).mem.bytes = true :=
  Only.memOk (W := [.sv]) (by simp) (by decide) h

@[simp] theorem putBeats_mem (a0) (a1) (s : State) (h : Memory.wf s.mem.bytes = true) : Memory.wf (putBeats a0 a1
    s).mem.bytes = true :=
  Only.memOk (W := [.sv]) (by simp) (by decide) h

@[simp] theorem posIn_mem (a0) (a1) (s : State) (h : Memory.wf s.mem.bytes = true) : Memory.wf (posIn a0 a1
    s).mem.bytes = true :=
  Only.memOk (W := [.flt, .status, .net, .sv, .disc, .weft, .bea]) (by simp) (by decide) h

@[simp] theorem updateResults_mem (a0) (s : State) (h : Memory.wf s.mem.bytes = true) : Memory.wf (updateResults a0
    s).mem.bytes = true :=
  Only.memOk (W := [.disc, .scene]) (by simp) (by decide) h

@[simp] theorem takeCensus_mem (a0) (a1) (s : State) (h : Memory.wf s.mem.bytes = true) : Memory.wf (takeCensus a0 a1
    s).mem.bytes = true :=
  Only.memOk (W := [.disc, .scene]) (by simp) (by decide) h

@[simp] theorem censusIn_mem (a0) (a1) (s : State) (h : Memory.wf s.mem.bytes = true) : Memory.wf (censusIn a0 a1
    s).mem.bytes = true :=
  Only.memOk (W := [.status, .sv, .disc, .scene]) (by simp) (by decide) h

@[simp] theorem dropOldScene_mem (s : State) (h : Memory.wf s.mem.bytes = true) : Memory.wf (dropOldScene s).mem.bytes
    = true :=
  Only.memOk (W := [.keys, .net, .scene, .aud]) (by simp) (by decide) h

@[simp] theorem leadLost_mem (a0) (s : State) (h : Memory.wf s.mem.bytes = true) : Memory.wf (leadLost a0 s).mem.bytes
    = true :=
  Only.memOk (W := [.flt, .status, .net, .time, .sv, .disc, .weft, .bea]) (by simp) (by decide) h

@[simp] theorem endLeading_mem (s : State) (h : Memory.wf s.mem.bytes = true) : Memory.wf (endLeading s).mem.bytes =
    true :=
  Only.memOk (W := [.disc, .scene]) (by simp) (by decide) h

@[simp] theorem takePage_mem (a0) (s : State) (h : Memory.wf s.mem.bytes = true) : Memory.wf (takePage a0 s).mem.bytes
    = true :=
  Only.memOk (W := [.disc]) (by simp) (by decide) h

@[simp] theorem takeLeadView_mem (a0) (a1) (a2) (s : State) (h : Memory.wf s.mem.bytes = true) : Memory.wf
    (takeLeadView a0 a1 a2 s).mem.bytes = true :=
  Only.memOk (W := [.keys, .net, .time, .disc, .scene, .aud]) (by simp) (by decide) h

@[simp] theorem takeSettled_mem (a0) (s : State) (h : Memory.wf s.mem.bytes = true) : Memory.wf (takeSettled a0
    s).mem.bytes = true :=
  Only.memOk (W := [.flt, .status, .net, .sv, .disc, .bea]) (by simp) (by decide) h

@[simp] theorem followLead_mem (a0) (a1) (a2) (s : State) (h : Memory.wf s.mem.bytes = true) : Memory.wf (followLead
    a0 a1 a2 s).mem.bytes = true :=
  Only.memOk (W := [.keys, .flt, .status, .net, .time, .sv, .disc, .scene, .weft, .aud, .bea]) (by simp) (by decide) h

@[simp] theorem yieldTo_mem (a0) (s : State) (h : Memory.wf s.mem.bytes = true) : Memory.wf (yieldTo a0 s).mem.bytes =
    true :=
  Only.memOk (W := [.disc, .scene]) (by simp) (by decide) h

@[simp] theorem noteHeard_mem (a0) (a1) (s : State) (h : Memory.wf s.mem.bytes = true) : Memory.wf (noteHeard a0 a1
    s).mem.bytes = true :=
  Only.memOk (W := [.disc]) (by simp) (by decide) h

@[simp] theorem relayClaim_mem (a0) (a1) (a2) (a3) (s : State) (h : Memory.wf s.mem.bytes = true) : Memory.wf
    (relayClaim a0 a1 a2 a3 s).mem.bytes = true :=
  Only.memOk (W := [.status, .sv, .disc]) (by simp) (by decide) h

@[simp] theorem takeLead_mem (a0) (a1) (a2) (s : State) (h : Memory.wf s.mem.bytes = true) : Memory.wf (takeLead a0 a1
    a2 s).mem.bytes = true :=
  Only.memOk (W := [.keys, .flt, .status, .net, .time, .sv, .disc, .scene, .weft, .aud, .bea]) (by simp) (by decide) h

@[simp] theorem leadIn_mem (a0) (a1) (s : State) (h : Memory.wf s.mem.bytes = true) : Memory.wf (leadIn a0 a1
    s).mem.bytes = true :=
  Only.memOk (W := [.keys, .flt, .status, .net, .time, .sv, .disc, .scene, .weft, .aud, .bea]) (by simp) (by decide) h

@[simp] theorem sentLead_mem (s : State) (h : Memory.wf s.mem.bytes = true) : Memory.wf (sentLead s).mem.bytes = true
    :=
  Only.memOk (W := [.disc]) (by simp) (by decide) h

@[simp] theorem sendLead_mem (s : State) (h : Memory.wf s.mem.bytes = true) : Memory.wf (sendLead s).mem.bytes = true
    :=
  Only.memOk (W := [.status, .sv, .disc, .scene]) (by simp) (by decide) h

@[simp] theorem sendResign_mem (s : State) (h : Memory.wf s.mem.bytes = true) : Memory.wf (sendResign s).mem.bytes =
    true :=
  Only.memOk (W := [.status, .sv, .disc, .scene]) (by simp) (by decide) h

@[simp] theorem sendBeat_mem (a0) (s : State) (h : Memory.wf s.mem.bytes = true) : Memory.wf (sendBeat a0 s).mem.bytes
    = true :=
  Only.memOk (W := [.status, .time, .sv, .disc]) (by simp) (by decide) h

@[simp] theorem useBeat_mem (a0) (a1) (a2) (a3) (s : State) (h : Memory.wf s.mem.bytes = true) : Memory.wf (useBeat a0
    a1 a2 a3 s).mem.bytes = true :=
  Only.memOk (W := [.flt, .status, .net, .time, .sv, .disc, .weft, .bea]) (by simp) (by decide) h

@[simp] theorem relayBeat_mem (a0) (a1) (a2) (s : State) (h : Memory.wf s.mem.bytes = true) : Memory.wf (relayBeat a0
    a1 a2 s).mem.bytes = true :=
  Only.memOk (W := [.status, .sv]) (by simp) (by decide) h

@[simp] theorem beatIn_mem (a0) (a1) (s : State) (h : Memory.wf s.mem.bytes = true) : Memory.wf (beatIn a0 a1
    s).mem.bytes = true :=
  Only.memOk (W := [.flt, .status, .net, .time, .sv, .disc, .weft, .bea]) (by simp) (by decide) h

@[simp] theorem faultIn_mem (a0) (a1) (s : State) (h : Memory.wf s.mem.bytes = true) : Memory.wf (faultIn a0 a1
    s).mem.bytes = true :=
  Only.memOk (W := [.status, .sv, .disc]) (by simp) (by decide) h

@[simp] theorem setBad_mem (a0) (a1) (s : State) (h : Memory.wf s.mem.bytes = true) : Memory.wf (setBad a0 a1
    s).mem.bytes = true := by
  simp [setBad, h]

@[simp] theorem noteUpset_mem (a0) (a1) (s : State) (h : Memory.wf s.mem.bytes = true) : Memory.wf (noteUpset a0 a1
    s).mem.bytes = true := by
  unfold noteUpset
  split <;> simp [h]

@[simp] theorem poisonLine_mem (a0) (s : State) (h : Memory.wf s.mem.bytes = true) : Memory.wf (poisonLine a0
    s).mem.bytes = true := by
  unfold poisonLine
  refine setBad_mem _ _ _ ?_
  simp only [mem_of_modMem]
  exact Memory.wf_setAll _ _ _ h

@[simp] theorem writeLine_mem (a0) (a1) (s : State) (h : Memory.wf s.mem.bytes = true) : Memory.wf (writeLine a0 a1
    s).mem.bytes = true := by
  unfold writeLine
  refine setBad_mem _ _ _ ?_
  simp only [mem_of_modMem]
  exact Memory.wf_setAll _ _ _ h

@[simp] theorem corrected_mem (a0) (s : State) (h : Memory.wf s.mem.bytes = true) : Memory.wf (corrected a0
    s).mem.bytes = true :=
  Only.memOk (W := [.flt, .status, .net, .sv, .disc, .weft, .bea]) (by simp) (by decide) h

@[simp] theorem poisoned_mem (a0) (s : State) (h : Memory.wf s.mem.bytes = true) : Memory.wf (poisoned a0 s).mem.bytes
    = true :=
  Only.memOk (W := [.flt, .status, .net, .sv, .disc, .weft, .bea]) (by simp) (by decide) h

@[simp] theorem poisonEvent_mem (a0) (a1) (s : State) (h : Memory.wf s.mem.bytes = true) : Memory.wf (poisonEvent a0
    a1 s).mem.bytes = true := by
  unfold poisonEvent
  (try simp [h]) <;> (repeat' split) <;> simp_all (maxDischargeDepth := 99)

@[simp] theorem grantTo_mem (a0) (a1) (a2) (a3) (a4) (s : State) (h : Memory.wf s.mem.bytes = true) : Memory.wf
    (grantTo a0 a1 a2 a3 a4 s).mem.bytes = true :=
  Only.memOk (W := [.xb]) (by simp) (by decide) h

@[simp] theorem issuePiece_mem (a0) (a1) (a2) (a3) (s : State) (h : Memory.wf s.mem.bytes = true) : Memory.wf
    (issuePiece a0 a1 a2 a3 s).mem.bytes = true :=
  Only.memOk (W := [.xb]) (by simp) (by decide) h

@[simp] theorem grantNext_mem (a0) (s : State) (h : Memory.wf s.mem.bytes = true) : Memory.wf (grantNext a0
    s).mem.bytes = true :=
  Only.memOk (W := [.xb]) (by simp) (by decide) h

@[simp] theorem releaseRequest_mem (s : State) (h : Memory.wf s.mem.bytes = true) : Memory.wf (releaseRequest
    s).mem.bytes = true :=
  Only.memOk (W := [.xb]) (by simp) (by decide) h

@[simp] theorem xbClock_mem (s : State) (h : Memory.wf s.mem.bytes = true) : Memory.wf (xbClock s).mem.bytes = true :=
  Only.memOk (W := [.xb]) (by simp) (by decide) h

@[simp] theorem answerHeld_mem (s : State) (h : Memory.wf s.mem.bytes = true) : Memory.wf (answerHeld s).mem.bytes =
    true :=
  Only.memOk (W := [.xb]) (by simp) (by decide) h

@[simp] theorem resetMaster_mem (a0) (s : State) (h : Memory.wf s.mem.bytes = true) : Memory.wf (resetMaster a0
    s).mem.bytes = true :=
  Only.memOk (W := [.net, .adm, .aud]) (by simp) (by decide) h

theorem execXbHang_mem (a0) (s t : State) (h : execXbHang a0 s = .next t) (hm : Memory.wf s.mem.bytes = true) :
    Memory.wf t.mem.bytes = true := by
  revert t h
  show MemOut _
  unfold execXbHang
  first
    | ((repeat' split) <;> (simp [hm]; done))
    | ((repeat' split) <;> (simp_all (maxDischargeDepth := 99); done))
    | ((try dsimp only) <;> (repeat' split) <;> (simp_all (maxDischargeDepth := 99); done))

@[simp] theorem memBlocked_mem (a0) (a1) (a2) (a3) (s : State) (h : Memory.wf s.mem.bytes = true) : Memory.wf
    (memBlocked a0 a1 a2 a3 s).mem.bytes = true :=
  Only.memOk (W := [.xb]) (by simp) (by decide) h

@[simp] theorem treatPoison_mem (a0) (a1) (s : State) (h : Memory.wf s.mem.bytes = true) : Memory.wf (treatPoison a0
    a1 s).mem.bytes = true :=
  Only.memOk (W := [.weft]) (by simp) (by decide) h

@[simp] theorem readMem_mem (a0) (a1) (s : State) (h : Memory.wf s.mem.bytes = true) : Memory.wf (readMem a0 a1
    s).mem.bytes = true := by
  unfold readMem
  (try simp [h]) <;> (repeat' split) <;> simp_all (maxDischargeDepth := 99)

theorem execMemRead_mem (a0) (a1) (a2) (s t : State) (h : execMemRead a0 a1 a2 s = .next t) (hm : Memory.wf
    s.mem.bytes = true) : Memory.wf t.mem.bytes = true := by
  revert t h
  show MemOut _
  unfold execMemRead
  first
    | ((repeat' split) <;> (simp [hm]; done))
    | ((repeat' split) <;> (simp_all (maxDischargeDepth := 99); done))
    | ((try dsimp only) <;> (repeat' split) <;> (simp_all (maxDischargeDepth := 99); done))

theorem execMemWriteWhole_mem (a0) (a1) (a2) (s t : State) (h : execMemWriteWhole a0 a1 a2 s = .next t) (hm :
    Memory.wf s.mem.bytes = true) : Memory.wf t.mem.bytes = true := by
  revert t h
  show MemOut _
  unfold execMemWriteWhole
  first
    | ((repeat' split) <;> (simp [hm]; done))
    | ((repeat' split) <;> (simp_all (maxDischargeDepth := 99); done))
    | ((try dsimp only) <;> (repeat' split) <;> (simp_all (maxDischargeDepth := 99); done))

@[simp] theorem mergeMem_mem (a0) (a1) (a2) (s : State) (h : Memory.wf s.mem.bytes = true) : Memory.wf (mergeMem a0 a1
    a2 s).mem.bytes = true := by
  unfold mergeMem
  (try simp [h]) <;> (repeat' split) <;> simp_all (maxDischargeDepth := 99)

theorem execMemWritePartial_mem (a0) (a1) (a2) (a3) (s t : State) (h : execMemWritePartial a0 a1 a2 a3 s = .next t)
    (hm : Memory.wf s.mem.bytes = true) : Memory.wf t.mem.bytes = true := by
  revert t h
  show MemOut _
  unfold execMemWritePartial
  first
    | ((repeat' split) <;> (simp [hm]; done))
    | ((repeat' split) <;> (simp_all (maxDischargeDepth := 99); done))
    | ((try dsimp only) <;> (repeat' split) <;> (simp_all (maxDischargeDepth := 99); done))

@[simp] theorem scrubNext_mem (s : State) (h : Memory.wf s.mem.bytes = true) : Memory.wf (scrubNext s).mem.bytes =
    true := by
  unfold scrubNext
  (try simp [h]) <;> (repeat' split) <;> simp_all (maxDischargeDepth := 99)

@[simp] theorem scrubOne_mem (s : State) (h : Memory.wf s.mem.bytes = true) : Memory.wf (scrubOne s).mem.bytes = true
    := by
  unfold scrubOne
  (try simp [h]) <;> (repeat' split) <;> simp_all (maxDischargeDepth := 99)

@[simp] theorem noteScrub_mem (s : State) (h : Memory.wf s.mem.bytes = true) : Memory.wf (noteScrub s).mem.bytes =
    true :=
  Only.memOk (W := [.test]) (by simp) (by decide) h

theorem execScrubLine_mem (a0) (s t : State) (h : execScrubLine a0 s = .next t) (hm : Memory.wf s.mem.bytes = true) :
    Memory.wf t.mem.bytes = true := by
  revert t h
  show MemOut _
  unfold execScrubLine
  first
    | ((repeat' split) <;> (simp [hm]; done))
    | ((repeat' split) <;> (simp_all (maxDischargeDepth := 99); done))
    | ((try dsimp only) <;> (repeat' split) <;> (simp_all (maxDischargeDepth := 99); done))

@[simp] theorem initMemory_mem (s : State) (h : Memory.wf s.mem.bytes = true) : Memory.wf (initMemory s).mem.bytes =
    true := by
  unfold initMemory
  (try simp [h]) <;> (repeat' split) <;> simp_all (maxDischargeDepth := 99)

@[simp] theorem noteFormats_mem (a0) (s : State) (h : Memory.wf s.mem.bytes = true) : Memory.wf (noteFormats a0
    s).mem.bytes = true :=
  Only.memOk (W := [.flt, .status, .net, .sv, .disc, .weft, .bea]) (by simp) (by decide) h

@[simp] theorem prepareScene_mem (a0) (a1) (a2) (a3) (a4) (s : State) (h : Memory.wf s.mem.bytes = true) : Memory.wf
    (prepareScene a0 a1 a2 a3 a4 s).mem.bytes = true :=
  Only.memOk (W := [.keys, .flt, .status, .net, .sv, .disc, .scene, .weft, .aud, .bea]) (by simp) (by decide) h

@[simp] theorem planRoute_mem (a0) (a1) (s : State) (h : Memory.wf s.mem.bytes = true) : Memory.wf (planRoute a0 a1
    s).mem.bytes = true :=
  Only.memOk (W := [.aud]) (by simp) (by decide) h

@[simp] theorem floodScene_mem (a0) (a1) (s : State) (h : Memory.wf s.mem.bytes = true) : Memory.wf (floodScene a0 a1
    s).mem.bytes = true :=
  Only.memOk (W := [.status, .sv, .disc]) (by simp) (by decide) h

@[simp] theorem floodPrepare_mem (a0) (s : State) (h : Memory.wf s.mem.bytes = true) : Memory.wf (floodPrepare a0
    s).mem.bytes = true :=
  Only.memOk (W := [.status, .sv, .disc]) (by simp) (by decide) h

@[simp] theorem takePrepare_mem (a0) (a1) (s : State) (h : Memory.wf s.mem.bytes = true) : Memory.wf (takePrepare a0
    a1 s).mem.bytes = true :=
  Only.memOk (W := [.keys, .flt, .status, .net, .sv, .disc, .scene, .weft, .aud, .bea]) (by simp) (by decide) h

@[simp] theorem prepareIn_mem (a0) (a1) (s : State) (h : Memory.wf s.mem.bytes = true) : Memory.wf (prepareIn a0 a1
    s).mem.bytes = true :=
  Only.memOk (W := [.keys, .flt, .status, .net, .sv, .disc, .scene, .weft, .aud, .bea]) (by simp) (by decide) h

@[simp] theorem noteReady_mem (a0) (a1) (s : State) (h : Memory.wf s.mem.bytes = true) : Memory.wf (noteReady a0 a1
    s).mem.bytes = true :=
  Only.memOk (W := [.scene]) (by simp) (by decide) h

@[simp] theorem takeReady_mem (a0) (a1) (a2) (s : State) (h : Memory.wf s.mem.bytes = true) : Memory.wf (takeReady a0
    a1 a2 s).mem.bytes = true :=
  Only.memOk (W := [.scene]) (by simp) (by decide) h

@[simp] theorem sendReady_mem (a0) (a1) (a2) (s : State) (h : Memory.wf s.mem.bytes = true) : Memory.wf (sendReady a0
    a1 a2 s).mem.bytes = true :=
  Only.memOk (W := [.status, .sv, .disc, .scene]) (by simp) (by decide) h

@[simp] theorem readyIn_mem (a0) (a1) (s : State) (h : Memory.wf s.mem.bytes = true) : Memory.wf (readyIn a0 a1
    s).mem.bytes = true :=
  Only.memOk (W := [.status, .sv, .scene]) (by simp) (by decide) h

@[simp] theorem floodCommit_mem (a0) (a1) (a2) (s : State) (h : Memory.wf s.mem.bytes = true) : Memory.wf (floodCommit
    a0 a1 a2 s).mem.bytes = true :=
  Only.memOk (W := [.status, .sv, .disc]) (by simp) (by decide) h

@[simp] theorem setCommit_mem (a0) (a1) (a2) (s : State) (h : Memory.wf s.mem.bytes = true) : Memory.wf (setCommit a0
    a1 a2 s).mem.bytes = true :=
  Only.memOk (W := [.scene, .aud]) (by simp) (by decide) h

@[simp] theorem keyOfIdent_mem (a0) (s : State) (h : Memory.wf s.mem.bytes = true) : Memory.wf (keyOfIdent a0
    s).2.mem.bytes = true :=
  Only.memOk (W := [.fresh]) (by simp) (by decide) h

@[simp] theorem prepareLate_mem (a0) (a1) (a2) (a3) (s : State) (h : Memory.wf s.mem.bytes = true) : Memory.wf
    (prepareLate a0 a1 a2 a3 s).mem.bytes = true :=
Only.memOk (W := [.fresh, .keys, .flt, .status, .net, .sv, .disc, .scene, .weft, .aud, .bea]) (by simp) (by decide) h

@[simp] theorem takeCommit_mem (a0) (a1) (a2) (a3) (s : State) (h : Memory.wf s.mem.bytes = true) : Memory.wf
    (takeCommit a0 a1 a2 a3 s).mem.bytes = true :=
Only.memOk (W := [.fresh, .keys, .flt, .status, .net, .sv, .disc, .scene, .weft, .aud, .bea]) (by simp) (by decide) h

@[simp] theorem commitIn_mem (a0) (a1) (s : State) (h : Memory.wf s.mem.bytes = true) : Memory.wf (commitIn a0 a1
    s).mem.bytes = true :=
Only.memOk (W := [.fresh, .keys, .flt, .status, .net, .sv, .disc, .scene, .weft, .aud, .bea]) (by simp) (by decide) h

@[simp] theorem overloadFaults_mem (a0) (a1) (a2) (s : State) (h : Memory.wf s.mem.bytes = true) : Memory.wf
    (overloadFaults a0 a1 a2 s).mem.bytes = true :=
  Only.memOk (W := [.flt, .status, .net, .sv, .disc, .weft, .bea]) (by simp) (by decide) h

@[simp] theorem applyCommit_mem (a0) (a1) (a2) (a3) (s : State) (h : Memory.wf s.mem.bytes = true) : Memory.wf
    (applyCommit a0 a1 a2 a3 s).mem.bytes = true := by
  unfold applyCommit
  (try simp [h]) <;> (repeat' split) <;> simp_all (maxDischargeDepth := 99)

@[simp] theorem commitAtBeat_mem (a0) (s : State) (h : Memory.wf s.mem.bytes = true) : Memory.wf (commitAtBeat a0
    s).mem.bytes = true := by
  unfold commitAtBeat
  (try simp [h]) <;> (repeat' split) <;> simp_all (maxDischargeDepth := 99)

@[simp] theorem changePasses_mem (a0) (s : State) (h : Memory.wf s.mem.bytes = true) : Memory.wf (changePasses a0
    s).mem.bytes = true :=
  Only.memOk (W := [.scene]) (by simp) (by decide) h

@[simp] theorem reevaluate_mem (s : State) (h : Memory.wf s.mem.bytes = true) : Memory.wf (reevaluate s).mem.bytes =
    true :=
  Only.memOk (W := [.adm]) (by simp) (by decide) h

@[simp] theorem modFlow_mem (a0) (a1) (a2) (s : State) (h : Memory.wf s.mem.bytes = true) : Memory.wf (modFlow a0 a1
    a2 s).mem.bytes = true :=
  Only.memOk (W := [.net]) (by simp) (by decide) h

@[simp] theorem storeLine_mem (a0) (a1) (a2) (s : State) (h : Memory.wf s.mem.bytes = true) : Memory.wf (storeLine a0
    a1 a2 s).mem.bytes = true := by
  unfold storeLine
  (try dsimp only)
  (repeat' split) <;> first
    | (simp_all (maxDischargeDepth := 99); done)
    | (refine foldl_holds (fun t => Memory.wf t.mem.bytes = true) _ (fun t a ht => ?_) _ _ (by simp_all (maxDischargeDepth := 99))
       (repeat' split) <;> simp_all (maxDischargeDepth := 99))

theorem fileSrd_mem (f d x) (h : Memory.wf x.2.mem.bytes = true) : Memory.wf (fileSrd f d x).2.mem.bytes = true := by
  unfold fileSrd
  (try dsimp only)
  (repeat' split) <;> simp_all

@[simp] theorem modWin_mem (a0) (a1) (a2) (s : State) (h : Memory.wf s.mem.bytes = true) : Memory.wf (modWin a0 a1 a2
    s).mem.bytes = true :=
  Only.memOk (W := [.scene]) (by simp) (by decide) h

@[simp] theorem openBuffer_mem (a0) (a1) (a2) (s : State) (h : Memory.wf s.mem.bytes = true) : Memory.wf (openBuffer
    a0 a1 a2 s).mem.bytes = true :=
  Only.memOk (W := [.scene]) (by simp) (by decide) h

/-- Filing the packet's lines keeps the form. -/
theorem foldSrds_mem (f : WinFormat) (l : List Srd) (x : Buffer × State) (h : Memory.wf x.2.mem.bytes = true) :
    Memory.wf (l.foldl (fun x d => fileSrd f d x) x).2.mem.bytes = true := by
  induction l generalizing x with
  | nil => exact h
  | cons d l ih => exact ih _ (fileSrd_mem f d x h)

@[simp] theorem fillBuffer_mem (a0) (a1) (a2) (a3) (s : State) (h : Memory.wf s.mem.bytes = true) :
    Memory.wf (fillBuffer a0 a1 a2 a3 s).mem.bytes = true := by
  unfold fillBuffer
  dsimp only
  split
  · exact h
  · split
    · exact h
    · split
      · exact modWin_mem _ _ _ _ (modWin_mem _ _ _ _ (foldSrds_mem _ _ _ h))
      · exact modWin_mem _ _ _ _ (foldSrds_mem _ _ _ h)

@[simp] theorem discardSource_mem (a0) (a1) (s : State) (h : Memory.wf s.mem.bytes = true) : Memory.wf (discardSource
    a0 a1 s).mem.bytes = true :=
  Only.memOk (W := [.net, .scene]) (by simp) (by decide) h

@[simp] theorem endFrames_mem (a0) (s : State) (h : Memory.wf s.mem.bytes = true) : Memory.wf (endFrames a0
    s).mem.bytes = true :=
  Only.memOk (W := [.scene]) (by simp) (by decide) h

@[simp] theorem noteOutside_mem (a0) (a1) (s : State) (h : Memory.wf s.mem.bytes = true) : Memory.wf (noteOutside a0
    a1 s).mem.bytes = true :=
  Only.memOk (W := [.scene]) (by simp) (by decide) h

@[simp] theorem beginFrame_mem (a0) (a1) (a2) (a3) (a4) (s : State) (h : Memory.wf s.mem.bytes = true) : Memory.wf
    (beginFrame a0 a1 a2 a3 a4 s).mem.bytes = true :=
  Only.memOk (W := [.status, .net, .scene]) (by simp) (by decide) h

@[simp] theorem takePixels_mem (a0) (a1) (a2) (s : State) (h : Memory.wf s.mem.bytes = true) : Memory.wf (takePixels
    a0 a1 a2 s).mem.bytes = true := by
  unfold takePixels
  (try dsimp only)
  (repeat' split) <;> first
    | (simp_all (maxDischargeDepth := 99); done)
    | (refine foldl_holds (fun t => Memory.wf t.mem.bytes = true) _ (fun t a ht => ?_) _ _ (by simp_all (maxDischargeDepth := 99))
       (repeat' split) <;> simp_all (maxDischargeDepth := 99))

@[simp] theorem takeBegun_mem (a0) (a1) (a2) (s : State) (h : Memory.wf s.mem.bytes = true) : Memory.wf (takeBegun a0
    a1 a2 s).mem.bytes = true := by
  unfold takeBegun
  split <;> simp [h]

@[simp] theorem takeVideo_mem (a0) (a1) (a2) (a3) (a4) (s : State) (h : Memory.wf s.mem.bytes = true) : Memory.wf
    (takeVideo a0 a1 a2 a3 a4 s).mem.bytes = true := by
  unfold takeVideo
  (try simp [h]) <;> (repeat' split) <;> simp_all (maxDischargeDepth := 99)

@[simp] theorem videoIn_mem (a0) (a1) (a2) (a3) (a4) (s : State) (h : Memory.wf s.mem.bytes = true) : Memory.wf
    (videoIn a0 a1 a2 a3 a4 s).mem.bytes = true := by
  unfold videoIn
  (try simp [h]) <;> (repeat' split) <;> simp_all (maxDischargeDepth := 99)

@[simp] theorem ancIn_mem (a0) (a1) (a2) (a3) (s : State) (h : Memory.wf s.mem.bytes = true) : Memory.wf (ancIn a0 a1
    a2 a3 s).mem.bytes = true :=
  Only.memOk (W := [.net]) (by simp) (by decide) h

@[simp] theorem noteFormat_mem (a0) (a1) (a2) (s : State) (h : Memory.wf s.mem.bytes = true) : Memory.wf (noteFormat
    a0 a1 a2 s).mem.bytes = true :=
  Only.memOk (W := [.flt, .status, .net, .sv, .disc, .scene, .weft, .bea]) (by simp) (by decide) h

@[simp] theorem bindSdp_mem (a0) (a1) (s : State) (h : Memory.wf s.mem.bytes = true) : Memory.wf (bindSdp a0 a1
    s).mem.bytes = true :=
  Only.memOk (W := [.flt, .status, .net, .sv, .disc, .scene, .weft, .bea]) (by simp) (by decide) h

@[simp] theorem sapIn_mem (a0) (a1) (s : State) (h : Memory.wf s.mem.bytes = true) : Memory.wf (sapIn a0 a1
    s).mem.bytes = true :=
  Only.memOk (W := [.flt, .status, .net, .sv, .disc, .scene, .weft, .bea]) (by simp) (by decide) h

@[simp] theorem setAFlow_mem (a0) (a1) (a2) (s : State) (h : Memory.wf s.mem.bytes = true) : Memory.wf (setAFlow a0 a1
    a2 s).mem.bytes = true :=
  Only.memOk (W := [.aud]) (by simp) (by decide) h

@[simp] theorem endNoSource_mem (a0) (a1) (a2) (s : State) (h : Memory.wf s.mem.bytes = true) : Memory.wf (endNoSource
    a0 a1 a2 s).mem.bytes = true :=
  Only.memOk (W := [.flt, .status, .net, .sv, .disc, .aud, .bea]) (by simp) (by decide) h

@[simp] theorem storeSamples_mem (a0) (a1) (a2) (s : State) (h : Memory.wf s.mem.bytes = true) :
    Memory.wf (storeSamples a0 a1 a2 s).mem.bytes = true := by
  unfold storeSamples
  induction a2 generalizing a1 s with
  | nil => exact h
  | cons l t ih => exact ih _ _ (writeLine_mem _ _ _ h)

@[simp] theorem ingestAudio_mem (a0) (a1) (a2) (a3) (a4) (a5) (a6) (a7) (s : State) (h : Memory.wf s.mem.bytes = true) :
    Memory.wf (ingestAudio a0 a1 a2 a3 a4 a5 a6 a7 s).mem.bytes = true := by
  unfold ingestAudio
  split
  · exact h
  · extract_lets l g1 g2 s1
    have h1 : Memory.wf s1.mem.bytes = true := foldl_holds (fun t => Memory.wf t.mem.bytes = true) _ (fun t a ht => raise_mem _ _ t ht) _ _
      (setAFlow_mem _ _ _ _ (storeSamples_mem _ _ _ s h))
    exact endNoSource_mem _ _ _ s1 h1

@[simp] theorem placeAudio_mem (a0) (a1) (a2) (a3) (a4) (a5) (s : State) (h : Memory.wf s.mem.bytes = true) :
    Memory.wf (placeAudio a0 a1 a2 a3 a4 a5 s).mem.bytes = true := by
  unfold placeAudio
  extract_lets ta i last
  split
  · exact setAFlow_mem _ _ _ _ (countUp_mem _ _ s h)
  · split
    · exact setAFlow_mem _ _ _ _ (countUp_mem _ _ s h)
    · exact ingestAudio_mem _ _ _ _ _ _ _ _ s h

@[simp] theorem audioPlace_mem (a0) (s : State) (h : Memory.wf s.mem.bytes = true) : Memory.wf (audioPlace a0
    s).2.mem.bytes = true :=
  Only.memOk (W := [.aud]) (by simp) (by decide) h

@[simp] theorem audioIn_mem (a0) (a1) (a2) (a3) (a4) (s : State) (h : Memory.wf s.mem.bytes = true) : Memory.wf
    (audioIn a0 a1 a2 a3 a4 s).mem.bytes = true := by
  unfold audioIn
  extract_lets s1
  have h1 : Memory.wf s1.mem.bytes = true := modFlow_mem _ _ _ s h
  generalize s1 = s2 at *
  split
  · exact h1
  · split
    · exact h1
    · have h2 : Memory.wf (audioPlace a1 s2).2.mem.bytes = true := audioPlace_mem _ s2 h1
      generalize audioPlace a1 s2 = x at *
      obtain ⟨o, t⟩ := x
      cases o with
      | none => exact h2
      | some y =>
        obtain ⟨nx, n⟩ := y
        dsimp only
        split
        · exact h2
        · exact placeAudio_mem _ _ _ _ _ _ _ (setAFlow_mem _ _ _ t h2)

@[simp] theorem mediaQueue_mem (a0) (a1) (a2) (a3) (s : State) (h : Memory.wf s.mem.bytes = true) : Memory.wf
    (mediaQueue a0 a1 a2 a3 s).2.2.mem.bytes = true :=
  Only.memOk (W := [.net]) (by simp) (by decide) h

@[simp] theorem queueFault_mem (a0) (a1) (s : State) (h : Memory.wf s.mem.bytes = true) : Memory.wf (queueFault a0 a1
    s).mem.bytes = true :=
  Only.memOk (W := [.flt, .status, .net, .sv, .disc, .weft, .bea]) (by simp) (by decide) h

@[simp] theorem relayTo_mem (a0) (a1) (a2) (s : State) (h : Memory.wf s.mem.bytes = true) : Memory.wf (relayTo a0 a1
    a2 s).mem.bytes = true :=
  Only.memOk (W := [.flt, .status, .net, .sv, .disc, .weft, .bea]) (by simp) (by decide) h

@[simp] theorem forwardTo_mem (a0) (a1) (a2) (a3) (s : State) (h : Memory.wf s.mem.bytes = true) : Memory.wf
    (forwardTo a0 a1 a2 a3 s).mem.bytes = true :=
  Only.memOk (W := [.flt, .status, .net, .sv, .disc, .weft, .bea]) (by simp) (by decide) h

@[simp] theorem forwardFrame_mem (a0) (a1) (s : State) (h : Memory.wf s.mem.bytes = true) : Memory.wf (forwardFrame a0
    a1 s).mem.bytes = true :=
  Only.memOk (W := [.flt, .status, .net, .sv, .disc, .weft, .bea]) (by simp) (by decide) h

@[simp] theorem igmpIn_mem (a0) (a1) (s : State) (h : Memory.wf s.mem.bytes = true) : Memory.wf (igmpIn a0 a1
    s).mem.bytes = true :=
  Only.memOk (W := [.status, .net]) (by simp) (by decide) h

@[simp] theorem mediaIn_mem (a0) (a1) (a2) (a3) (a4) (a5) (s : State) (h : Memory.wf s.mem.bytes = true) : Memory.wf
    (mediaIn a0 a1 a2 a3 a4 a5 s).mem.bytes = true := by
  unfold mediaIn
  split
  · exact h
  · split <;> simp [h]

@[simp] theorem localIn_mem (a0) (a1) (s : State) (h : Memory.wf s.mem.bytes = true) : Memory.wf (localIn a0 a1
    s).mem.bytes = true := by
  unfold localIn
  (try simp [h]) <;> (repeat' split) <;> simp_all (maxDischargeDepth := 99)

theorem execFrameReceive_mem (a0) (a1) (s t : State) (h : execFrameReceive a0 a1 s = .next t) (hm : Memory.wf
    s.mem.bytes = true) : Memory.wf t.mem.bytes = true := by
  revert t h
  show MemOut _
  unfold execFrameReceive
  first
    | ((repeat' split) <;> (simp [hm]; done))
    | ((repeat' split) <;> (simp_all (maxDischargeDepth := 99); done))
    | ((try dsimp only) <;> (repeat' split) <;> (simp_all (maxDischargeDepth := 99); done))

@[simp] theorem readMarks_mem (s : State) (a0) (a1) (h : Memory.wf s.mem.bytes = true) : Memory.wf (readMarks s a0
    a1).mem.bytes = true := by
  unfold readMarks
  (try dsimp only)
  (repeat' split) <;> first
    | (simp_all (maxDischargeDepth := 99); done)
    | (refine foldl_holds (fun t => Memory.wf t.mem.bytes = true) _ (fun t a ht => ?_) _ _ (by simp_all (maxDischargeDepth := 99))
       (repeat' split) <;> simp_all (maxDischargeDepth := 99))

@[simp] theorem judgeWin_mem (a0) (a1) (a2) (s : State) (h : Memory.wf s.mem.bytes = true) : Memory.wf (judgeWin a0 a1
    a2 s).mem.bytes = true :=
  Only.memOk (W := [.flt, .status, .net, .sv, .disc, .scene, .weft, .bea]) (by simp) (by decide) h

@[simp] theorem lateFault_mem (a0) (s : State) (h : Memory.wf s.mem.bytes = true) : Memory.wf (lateFault a0
    s).mem.bytes = true :=
  Only.memOk (W := [.flt, .status, .net, .sv, .disc, .weft, .bea]) (by simp) (by decide) h

@[simp] theorem holdWin_mem (a0) (s : State) (h : Memory.wf s.mem.bytes = true) : Memory.wf (holdWin a0 s).mem.bytes =
    true :=
  Only.memOk (W := [.flt, .status, .net, .sv, .disc, .scene, .weft, .bea]) (by simp) (by decide) h

@[simp] theorem showFrames_mem (a0) (a1) (a2) (a3) (a4) (s : State) (h : Memory.wf s.mem.bytes = true) : Memory.wf
    (showFrames a0 a1 a2 a3 a4 s).mem.bytes = true := by
  unfold showFrames
  (try simp [h]) <;> (repeat' split) <;> simp_all (maxDischargeDepth := 99)

@[simp] theorem takeSelection_mem (a0) (a1) (a2) (a3) (a4) (s : State) (h : Memory.wf s.mem.bytes = true) : Memory.wf
    (takeSelection a0 a1 a2 a3 a4 s).mem.bytes = true := by
  unfold takeSelection
  (try simp [h]) <;> (repeat' split) <;> simp_all (maxDischargeDepth := 99)

@[simp] theorem updateWin_mem (a0) (a1) (a2) (a3) (s : State) (h : Memory.wf s.mem.bytes = true) : Memory.wf
    (updateWin a0 a1 a2 a3 s).mem.bytes = true := by
  unfold updateWin
  (try simp [h]) <;> (repeat' split) <;> simp_all (maxDischargeDepth := 99)

@[simp] theorem presentWin_mem (a0) (a1) (a2) (a3) (s : State) (h : Memory.wf s.mem.bytes = true) : Memory.wf
    (presentWin a0 a1 a2 a3 s).mem.bytes = true := by
  unfold presentWin
  (try simp [h]) <;> (repeat' split) <;> simp_all (maxDischargeDepth := 99)

@[simp] theorem endNoStream_mem (a0) (s : State) (h : Memory.wf s.mem.bytes = true) : Memory.wf (endNoStream a0
    s).mem.bytes = true :=
  Only.memOk (W := [.flt, .status, .net, .sv, .disc, .bea]) (by simp) (by decide) h

@[simp] theorem markReady_mem (s : State) (h : Memory.wf s.mem.bytes = true) : Memory.wf (markReady s).mem.bytes =
    true :=
  Only.memOk (W := [.scene]) (by simp) (by decide) h

@[simp] theorem pruneMarks_mem (s : State) (h : Memory.wf s.mem.bytes = true) : Memory.wf (pruneMarks s).mem.bytes =
    true :=
  Only.memOk (W := [.net]) (by simp) (by decide) h

@[simp] theorem noteShown_mem (s : State) (h : Memory.wf s.mem.bytes = true) : Memory.wf (noteShown s).mem.bytes =
    true :=
  Only.memOk (W := [.scene]) (by simp) (by decide) h

@[simp] theorem frameBeat_mem (a0) (a1) (s : State) (h : Memory.wf s.mem.bytes = true) : Memory.wf (frameBeat a0 a1
    s).mem.bytes = true := by
  unfold frameBeat
  split
  · exact h
  · refine markReady_mem _ (pruneMarks_mem _ ?_)
    refine foldl_holds MemOk _ (fun t a ht => judgeWin_mem _ _ _ t ht) _ _ ?_
    refine noteShown_mem _ ?_
    exact foldl_holds MemOk _ (fun t a ht => endNoStream_mem _ _ (presentWin_mem _ _ _ _ t ht)) _ _ h

@[simp] theorem configureGroup_mem (a0) (s : State) (h : Memory.wf s.mem.bytes = true) : Memory.wf (configureGroup a0
    s).mem.bytes = true :=
  Only.memOk (W := [.sent, .weft]) (by simp) (by decide) h

@[simp] theorem configureChanged_mem (a0) (s : State) (h : Memory.wf s.mem.bytes = true) : Memory.wf (configureChanged
    a0 s).mem.bytes = true :=
  Only.memOk (W := [.sent, .weft]) (by simp) (by decide) h

@[simp] theorem integrateWear_mem (a0) (a1) (s : State) (h : Memory.wf s.mem.bytes = true) : Memory.wf (integrateWear
    a0 a1 s).mem.bytes = true :=
  Only.memOk (W := [.weft]) (by simp) (by decide) h

@[simp] theorem settleWear_mem (s : State) (h : Memory.wf s.mem.bytes = true) : Memory.wf (settleWear s).mem.bytes =
    true :=
  Only.memOk (W := [.weft]) (by simp) (by decide) h

@[simp] theorem noDark_mem (s : State) (h : Memory.wf s.mem.bytes = true) : Memory.wf (noDark s).mem.bytes = true :=
  Only.memOk (W := [.weft]) (by simp) (by decide) h

@[simp] theorem loadFrame_mem (a0) (s : State) (h : Memory.wf s.mem.bytes = true) : Memory.wf (loadFrame a0
    s).mem.bytes = true :=
  Only.memOk (W := [.sent, .weft]) (by simp) (by decide) h

@[simp] theorem takeReport_mem (a0) (a1) (s : State) (h : Memory.wf s.mem.bytes = true) : Memory.wf (takeReport a0 a1
    s).mem.bytes = true :=
  Only.memOk (W := [.bri]) (by simp) (by decide) h

@[simp] theorem sendTarget_mem (a0) (a1) (a2) (s : State) (h : Memory.wf s.mem.bytes = true) : Memory.wf (sendTarget
    a0 a1 a2 s).mem.bytes = true :=
  Only.memOk (W := [.status, .sv, .disc, .bri]) (by simp) (by decide) h

@[simp] theorem ownBright_mem (a0) (s : State) (h : Memory.wf s.mem.bytes = true) : Memory.wf (ownBright a0
    s).mem.bytes = true :=
  Only.memOk (W := [.bri]) (by simp) (by decide) h

@[simp] theorem moveTarget_mem (s : State) (h : Memory.wf s.mem.bytes = true) : Memory.wf (moveTarget s).mem.bytes =
    true :=
  Only.memOk (W := [.status, .sv, .disc, .bri]) (by simp) (by decide) h

@[simp] theorem brightAtBeat_mem (s : State) (h : Memory.wf s.mem.bytes = true) : Memory.wf (brightAtBeat s).mem.bytes
    = true :=
  Only.memOk (W := [.live, .status, .sv, .disc, .bri]) (by simp) (by decide) h

@[simp] theorem takeTarget_mem (a0) (s : State) (h : Memory.wf s.mem.bytes = true) : Memory.wf (takeTarget a0
    s).mem.bytes = true :=
  Only.memOk (W := [.standby, .bri]) (by simp) (by decide) h

@[simp] theorem brightIn_mem (a0) (a1) (s : State) (h : Memory.wf s.mem.bytes = true) : Memory.wf (brightIn a0 a1
    s).mem.bytes = true :=
  Only.memOk (W := [.standby, .status, .sv, .disc, .bri]) (by simp) (by decide) h

@[simp] theorem targetsAtBeat_mem (a0) (s : State) (h : Memory.wf s.mem.bytes = true) : Memory.wf (targetsAtBeat a0
    s).mem.bytes = true :=
  Only.memOk (W := [.bri]) (by simp) (by decide) h

@[simp] theorem trackNight_mem (s : State) (h : Memory.wf s.mem.bytes = true) : Memory.wf (trackNight s).mem.bytes =
    true :=
  Only.memOk (W := [.standby]) (by simp) (by decide) h

@[simp] theorem placeCensus_mem (a0) (a1) (a2) (s : State) (h : Memory.wf s.mem.bytes = true) : Memory.wf (placeCensus
    a0 a1 a2 s).mem.bytes = true :=
  Only.memOk (W := [.weft]) (by simp) (by decide) h

@[simp] theorem censusFaults_mem (a0) (s : State) (h : Memory.wf s.mem.bytes = true) : Memory.wf (censusFaults a0
    s).mem.bytes = true :=
  Only.memOk (W := [.flt, .status, .net, .sv, .disc, .weft, .bea]) (by simp) (by decide) h

@[simp] theorem loadWear_mem (s : State) (h : Memory.wf s.mem.bytes = true) : Memory.wf (loadWear s).mem.bytes = true
    :=
  Only.memOk (W := [.flt, .ldg, .status, .net, .sv, .disc, .weft, .bea]) (by simp) (by decide) h

@[simp] theorem gateUnused_mem (s : State) (h : Memory.wf s.mem.bytes = true) : Memory.wf (gateUnused s).mem.bytes =
    true :=
  Only.memOk (W := [.pwr, .test, .weft]) (by simp) (by decide) h

@[simp] theorem firstIdle_mem (s : State) (h : Memory.wf s.mem.bytes = true) : Memory.wf (firstIdle s).mem.bytes =
    true :=
  Only.memOk (W := [.live, .boot, .test, .flt, .holds, .bri, .mark, .aud]) (by simp) (by decide) h

@[simp] theorem setTrip_mem (a0) (a1) (s : State) (h : Memory.wf s.mem.bytes = true) : Memory.wf (setTrip a0 a1
    s).mem.bytes = true :=
  Only.memOk (W := [.weft]) (by simp) (by decide) h

@[simp] theorem modPort_mem (a0) (a1) (s : State) (h : Memory.wf s.mem.bytes = true) : Memory.wf (modPort a0 a1
    s).mem.bytes = true :=
  Only.memOk (W := [.weft]) (by simp) (by decide) h

@[simp] theorem returnGroup_mem (a0) (s : State) (h : Memory.wf s.mem.bytes = true) : Memory.wf (returnGroup a0
    s).mem.bytes = true :=
  Only.memOk (W := [.weft]) (by simp) (by decide) h

@[simp] theorem recensusFreed_mem (a0) (s : State) (h : Memory.wf s.mem.bytes = true) : Memory.wf (recensusFreed a0
    s).mem.bytes = true :=
  Only.memOk (W := [.weft]) (by simp) (by decide) h

@[simp] theorem retestTrip_mem (a0) (a1) (a2) (a3) (s : State) (h : Memory.wf s.mem.bytes = true) : Memory.wf
    (retestTrip a0 a1 a2 a3 s).mem.bytes = true :=
  Only.memOk (W := [.flt, .status, .net, .sv, .disc, .weft, .bea]) (by simp) (by decide) h

@[simp] theorem retestSdo_mem (a0) (a1) (a2) (s : State) (h : Memory.wf s.mem.bytes = true) : Memory.wf (retestSdo a0
    a1 a2 s).mem.bytes = true :=
  Only.memOk (W := [.flt, .status, .net, .sv, .disc, .weft, .bea]) (by simp) (by decide) h

@[simp] theorem restoreGroups_mem (s : State) (h : Memory.wf s.mem.bytes = true) : Memory.wf (restoreGroups
    s).mem.bytes = true :=
  Only.memOk (W := [.sent, .weft]) (by simp) (by decide) h

@[simp] theorem flagChannel_mem (a0) (s : State) (h : Memory.wf s.mem.bytes = true) : Memory.wf (flagChannel a0
    s).mem.bytes = true :=
  Only.memOk (W := [.flt, .status, .net, .sv, .disc, .weft, .bea]) (by simp) (by decide) h

@[simp] theorem takeFlags_mem (a0) (a1) (a2) (a3) (s : State) (h : Memory.wf s.mem.bytes = true) : Memory.wf
    (takeFlags a0 a1 a2 a3 s).1.mem.bytes = true :=
  Only.memOk (W := [.flt, .status, .net, .sv, .disc, .weft, .bea]) (by simp) (by decide) h

@[simp] theorem endReads_mem (a0) (a1) (s : State) (h : Memory.wf s.mem.bytes = true) : Memory.wf (endReads a0 a1
    s).mem.bytes = true :=
  Only.memOk (W := [.test, .weft]) (by simp) (by decide) h

@[simp] theorem takeRead_mem (a0) (s : State) (h : Memory.wf s.mem.bytes = true) : Memory.wf (takeRead a0 s).mem.bytes
    = true :=
  Only.memOk (W := [.test, .flt, .status, .net, .sv, .disc, .weft, .bea]) (by simp) (by decide) h

@[simp] theorem startReads_mem (s : State) (h : Memory.wf s.mem.bytes = true) : Memory.wf (startReads s).mem.bytes =
    true :=
  Only.memOk (W := [.weft]) (by simp) (by decide) h

@[simp] theorem updateWear_mem (s : State) (h : Memory.wf s.mem.bytes = true) : Memory.wf (updateWear s).mem.bytes =
    true :=
  Only.memOk (W := [.weft]) (by simp) (by decide) h

@[simp] theorem finishLedger_mem (a0) (s : State) (h : Memory.wf s.mem.bytes = true) : Memory.wf (finishLedger a0
    s).mem.bytes = true :=
  Only.memOk (W := [.flt, .ldg, .weft]) (by simp) (by decide) h

@[simp] theorem abandonRegion_mem (a0) (s : State) (h : Memory.wf s.mem.bytes = true) : Memory.wf (abandonRegion a0
    s).mem.bytes = true :=
  Only.memOk (W := [.flt, .ldg, .status, .net, .sv, .disc, .weft, .bea]) (by simp) (by decide) h

@[simp] theorem modChan_mem (a0) (a1) (s : State) (h : Memory.wf s.mem.bytes = true) : Memory.wf (modChan a0 a1
    s).mem.bytes = true :=
  Only.memOk (W := [.mark]) (by simp) (by decide) h

@[simp] theorem modMGroup_mem (a0) (a1) (s : State) (h : Memory.wf s.mem.bytes = true) : Memory.wf (modMGroup a0 a1
    s).mem.bytes = true :=
  Only.memOk (W := [.mark]) (by simp) (by decide) h

@[simp] theorem checkOne_mem (a0) (a1) (a2) (s : State) (h : Memory.wf s.mem.bytes = true) : Memory.wf (checkOne a0 a1
    a2 s).mem.bytes = true :=
  Only.memOk (W := [.mark]) (by simp) (by decide) h

@[simp] theorem groupOff_mem (a0) (s : State) (h : Memory.wf s.mem.bytes = true) : Memory.wf (groupOff a0 s).mem.bytes
    = true :=
  Only.memOk (W := [.flt, .status, .net, .sv, .disc, .weft, .mark, .bea]) (by simp) (by decide) h

@[simp] theorem noteMarker_mem (s : State) (h : Memory.wf s.mem.bytes = true) : Memory.wf (noteMarker s).mem.bytes =
    true :=
  Only.memOk (W := [.test]) (by simp) (by decide) h

@[simp] theorem failChan_mem (a0) (a1) (s : State) (h : Memory.wf s.mem.bytes = true) : Memory.wf (failChan a0 a1
    s).mem.bytes = true :=
  Only.memOk (W := [.mark]) (by simp) (by decide) h

@[simp] theorem noteOpen_mem (a0) (a1) (a2) (s : State) (h : Memory.wf s.mem.bytes = true) : Memory.wf (noteOpen a0 a1
    a2 s).mem.bytes = true :=
  Only.memOk (W := [.test, .flt, .status, .net, .sv, .disc, .weft, .mark, .bea]) (by simp) (by decide) h

@[simp] theorem noteShort_mem (a0) (a1) (a2) (a3) (s : State) (h : Memory.wf s.mem.bytes = true) : Memory.wf
    (noteShort a0 a1 a2 a3 s).mem.bytes = true :=
  Only.memOk (W := [.test, .flt, .status, .net, .sv, .disc, .weft, .mark, .bea]) (by simp) (by decide) h

@[simp] theorem latchOff_mem (a0) (a1) (a2) (s : State) (h : Memory.wf s.mem.bytes = true) : Memory.wf (latchOff a0 a1
    a2 s).mem.bytes = true :=
  Only.memOk (W := [.test, .flt, .status, .net, .sv, .disc, .weft, .mark, .bea]) (by simp) (by decide) h

@[simp] theorem noteSupply_mem (a0) (a1) (a2) (s : State) (h : Memory.wf s.mem.bytes = true) : Memory.wf (noteSupply
    a0 a1 a2 s).mem.bytes = true :=
  Only.memOk (W := [.test, .flt, .status, .net, .sv, .disc, .weft, .mark, .bea]) (by simp) (by decide) h

theorem compareRefs_mem (a0) (a1) (a2) (s : State) (h : Memory.wf s.mem.bytes = true) :
    Memory.wf (compareRefs a0 a1 a2 s).mem.bytes = true :=
  Only.memOk (W := [.test, .flt, .status, .net, .sv, .disc, .weft, .mark, .bea]) (by rw [compareRefs_only _ _ _ _ _ _ (by decide)]; simp) (by decide) h

@[simp] theorem actOn_mem (a0) (a1) (s : State) (h : Memory.wf s.mem.bytes = true) : Memory.wf (actOn a0 a1
    s).mem.bytes = true :=
  Only.memOk (W := [.test, .flt, .status, .net, .sv, .disc, .weft, .mark, .bea]) (by simp) (by decide) h

@[simp] theorem endFaults_mem (a0) (s : State) (h : Memory.wf s.mem.bytes = true) : Memory.wf (endFaults a0
    s).mem.bytes = true :=
  Only.memOk (W := [.flt, .status, .net, .sv, .disc, .mark, .bea]) (by simp) (by decide) h

@[simp] theorem restoreGroup_mem (a0) (s : State) (h : Memory.wf s.mem.bytes = true) : Memory.wf (restoreGroup a0
    s).mem.bytes = true :=
  Only.memOk (W := [.flt, .status, .net, .sv, .disc, .mark, .bea]) (by simp) (by decide) h

@[simp] theorem deadGroup_mem (a0) (s : State) (h : Memory.wf s.mem.bytes = true) : Memory.wf (deadGroup a0
    s).mem.bytes = true :=
  Only.memOk (W := [.flt, .status, .net, .sv, .disc, .weft, .mark, .bea]) (by simp) (by decide) h

@[simp] theorem trackTotal_mem (a0) (s : State) (h : Memory.wf s.mem.bytes = true) : Memory.wf (trackTotal a0
    s).mem.bytes = true :=
  Only.memOk (W := [.mark]) (by simp) (by decide) h

@[simp] theorem trackPower_mem (a0) (s : State) (h : Memory.wf s.mem.bytes = true) : Memory.wf (trackPower a0
    s).mem.bytes = true :=
  Only.memOk (W := [.mark]) (by simp) (by decide) h

@[simp] theorem reduceChan_mem (a0) (s : State) (h : Memory.wf s.mem.bytes = true) : Memory.wf (reduceChan a0
    s).mem.bytes = true :=
  Only.memOk (W := [.flt, .status, .net, .sv, .disc, .weft, .mark, .bea]) (by simp) (by decide) h

@[simp] theorem reduceTotal_mem (s : State) (h : Memory.wf s.mem.bytes = true) : Memory.wf (reduceTotal s).mem.bytes =
    true :=
  Only.memOk (W := [.flt, .status, .net, .sv, .disc, .weft, .mark, .bea]) (by simp) (by decide) h

@[simp] theorem trackVled_mem (a0) (s : State) (h : Memory.wf s.mem.bytes = true) : Memory.wf (trackVled a0
    s).mem.bytes = true :=
  Only.memOk (W := [.mark]) (by simp) (by decide) h

@[simp] theorem checkAll_mem (a0) (a1) (s : State) (h : Memory.wf s.mem.bytes = true) : Memory.wf (checkAll a0 a1
    s).mem.bytes = true :=
  Only.memOk (W := [.test, .flt, .status, .net, .sv, .disc, .weft, .mark, .bea]) (by simp) (by decide) h

@[simp] theorem setAllQ_mem (s : State) (h : Memory.wf s.mem.bytes = true) : Memory.wf (setAllQ s).mem.bytes = true :=
  Only.memOk (W := [.mark]) (by simp) (by decide) h

@[simp] theorem noteRestore_mem (a0) (s : State) (h : Memory.wf s.mem.bytes = true) : Memory.wf (noteRestore a0
    s).mem.bytes = true :=
  Only.memOk (W := [.mark]) (by simp) (by decide) h

@[simp] theorem retryPass_mem (a0) (a1) (s : State) (h : Memory.wf s.mem.bytes = true) : Memory.wf (retryPass a0 a1
    s).mem.bytes = true :=
  Only.memOk (W := [.mark]) (by simp) (by decide) h

@[simp] theorem retryFail_mem (a0) (s : State) (h : Memory.wf s.mem.bytes = true) : Memory.wf (retryFail a0
    s).mem.bytes = true :=
  Only.memOk (W := [.mark]) (by simp) (by decide) h

@[simp] theorem fetchFaults_mem (a0) (a1) (s : State) (h : Memory.wf s.mem.bytes = true) : Memory.wf (fetchFaults a0
    a1 s).mem.bytes = true :=
  Only.memOk (W := [.flt, .status, .net, .sv, .disc, .weft, .bea]) (by simp) (by decide) h

@[simp] theorem fetchSample_mem (a0) (s : State) (h : Memory.wf s.mem.bytes = true) : Memory.wf (fetchSample a0
    s).mem.bytes = true :=
  Only.memOk (W := [.flt, .status, .net, .sv, .disc, .weft, .aud, .bea]) (by simp) (by decide) h

@[simp] theorem downPositions_mem (a0) (a1) (s : State) (h : Memory.wf s.mem.bytes = true) : Memory.wf (downPositions
    a0 a1 s).mem.bytes = true :=
  Only.memOk (W := [.aud]) (by simp) (by decide) h

@[simp] theorem swapRoute_mem (a0) (a1) (s : State) (h : Memory.wf s.mem.bytes = true) : Memory.wf (swapRoute a0 a1
    s).mem.bytes = true :=
  Only.memOk (W := [.aud]) (by simp) (by decide) h

@[simp] theorem switchIfDue_mem (a0) (s : State) (h : Memory.wf s.mem.bytes = true) : Memory.wf (switchIfDue a0
    s).mem.bytes = true :=
  Only.memOk (W := [.aud]) (by simp) (by decide) h

@[simp] theorem startFades_mem (a0) (s : State) (h : Memory.wf s.mem.bytes = true) : Memory.wf (startFades a0
    s).mem.bytes = true :=
  Only.memOk (W := [.aud]) (by simp) (by decide) h

@[simp] theorem endSwitch_mem (a0) (s : State) (h : Memory.wf s.mem.bytes = true) : Memory.wf (endSwitch a0
    s).mem.bytes = true :=
  Only.memOk (W := [.aud]) (by simp) (by decide) h

@[simp] theorem emitSample_mem (a0) (a1) (s : State) (h : Memory.wf s.mem.bytes = true) : Memory.wf (emitSample a0 a1
    s).mem.bytes = true :=
  Only.memOk (W := [.aud]) (by simp) (by decide) h

@[simp] theorem playAll_mem (a0) (s : State) (h : Memory.wf s.mem.bytes = true) : Memory.wf (playAll a0 s).mem.bytes =
    true :=
  Only.memOk (W := [.aud]) (by simp) (by decide) h

@[simp] theorem restartAudio_mem (s : State) (h : Memory.wf s.mem.bytes = true) : Memory.wf (restartAudio s).mem.bytes
    = true :=
  Only.memOk (W := [.aud]) (by simp) (by decide) h

@[simp] theorem playDue_mem (s : State) (h : Memory.wf s.mem.bytes = true) : Memory.wf (playDue s).mem.bytes = true :=
  Only.memOk (W := [.time, .aud]) (by simp) (by decide) h

@[simp] theorem audioClock_mem (a0) (a1) (s : State) (h : Memory.wf s.mem.bytes = true) : Memory.wf (audioClock a0 a1
    s).mem.bytes = true :=
  Only.memOk (W := [.clk, .aud]) (by simp) (by decide) h

@[simp] theorem activate_mem (s : State) (h : Memory.wf s.mem.bytes = true) : Memory.wf (activate s).mem.bytes = true
    :=
  Only.memOk (W := [.card]) (by simp) (by decide) h

@[simp] theorem cardFail_mem (a0) (s : State) (h : Memory.wf s.mem.bytes = true) : Memory.wf (cardFail a0 s).mem.bytes
    = true :=
Only.memOk (W := [.keys, .lifecycle, .flt, .status, .net, .sv, .disc, .weft, .bea, .card, .dlg]) (by simp) (by decide)
    h

@[simp] theorem signalErrors_mem (a0) (s : State) (h : Memory.wf s.mem.bytes = true) : Memory.wf (signalErrors a0
    s).mem.bytes = true :=
  Only.memOk (W := [.sent]) (by simp) (by decide) h

@[simp] theorem cardSend_mem (a0) (a1) (s : State) (h : Memory.wf s.mem.bytes = true) : Memory.wf (cardSend a0 a1
    s).mem.bytes = true :=
  Only.memOk (W := [.card]) (by simp) (by decide) h

@[simp] theorem beginDialogue_mem (s : State) (h : Memory.wf s.mem.bytes = true) : Memory.wf (beginDialogue
    s).mem.bytes = true :=
  Only.memOk (W := [.keys, .lifecycle, .card, .dlg]) (by simp) (by decide) h

@[simp] theorem chooseSpeed_mem (a0) (s : State) (h : Memory.wf s.mem.bytes = true) : Memory.wf (chooseSpeed a0
    s).mem.bytes = true :=
Only.memOk (W := [.sent, .keys, .lifecycle, .flt, .status, .net, .sv, .disc, .weft, .bea, .card, .dlg]) (by simp) (by
    decide) h

@[simp] theorem takeAtr_mem (a0) (s : State) (h : Memory.wf s.mem.bytes = true) : Memory.wf (takeAtr a0 s).mem.bytes =
    true :=
Only.memOk (W := [.sent, .keys, .lifecycle, .flt, .status, .net, .sv, .disc, .weft, .bea, .card, .dlg]) (by simp) (by
    decide) h

@[simp] theorem takePps_mem (a0) (a1) (s : State) (h : Memory.wf s.mem.bytes = true) : Memory.wf (takePps a0 a1
    s).mem.bytes = true :=
Only.memOk (W := [.keys, .lifecycle, .flt, .status, .net, .sv, .disc, .weft, .bea, .card, .dlg]) (by simp) (by decide)
    h

@[simp] theorem sendStep_mem (a0) (a1) (a2) (a3) (a4) (s : State) (h : Memory.wf s.mem.bytes = true) : Memory.wf
    (sendStep a0 a1 a2 a3 a4 s).mem.bytes = true :=
  Only.memOk (W := [.sent, .card, .dlg]) (by simp) (by decide) h

@[simp] theorem endStep_mem (a0) (a1) (a2) (s : State) (h : Memory.wf s.mem.bytes = true) : Memory.wf (endStep a0 a1
    a2 s).mem.bytes = true :=
  Only.memOk (W := [.keys, .lifecycle, .card, .dlg]) (by simp) (by decide) h

@[simp] theorem drawNonce_mem (s : State) (h : Memory.wf s.mem.bytes = true) : Memory.wf (drawNonce s).mem.bytes =
    true :=
  Only.memOk (W := [.fresh, .dlg]) (by simp) (by decide) h

@[simp] theorem takeReply_mem (a0) (a1) (s : State) (h : Memory.wf s.mem.bytes = true) : Memory.wf (takeReply a0 a1
    s).mem.bytes = true :=
  Only.memOk (W := [.keys, .lifecycle, .card, .dlg]) (by simp) (by decide) h

@[simp] theorem carryRoot_mem (a0) (a1) (s : State) (h : Memory.wf s.mem.bytes = true) : Memory.wf (carryRoot a0 a1
    s).mem.bytes = true :=
Only.memOk (W := [.keys, .lifecycle, .flt, .ldg, .status, .net, .sv, .disc, .weft, .bea, .dlg]) (by simp) (by decide)
    h

@[simp] theorem carryOut_mem (a0) (a1) (s : State) (h : Memory.wf s.mem.bytes = true) : Memory.wf (carryOut a0 a1
    s).mem.bytes = true :=
Only.memOk (W := [.keys, .lifecycle, .flt, .ldg, .status, .net, .sv, .disc, .weft, .bea, .dlg]) (by simp) (by decide)
    h

@[simp] theorem takeOrder_mem (a0) (a1) (s : State) (h : Memory.wf s.mem.bytes = true) : Memory.wf (takeOrder a0 a1
    s).mem.bytes = true :=
Only.memOk (W := [.keys, .lifecycle, .flt, .ldg, .status, .net, .sv, .disc, .weft, .bea, .dlg]) (by simp) (by decide)
    h

@[simp] theorem endOrder_mem (a0) (a1) (s : State) (h : Memory.wf s.mem.bytes = true) : Memory.wf (endOrder a0 a1
    s).mem.bytes = true :=
Only.memOk (W := [.keys, .lifecycle, .flt, .ldg, .status, .net, .sv, .disc, .weft, .bea, .card, .dlg]) (by simp) (by
    decide) h

@[simp] theorem noteReceipt_mem (a0) (a1) (s : State) (h : Memory.wf s.mem.bytes = true) : Memory.wf (noteReceipt a0
    a1 s).mem.bytes = true :=
  Only.memOk (W := [.dlg]) (by simp) (by decide) h

@[simp] theorem startInit_mem (s : State) (h : Memory.wf s.mem.bytes = true) : Memory.wf (startInit s).mem.bytes =
    true := by
  unfold startInit
  (try simp [h]) <;> (repeat' split) <;> simp_all (maxDischargeDepth := 99)

@[simp] theorem swapWindows_mem (s : State) (h : Memory.wf s.mem.bytes = true) : Memory.wf (swapWindows s).mem.bytes =
    true :=
  Only.memOk (W := [.scene]) (by simp) (by decide) h

@[simp] theorem emptyRings_mem (s : State) (h : Memory.wf s.mem.bytes = true) : Memory.wf (emptyRings s).mem.bytes =
    true :=
  Only.memOk (W := [.aud]) (by simp) (by decide) h

theorem execMemoryInitComplete_mem (s t : State) (h : execMemoryInitComplete s = .next t) (hm : Memory.wf s.mem.bytes
    = true) : Memory.wf t.mem.bytes = true := by
  revert t h
  show MemOut _
  unfold execMemoryInitComplete
  first
    | ((repeat' split) <;> (simp [hm]; done))
    | ((repeat' split) <;> (simp_all (maxDischargeDepth := 99); done))
    | ((try dsimp only) <;> (repeat' split) <;> (simp_all (maxDischargeDepth := 99); done))

@[simp] theorem ledgerHalt_mem (s : State) (h : Memory.wf s.mem.bytes = true) : Memory.wf (ledgerHalt s).mem.bytes =
    true :=
  Only.memOk (W := [.ldg, .weft]) (by simp) (by decide) h

@[simp] theorem debugAbandons_mem (s : State) (h : Memory.wf s.mem.bytes = true) : Memory.wf (debugAbandons
    s).mem.bytes = true :=
  Only.memOk (W := [.keys, .lifecycle, .flt, .status, .net, .sv, .disc, .weft, .bea]) (by simp) (by decide) h

@[simp] theorem enableDebug_mem (s : State) (h : Memory.wf s.mem.bytes = true) : Memory.wf (enableDebug s).mem.bytes =
    true := by
  unfold enableDebug
  (try simp [h]) <;> (repeat' split) <;> simp_all (maxDischargeDepth := 99)

@[simp] theorem loadIr_mem (a0) (s : State) (h : Memory.wf s.mem.bytes = true) : Memory.wf (loadIr a0 s).mem.bytes =
    true :=
  Only.memOk (W := [.pins]) (by simp) (by decide) h

@[simp] theorem resetTap_mem (s : State) (h : Memory.wf s.mem.bytes = true) : Memory.wf (resetTap s).mem.bytes = true
    :=
  Only.memOk (W := [.pins]) (by simp) (by decide) h

theorem execTapInstructionLoad_mem (a0) (a1) (s t : State) (h : execTapInstructionLoad a0 a1 s = .next t) (hm :
    Memory.wf s.mem.bytes = true) : Memory.wf t.mem.bytes = true := by
  revert t h
  show MemOut _
  unfold execTapInstructionLoad
  first
    | ((repeat' split) <;> (simp [hm]; done))
    | ((repeat' split) <;> (simp_all (maxDischargeDepth := 99); done))
    | ((try dsimp only) <;> (repeat' split) <;> (simp_all (maxDischargeDepth := 99); done))

@[simp] theorem gotXon_mem (s : State) (h : Memory.wf s.mem.bytes = true) : Memory.wf (gotXon s).mem.bytes = true :=
  Only.memOk (W := [.bob]) (by simp) (by decide) h

@[simp] theorem gotXoff_mem (s : State) (h : Memory.wf s.mem.bytes = true) : Memory.wf (gotXoff s).mem.bytes = true :=
  Only.memOk (W := [.bob]) (by simp) (by decide) h

@[simp] theorem busUsed_mem (s : State) (h : Memory.wf s.mem.bytes = true) : Memory.wf (busUsed s).mem.bytes = true :=
  Only.memOk (W := [.bob]) (by simp) (by decide) h

@[simp] theorem takeFlow_mem (a0) (s : State) (h : Memory.wf s.mem.bytes = true) : Memory.wf (takeFlow a0 s).mem.bytes
    = true :=
  Only.memOk (W := [.bob]) (by simp) (by decide) h

@[simp] theorem bobNoise_mem (a0) (s : State) (h : Memory.wf s.mem.bytes = true) : Memory.wf (bobNoise a0 s).mem.bytes
    = true :=
  Only.memOk (W := [.flt, .status, .net, .sv, .disc, .weft, .bob, .bea]) (by simp) (by decide) h

@[simp] theorem flagSlot_mem (a0) (s : State) (h : Memory.wf s.mem.bytes = true) : Memory.wf (flagSlot a0 s).mem.bytes
    = true :=
  Only.memOk (W := [.bob]) (by simp) (by decide) h

@[simp] theorem discardFrame_mem (s : State) (h : Memory.wf s.mem.bytes = true) : Memory.wf (discardFrame s).mem.bytes
    = true :=
  Only.memOk (W := [.status, .bob]) (by simp) (by decide) h

@[simp] theorem answerTo_mem (a0) (a1) (a2) (s : State) (h : Memory.wf s.mem.bytes = true) : Memory.wf (answerTo a0 a1
    a2 s).mem.bytes = true :=
  Only.memOk (W := [.bob]) (by simp) (by decide) h

@[simp] theorem ack_mem (a0) (a1) (s : State) (h : Memory.wf s.mem.bytes = true) : Memory.wf (ack a0 a1 s).mem.bytes =
    true :=
  Only.memOk (W := [.bob]) (by simp) (by decide) h

@[simp] theorem noteOrder_mem (a0) (s : State) (h : Memory.wf s.mem.bytes = true) : Memory.wf (noteOrder a0
    s).mem.bytes = true :=
  Only.memOk (W := [.bob]) (by simp) (by decide) h

@[simp] theorem takeStandby_mem (a0) (s : State) (h : Memory.wf s.mem.bytes = true) : Memory.wf (takeStandby a0
    s).mem.bytes = true :=
  Only.memOk (W := [.standby, .bob]) (by simp) (by decide) h

@[simp] theorem takeLevel_mem (a0) (s : State) (h : Memory.wf s.mem.bytes = true) : Memory.wf (takeLevel a0
    s).mem.bytes = true :=
  Only.memOk (W := [.aud, .bob]) (by simp) (by decide) h

@[simp] theorem takeOrderFrame_mem (a0) (s : State) (h : Memory.wf s.mem.bytes = true) : Memory.wf (takeOrderFrame a0
    s).mem.bytes = true :=
  Only.memOk (W := [.standby, .status, .aud, .bob]) (by simp) (by decide) h

@[simp] theorem takeStatus_mem (a0) (s : State) (h : Memory.wf s.mem.bytes = true) : Memory.wf (takeStatus a0
    s).mem.bytes = true :=
  Only.memOk (W := [.bob]) (by simp) (by decide) h

@[simp] theorem takeRollcall_mem (a0) (s : State) (h : Memory.wf s.mem.bytes = true) : Memory.wf (takeRollcall a0
    s).mem.bytes = true :=
  Only.memOk (W := [.bob]) (by simp) (by decide) h

@[simp] theorem processFrame_mem (a0) (s : State) (h : Memory.wf s.mem.bytes = true) : Memory.wf (processFrame a0
    s).mem.bytes = true :=
  Only.memOk (W := [.standby, .status, .aud, .bob]) (by simp) (by decide) h

@[simp] theorem processWaiting_mem (a0) (s : State) (h : Memory.wf s.mem.bytes = true) : Memory.wf (processWaiting a0
    s).mem.bytes = true :=
  Only.memOk (W := [.standby, .status, .aud, .bob]) (by simp) (by decide) h

@[simp] theorem acceptFrame_mem (a0) (s : State) (h : Memory.wf s.mem.bytes = true) : Memory.wf (acceptFrame a0
    s).mem.bytes = true :=
  Only.memOk (W := [.standby, .status, .aud, .bob]) (by simp) (by decide) h

@[simp] theorem checkFrame_mem (a0) (s : State) (h : Memory.wf s.mem.bytes = true) : Memory.wf (checkFrame a0
    s).mem.bytes = true :=
  Only.memOk (W := [.standby, .flt, .status, .net, .sv, .disc, .weft, .aud, .bob, .bea]) (by simp) (by decide) h

@[simp] theorem takeSeg_mem (a0) (a1) (a2) (s : State) (h : Memory.wf s.mem.bytes = true) : Memory.wf (takeSeg a0 a1
    a2 s).mem.bytes = true :=
  Only.memOk (W := [.standby, .flt, .status, .net, .sv, .disc, .weft, .aud, .bob, .bea]) (by simp) (by decide) h

@[simp] theorem takeSegs_mem (a0) (a1) (s : State) (h : Memory.wf s.mem.bytes = true) : Memory.wf (takeSegs a0 a1
    s).mem.bytes = true :=
  Only.memOk (W := [.standby, .flt, .status, .net, .sv, .disc, .weft, .aud, .bob, .bea]) (by simp) (by decide) h

@[simp] theorem overran_mem (a0) (s : State) (h : Memory.wf s.mem.bytes = true) : Memory.wf (overran a0 s).mem.bytes =
    true :=
  Only.memOk (W := [.flt, .status, .net, .sv, .disc, .weft, .bea]) (by simp) (by decide) h

@[simp] theorem startSending_mem (a0) (s : State) (h : Memory.wf s.mem.bytes = true) : Memory.wf (startSending a0
    s).mem.bytes = true :=
  Only.memOk (W := [.bob]) (by simp) (by decide) h

@[simp] theorem sendChars_mem (a0) (a1) (s : State) (h : Memory.wf s.mem.bytes = true) : Memory.wf (sendChars a0 a1
    s).mem.bytes = true :=
  Only.memOk (W := [.flt, .status, .net, .sv, .disc, .weft, .bob, .bea]) (by simp) (by decide) h

@[simp] theorem sendBob_mem (a0) (a1) (a2) (a3) (s : State) (h : Memory.wf s.mem.bytes = true) : Memory.wf (sendBob a0
    a1 a2 a3 s).mem.bytes = true :=
  Only.memOk (W := [.sent, .flt, .status, .net, .sv, .disc, .weft, .bob, .bea]) (by simp) (by decide) h

@[simp] theorem endAnswer_mem (s : State) (h : Memory.wf s.mem.bytes = true) : Memory.wf (endAnswer s).mem.bytes =
    true :=
  Only.memOk (W := [.standby, .status, .aud, .bob]) (by simp) (by decide) h

@[simp] theorem closeWindow_mem (s : State) (h : Memory.wf s.mem.bytes = true) : Memory.wf (closeWindow s).mem.bytes =
    true :=
  Only.memOk (W := [.bob]) (by simp) (by decide) h

@[simp] theorem sendRollcall_mem (a0) (s : State) (h : Memory.wf s.mem.bytes = true) : Memory.wf (sendRollcall a0
    s).mem.bytes = true :=
  Only.memOk (W := [.sent, .flt, .status, .net, .sv, .disc, .weft, .bob, .bea]) (by simp) (by decide) h

@[simp] theorem sendFlow_mem (a0) (a1) (s : State) (h : Memory.wf s.mem.bytes = true) : Memory.wf (sendFlow a0 a1
    s).mem.bytes = true :=
  Only.memOk (W := [.flt, .status, .net, .sv, .disc, .weft, .bob, .bea]) (by simp) (by decide) h

@[simp] theorem judgeEcho_mem (a0) (a1) (s : State) (h : Memory.wf s.mem.bytes = true) : Memory.wf (judgeEcho a0 a1
    s).mem.bytes = true :=
  Only.memOk (W := [.flt, .status, .net, .sv, .disc, .weft, .bea]) (by simp) (by decide) h

@[simp] theorem drainPort_mem (a0) (s : State) (a1) (h : Memory.wf s.mem.bytes = true) : Memory.wf (drainPort a0 s
    a1).mem.bytes = true :=
  Only.memOk (W := [.sent, .status, .net, .time]) (by simp) (by decide) h

@[simp] theorem drainPorts_mem (s : State) (h : Memory.wf s.mem.bytes = true) : Memory.wf (drainPorts s).mem.bytes =
    true :=
  Only.memOk (W := [.sent, .status, .net, .time]) (by simp) (by decide) h

@[simp] theorem txOff_mem (s : State) (h : Memory.wf s.mem.bytes = true) : Memory.wf (txOff s).mem.bytes = true :=
  Only.memOk (W := [.net]) (by simp) (by decide) h

@[simp] theorem coreOff_mem (s : State) (h : Memory.wf s.mem.bytes = true) : Memory.wf (coreOff s).mem.bytes = true := by
  unfold coreOff
  (try simp [h]) <;> (repeat' split) <;> simp_all (maxDischargeDepth := 99)

@[simp] theorem fallAsleep_mem (a0) (s : State) (h : Memory.wf s.mem.bytes = true) : Memory.wf (fallAsleep a0
    s).mem.bytes = true := by
  unfold fallAsleep
  (try simp [h]) <;> (repeat' split) <;> simp_all (maxDischargeDepth := 99)

theorem execStandbyPowerDown_mem (a0) (s t : State) (h : execStandbyPowerDown a0 s = .next t) (hm : Memory.wf
    s.mem.bytes = true) : Memory.wf t.mem.bytes = true := by
  revert t h
  show MemOut _
  unfold execStandbyPowerDown
  first
    | ((repeat' split) <;> (simp [hm]; done))
    | ((repeat' split) <;> (simp_all (maxDischargeDepth := 99); done))
    | ((try dsimp only) <;> (repeat' split) <;> (simp_all (maxDischargeDepth := 99); done))

theorem execTimedWake_mem (a0) (s t : State) (h : execTimedWake a0 s = .next t) (hm : Memory.wf s.mem.bytes = true) :
    Memory.wf t.mem.bytes = true := by
  revert t h
  show MemOut _
  unfold execTimedWake
  first
    | ((repeat' split) <;> (simp [hm]; done))
    | ((repeat' split) <;> (simp_all (maxDischargeDepth := 99); done))
    | ((try dsimp only) <;> (repeat' split) <;> (simp_all (maxDischargeDepth := 99); done))

@[simp] theorem startCheck_mem (a0) (s : State) (h : Memory.wf s.mem.bytes = true) : Memory.wf (startCheck a0
    s).mem.bytes = true :=
  Only.memOk (W := [.standby, .clk, .boot]) (by simp) (by decide) h

@[simp] theorem sleepAgain_mem (s : State) (h : Memory.wf s.mem.bytes = true) : Memory.wf (sleepAgain s).mem.bytes =
    true :=
  Only.memOk (W := [.pwr, .standby, .clk, .boot]) (by simp) (by decide) h

theorem execWakeCheck_mem (a0) (s t : State) (h : execWakeCheck a0 s = .next t) (hm : Memory.wf s.mem.bytes = true) :
    Memory.wf t.mem.bytes = true := by
  revert t h
  show MemOut _
  unfold execWakeCheck
  first
    | ((repeat' split) <;> (simp [hm]; done))
    | ((repeat' split) <;> (simp_all (maxDischargeDepth := 99); done))
    | ((try dsimp only) <;> (repeat' split) <;> (simp_all (maxDischargeDepth := 99); done))

@[simp] theorem storeReading_mem (a0) (a1) (a2) (s : State) (h : Memory.wf s.mem.bytes = true) : Memory.wf
    (storeReading a0 a1 a2 s).mem.bytes = true :=
  Only.memOk (W := [.test, .sens]) (by simp) (by decide) h

@[simp] theorem thermalFaults_mem (s : State) (h : Memory.wf s.mem.bytes = true) : Memory.wf (thermalFaults
    s).mem.bytes = true :=
  Only.memOk (W := [.flt, .status, .net, .sv, .disc, .weft, .bea]) (by simp) (by decide) h

@[simp] theorem shutDown_mem (s : State) (h : Memory.wf s.mem.bytes = true) : Memory.wf (shutDown s).mem.bytes = true
    :=
  Only.memOk (W := [.test, .flt, .holds, .status, .net, .sv, .disc, .weft, .aud, .bea]) (by simp) (by decide) h

@[simp] theorem tryShutDown_mem (s : State) (h : Memory.wf s.mem.bytes = true) : Memory.wf (tryShutDown s).mem.bytes =
    true :=
Only.memOk (W := [.test, .keys, .lifecycle, .flt, .holds, .status, .net, .sv, .disc, .weft, .aud, .bea]) (by simp) (by
    decide) h

@[simp] theorem endShutDown_mem (s : State) (h : Memory.wf s.mem.bytes = true) : Memory.wf (endShutDown s).mem.bytes =
    true :=
  Only.memOk (W := [.flt, .holds, .aud]) (by simp) (by decide) h

@[simp] theorem thermalShutdown_mem (s : State) (h : Memory.wf s.mem.bytes = true) : Memory.wf (thermalShutdown
    s).mem.bytes = true :=
Only.memOk (W := [.test, .keys, .lifecycle, .flt, .holds, .status, .net, .sv, .disc, .weft, .aud, .bea]) (by simp) (by
    decide) h

@[simp] theorem noteSensors_mem (a0) (s : State) (h : Memory.wf s.mem.bytes = true) : Memory.wf (noteSensors a0
    s).mem.bytes = true :=
  Only.memOk (W := [.test]) (by simp) (by decide) h

@[simp] theorem startCounter_mem (s : State) (h : Memory.wf s.mem.bytes = true) : Memory.wf (startCounter s).mem.bytes
    = true :=
  Only.memOk (W := [.time]) (by simp) (by decide) h

@[simp] theorem powerLanes_mem (s : State) (h : Memory.wf s.mem.bytes = true) : Memory.wf (powerLanes s).mem.bytes =
    true :=
  Only.memOk (W := [.pwr]) (by simp) (by decide) h

@[simp] theorem startDiscovery_mem (s : State) (h : Memory.wf s.mem.bytes = true) : Memory.wf (startDiscovery
    s).mem.bytes = true :=
  Only.memOk (W := [.flt, .status, .net, .sv, .disc, .weft, .bea]) (by simp) (by decide) h

@[simp] theorem recensusHalf_mem (a0) (s : State) (h : Memory.wf s.mem.bytes = true) : Memory.wf (recensusHalf a0
    s).mem.bytes = true :=
  Only.memOk (W := [.weft]) (by simp) (by decide) h

@[simp] theorem domainStarts_mem (a0) (a1) (s : State) (h : Memory.wf s.mem.bytes = true) : Memory.wf (domainStarts a0
    a1 s).mem.bytes = true :=
  Only.memOk (W := [.pwr, .flt, .status, .net, .time, .sv, .disc, .xb, .weft, .bea]) (by simp) (by decide) h

@[simp] theorem startKeys_mem (s : State) (h : Memory.wf s.mem.bytes = true) : Memory.wf (startKeys s).mem.bytes =
    true :=
  Only.memOk (W := [.keys, .flt, .status, .net, .sv, .disc, .weft, .bea]) (by simp) (by decide) h

@[simp] theorem noLedger_mem (a0) (s : State) (h : Memory.wf s.mem.bytes = true) : Memory.wf (noLedger a0 s).mem.bytes
    = true :=
  Only.memOk (W := [.flt, .ldg, .status, .net, .sv, .disc, .weft, .bea]) (by simp) (by decide) h

@[simp] theorem beginLog_mem (s : State) (h : Memory.wf s.mem.bytes = true) : Memory.wf (beginLog s).mem.bytes = true
    :=
  Only.memOk (W := [.ldg]) (by simp) (by decide) h

@[simp] theorem startLedgerFlash_mem (a0) (s : State) (h : Memory.wf s.mem.bytes = true) : Memory.wf (startLedgerFlash
    a0 s).mem.bytes = true :=
  Only.memOk (W := [.flt, .ldg, .status, .net, .sv, .disc, .weft, .bea]) (by simp) (by decide) h

@[simp] theorem startSequencer_mem (a0) (a1) (s : State) (h : Memory.wf s.mem.bytes = true) : Memory.wf
    (startSequencer a0 a1 s).mem.bytes = true :=
  Only.memOk (W := [.boot, .keys, .flt, .ldg, .status, .net, .sv, .disc, .weft, .amb, .bea]) (by simp) (by decide) h

theorem execBootCheckDone_mem (a0) (a1) (a2) (a3) (s t : State) (h : execBootCheckDone a0 a1 a2 a3 s = .next t) (hm :
    Memory.wf s.mem.bytes = true) : Memory.wf t.mem.bytes = true := by
  revert t h
  show MemOut _
  unfold execBootCheckDone
  first
    | ((repeat' split) <;> (simp [hm]; done))
    | ((repeat' split) <;> (simp_all (maxDischargeDepth := 99); done))
    | ((try dsimp only) <;> (repeat' split) <;> (simp_all (maxDischargeDepth := 99); done))

theorem execDramTrainingDone_mem (a0) (s t : State) (h : execDramTrainingDone a0 s = .next t) (hm : Memory.wf
    s.mem.bytes = true) : Memory.wf t.mem.bytes = true := by
  revert t h
  show MemOut _
  unfold execDramTrainingDone
  first
    | ((repeat' split) <;> (simp [hm]; done))
    | ((repeat' split) <;> (simp_all (maxDischargeDepth := 99); done))
    | ((try dsimp only) <;> (repeat' split) <;> (simp_all (maxDischargeDepth := 99); done))

@[simp] theorem scanClock_mem (a0) (a1) (s : State) (h : Memory.wf s.mem.bytes = true) : Memory.wf (scanClock a0 a1
    s).mem.bytes = true :=
  Only.memOk (W := [.clk]) (by simp) (by decide) h

@[simp] theorem alignScan_mem (s : State) (h : Memory.wf s.mem.bytes = true) : Memory.wf (alignScan s).mem.bytes =
    true :=
  Only.memOk (W := [.clk]) (by simp) (by decide) h

@[simp] theorem openPick_mem (s : State) (h : Memory.wf s.mem.bytes = true) : Memory.wf (openPick s).mem.bytes = true
    :=
  Only.memOk (W := [.weft]) (by simp) (by decide) h

@[simp] theorem handScene_mem (s : State) (h : Memory.wf s.mem.bytes = true) : Memory.wf (handScene s).mem.bytes =
    true :=
  Only.memOk (W := [.live, .scene]) (by simp) (by decide) h

@[simp] theorem pinsAtBeat_mem (s : State) (h : Memory.wf s.mem.bytes = true) : Memory.wf (pinsAtBeat s).mem.bytes =
    true :=
  Only.memOk (W := [.live]) (by simp) (by decide) h

@[simp] theorem joinServices_mem (s : State) (h : Memory.wf s.mem.bytes = true) : Memory.wf (joinServices s).mem.bytes
    = true :=
  Only.memOk (W := [.net]) (by simp) (by decide) h

@[simp] theorem standbyBeat_mem (a0) (s : State) (h : Memory.wf s.mem.bytes = true) : Memory.wf (standbyBeat a0
    s).mem.bytes = true :=
  Only.memOk (W := [.standby, .test, .keys, .ldg, .status, .net, .disc, .scene, .weft, .aud]) (by simp) (by decide) h

@[simp] theorem beginVisible_mem (s : State) (h : Memory.wf s.mem.bytes = true) : Memory.wf (beginVisible s).mem.bytes
    = true :=
  Only.memOk (W := [.test, .aud]) (by simp) (by decide) h

@[simp] theorem endVisible_mem (s : State) (h : Memory.wf s.mem.bytes = true) : Memory.wf (endVisible s).mem.bytes =
    true :=
  Only.memOk (W := [.test, .aud]) (by simp) (by decide) h

@[simp] theorem takeLogKey_mem (s : State) (h : Memory.wf s.mem.bytes = true) : Memory.wf (takeLogKey s).mem.bytes =
    true :=
  Only.memOk (W := [.ldg]) (by simp) (by decide) h

@[simp] theorem reloadWear_mem (s : State) (h : Memory.wf s.mem.bytes = true) : Memory.wf (reloadWear s).mem.bytes =
    true :=
  Only.memOk (W := [.flt, .ldg, .status, .net, .sv, .disc, .weft, .bea]) (by simp) (by decide) h

@[simp] theorem newLog_mem (s : State) (h : Memory.wf s.mem.bytes = true) : Memory.wf (newLog s).mem.bytes = true :=
  Only.memOk (W := [.ldg]) (by simp) (by decide) h

@[simp] theorem swapKeys_mem (s : State) (h : Memory.wf s.mem.bytes = true) : Memory.wf (swapKeys s).mem.bytes = true
    := by
  unfold swapKeys
  (try simp [h]) <;> (repeat' split) <;> simp_all (maxDischargeDepth := 99)

@[simp] theorem swapShown_mem (a0) (s : State) (h : Memory.wf s.mem.bytes = true) : Memory.wf (swapShown a0
    s).mem.bytes = true :=
  Only.memOk (W := [.scene]) (by simp) (by decide) h

@[simp] theorem emitBeat_mem (a0) (s : State) (h : Memory.wf s.mem.bytes = true) : Memory.wf (emitBeat a0 s).mem.bytes
    = true :=
  Only.memOk (W := [.clk, .time, .weft]) (by simp) (by decide) h

@[simp] theorem timeAtBeat_mem (a0) (s : State) (h : Memory.wf s.mem.bytes = true) : Memory.wf (timeAtBeat a0
    s).mem.bytes = true :=
  Only.memOk (W := [.flt, .status, .net, .time, .sv, .disc, .weft, .aud, .bea]) (by simp) (by decide) h

@[simp] theorem dutiesAtBeat_mem (a0) (s : State) (h : Memory.wf s.mem.bytes = true) : Memory.wf (dutiesAtBeat a0
    s).mem.bytes = true := by
  unfold dutiesAtBeat
  (try simp [h]) <;> (repeat' split) <;> simp_all (maxDischargeDepth := 99)

@[simp] theorem admissionAtBeat_mem (s : State) (h : Memory.wf s.mem.bytes = true) : Memory.wf (admissionAtBeat
    s).mem.bytes = true :=
  Only.memOk (W := [.adm]) (by simp) (by decide) h

@[simp] theorem noteIdle_mem (s : State) (h : Memory.wf s.mem.bytes = true) : Memory.wf (noteIdle s).mem.bytes = true
    :=
  Only.memOk (W := [.live, .boot, .test]) (by simp) (by decide) h

@[simp] theorem pictureAtBeat_mem (a0) (a1) (s : State) (h : Memory.wf s.mem.bytes = true) : Memory.wf (pictureAtBeat
    a0 a1 s).mem.bytes = true := by
  unfold pictureAtBeat
  (try simp [h]) <;> (repeat' split) <;> simp_all (maxDischargeDepth := 99)

@[simp] theorem leadBeat_mem (a0) (s : State) (h : Memory.wf s.mem.bytes = true) : Memory.wf (leadBeat a0 s).mem.bytes
    = true :=
  Only.memOk (W := [.sent, .status, .time, .sv, .disc]) (by simp) (by decide) h

theorem execReedBeat_mem (a0) (s t : State) (h : execReedBeat a0 s = .next t) (hm : Memory.wf s.mem.bytes = true) :
    Memory.wf t.mem.bytes = true := by
  revert t h
  show MemOut _
  unfold execReedBeat
  first
    | ((repeat' split) <;> (simp [hm]; done))
    | ((repeat' split) <;> (simp_all (maxDischargeDepth := 99); done))
    | ((try dsimp only) <;> (repeat' split) <;> (simp_all (maxDischargeDepth := 99); done))

@[simp] theorem gainTime_mem (a0) (s : State) (h : Memory.wf s.mem.bytes = true) : Memory.wf (gainTime a0 s).mem.bytes
    = true :=
  Only.memOk (W := [.clk, .time]) (by simp) (by decide) h

@[simp] theorem countClock_mem (a0) (s : State) (h : Memory.wf s.mem.bytes = true) : Memory.wf (countClock a0
    s).mem.bytes = true :=
  Only.memOk (W := [.clk, .time, .aud]) (by simp) (by decide) h

@[simp] theorem sendBlock_mem (a0) (a1) (s : State) (h : Memory.wf s.mem.bytes = true) : Memory.wf (sendBlock a0 a1
    s).mem.bytes = true :=
  Only.memOk (W := [.sent, .sv]) (by simp) (by decide) h

@[simp] theorem laneClock_mem (a0) (a1) (s : State) (h : Memory.wf s.mem.bytes = true) : Memory.wf (laneClock a0 a1
    s).mem.bytes = true :=
  Only.memOk (W := [.sent, .sv]) (by simp) (by decide) h

@[simp] theorem sendClock_mem (a0) (s : State) (h : Memory.wf s.mem.bytes = true) : Memory.wf (sendClock a0
    s).mem.bytes = true :=
  Only.memOk (W := [.sent, .status, .net, .time, .sv]) (by simp) (by decide) h

@[simp] theorem aonTick_mem (s : State) (h : Memory.wf s.mem.bytes = true) : Memory.wf (aonTick s).mem.bytes = true :=
  Only.memOk (W := [.straps, .live, .pwr, .clk, .flt, .status, .net, .sv, .disc, .weft, .bea]) (by simp) (by decide) h

@[simp] theorem tick_mem (s : State) (h : Memory.wf s.mem.bytes = true) : Memory.wf (tick s).mem.bytes = true :=
Only.memOk (W := [.now, .sent, .straps, .live, .pwr, .clk, .test, .flt, .status, .net, .time, .sv, .disc, .xb, .weft,
    .aud, .bea]) (by simp) (by decide) h

end Sys2Proof.Machine
end

