-- ==== Sys2Proof/Laws/State.lean ====
section
/-!
SUPPORT. What an update of one part of the state leaves: every other part, by computation; and what it puts there.
-/
namespace Sys2Proof.Machine
open Sys2Proof

@[simp] theorem modPwr_pwr (f : Pwr → Pwr) (s : State) : (modPwr f s).pwr = f s.pwr := rfl
    @[simp] theorem modPwr_frame (f : Pwr → Pwr) (s : State) : (modPwr f s).now = s.now ∧
    (modPwr f s).pending = s.pending ∧ (modPwr f s).fresh = s.fresh ∧ (modPwr f s).sent = s.sent ∧
    (modPwr f s).unit = s.unit ∧ (modPwr f s).pins = s.pins ∧ (modPwr f s).straps = s.straps ∧
    (modPwr f s).live = s.live ∧ (modPwr f s).standby = s.standby ∧ (modPwr f s).clk = s.clk ∧
    (modPwr f s).boot = s.boot ∧ (modPwr f s).test = s.test ∧ (modPwr f s).otp = s.otp ∧ (modPwr f s).keys = s.keys ∧
    (modPwr f s).flt = s.flt ∧ (modPwr f s).ldg = s.ldg ∧ (modPwr f s).status = s.status ∧
    (modPwr f s).sens = s.sens ∧ (modPwr f s).net = s.net ∧ (modPwr f s).time = s.time ∧ (modPwr f s).sv = s.sv ∧
    (modPwr f s).disc = s.disc ∧ (modPwr f s).scene = s.scene ∧ (modPwr f s).mem = s.mem ∧ (modPwr f s).xb = s.xb ∧
    (modPwr f s).sram = s.sram ∧ (modPwr f s).adm = s.adm ∧ (modPwr f s).weft = s.weft ∧ (modPwr f s).amb = s.amb ∧
    (modPwr f s).bri = s.bri ∧ (modPwr f s).mark = s.mark ∧ (modPwr f s).aud = s.aud ∧ (modPwr f s).bob = s.bob ∧
    (modPwr f s).bea = s.bea ∧ (modPwr f s).card = s.card ∧ (modPwr f s).dlg = s.dlg :=
  ⟨rfl, rfl, rfl, rfl, rfl, rfl, rfl, rfl, rfl, rfl, rfl, rfl, rfl, rfl, rfl, rfl, rfl, rfl, rfl, rfl, rfl, rfl, rfl, rfl, rfl, rfl, rfl, rfl, rfl, rfl, rfl, rfl, rfl, rfl, rfl, rfl⟩

@[simp] theorem modClk_clk (f : Clk → Clk) (s : State) : (modClk f s).clk = f s.clk := rfl
    @[simp] theorem modClk_frame (f : Clk → Clk) (s : State) : (modClk f s).now = s.now ∧
    (modClk f s).pending = s.pending ∧ (modClk f s).fresh = s.fresh ∧ (modClk f s).sent = s.sent ∧
    (modClk f s).unit = s.unit ∧ (modClk f s).pins = s.pins ∧ (modClk f s).straps = s.straps ∧
    (modClk f s).live = s.live ∧ (modClk f s).pwr = s.pwr ∧ (modClk f s).standby = s.standby ∧
    (modClk f s).boot = s.boot ∧ (modClk f s).test = s.test ∧ (modClk f s).otp = s.otp ∧ (modClk f s).keys = s.keys ∧
    (modClk f s).flt = s.flt ∧ (modClk f s).ldg = s.ldg ∧ (modClk f s).status = s.status ∧
    (modClk f s).sens = s.sens ∧ (modClk f s).net = s.net ∧ (modClk f s).time = s.time ∧ (modClk f s).sv = s.sv ∧
    (modClk f s).disc = s.disc ∧ (modClk f s).scene = s.scene ∧ (modClk f s).mem = s.mem ∧ (modClk f s).xb = s.xb ∧
    (modClk f s).sram = s.sram ∧ (modClk f s).adm = s.adm ∧ (modClk f s).weft = s.weft ∧ (modClk f s).amb = s.amb ∧
    (modClk f s).bri = s.bri ∧ (modClk f s).mark = s.mark ∧ (modClk f s).aud = s.aud ∧ (modClk f s).bob = s.bob ∧
    (modClk f s).bea = s.bea ∧ (modClk f s).card = s.card ∧ (modClk f s).dlg = s.dlg :=
  ⟨rfl, rfl, rfl, rfl, rfl, rfl, rfl, rfl, rfl, rfl, rfl, rfl, rfl, rfl, rfl, rfl, rfl, rfl, rfl, rfl, rfl, rfl, rfl, rfl, rfl, rfl, rfl, rfl, rfl, rfl, rfl, rfl, rfl, rfl, rfl, rfl⟩

@[simp] theorem modBoot_boot (f : Boot → Boot) (s : State) : (modBoot f s).boot = f s.boot := rfl
    @[simp] theorem modBoot_frame (f : Boot → Boot) (s : State) : (modBoot f s).now = s.now ∧
    (modBoot f s).pending = s.pending ∧ (modBoot f s).fresh = s.fresh ∧ (modBoot f s).sent = s.sent ∧
    (modBoot f s).unit = s.unit ∧ (modBoot f s).pins = s.pins ∧ (modBoot f s).straps = s.straps ∧
    (modBoot f s).live = s.live ∧ (modBoot f s).pwr = s.pwr ∧ (modBoot f s).standby = s.standby ∧
    (modBoot f s).clk = s.clk ∧ (modBoot f s).test = s.test ∧ (modBoot f s).otp = s.otp ∧
    (modBoot f s).keys = s.keys ∧ (modBoot f s).flt = s.flt ∧ (modBoot f s).ldg = s.ldg ∧
    (modBoot f s).status = s.status ∧ (modBoot f s).sens = s.sens ∧ (modBoot f s).net = s.net ∧
    (modBoot f s).time = s.time ∧ (modBoot f s).sv = s.sv ∧ (modBoot f s).disc = s.disc ∧
    (modBoot f s).scene = s.scene ∧ (modBoot f s).mem = s.mem ∧ (modBoot f s).xb = s.xb ∧
    (modBoot f s).sram = s.sram ∧ (modBoot f s).adm = s.adm ∧ (modBoot f s).weft = s.weft ∧
    (modBoot f s).amb = s.amb ∧ (modBoot f s).bri = s.bri ∧ (modBoot f s).mark = s.mark ∧ (modBoot f s).aud = s.aud ∧
    (modBoot f s).bob = s.bob ∧ (modBoot f s).bea = s.bea ∧ (modBoot f s).card = s.card ∧ (modBoot f s).dlg = s.dlg :=
  ⟨rfl, rfl, rfl, rfl, rfl, rfl, rfl, rfl, rfl, rfl, rfl, rfl, rfl, rfl, rfl, rfl, rfl, rfl, rfl, rfl, rfl, rfl, rfl, rfl, rfl, rfl, rfl, rfl, rfl, rfl, rfl, rfl, rfl, rfl, rfl, rfl⟩

@[simp] theorem modTest_test (f : Test → Test) (s : State) : (modTest f s).test = f s.test := rfl
    @[simp] theorem modTest_frame (f : Test → Test) (s : State) : (modTest f s).now = s.now ∧
    (modTest f s).pending = s.pending ∧ (modTest f s).fresh = s.fresh ∧ (modTest f s).sent = s.sent ∧
    (modTest f s).unit = s.unit ∧ (modTest f s).pins = s.pins ∧ (modTest f s).straps = s.straps ∧
    (modTest f s).live = s.live ∧ (modTest f s).pwr = s.pwr ∧ (modTest f s).standby = s.standby ∧
    (modTest f s).clk = s.clk ∧ (modTest f s).boot = s.boot ∧ (modTest f s).otp = s.otp ∧
    (modTest f s).keys = s.keys ∧ (modTest f s).flt = s.flt ∧ (modTest f s).ldg = s.ldg ∧
    (modTest f s).status = s.status ∧ (modTest f s).sens = s.sens ∧ (modTest f s).net = s.net ∧
    (modTest f s).time = s.time ∧ (modTest f s).sv = s.sv ∧ (modTest f s).disc = s.disc ∧
    (modTest f s).scene = s.scene ∧ (modTest f s).mem = s.mem ∧ (modTest f s).xb = s.xb ∧
    (modTest f s).sram = s.sram ∧ (modTest f s).adm = s.adm ∧ (modTest f s).weft = s.weft ∧
    (modTest f s).amb = s.amb ∧ (modTest f s).bri = s.bri ∧ (modTest f s).mark = s.mark ∧ (modTest f s).aud = s.aud ∧
    (modTest f s).bob = s.bob ∧ (modTest f s).bea = s.bea ∧ (modTest f s).card = s.card ∧ (modTest f s).dlg = s.dlg :=
  ⟨rfl, rfl, rfl, rfl, rfl, rfl, rfl, rfl, rfl, rfl, rfl, rfl, rfl, rfl, rfl, rfl, rfl, rfl, rfl, rfl, rfl, rfl, rfl, rfl, rfl, rfl, rfl, rfl, rfl, rfl, rfl, rfl, rfl, rfl, rfl, rfl⟩

@[simp] theorem modOtp_otp (f : Otp → Otp) (s : State) : (modOtp f s).otp = f s.otp := rfl
    @[simp] theorem modOtp_frame (f : Otp → Otp) (s : State) : (modOtp f s).now = s.now ∧
    (modOtp f s).pending = s.pending ∧ (modOtp f s).fresh = s.fresh ∧ (modOtp f s).sent = s.sent ∧
    (modOtp f s).unit = s.unit ∧ (modOtp f s).pins = s.pins ∧ (modOtp f s).straps = s.straps ∧
    (modOtp f s).live = s.live ∧ (modOtp f s).pwr = s.pwr ∧ (modOtp f s).standby = s.standby ∧
    (modOtp f s).clk = s.clk ∧ (modOtp f s).boot = s.boot ∧ (modOtp f s).test = s.test ∧ (modOtp f s).keys = s.keys ∧
    (modOtp f s).flt = s.flt ∧ (modOtp f s).ldg = s.ldg ∧ (modOtp f s).status = s.status ∧
    (modOtp f s).sens = s.sens ∧ (modOtp f s).net = s.net ∧ (modOtp f s).time = s.time ∧ (modOtp f s).sv = s.sv ∧
    (modOtp f s).disc = s.disc ∧ (modOtp f s).scene = s.scene ∧ (modOtp f s).mem = s.mem ∧ (modOtp f s).xb = s.xb ∧
    (modOtp f s).sram = s.sram ∧ (modOtp f s).adm = s.adm ∧ (modOtp f s).weft = s.weft ∧ (modOtp f s).amb = s.amb ∧
    (modOtp f s).bri = s.bri ∧ (modOtp f s).mark = s.mark ∧ (modOtp f s).aud = s.aud ∧ (modOtp f s).bob = s.bob ∧
    (modOtp f s).bea = s.bea ∧ (modOtp f s).card = s.card ∧ (modOtp f s).dlg = s.dlg :=
  ⟨rfl, rfl, rfl, rfl, rfl, rfl, rfl, rfl, rfl, rfl, rfl, rfl, rfl, rfl, rfl, rfl, rfl, rfl, rfl, rfl, rfl, rfl, rfl, rfl, rfl, rfl, rfl, rfl, rfl, rfl, rfl, rfl, rfl, rfl, rfl, rfl⟩

@[simp] theorem modKeys_keys (f : Keys → Keys) (s : State) : (modKeys f s).keys = f s.keys := rfl
    @[simp] theorem modKeys_frame (f : Keys → Keys) (s : State) : (modKeys f s).now = s.now ∧
    (modKeys f s).pending = s.pending ∧ (modKeys f s).fresh = s.fresh ∧ (modKeys f s).sent = s.sent ∧
    (modKeys f s).unit = s.unit ∧ (modKeys f s).pins = s.pins ∧ (modKeys f s).straps = s.straps ∧
    (modKeys f s).live = s.live ∧ (modKeys f s).pwr = s.pwr ∧ (modKeys f s).standby = s.standby ∧
    (modKeys f s).clk = s.clk ∧ (modKeys f s).boot = s.boot ∧ (modKeys f s).test = s.test ∧
    (modKeys f s).otp = s.otp ∧ (modKeys f s).flt = s.flt ∧ (modKeys f s).ldg = s.ldg ∧
    (modKeys f s).status = s.status ∧ (modKeys f s).sens = s.sens ∧ (modKeys f s).net = s.net ∧
    (modKeys f s).time = s.time ∧ (modKeys f s).sv = s.sv ∧ (modKeys f s).disc = s.disc ∧
    (modKeys f s).scene = s.scene ∧ (modKeys f s).mem = s.mem ∧ (modKeys f s).xb = s.xb ∧
    (modKeys f s).sram = s.sram ∧ (modKeys f s).adm = s.adm ∧ (modKeys f s).weft = s.weft ∧
    (modKeys f s).amb = s.amb ∧ (modKeys f s).bri = s.bri ∧ (modKeys f s).mark = s.mark ∧ (modKeys f s).aud = s.aud ∧
    (modKeys f s).bob = s.bob ∧ (modKeys f s).bea = s.bea ∧ (modKeys f s).card = s.card ∧ (modKeys f s).dlg = s.dlg :=
  ⟨rfl, rfl, rfl, rfl, rfl, rfl, rfl, rfl, rfl, rfl, rfl, rfl, rfl, rfl, rfl, rfl, rfl, rfl, rfl, rfl, rfl, rfl, rfl, rfl, rfl, rfl, rfl, rfl, rfl, rfl, rfl, rfl, rfl, rfl, rfl, rfl⟩

@[simp] theorem modFlt_flt (f : Flt → Flt) (s : State) : (modFlt f s).flt = f s.flt := rfl
    @[simp] theorem modFlt_frame (f : Flt → Flt) (s : State) : (modFlt f s).now = s.now ∧
    (modFlt f s).pending = s.pending ∧ (modFlt f s).fresh = s.fresh ∧ (modFlt f s).sent = s.sent ∧
    (modFlt f s).unit = s.unit ∧ (modFlt f s).pins = s.pins ∧ (modFlt f s).straps = s.straps ∧
    (modFlt f s).live = s.live ∧ (modFlt f s).pwr = s.pwr ∧ (modFlt f s).standby = s.standby ∧
    (modFlt f s).clk = s.clk ∧ (modFlt f s).boot = s.boot ∧ (modFlt f s).test = s.test ∧ (modFlt f s).otp = s.otp ∧
    (modFlt f s).keys = s.keys ∧ (modFlt f s).ldg = s.ldg ∧ (modFlt f s).status = s.status ∧
    (modFlt f s).sens = s.sens ∧ (modFlt f s).net = s.net ∧ (modFlt f s).time = s.time ∧ (modFlt f s).sv = s.sv ∧
    (modFlt f s).disc = s.disc ∧ (modFlt f s).scene = s.scene ∧ (modFlt f s).mem = s.mem ∧ (modFlt f s).xb = s.xb ∧
    (modFlt f s).sram = s.sram ∧ (modFlt f s).adm = s.adm ∧ (modFlt f s).weft = s.weft ∧ (modFlt f s).amb = s.amb ∧
    (modFlt f s).bri = s.bri ∧ (modFlt f s).mark = s.mark ∧ (modFlt f s).aud = s.aud ∧ (modFlt f s).bob = s.bob ∧
    (modFlt f s).bea = s.bea ∧ (modFlt f s).card = s.card ∧ (modFlt f s).dlg = s.dlg :=
  ⟨rfl, rfl, rfl, rfl, rfl, rfl, rfl, rfl, rfl, rfl, rfl, rfl, rfl, rfl, rfl, rfl, rfl, rfl, rfl, rfl, rfl, rfl, rfl, rfl, rfl, rfl, rfl, rfl, rfl, rfl, rfl, rfl, rfl, rfl, rfl, rfl⟩

@[simp] theorem modLdg_ldg (f : Ledger → Ledger) (s : State) : (modLdg f s).ldg = f s.ldg := rfl
    @[simp] theorem modLdg_frame (f : Ledger → Ledger) (s : State) : (modLdg f s).now = s.now ∧
    (modLdg f s).pending = s.pending ∧ (modLdg f s).fresh = s.fresh ∧ (modLdg f s).sent = s.sent ∧
    (modLdg f s).unit = s.unit ∧ (modLdg f s).pins = s.pins ∧ (modLdg f s).straps = s.straps ∧
    (modLdg f s).live = s.live ∧ (modLdg f s).pwr = s.pwr ∧ (modLdg f s).standby = s.standby ∧
    (modLdg f s).clk = s.clk ∧ (modLdg f s).boot = s.boot ∧ (modLdg f s).test = s.test ∧ (modLdg f s).otp = s.otp ∧
    (modLdg f s).keys = s.keys ∧ (modLdg f s).flt = s.flt ∧ (modLdg f s).status = s.status ∧
    (modLdg f s).sens = s.sens ∧ (modLdg f s).net = s.net ∧ (modLdg f s).time = s.time ∧ (modLdg f s).sv = s.sv ∧
    (modLdg f s).disc = s.disc ∧ (modLdg f s).scene = s.scene ∧ (modLdg f s).mem = s.mem ∧ (modLdg f s).xb = s.xb ∧
    (modLdg f s).sram = s.sram ∧ (modLdg f s).adm = s.adm ∧ (modLdg f s).weft = s.weft ∧ (modLdg f s).amb = s.amb ∧
    (modLdg f s).bri = s.bri ∧ (modLdg f s).mark = s.mark ∧ (modLdg f s).aud = s.aud ∧ (modLdg f s).bob = s.bob ∧
    (modLdg f s).bea = s.bea ∧ (modLdg f s).card = s.card ∧ (modLdg f s).dlg = s.dlg :=
  ⟨rfl, rfl, rfl, rfl, rfl, rfl, rfl, rfl, rfl, rfl, rfl, rfl, rfl, rfl, rfl, rfl, rfl, rfl, rfl, rfl, rfl, rfl, rfl, rfl, rfl, rfl, rfl, rfl, rfl, rfl, rfl, rfl, rfl, rfl, rfl, rfl⟩

@[simp] theorem modStatus_status (f : StatusRec → StatusRec) (s : State) : (modStatus f s).status = f s.status := rfl
    @[simp] theorem modStatus_frame (f : StatusRec → StatusRec) (s : State) : (modStatus f s).now = s.now ∧
    (modStatus f s).pending = s.pending ∧ (modStatus f s).fresh = s.fresh ∧ (modStatus f s).sent = s.sent ∧
    (modStatus f s).unit = s.unit ∧ (modStatus f s).pins = s.pins ∧ (modStatus f s).straps = s.straps ∧
    (modStatus f s).live = s.live ∧ (modStatus f s).pwr = s.pwr ∧ (modStatus f s).standby = s.standby ∧
    (modStatus f s).clk = s.clk ∧ (modStatus f s).boot = s.boot ∧ (modStatus f s).test = s.test ∧
    (modStatus f s).otp = s.otp ∧ (modStatus f s).keys = s.keys ∧ (modStatus f s).flt = s.flt ∧
    (modStatus f s).ldg = s.ldg ∧ (modStatus f s).sens = s.sens ∧ (modStatus f s).net = s.net ∧
    (modStatus f s).time = s.time ∧ (modStatus f s).sv = s.sv ∧ (modStatus f s).disc = s.disc ∧
    (modStatus f s).scene = s.scene ∧ (modStatus f s).mem = s.mem ∧ (modStatus f s).xb = s.xb ∧
    (modStatus f s).sram = s.sram ∧ (modStatus f s).adm = s.adm ∧ (modStatus f s).weft = s.weft ∧
    (modStatus f s).amb = s.amb ∧ (modStatus f s).bri = s.bri ∧ (modStatus f s).mark = s.mark ∧
    (modStatus f s).aud = s.aud ∧ (modStatus f s).bob = s.bob ∧ (modStatus f s).bea = s.bea ∧
    (modStatus f s).card = s.card ∧ (modStatus f s).dlg = s.dlg :=
  ⟨rfl, rfl, rfl, rfl, rfl, rfl, rfl, rfl, rfl, rfl, rfl, rfl, rfl, rfl, rfl, rfl, rfl, rfl, rfl, rfl, rfl, rfl, rfl, rfl, rfl, rfl, rfl, rfl, rfl, rfl, rfl, rfl, rfl, rfl, rfl, rfl⟩

@[simp] theorem modSens_sens (f : Sens → Sens) (s : State) : (modSens f s).sens = f s.sens := rfl
    @[simp] theorem modSens_frame (f : Sens → Sens) (s : State) : (modSens f s).now = s.now ∧
    (modSens f s).pending = s.pending ∧ (modSens f s).fresh = s.fresh ∧ (modSens f s).sent = s.sent ∧
    (modSens f s).unit = s.unit ∧ (modSens f s).pins = s.pins ∧ (modSens f s).straps = s.straps ∧
    (modSens f s).live = s.live ∧ (modSens f s).pwr = s.pwr ∧ (modSens f s).standby = s.standby ∧
    (modSens f s).clk = s.clk ∧ (modSens f s).boot = s.boot ∧ (modSens f s).test = s.test ∧
    (modSens f s).otp = s.otp ∧ (modSens f s).keys = s.keys ∧ (modSens f s).flt = s.flt ∧ (modSens f s).ldg = s.ldg ∧
    (modSens f s).status = s.status ∧ (modSens f s).net = s.net ∧ (modSens f s).time = s.time ∧
    (modSens f s).sv = s.sv ∧ (modSens f s).disc = s.disc ∧ (modSens f s).scene = s.scene ∧
    (modSens f s).mem = s.mem ∧ (modSens f s).xb = s.xb ∧ (modSens f s).sram = s.sram ∧ (modSens f s).adm = s.adm ∧
    (modSens f s).weft = s.weft ∧ (modSens f s).amb = s.amb ∧ (modSens f s).bri = s.bri ∧
    (modSens f s).mark = s.mark ∧ (modSens f s).aud = s.aud ∧ (modSens f s).bob = s.bob ∧ (modSens f s).bea = s.bea ∧
    (modSens f s).card = s.card ∧ (modSens f s).dlg = s.dlg :=
  ⟨rfl, rfl, rfl, rfl, rfl, rfl, rfl, rfl, rfl, rfl, rfl, rfl, rfl, rfl, rfl, rfl, rfl, rfl, rfl, rfl, rfl, rfl, rfl, rfl, rfl, rfl, rfl, rfl, rfl, rfl, rfl, rfl, rfl, rfl, rfl, rfl⟩

@[simp] theorem modNet_net (f : Net → Net) (s : State) : (modNet f s).net = f s.net := rfl
    @[simp] theorem modNet_frame (f : Net → Net) (s : State) : (modNet f s).now = s.now ∧
    (modNet f s).pending = s.pending ∧ (modNet f s).fresh = s.fresh ∧ (modNet f s).sent = s.sent ∧
    (modNet f s).unit = s.unit ∧ (modNet f s).pins = s.pins ∧ (modNet f s).straps = s.straps ∧
    (modNet f s).live = s.live ∧ (modNet f s).pwr = s.pwr ∧ (modNet f s).standby = s.standby ∧
    (modNet f s).clk = s.clk ∧ (modNet f s).boot = s.boot ∧ (modNet f s).test = s.test ∧ (modNet f s).otp = s.otp ∧
    (modNet f s).keys = s.keys ∧ (modNet f s).flt = s.flt ∧ (modNet f s).ldg = s.ldg ∧
    (modNet f s).status = s.status ∧ (modNet f s).sens = s.sens ∧ (modNet f s).time = s.time ∧
    (modNet f s).sv = s.sv ∧ (modNet f s).disc = s.disc ∧ (modNet f s).scene = s.scene ∧ (modNet f s).mem = s.mem ∧
    (modNet f s).xb = s.xb ∧ (modNet f s).sram = s.sram ∧ (modNet f s).adm = s.adm ∧ (modNet f s).weft = s.weft ∧
    (modNet f s).amb = s.amb ∧ (modNet f s).bri = s.bri ∧ (modNet f s).mark = s.mark ∧ (modNet f s).aud = s.aud ∧
    (modNet f s).bob = s.bob ∧ (modNet f s).bea = s.bea ∧ (modNet f s).card = s.card ∧ (modNet f s).dlg = s.dlg :=
  ⟨rfl, rfl, rfl, rfl, rfl, rfl, rfl, rfl, rfl, rfl, rfl, rfl, rfl, rfl, rfl, rfl, rfl, rfl, rfl, rfl, rfl, rfl, rfl, rfl, rfl, rfl, rfl, rfl, rfl, rfl, rfl, rfl, rfl, rfl, rfl, rfl⟩

@[simp] theorem modTime_time (f : TimeSt → TimeSt) (s : State) : (modTime f s).time = f s.time := rfl
    @[simp] theorem modTime_frame (f : TimeSt → TimeSt) (s : State) : (modTime f s).now = s.now ∧
    (modTime f s).pending = s.pending ∧ (modTime f s).fresh = s.fresh ∧ (modTime f s).sent = s.sent ∧
    (modTime f s).unit = s.unit ∧ (modTime f s).pins = s.pins ∧ (modTime f s).straps = s.straps ∧
    (modTime f s).live = s.live ∧ (modTime f s).pwr = s.pwr ∧ (modTime f s).standby = s.standby ∧
    (modTime f s).clk = s.clk ∧ (modTime f s).boot = s.boot ∧ (modTime f s).test = s.test ∧
    (modTime f s).otp = s.otp ∧ (modTime f s).keys = s.keys ∧ (modTime f s).flt = s.flt ∧ (modTime f s).ldg = s.ldg ∧
    (modTime f s).status = s.status ∧ (modTime f s).sens = s.sens ∧ (modTime f s).net = s.net ∧
    (modTime f s).sv = s.sv ∧ (modTime f s).disc = s.disc ∧ (modTime f s).scene = s.scene ∧
    (modTime f s).mem = s.mem ∧ (modTime f s).xb = s.xb ∧ (modTime f s).sram = s.sram ∧ (modTime f s).adm = s.adm ∧
    (modTime f s).weft = s.weft ∧ (modTime f s).amb = s.amb ∧ (modTime f s).bri = s.bri ∧
    (modTime f s).mark = s.mark ∧ (modTime f s).aud = s.aud ∧ (modTime f s).bob = s.bob ∧ (modTime f s).bea = s.bea ∧
    (modTime f s).card = s.card ∧ (modTime f s).dlg = s.dlg :=
  ⟨rfl, rfl, rfl, rfl, rfl, rfl, rfl, rfl, rfl, rfl, rfl, rfl, rfl, rfl, rfl, rfl, rfl, rfl, rfl, rfl, rfl, rfl, rfl, rfl, rfl, rfl, rfl, rfl, rfl, rfl, rfl, rfl, rfl, rfl, rfl, rfl⟩

@[simp] theorem modSv_sv (f : Sv → Sv) (s : State) : (modSv f s).sv = f s.sv := rfl
    @[simp] theorem modSv_frame (f : Sv → Sv) (s : State) : (modSv f s).now = s.now ∧
    (modSv f s).pending = s.pending ∧ (modSv f s).fresh = s.fresh ∧ (modSv f s).sent = s.sent ∧
    (modSv f s).unit = s.unit ∧ (modSv f s).pins = s.pins ∧ (modSv f s).straps = s.straps ∧
    (modSv f s).live = s.live ∧ (modSv f s).pwr = s.pwr ∧ (modSv f s).standby = s.standby ∧ (modSv f s).clk = s.clk ∧
    (modSv f s).boot = s.boot ∧ (modSv f s).test = s.test ∧ (modSv f s).otp = s.otp ∧ (modSv f s).keys = s.keys ∧
    (modSv f s).flt = s.flt ∧ (modSv f s).ldg = s.ldg ∧ (modSv f s).status = s.status ∧ (modSv f s).sens = s.sens ∧
    (modSv f s).net = s.net ∧ (modSv f s).time = s.time ∧ (modSv f s).disc = s.disc ∧ (modSv f s).scene = s.scene ∧
    (modSv f s).mem = s.mem ∧ (modSv f s).xb = s.xb ∧ (modSv f s).sram = s.sram ∧ (modSv f s).adm = s.adm ∧
    (modSv f s).weft = s.weft ∧ (modSv f s).amb = s.amb ∧ (modSv f s).bri = s.bri ∧ (modSv f s).mark = s.mark ∧
    (modSv f s).aud = s.aud ∧ (modSv f s).bob = s.bob ∧ (modSv f s).bea = s.bea ∧ (modSv f s).card = s.card ∧
    (modSv f s).dlg = s.dlg :=
  ⟨rfl, rfl, rfl, rfl, rfl, rfl, rfl, rfl, rfl, rfl, rfl, rfl, rfl, rfl, rfl, rfl, rfl, rfl, rfl, rfl, rfl, rfl, rfl, rfl, rfl, rfl, rfl, rfl, rfl, rfl, rfl, rfl, rfl, rfl, rfl, rfl⟩

@[simp] theorem modDisc_disc (f : Disc → Disc) (s : State) : (modDisc f s).disc = f s.disc := rfl
    @[simp] theorem modDisc_frame (f : Disc → Disc) (s : State) : (modDisc f s).now = s.now ∧
    (modDisc f s).pending = s.pending ∧ (modDisc f s).fresh = s.fresh ∧ (modDisc f s).sent = s.sent ∧
    (modDisc f s).unit = s.unit ∧ (modDisc f s).pins = s.pins ∧ (modDisc f s).straps = s.straps ∧
    (modDisc f s).live = s.live ∧ (modDisc f s).pwr = s.pwr ∧ (modDisc f s).standby = s.standby ∧
    (modDisc f s).clk = s.clk ∧ (modDisc f s).boot = s.boot ∧ (modDisc f s).test = s.test ∧
    (modDisc f s).otp = s.otp ∧ (modDisc f s).keys = s.keys ∧ (modDisc f s).flt = s.flt ∧ (modDisc f s).ldg = s.ldg ∧
    (modDisc f s).status = s.status ∧ (modDisc f s).sens = s.sens ∧ (modDisc f s).net = s.net ∧
    (modDisc f s).time = s.time ∧ (modDisc f s).sv = s.sv ∧ (modDisc f s).scene = s.scene ∧
    (modDisc f s).mem = s.mem ∧ (modDisc f s).xb = s.xb ∧ (modDisc f s).sram = s.sram ∧ (modDisc f s).adm = s.adm ∧
    (modDisc f s).weft = s.weft ∧ (modDisc f s).amb = s.amb ∧ (modDisc f s).bri = s.bri ∧
    (modDisc f s).mark = s.mark ∧ (modDisc f s).aud = s.aud ∧ (modDisc f s).bob = s.bob ∧ (modDisc f s).bea = s.bea ∧
    (modDisc f s).card = s.card ∧ (modDisc f s).dlg = s.dlg :=
  ⟨rfl, rfl, rfl, rfl, rfl, rfl, rfl, rfl, rfl, rfl, rfl, rfl, rfl, rfl, rfl, rfl, rfl, rfl, rfl, rfl, rfl, rfl, rfl, rfl, rfl, rfl, rfl, rfl, rfl, rfl, rfl, rfl, rfl, rfl, rfl, rfl⟩

@[simp] theorem modScene_scene (f : Scene → Scene) (s : State) : (modScene f s).scene = f s.scene := rfl
    @[simp] theorem modScene_frame (f : Scene → Scene) (s : State) : (modScene f s).now = s.now ∧
    (modScene f s).pending = s.pending ∧ (modScene f s).fresh = s.fresh ∧ (modScene f s).sent = s.sent ∧
    (modScene f s).unit = s.unit ∧ (modScene f s).pins = s.pins ∧ (modScene f s).straps = s.straps ∧
    (modScene f s).live = s.live ∧ (modScene f s).pwr = s.pwr ∧ (modScene f s).standby = s.standby ∧
    (modScene f s).clk = s.clk ∧ (modScene f s).boot = s.boot ∧ (modScene f s).test = s.test ∧
    (modScene f s).otp = s.otp ∧ (modScene f s).keys = s.keys ∧ (modScene f s).flt = s.flt ∧
    (modScene f s).ldg = s.ldg ∧ (modScene f s).status = s.status ∧ (modScene f s).sens = s.sens ∧
    (modScene f s).net = s.net ∧ (modScene f s).time = s.time ∧ (modScene f s).sv = s.sv ∧
    (modScene f s).disc = s.disc ∧ (modScene f s).mem = s.mem ∧ (modScene f s).xb = s.xb ∧
    (modScene f s).sram = s.sram ∧ (modScene f s).adm = s.adm ∧ (modScene f s).weft = s.weft ∧
    (modScene f s).amb = s.amb ∧ (modScene f s).bri = s.bri ∧ (modScene f s).mark = s.mark ∧
    (modScene f s).aud = s.aud ∧ (modScene f s).bob = s.bob ∧ (modScene f s).bea = s.bea ∧
    (modScene f s).card = s.card ∧ (modScene f s).dlg = s.dlg :=
  ⟨rfl, rfl, rfl, rfl, rfl, rfl, rfl, rfl, rfl, rfl, rfl, rfl, rfl, rfl, rfl, rfl, rfl, rfl, rfl, rfl, rfl, rfl, rfl, rfl, rfl, rfl, rfl, rfl, rfl, rfl, rfl, rfl, rfl, rfl, rfl, rfl⟩

@[simp] theorem modMem_mem (f : Mem → Mem) (s : State) : (modMem f s).mem = f s.mem := rfl
    @[simp] theorem modMem_frame (f : Mem → Mem) (s : State) : (modMem f s).now = s.now ∧
    (modMem f s).pending = s.pending ∧ (modMem f s).fresh = s.fresh ∧ (modMem f s).sent = s.sent ∧
    (modMem f s).unit = s.unit ∧ (modMem f s).pins = s.pins ∧ (modMem f s).straps = s.straps ∧
    (modMem f s).live = s.live ∧ (modMem f s).pwr = s.pwr ∧ (modMem f s).standby = s.standby ∧
    (modMem f s).clk = s.clk ∧ (modMem f s).boot = s.boot ∧ (modMem f s).test = s.test ∧ (modMem f s).otp = s.otp ∧
    (modMem f s).keys = s.keys ∧ (modMem f s).flt = s.flt ∧ (modMem f s).ldg = s.ldg ∧
    (modMem f s).status = s.status ∧ (modMem f s).sens = s.sens ∧ (modMem f s).net = s.net ∧
    (modMem f s).time = s.time ∧ (modMem f s).sv = s.sv ∧ (modMem f s).disc = s.disc ∧ (modMem f s).scene = s.scene ∧
    (modMem f s).xb = s.xb ∧ (modMem f s).sram = s.sram ∧ (modMem f s).adm = s.adm ∧ (modMem f s).weft = s.weft ∧
    (modMem f s).amb = s.amb ∧ (modMem f s).bri = s.bri ∧ (modMem f s).mark = s.mark ∧ (modMem f s).aud = s.aud ∧
    (modMem f s).bob = s.bob ∧ (modMem f s).bea = s.bea ∧ (modMem f s).card = s.card ∧ (modMem f s).dlg = s.dlg :=
  ⟨rfl, rfl, rfl, rfl, rfl, rfl, rfl, rfl, rfl, rfl, rfl, rfl, rfl, rfl, rfl, rfl, rfl, rfl, rfl, rfl, rfl, rfl, rfl, rfl, rfl, rfl, rfl, rfl, rfl, rfl, rfl, rfl, rfl, rfl, rfl, rfl⟩

@[simp] theorem modXb_xb (f : Xb → Xb) (s : State) : (modXb f s).xb = f s.xb := rfl
    @[simp] theorem modXb_frame (f : Xb → Xb) (s : State) : (modXb f s).now = s.now ∧
    (modXb f s).pending = s.pending ∧ (modXb f s).fresh = s.fresh ∧ (modXb f s).sent = s.sent ∧
    (modXb f s).unit = s.unit ∧ (modXb f s).pins = s.pins ∧ (modXb f s).straps = s.straps ∧
    (modXb f s).live = s.live ∧ (modXb f s).pwr = s.pwr ∧ (modXb f s).standby = s.standby ∧ (modXb f s).clk = s.clk ∧
    (modXb f s).boot = s.boot ∧ (modXb f s).test = s.test ∧ (modXb f s).otp = s.otp ∧ (modXb f s).keys = s.keys ∧
    (modXb f s).flt = s.flt ∧ (modXb f s).ldg = s.ldg ∧ (modXb f s).status = s.status ∧ (modXb f s).sens = s.sens ∧
    (modXb f s).net = s.net ∧ (modXb f s).time = s.time ∧ (modXb f s).sv = s.sv ∧ (modXb f s).disc = s.disc ∧
    (modXb f s).scene = s.scene ∧ (modXb f s).mem = s.mem ∧ (modXb f s).sram = s.sram ∧ (modXb f s).adm = s.adm ∧
    (modXb f s).weft = s.weft ∧ (modXb f s).amb = s.amb ∧ (modXb f s).bri = s.bri ∧ (modXb f s).mark = s.mark ∧
    (modXb f s).aud = s.aud ∧ (modXb f s).bob = s.bob ∧ (modXb f s).bea = s.bea ∧ (modXb f s).card = s.card ∧
    (modXb f s).dlg = s.dlg :=
  ⟨rfl, rfl, rfl, rfl, rfl, rfl, rfl, rfl, rfl, rfl, rfl, rfl, rfl, rfl, rfl, rfl, rfl, rfl, rfl, rfl, rfl, rfl, rfl, rfl, rfl, rfl, rfl, rfl, rfl, rfl, rfl, rfl, rfl, rfl, rfl, rfl⟩

@[simp] theorem modAdm_adm (f : Adm → Adm) (s : State) : (modAdm f s).adm = f s.adm := rfl
    @[simp] theorem modAdm_frame (f : Adm → Adm) (s : State) : (modAdm f s).now = s.now ∧
    (modAdm f s).pending = s.pending ∧ (modAdm f s).fresh = s.fresh ∧ (modAdm f s).sent = s.sent ∧
    (modAdm f s).unit = s.unit ∧ (modAdm f s).pins = s.pins ∧ (modAdm f s).straps = s.straps ∧
    (modAdm f s).live = s.live ∧ (modAdm f s).pwr = s.pwr ∧ (modAdm f s).standby = s.standby ∧
    (modAdm f s).clk = s.clk ∧ (modAdm f s).boot = s.boot ∧ (modAdm f s).test = s.test ∧ (modAdm f s).otp = s.otp ∧
    (modAdm f s).keys = s.keys ∧ (modAdm f s).flt = s.flt ∧ (modAdm f s).ldg = s.ldg ∧
    (modAdm f s).status = s.status ∧ (modAdm f s).sens = s.sens ∧ (modAdm f s).net = s.net ∧
    (modAdm f s).time = s.time ∧ (modAdm f s).sv = s.sv ∧ (modAdm f s).disc = s.disc ∧ (modAdm f s).scene = s.scene ∧
    (modAdm f s).mem = s.mem ∧ (modAdm f s).xb = s.xb ∧ (modAdm f s).sram = s.sram ∧ (modAdm f s).weft = s.weft ∧
    (modAdm f s).amb = s.amb ∧ (modAdm f s).bri = s.bri ∧ (modAdm f s).mark = s.mark ∧ (modAdm f s).aud = s.aud ∧
    (modAdm f s).bob = s.bob ∧ (modAdm f s).bea = s.bea ∧ (modAdm f s).card = s.card ∧ (modAdm f s).dlg = s.dlg :=
  ⟨rfl, rfl, rfl, rfl, rfl, rfl, rfl, rfl, rfl, rfl, rfl, rfl, rfl, rfl, rfl, rfl, rfl, rfl, rfl, rfl, rfl, rfl, rfl, rfl, rfl, rfl, rfl, rfl, rfl, rfl, rfl, rfl, rfl, rfl, rfl, rfl⟩

@[simp] theorem modWeft_weft (f : Weft → Weft) (s : State) : (modWeft f s).weft = f s.weft := rfl
    @[simp] theorem modWeft_frame (f : Weft → Weft) (s : State) : (modWeft f s).now = s.now ∧
    (modWeft f s).pending = s.pending ∧ (modWeft f s).fresh = s.fresh ∧ (modWeft f s).sent = s.sent ∧
    (modWeft f s).unit = s.unit ∧ (modWeft f s).pins = s.pins ∧ (modWeft f s).straps = s.straps ∧
    (modWeft f s).live = s.live ∧ (modWeft f s).pwr = s.pwr ∧ (modWeft f s).standby = s.standby ∧
    (modWeft f s).clk = s.clk ∧ (modWeft f s).boot = s.boot ∧ (modWeft f s).test = s.test ∧
    (modWeft f s).otp = s.otp ∧ (modWeft f s).keys = s.keys ∧ (modWeft f s).flt = s.flt ∧ (modWeft f s).ldg = s.ldg ∧
    (modWeft f s).status = s.status ∧ (modWeft f s).sens = s.sens ∧ (modWeft f s).net = s.net ∧
    (modWeft f s).time = s.time ∧ (modWeft f s).sv = s.sv ∧ (modWeft f s).disc = s.disc ∧
    (modWeft f s).scene = s.scene ∧ (modWeft f s).mem = s.mem ∧ (modWeft f s).xb = s.xb ∧
    (modWeft f s).sram = s.sram ∧ (modWeft f s).adm = s.adm ∧ (modWeft f s).amb = s.amb ∧ (modWeft f s).bri = s.bri ∧
    (modWeft f s).mark = s.mark ∧ (modWeft f s).aud = s.aud ∧ (modWeft f s).bob = s.bob ∧ (modWeft f s).bea = s.bea ∧
    (modWeft f s).card = s.card ∧ (modWeft f s).dlg = s.dlg :=
  ⟨rfl, rfl, rfl, rfl, rfl, rfl, rfl, rfl, rfl, rfl, rfl, rfl, rfl, rfl, rfl, rfl, rfl, rfl, rfl, rfl, rfl, rfl, rfl, rfl, rfl, rfl, rfl, rfl, rfl, rfl, rfl, rfl, rfl, rfl, rfl, rfl⟩

@[simp] theorem modAmb_amb (f : Amb → Amb) (s : State) : (modAmb f s).amb = f s.amb := rfl
    @[simp] theorem modAmb_frame (f : Amb → Amb) (s : State) : (modAmb f s).now = s.now ∧
    (modAmb f s).pending = s.pending ∧ (modAmb f s).fresh = s.fresh ∧ (modAmb f s).sent = s.sent ∧
    (modAmb f s).unit = s.unit ∧ (modAmb f s).pins = s.pins ∧ (modAmb f s).straps = s.straps ∧
    (modAmb f s).live = s.live ∧ (modAmb f s).pwr = s.pwr ∧ (modAmb f s).standby = s.standby ∧
    (modAmb f s).clk = s.clk ∧ (modAmb f s).boot = s.boot ∧ (modAmb f s).test = s.test ∧ (modAmb f s).otp = s.otp ∧
    (modAmb f s).keys = s.keys ∧ (modAmb f s).flt = s.flt ∧ (modAmb f s).ldg = s.ldg ∧
    (modAmb f s).status = s.status ∧ (modAmb f s).sens = s.sens ∧ (modAmb f s).net = s.net ∧
    (modAmb f s).time = s.time ∧ (modAmb f s).sv = s.sv ∧ (modAmb f s).disc = s.disc ∧ (modAmb f s).scene = s.scene ∧
    (modAmb f s).mem = s.mem ∧ (modAmb f s).xb = s.xb ∧ (modAmb f s).sram = s.sram ∧ (modAmb f s).adm = s.adm ∧
    (modAmb f s).weft = s.weft ∧ (modAmb f s).bri = s.bri ∧ (modAmb f s).mark = s.mark ∧ (modAmb f s).aud = s.aud ∧
    (modAmb f s).bob = s.bob ∧ (modAmb f s).bea = s.bea ∧ (modAmb f s).card = s.card ∧ (modAmb f s).dlg = s.dlg :=
  ⟨rfl, rfl, rfl, rfl, rfl, rfl, rfl, rfl, rfl, rfl, rfl, rfl, rfl, rfl, rfl, rfl, rfl, rfl, rfl, rfl, rfl, rfl, rfl, rfl, rfl, rfl, rfl, rfl, rfl, rfl, rfl, rfl, rfl, rfl, rfl, rfl⟩

@[simp] theorem modBri_bri (f : Bri → Bri) (s : State) : (modBri f s).bri = f s.bri := rfl
    @[simp] theorem modBri_frame (f : Bri → Bri) (s : State) : (modBri f s).now = s.now ∧
    (modBri f s).pending = s.pending ∧ (modBri f s).fresh = s.fresh ∧ (modBri f s).sent = s.sent ∧
    (modBri f s).unit = s.unit ∧ (modBri f s).pins = s.pins ∧ (modBri f s).straps = s.straps ∧
    (modBri f s).live = s.live ∧ (modBri f s).pwr = s.pwr ∧ (modBri f s).standby = s.standby ∧
    (modBri f s).clk = s.clk ∧ (modBri f s).boot = s.boot ∧ (modBri f s).test = s.test ∧ (modBri f s).otp = s.otp ∧
    (modBri f s).keys = s.keys ∧ (modBri f s).flt = s.flt ∧ (modBri f s).ldg = s.ldg ∧
    (modBri f s).status = s.status ∧ (modBri f s).sens = s.sens ∧ (modBri f s).net = s.net ∧
    (modBri f s).time = s.time ∧ (modBri f s).sv = s.sv ∧ (modBri f s).disc = s.disc ∧ (modBri f s).scene = s.scene ∧
    (modBri f s).mem = s.mem ∧ (modBri f s).xb = s.xb ∧ (modBri f s).sram = s.sram ∧ (modBri f s).adm = s.adm ∧
    (modBri f s).weft = s.weft ∧ (modBri f s).amb = s.amb ∧ (modBri f s).mark = s.mark ∧ (modBri f s).aud = s.aud ∧
    (modBri f s).bob = s.bob ∧ (modBri f s).bea = s.bea ∧ (modBri f s).card = s.card ∧ (modBri f s).dlg = s.dlg :=
  ⟨rfl, rfl, rfl, rfl, rfl, rfl, rfl, rfl, rfl, rfl, rfl, rfl, rfl, rfl, rfl, rfl, rfl, rfl, rfl, rfl, rfl, rfl, rfl, rfl, rfl, rfl, rfl, rfl, rfl, rfl, rfl, rfl, rfl, rfl, rfl, rfl⟩

@[simp] theorem modMark_mark (f : Mk → Mk) (s : State) : (modMark f s).mark = f s.mark := rfl
    @[simp] theorem modMark_frame (f : Mk → Mk) (s : State) : (modMark f s).now = s.now ∧
    (modMark f s).pending = s.pending ∧ (modMark f s).fresh = s.fresh ∧ (modMark f s).sent = s.sent ∧
    (modMark f s).unit = s.unit ∧ (modMark f s).pins = s.pins ∧ (modMark f s).straps = s.straps ∧
    (modMark f s).live = s.live ∧ (modMark f s).pwr = s.pwr ∧ (modMark f s).standby = s.standby ∧
    (modMark f s).clk = s.clk ∧ (modMark f s).boot = s.boot ∧ (modMark f s).test = s.test ∧
    (modMark f s).otp = s.otp ∧ (modMark f s).keys = s.keys ∧ (modMark f s).flt = s.flt ∧ (modMark f s).ldg = s.ldg ∧
    (modMark f s).status = s.status ∧ (modMark f s).sens = s.sens ∧ (modMark f s).net = s.net ∧
    (modMark f s).time = s.time ∧ (modMark f s).sv = s.sv ∧ (modMark f s).disc = s.disc ∧
    (modMark f s).scene = s.scene ∧ (modMark f s).mem = s.mem ∧ (modMark f s).xb = s.xb ∧
    (modMark f s).sram = s.sram ∧ (modMark f s).adm = s.adm ∧ (modMark f s).weft = s.weft ∧
    (modMark f s).amb = s.amb ∧ (modMark f s).bri = s.bri ∧ (modMark f s).aud = s.aud ∧ (modMark f s).bob = s.bob ∧
    (modMark f s).bea = s.bea ∧ (modMark f s).card = s.card ∧ (modMark f s).dlg = s.dlg :=
  ⟨rfl, rfl, rfl, rfl, rfl, rfl, rfl, rfl, rfl, rfl, rfl, rfl, rfl, rfl, rfl, rfl, rfl, rfl, rfl, rfl, rfl, rfl, rfl, rfl, rfl, rfl, rfl, rfl, rfl, rfl, rfl, rfl, rfl, rfl, rfl, rfl⟩

@[simp] theorem modAud_aud (f : Aud → Aud) (s : State) : (modAud f s).aud = f s.aud := rfl
    @[simp] theorem modAud_frame (f : Aud → Aud) (s : State) : (modAud f s).now = s.now ∧
    (modAud f s).pending = s.pending ∧ (modAud f s).fresh = s.fresh ∧ (modAud f s).sent = s.sent ∧
    (modAud f s).unit = s.unit ∧ (modAud f s).pins = s.pins ∧ (modAud f s).straps = s.straps ∧
    (modAud f s).live = s.live ∧ (modAud f s).pwr = s.pwr ∧ (modAud f s).standby = s.standby ∧
    (modAud f s).clk = s.clk ∧ (modAud f s).boot = s.boot ∧ (modAud f s).test = s.test ∧ (modAud f s).otp = s.otp ∧
    (modAud f s).keys = s.keys ∧ (modAud f s).flt = s.flt ∧ (modAud f s).ldg = s.ldg ∧
    (modAud f s).status = s.status ∧ (modAud f s).sens = s.sens ∧ (modAud f s).net = s.net ∧
    (modAud f s).time = s.time ∧ (modAud f s).sv = s.sv ∧ (modAud f s).disc = s.disc ∧ (modAud f s).scene = s.scene ∧
    (modAud f s).mem = s.mem ∧ (modAud f s).xb = s.xb ∧ (modAud f s).sram = s.sram ∧ (modAud f s).adm = s.adm ∧
    (modAud f s).weft = s.weft ∧ (modAud f s).amb = s.amb ∧ (modAud f s).bri = s.bri ∧ (modAud f s).mark = s.mark ∧
    (modAud f s).bob = s.bob ∧ (modAud f s).bea = s.bea ∧ (modAud f s).card = s.card ∧ (modAud f s).dlg = s.dlg :=
  ⟨rfl, rfl, rfl, rfl, rfl, rfl, rfl, rfl, rfl, rfl, rfl, rfl, rfl, rfl, rfl, rfl, rfl, rfl, rfl, rfl, rfl, rfl, rfl, rfl, rfl, rfl, rfl, rfl, rfl, rfl, rfl, rfl, rfl, rfl, rfl, rfl⟩

@[simp] theorem modBob_bob (f : Bob → Bob) (s : State) : (modBob f s).bob = f s.bob := rfl
    @[simp] theorem modBob_frame (f : Bob → Bob) (s : State) : (modBob f s).now = s.now ∧
    (modBob f s).pending = s.pending ∧ (modBob f s).fresh = s.fresh ∧ (modBob f s).sent = s.sent ∧
    (modBob f s).unit = s.unit ∧ (modBob f s).pins = s.pins ∧ (modBob f s).straps = s.straps ∧
    (modBob f s).live = s.live ∧ (modBob f s).pwr = s.pwr ∧ (modBob f s).standby = s.standby ∧
    (modBob f s).clk = s.clk ∧ (modBob f s).boot = s.boot ∧ (modBob f s).test = s.test ∧ (modBob f s).otp = s.otp ∧
    (modBob f s).keys = s.keys ∧ (modBob f s).flt = s.flt ∧ (modBob f s).ldg = s.ldg ∧
    (modBob f s).status = s.status ∧ (modBob f s).sens = s.sens ∧ (modBob f s).net = s.net ∧
    (modBob f s).time = s.time ∧ (modBob f s).sv = s.sv ∧ (modBob f s).disc = s.disc ∧ (modBob f s).scene = s.scene ∧
    (modBob f s).mem = s.mem ∧ (modBob f s).xb = s.xb ∧ (modBob f s).sram = s.sram ∧ (modBob f s).adm = s.adm ∧
    (modBob f s).weft = s.weft ∧ (modBob f s).amb = s.amb ∧ (modBob f s).bri = s.bri ∧ (modBob f s).mark = s.mark ∧
    (modBob f s).aud = s.aud ∧ (modBob f s).bea = s.bea ∧ (modBob f s).card = s.card ∧ (modBob f s).dlg = s.dlg :=
  ⟨rfl, rfl, rfl, rfl, rfl, rfl, rfl, rfl, rfl, rfl, rfl, rfl, rfl, rfl, rfl, rfl, rfl, rfl, rfl, rfl, rfl, rfl, rfl, rfl, rfl, rfl, rfl, rfl, rfl, rfl, rfl, rfl, rfl, rfl, rfl, rfl⟩

@[simp] theorem modBea_bea (f : Bea → Bea) (s : State) : (modBea f s).bea = f s.bea := rfl
    @[simp] theorem modBea_frame (f : Bea → Bea) (s : State) : (modBea f s).now = s.now ∧
    (modBea f s).pending = s.pending ∧ (modBea f s).fresh = s.fresh ∧ (modBea f s).sent = s.sent ∧
    (modBea f s).unit = s.unit ∧ (modBea f s).pins = s.pins ∧ (modBea f s).straps = s.straps ∧
    (modBea f s).live = s.live ∧ (modBea f s).pwr = s.pwr ∧ (modBea f s).standby = s.standby ∧
    (modBea f s).clk = s.clk ∧ (modBea f s).boot = s.boot ∧ (modBea f s).test = s.test ∧ (modBea f s).otp = s.otp ∧
    (modBea f s).keys = s.keys ∧ (modBea f s).flt = s.flt ∧ (modBea f s).ldg = s.ldg ∧
    (modBea f s).status = s.status ∧ (modBea f s).sens = s.sens ∧ (modBea f s).net = s.net ∧
    (modBea f s).time = s.time ∧ (modBea f s).sv = s.sv ∧ (modBea f s).disc = s.disc ∧ (modBea f s).scene = s.scene ∧
    (modBea f s).mem = s.mem ∧ (modBea f s).xb = s.xb ∧ (modBea f s).sram = s.sram ∧ (modBea f s).adm = s.adm ∧
    (modBea f s).weft = s.weft ∧ (modBea f s).amb = s.amb ∧ (modBea f s).bri = s.bri ∧ (modBea f s).mark = s.mark ∧
    (modBea f s).aud = s.aud ∧ (modBea f s).bob = s.bob ∧ (modBea f s).card = s.card ∧ (modBea f s).dlg = s.dlg :=
  ⟨rfl, rfl, rfl, rfl, rfl, rfl, rfl, rfl, rfl, rfl, rfl, rfl, rfl, rfl, rfl, rfl, rfl, rfl, rfl, rfl, rfl, rfl, rfl, rfl, rfl, rfl, rfl, rfl, rfl, rfl, rfl, rfl, rfl, rfl, rfl, rfl⟩

@[simp] theorem modCard_card (f : Card → Card) (s : State) : (modCard f s).card = f s.card := rfl
    @[simp] theorem modCard_frame (f : Card → Card) (s : State) : (modCard f s).now = s.now ∧
    (modCard f s).pending = s.pending ∧ (modCard f s).fresh = s.fresh ∧ (modCard f s).sent = s.sent ∧
    (modCard f s).unit = s.unit ∧ (modCard f s).pins = s.pins ∧ (modCard f s).straps = s.straps ∧
    (modCard f s).live = s.live ∧ (modCard f s).pwr = s.pwr ∧ (modCard f s).standby = s.standby ∧
    (modCard f s).clk = s.clk ∧ (modCard f s).boot = s.boot ∧ (modCard f s).test = s.test ∧
    (modCard f s).otp = s.otp ∧ (modCard f s).keys = s.keys ∧ (modCard f s).flt = s.flt ∧ (modCard f s).ldg = s.ldg ∧
    (modCard f s).status = s.status ∧ (modCard f s).sens = s.sens ∧ (modCard f s).net = s.net ∧
    (modCard f s).time = s.time ∧ (modCard f s).sv = s.sv ∧ (modCard f s).disc = s.disc ∧
    (modCard f s).scene = s.scene ∧ (modCard f s).mem = s.mem ∧ (modCard f s).xb = s.xb ∧
    (modCard f s).sram = s.sram ∧ (modCard f s).adm = s.adm ∧ (modCard f s).weft = s.weft ∧
    (modCard f s).amb = s.amb ∧ (modCard f s).bri = s.bri ∧ (modCard f s).mark = s.mark ∧ (modCard f s).aud = s.aud ∧
    (modCard f s).bob = s.bob ∧ (modCard f s).bea = s.bea ∧ (modCard f s).dlg = s.dlg :=
  ⟨rfl, rfl, rfl, rfl, rfl, rfl, rfl, rfl, rfl, rfl, rfl, rfl, rfl, rfl, rfl, rfl, rfl, rfl, rfl, rfl, rfl, rfl, rfl, rfl, rfl, rfl, rfl, rfl, rfl, rfl, rfl, rfl, rfl, rfl, rfl, rfl⟩

@[simp] theorem modDlg_dlg (f : Dlg → Dlg) (s : State) : (modDlg f s).dlg = f s.dlg := rfl
    @[simp] theorem modDlg_frame (f : Dlg → Dlg) (s : State) : (modDlg f s).now = s.now ∧
    (modDlg f s).pending = s.pending ∧ (modDlg f s).fresh = s.fresh ∧ (modDlg f s).sent = s.sent ∧
    (modDlg f s).unit = s.unit ∧ (modDlg f s).pins = s.pins ∧ (modDlg f s).straps = s.straps ∧
    (modDlg f s).live = s.live ∧ (modDlg f s).pwr = s.pwr ∧ (modDlg f s).standby = s.standby ∧
    (modDlg f s).clk = s.clk ∧ (modDlg f s).boot = s.boot ∧ (modDlg f s).test = s.test ∧ (modDlg f s).otp = s.otp ∧
    (modDlg f s).keys = s.keys ∧ (modDlg f s).flt = s.flt ∧ (modDlg f s).ldg = s.ldg ∧
    (modDlg f s).status = s.status ∧ (modDlg f s).sens = s.sens ∧ (modDlg f s).net = s.net ∧
    (modDlg f s).time = s.time ∧ (modDlg f s).sv = s.sv ∧ (modDlg f s).disc = s.disc ∧ (modDlg f s).scene = s.scene ∧
    (modDlg f s).mem = s.mem ∧ (modDlg f s).xb = s.xb ∧ (modDlg f s).sram = s.sram ∧ (modDlg f s).adm = s.adm ∧
    (modDlg f s).weft = s.weft ∧ (modDlg f s).amb = s.amb ∧ (modDlg f s).bri = s.bri ∧ (modDlg f s).mark = s.mark ∧
    (modDlg f s).aud = s.aud ∧ (modDlg f s).bob = s.bob ∧ (modDlg f s).bea = s.bea ∧ (modDlg f s).card = s.card :=
  ⟨rfl, rfl, rfl, rfl, rfl, rfl, rfl, rfl, rfl, rfl, rfl, rfl, rfl, rfl, rfl, rfl, rfl, rfl, rfl, rfl, rfl, rfl, rfl, rfl, rfl, rfl, rfl, rfl, rfl, rfl, rfl, rfl, rfl, rfl, rfl, rfl⟩

@[simp] theorem modStandby_standby (f : Standby → Standby) (s : State) : (modStandby f s).standby = f s.standby := rfl
    @[simp] theorem modStandby_frame (f : Standby → Standby) (s : State) : (modStandby f s).now = s.now ∧
    (modStandby f s).pending = s.pending ∧ (modStandby f s).fresh = s.fresh ∧ (modStandby f s).sent = s.sent ∧
    (modStandby f s).unit = s.unit ∧ (modStandby f s).pins = s.pins ∧ (modStandby f s).straps = s.straps ∧
    (modStandby f s).live = s.live ∧ (modStandby f s).pwr = s.pwr ∧ (modStandby f s).clk = s.clk ∧
    (modStandby f s).boot = s.boot ∧ (modStandby f s).test = s.test ∧ (modStandby f s).otp = s.otp ∧
    (modStandby f s).keys = s.keys ∧ (modStandby f s).flt = s.flt ∧ (modStandby f s).ldg = s.ldg ∧
    (modStandby f s).status = s.status ∧ (modStandby f s).sens = s.sens ∧ (modStandby f s).net = s.net ∧
    (modStandby f s).time = s.time ∧ (modStandby f s).sv = s.sv ∧ (modStandby f s).disc = s.disc ∧
    (modStandby f s).scene = s.scene ∧ (modStandby f s).mem = s.mem ∧ (modStandby f s).xb = s.xb ∧
    (modStandby f s).sram = s.sram ∧ (modStandby f s).adm = s.adm ∧ (modStandby f s).weft = s.weft ∧
    (modStandby f s).amb = s.amb ∧ (modStandby f s).bri = s.bri ∧ (modStandby f s).mark = s.mark ∧
    (modStandby f s).aud = s.aud ∧ (modStandby f s).bob = s.bob ∧ (modStandby f s).bea = s.bea ∧
    (modStandby f s).card = s.card ∧ (modStandby f s).dlg = s.dlg :=
  ⟨rfl, rfl, rfl, rfl, rfl, rfl, rfl, rfl, rfl, rfl, rfl, rfl, rfl, rfl, rfl, rfl, rfl, rfl, rfl, rfl, rfl, rfl, rfl, rfl, rfl, rfl, rfl, rfl, rfl, rfl, rfl, rfl, rfl, rfl, rfl, rfl⟩

@[simp] theorem modStraps_straps (f : Straps → Straps) (s : State) : (modStraps f s).straps = f s.straps := rfl
    @[simp] theorem modStraps_frame (f : Straps → Straps) (s : State) : (modStraps f s).now = s.now ∧
    (modStraps f s).pending = s.pending ∧ (modStraps f s).fresh = s.fresh ∧ (modStraps f s).sent = s.sent ∧
    (modStraps f s).unit = s.unit ∧ (modStraps f s).pins = s.pins ∧ (modStraps f s).live = s.live ∧
    (modStraps f s).pwr = s.pwr ∧ (modStraps f s).standby = s.standby ∧ (modStraps f s).clk = s.clk ∧
    (modStraps f s).boot = s.boot ∧ (modStraps f s).test = s.test ∧ (modStraps f s).otp = s.otp ∧
    (modStraps f s).keys = s.keys ∧ (modStraps f s).flt = s.flt ∧ (modStraps f s).ldg = s.ldg ∧
    (modStraps f s).status = s.status ∧ (modStraps f s).sens = s.sens ∧ (modStraps f s).net = s.net ∧
    (modStraps f s).time = s.time ∧ (modStraps f s).sv = s.sv ∧ (modStraps f s).disc = s.disc ∧
    (modStraps f s).scene = s.scene ∧ (modStraps f s).mem = s.mem ∧ (modStraps f s).xb = s.xb ∧
    (modStraps f s).sram = s.sram ∧ (modStraps f s).adm = s.adm ∧ (modStraps f s).weft = s.weft ∧
    (modStraps f s).amb = s.amb ∧ (modStraps f s).bri = s.bri ∧ (modStraps f s).mark = s.mark ∧
    (modStraps f s).aud = s.aud ∧ (modStraps f s).bob = s.bob ∧ (modStraps f s).bea = s.bea ∧
    (modStraps f s).card = s.card ∧ (modStraps f s).dlg = s.dlg :=
  ⟨rfl, rfl, rfl, rfl, rfl, rfl, rfl, rfl, rfl, rfl, rfl, rfl, rfl, rfl, rfl, rfl, rfl, rfl, rfl, rfl, rfl, rfl, rfl, rfl, rfl, rfl, rfl, rfl, rfl, rfl, rfl, rfl, rfl, rfl, rfl, rfl⟩

@[simp] theorem modLive_live (f : Live → Live) (s : State) : (modLive f s).live = f s.live := rfl
    @[simp] theorem modLive_frame (f : Live → Live) (s : State) : (modLive f s).now = s.now ∧
    (modLive f s).pending = s.pending ∧ (modLive f s).fresh = s.fresh ∧ (modLive f s).sent = s.sent ∧
    (modLive f s).unit = s.unit ∧ (modLive f s).pins = s.pins ∧ (modLive f s).straps = s.straps ∧
    (modLive f s).pwr = s.pwr ∧ (modLive f s).standby = s.standby ∧ (modLive f s).clk = s.clk ∧
    (modLive f s).boot = s.boot ∧ (modLive f s).test = s.test ∧ (modLive f s).otp = s.otp ∧
    (modLive f s).keys = s.keys ∧ (modLive f s).flt = s.flt ∧ (modLive f s).ldg = s.ldg ∧
    (modLive f s).status = s.status ∧ (modLive f s).sens = s.sens ∧ (modLive f s).net = s.net ∧
    (modLive f s).time = s.time ∧ (modLive f s).sv = s.sv ∧ (modLive f s).disc = s.disc ∧
    (modLive f s).scene = s.scene ∧ (modLive f s).mem = s.mem ∧ (modLive f s).xb = s.xb ∧
    (modLive f s).sram = s.sram ∧ (modLive f s).adm = s.adm ∧ (modLive f s).weft = s.weft ∧
    (modLive f s).amb = s.amb ∧ (modLive f s).bri = s.bri ∧ (modLive f s).mark = s.mark ∧ (modLive f s).aud = s.aud ∧
    (modLive f s).bob = s.bob ∧ (modLive f s).bea = s.bea ∧ (modLive f s).card = s.card ∧ (modLive f s).dlg = s.dlg :=
  ⟨rfl, rfl, rfl, rfl, rfl, rfl, rfl, rfl, rfl, rfl, rfl, rfl, rfl, rfl, rfl, rfl, rfl, rfl, rfl, rfl, rfl, rfl, rfl, rfl, rfl, rfl, rfl, rfl, rfl, rfl, rfl, rfl, rfl, rfl, rfl, rfl⟩

@[simp] theorem modPins_pins (f : Pins → Pins) (s : State) : (modPins f s).pins = f s.pins := rfl
    @[simp] theorem modPins_frame (f : Pins → Pins) (s : State) : (modPins f s).now = s.now ∧
    (modPins f s).pending = s.pending ∧ (modPins f s).fresh = s.fresh ∧ (modPins f s).sent = s.sent ∧
    (modPins f s).unit = s.unit ∧ (modPins f s).straps = s.straps ∧ (modPins f s).live = s.live ∧
    (modPins f s).pwr = s.pwr ∧ (modPins f s).standby = s.standby ∧ (modPins f s).clk = s.clk ∧
    (modPins f s).boot = s.boot ∧ (modPins f s).test = s.test ∧ (modPins f s).otp = s.otp ∧
    (modPins f s).keys = s.keys ∧ (modPins f s).flt = s.flt ∧ (modPins f s).ldg = s.ldg ∧
    (modPins f s).status = s.status ∧ (modPins f s).sens = s.sens ∧ (modPins f s).net = s.net ∧
    (modPins f s).time = s.time ∧ (modPins f s).sv = s.sv ∧ (modPins f s).disc = s.disc ∧
    (modPins f s).scene = s.scene ∧ (modPins f s).mem = s.mem ∧ (modPins f s).xb = s.xb ∧
    (modPins f s).sram = s.sram ∧ (modPins f s).adm = s.adm ∧ (modPins f s).weft = s.weft ∧
    (modPins f s).amb = s.amb ∧ (modPins f s).bri = s.bri ∧ (modPins f s).mark = s.mark ∧ (modPins f s).aud = s.aud ∧
    (modPins f s).bob = s.bob ∧ (modPins f s).bea = s.bea ∧ (modPins f s).card = s.card ∧ (modPins f s).dlg = s.dlg :=
  ⟨rfl, rfl, rfl, rfl, rfl, rfl, rfl, rfl, rfl, rfl, rfl, rfl, rfl, rfl, rfl, rfl, rfl, rfl, rfl, rfl, rfl, rfl, rfl, rfl, rfl, rfl, rfl, rfl, rfl, rfl, rfl, rfl, rfl, rfl, rfl, rfl⟩

@[simp] theorem setDom_frame (s : State) (d : Nat) (f : DomSt → DomSt) :
    (setDom s d f).now = s.now ∧ (setDom s d f).pending = s.pending ∧ (setDom s d f).fresh = s.fresh ∧
    (setDom s d f).sent = s.sent ∧ (setDom s d f).unit = s.unit ∧ (setDom s d f).pins = s.pins ∧
    (setDom s d f).straps = s.straps ∧ (setDom s d f).live = s.live ∧ (setDom s d f).standby = s.standby ∧
    (setDom s d f).clk = s.clk ∧ (setDom s d f).boot = s.boot ∧ (setDom s d f).test = s.test ∧
    (setDom s d f).otp = s.otp ∧ (setDom s d f).keys = s.keys ∧ (setDom s d f).flt = s.flt ∧
    (setDom s d f).ldg = s.ldg ∧ (setDom s d f).status = s.status ∧ (setDom s d f).sens = s.sens ∧
    (setDom s d f).net = s.net ∧ (setDom s d f).time = s.time ∧ (setDom s d f).sv = s.sv ∧
    (setDom s d f).disc = s.disc ∧ (setDom s d f).scene = s.scene ∧ (setDom s d f).mem = s.mem ∧
    (setDom s d f).xb = s.xb ∧ (setDom s d f).sram = s.sram ∧ (setDom s d f).adm = s.adm ∧
    (setDom s d f).weft = s.weft ∧ (setDom s d f).amb = s.amb ∧ (setDom s d f).bri = s.bri ∧
    (setDom s d f).mark = s.mark ∧ (setDom s d f).aud = s.aud ∧ (setDom s d f).bob = s.bob ∧
    (setDom s d f).bea = s.bea ∧ (setDom s d f).card = s.card ∧ (setDom s d f).dlg = s.dlg :=
  ⟨rfl, rfl, rfl, rfl, rfl, rfl, rfl, rfl, rfl, rfl, rfl, rfl, rfl, rfl, rfl, rfl, rfl, rfl, rfl, rfl, rfl, rfl, rfl, rfl, rfl, rfl, rfl, rfl, rfl, rfl, rfl, rfl, rfl, rfl, rfl, rfl⟩

@[simp] theorem setNetPort_frame (s : State) (p : Port) (f : PortSt → PortSt) :
    (setNetPort s p f).now = s.now ∧ (setNetPort s p f).pending = s.pending ∧ (setNetPort s p f).fresh = s.fresh ∧
    (setNetPort s p f).sent = s.sent ∧ (setNetPort s p f).unit = s.unit ∧ (setNetPort s p f).pins = s.pins ∧
    (setNetPort s p f).straps = s.straps ∧ (setNetPort s p f).live = s.live ∧ (setNetPort s p f).pwr = s.pwr ∧
    (setNetPort s p f).standby = s.standby ∧ (setNetPort s p f).clk = s.clk ∧ (setNetPort s p f).boot = s.boot ∧
    (setNetPort s p f).test = s.test ∧ (setNetPort s p f).otp = s.otp ∧ (setNetPort s p f).keys = s.keys ∧
    (setNetPort s p f).flt = s.flt ∧ (setNetPort s p f).ldg = s.ldg ∧ (setNetPort s p f).status = s.status ∧
    (setNetPort s p f).sens = s.sens ∧ (setNetPort s p f).time = s.time ∧ (setNetPort s p f).sv = s.sv ∧
    (setNetPort s p f).disc = s.disc ∧ (setNetPort s p f).scene = s.scene ∧ (setNetPort s p f).mem = s.mem ∧
    (setNetPort s p f).xb = s.xb ∧ (setNetPort s p f).sram = s.sram ∧ (setNetPort s p f).adm = s.adm ∧
    (setNetPort s p f).weft = s.weft ∧ (setNetPort s p f).amb = s.amb ∧ (setNetPort s p f).bri = s.bri ∧
    (setNetPort s p f).mark = s.mark ∧ (setNetPort s p f).aud = s.aud ∧ (setNetPort s p f).bob = s.bob ∧
    (setNetPort s p f).bea = s.bea ∧ (setNetPort s p f).card = s.card ∧ (setNetPort s p f).dlg = s.dlg :=
  ⟨rfl, rfl, rfl, rfl, rfl, rfl, rfl, rfl, rfl, rfl, rfl, rfl, rfl, rfl, rfl, rfl, rfl, rfl, rfl, rfl, rfl, rfl, rfl, rfl, rfl, rfl, rfl, rfl, rfl, rfl, rfl, rfl, rfl, rfl, rfl, rfl⟩

@[simp] theorem setLink_frame (s : State) (d : Dir) (l : Link) :
    (setLink s d l).now = s.now ∧ (setLink s d l).pending = s.pending ∧ (setLink s d l).fresh = s.fresh ∧
    (setLink s d l).sent = s.sent ∧ (setLink s d l).unit = s.unit ∧ (setLink s d l).pins = s.pins ∧
    (setLink s d l).straps = s.straps ∧ (setLink s d l).live = s.live ∧ (setLink s d l).pwr = s.pwr ∧
    (setLink s d l).standby = s.standby ∧ (setLink s d l).clk = s.clk ∧ (setLink s d l).boot = s.boot ∧
    (setLink s d l).test = s.test ∧ (setLink s d l).otp = s.otp ∧ (setLink s d l).keys = s.keys ∧
    (setLink s d l).flt = s.flt ∧ (setLink s d l).ldg = s.ldg ∧ (setLink s d l).status = s.status ∧
    (setLink s d l).sens = s.sens ∧ (setLink s d l).net = s.net ∧ (setLink s d l).time = s.time ∧
    (setLink s d l).disc = s.disc ∧ (setLink s d l).scene = s.scene ∧ (setLink s d l).mem = s.mem ∧
    (setLink s d l).xb = s.xb ∧ (setLink s d l).sram = s.sram ∧ (setLink s d l).adm = s.adm ∧
    (setLink s d l).weft = s.weft ∧ (setLink s d l).amb = s.amb ∧ (setLink s d l).bri = s.bri ∧
    (setLink s d l).mark = s.mark ∧ (setLink s d l).aud = s.aud ∧ (setLink s d l).bob = s.bob ∧
    (setLink s d l).bea = s.bea ∧ (setLink s d l).card = s.card ∧ (setLink s d l).dlg = s.dlg := by
  cases d <;> simp [setLink]

@[simp] theorem modLink_frame (s : State) (d : Dir) (f : Link → Link) :
    (modLink s d f).now = s.now ∧ (modLink s d f).pending = s.pending ∧ (modLink s d f).fresh = s.fresh ∧
    (modLink s d f).sent = s.sent ∧ (modLink s d f).unit = s.unit ∧ (modLink s d f).pins = s.pins ∧
    (modLink s d f).straps = s.straps ∧ (modLink s d f).live = s.live ∧ (modLink s d f).pwr = s.pwr ∧
    (modLink s d f).standby = s.standby ∧ (modLink s d f).clk = s.clk ∧ (modLink s d f).boot = s.boot ∧
    (modLink s d f).test = s.test ∧ (modLink s d f).otp = s.otp ∧ (modLink s d f).keys = s.keys ∧
    (modLink s d f).flt = s.flt ∧ (modLink s d f).ldg = s.ldg ∧ (modLink s d f).status = s.status ∧
    (modLink s d f).sens = s.sens ∧ (modLink s d f).net = s.net ∧ (modLink s d f).time = s.time ∧
    (modLink s d f).disc = s.disc ∧ (modLink s d f).scene = s.scene ∧ (modLink s d f).mem = s.mem ∧
    (modLink s d f).xb = s.xb ∧ (modLink s d f).sram = s.sram ∧ (modLink s d f).adm = s.adm ∧
    (modLink s d f).weft = s.weft ∧ (modLink s d f).amb = s.amb ∧ (modLink s d f).bri = s.bri ∧
    (modLink s d f).mark = s.mark ∧ (modLink s d f).aud = s.aud ∧ (modLink s d f).bob = s.bob ∧
    (modLink s d f).bea = s.bea ∧ (modLink s d f).card = s.card ∧ (modLink s d f).dlg = s.dlg := by
  simp [modLink]

@[simp] theorem emit_frame (s : State) (o : Sent) :
    (emit s o).now = s.now ∧ (emit s o).pending = s.pending ∧ (emit s o).fresh = s.fresh ∧ (emit s o).unit = s.unit ∧
    (emit s o).pins = s.pins ∧ (emit s o).straps = s.straps ∧ (emit s o).live = s.live ∧ (emit s o).pwr = s.pwr ∧
    (emit s o).standby = s.standby ∧ (emit s o).clk = s.clk ∧ (emit s o).boot = s.boot ∧ (emit s o).test = s.test ∧
    (emit s o).otp = s.otp ∧ (emit s o).keys = s.keys ∧ (emit s o).flt = s.flt ∧ (emit s o).ldg = s.ldg ∧
    (emit s o).status = s.status ∧ (emit s o).sens = s.sens ∧ (emit s o).net = s.net ∧ (emit s o).time = s.time ∧
    (emit s o).sv = s.sv ∧ (emit s o).disc = s.disc ∧ (emit s o).scene = s.scene ∧ (emit s o).mem = s.mem ∧
    (emit s o).xb = s.xb ∧ (emit s o).sram = s.sram ∧ (emit s o).adm = s.adm ∧ (emit s o).weft = s.weft ∧
    (emit s o).amb = s.amb ∧ (emit s o).bri = s.bri ∧ (emit s o).mark = s.mark ∧ (emit s o).aud = s.aud ∧
    (emit s o).bob = s.bob ∧ (emit s o).bea = s.bea ∧ (emit s o).card = s.card ∧ (emit s o).dlg = s.dlg :=
  ⟨rfl, rfl, rfl, rfl, rfl, rfl, rfl, rfl, rfl, rfl, rfl, rfl, rfl, rfl, rfl, rfl, rfl, rfl, rfl, rfl, rfl, rfl, rfl, rfl, rfl, rfl, rfl, rfl, rfl, rfl, rfl, rfl, rfl, rfl, rfl, rfl⟩

@[simp] theorem emit_sent (s : State) (o : Sent) : (emit s o).sent = o :: s.sent := rfl

@[simp] theorem setDom_pwr (s : State) (d : Nat) (f : DomSt → DomSt) : (setDom s d f).pwr = { s.pwr with dom := updAt s.pwr.dom d f } := rfl
@[simp] theorem setNetPort_net (s : State) (p : Port) (f : PortSt → PortSt) :
    (setNetPort s p f).net = { s.net with port := updAt s.net.port p.val f } := rfl

end Sys2Proof.Machine
end

