-- ==== Sys2Proof/Laws/Reports.lean ====
section
/-!
SUPPORT. What raising and clearing a fault of S0 to S2 leaves, field by field, and what `Only` says of the parts that the
statements speak of.
-/
set_option linter.unusedVariables false
set_option linter.unusedSimpArgs false
set_option linter.unnecessarySeqFocus false
set_option linter.unusedTactic false
set_option linter.unreachableTactic false
namespace Sys2Proof.Machine
open Sys2Proof

@[simp] theorem raise_frame (a0) (a1) (s : State) (hs : sevOf a0 ≠ 3) :
    (raise a0 a1 s).now = s.now ∧ (raise a0 a1 s).pending = s.pending ∧ (raise a0 a1 s).fresh = s.fresh ∧
    (raise a0 a1 s).sent = s.sent ∧ (raise a0 a1 s).unit = s.unit ∧ (raise a0 a1 s).pins = s.pins ∧
    (raise a0 a1 s).straps = s.straps ∧ (raise a0 a1 s).live = s.live ∧ (raise a0 a1 s).pwr = s.pwr ∧
    (raise a0 a1 s).standby = s.standby ∧ (raise a0 a1 s).clk = s.clk ∧ (raise a0 a1 s).boot = s.boot ∧
    (raise a0 a1 s).test = s.test ∧ (raise a0 a1 s).otp = s.otp ∧ (raise a0 a1 s).keys = s.keys ∧
    (raise a0 a1 s).ldg = s.ldg ∧ (raise a0 a1 s).sens = s.sens ∧ (raise a0 a1 s).time = s.time ∧
    (raise a0 a1 s).scene = s.scene ∧ (raise a0 a1 s).mem = s.mem ∧ (raise a0 a1 s).xb = s.xb ∧ (raise a0 a1 s).sram = s.sram ∧
    (raise a0 a1 s).adm = s.adm ∧ (raise a0 a1 s).amb = s.amb ∧ (raise a0 a1 s).bri = s.bri ∧
    (raise a0 a1 s).mark = s.mark ∧ (raise a0 a1 s).aud = s.aud ∧ (raise a0 a1 s).bob = s.bob ∧
    (raise a0 a1 s).card = s.card ∧ (raise a0 a1 s).dlg = s.dlg :=
  have h : Only [.flt, .holds, .status, .net, .sv, .disc, .weft, .bea] s (raise a0 a1 s) := by simp [hs]
  ⟨h .now (by decide), h .pending (by decide), h .fresh (by decide), h .sent (by decide), h .unit (by decide), h
    .pins (by decide), h .straps (by decide), h .live (by decide), h .pwr (by decide), h .standby (by decide), h
    .clk (by decide), h .boot (by decide), h .test (by decide), h .otp (by decide), h .keys (by decide), h .ldg
    (by decide), h .sens (by decide), h .time (by decide), h .scene (by decide), h .mem (by decide), h .xb (by decide), h .sram (by decide), h .adm (by decide), h .amb (by decide), h .bri (by decide), h .mark (by decide), h .aud (by
    decide), h .bob (by decide), h .card (by decide), h .dlg (by decide)⟩

@[simp] theorem raiseLimited_frame (a0) (a1) (a2) (a3) (s : State) (hs : sevOf a0 ≠ 3) :
    (raiseLimited a0 a1 a2 a3 s).now = s.now ∧ (raiseLimited a0 a1 a2 a3 s).pending = s.pending ∧
    (raiseLimited a0 a1 a2 a3 s).fresh = s.fresh ∧ (raiseLimited a0 a1 a2 a3 s).sent = s.sent ∧
    (raiseLimited a0 a1 a2 a3 s).unit = s.unit ∧ (raiseLimited a0 a1 a2 a3 s).pins = s.pins ∧
    (raiseLimited a0 a1 a2 a3 s).straps = s.straps ∧ (raiseLimited a0 a1 a2 a3 s).live = s.live ∧
    (raiseLimited a0 a1 a2 a3 s).pwr = s.pwr ∧ (raiseLimited a0 a1 a2 a3 s).standby = s.standby ∧
    (raiseLimited a0 a1 a2 a3 s).clk = s.clk ∧ (raiseLimited a0 a1 a2 a3 s).boot = s.boot ∧
    (raiseLimited a0 a1 a2 a3 s).test = s.test ∧ (raiseLimited a0 a1 a2 a3 s).otp = s.otp ∧
    (raiseLimited a0 a1 a2 a3 s).keys = s.keys ∧ (raiseLimited a0 a1 a2 a3 s).ldg = s.ldg ∧
    (raiseLimited a0 a1 a2 a3 s).sens = s.sens ∧ (raiseLimited a0 a1 a2 a3 s).time = s.time ∧
    (raiseLimited a0 a1 a2 a3 s).scene = s.scene ∧ (raiseLimited a0 a1 a2 a3 s).mem = s.mem ∧
    (raiseLimited a0 a1 a2 a3 s).xb = s.xb ∧ (raiseLimited a0 a1 a2 a3 s).sram = s.sram ∧ (raiseLimited a0 a1 a2 a3 s).adm = s.adm ∧
    (raiseLimited a0 a1 a2 a3 s).amb = s.amb ∧ (raiseLimited a0 a1 a2 a3 s).bri = s.bri ∧
    (raiseLimited a0 a1 a2 a3 s).mark = s.mark ∧ (raiseLimited a0 a1 a2 a3 s).aud = s.aud ∧
    (raiseLimited a0 a1 a2 a3 s).bob = s.bob ∧ (raiseLimited a0 a1 a2 a3 s).card = s.card ∧
    (raiseLimited a0 a1 a2 a3 s).dlg = s.dlg :=
  have h : Only [.flt, .holds, .status, .net, .sv, .disc, .weft, .bea] s (raiseLimited a0 a1 a2 a3 s) := by simp [hs]
  ⟨h .now (by decide), h .pending (by decide), h .fresh (by decide), h .sent (by decide), h .unit (by decide), h
    .pins (by decide), h .straps (by decide), h .live (by decide), h .pwr (by decide), h .standby (by decide), h
    .clk (by decide), h .boot (by decide), h .test (by decide), h .otp (by decide), h .keys (by decide), h .ldg
    (by decide), h .sens (by decide), h .time (by decide), h .scene (by decide), h .mem (by decide), h .xb (by decide), h .sram (by decide), h .adm (by decide), h .amb (by decide), h .bri (by decide), h .mark (by decide), h .aud (by
    decide), h .bob (by decide), h .card (by decide), h .dlg (by decide)⟩

@[simp] theorem clearKey_frame (a0) (a1) (s : State) :
    (clearKey a0 a1 s).now = s.now ∧ (clearKey a0 a1 s).pending = s.pending ∧ (clearKey a0 a1 s).fresh = s.fresh ∧
    (clearKey a0 a1 s).sent = s.sent ∧ (clearKey a0 a1 s).unit = s.unit ∧ (clearKey a0 a1 s).pins = s.pins ∧
    (clearKey a0 a1 s).straps = s.straps ∧ (clearKey a0 a1 s).live = s.live ∧ (clearKey a0 a1 s).pwr = s.pwr ∧
    (clearKey a0 a1 s).standby = s.standby ∧ (clearKey a0 a1 s).clk = s.clk ∧ (clearKey a0 a1 s).boot = s.boot ∧
    (clearKey a0 a1 s).test = s.test ∧ (clearKey a0 a1 s).otp = s.otp ∧ (clearKey a0 a1 s).keys = s.keys ∧
    (clearKey a0 a1 s).ldg = s.ldg ∧ (clearKey a0 a1 s).sens = s.sens ∧ (clearKey a0 a1 s).time = s.time ∧
    (clearKey a0 a1 s).scene = s.scene ∧ (clearKey a0 a1 s).mem = s.mem ∧ (clearKey a0 a1 s).xb = s.xb ∧ (clearKey a0 a1 s).sram = s.sram ∧
    (clearKey a0 a1 s).adm = s.adm ∧ (clearKey a0 a1 s).amb = s.amb ∧ (clearKey a0 a1 s).bri = s.bri ∧
    (clearKey a0 a1 s).mark = s.mark ∧ (clearKey a0 a1 s).aud = s.aud ∧ (clearKey a0 a1 s).bob = s.bob ∧
    (clearKey a0 a1 s).card = s.card ∧ (clearKey a0 a1 s).dlg = s.dlg :=
  have h : Only [.flt, .holds, .status, .net, .sv, .disc, .weft, .bea] s (clearKey a0 a1 s) := by simp
  ⟨h .now (by decide), h .pending (by decide), h .fresh (by decide), h .sent (by decide), h .unit (by decide), h
    .pins (by decide), h .straps (by decide), h .live (by decide), h .pwr (by decide), h .standby (by decide), h
    .clk (by decide), h .boot (by decide), h .test (by decide), h .otp (by decide), h .keys (by decide), h .ldg
    (by decide), h .sens (by decide), h .time (by decide), h .scene (by decide), h .mem (by decide), h .xb (by decide), h .sram (by decide), h .adm (by decide), h .amb (by decide), h .bri (by decide), h .mark (by decide), h .aud (by
    decide), h .bob (by decide), h .card (by decide), h .dlg (by decide)⟩

@[simp] theorem clearFault_frame (a0) (a1) (s : State) :
    (clearFault a0 a1 s).now = s.now ∧ (clearFault a0 a1 s).pending = s.pending ∧
    (clearFault a0 a1 s).fresh = s.fresh ∧ (clearFault a0 a1 s).sent = s.sent ∧ (clearFault a0 a1 s).unit = s.unit ∧
    (clearFault a0 a1 s).pins = s.pins ∧ (clearFault a0 a1 s).straps = s.straps ∧ (clearFault a0 a1 s).live = s.live ∧
    (clearFault a0 a1 s).pwr = s.pwr ∧ (clearFault a0 a1 s).standby = s.standby ∧ (clearFault a0 a1 s).clk = s.clk ∧
    (clearFault a0 a1 s).boot = s.boot ∧ (clearFault a0 a1 s).test = s.test ∧ (clearFault a0 a1 s).otp = s.otp ∧
    (clearFault a0 a1 s).keys = s.keys ∧ (clearFault a0 a1 s).ldg = s.ldg ∧ (clearFault a0 a1 s).sens = s.sens ∧
    (clearFault a0 a1 s).time = s.time ∧ (clearFault a0 a1 s).scene = s.scene ∧ (clearFault a0 a1 s).mem = s.mem ∧
    (clearFault a0 a1 s).xb = s.xb ∧ (clearFault a0 a1 s).sram = s.sram ∧ (clearFault a0 a1 s).adm = s.adm ∧ (clearFault a0 a1 s).amb = s.amb ∧
    (clearFault a0 a1 s).bri = s.bri ∧ (clearFault a0 a1 s).mark = s.mark ∧ (clearFault a0 a1 s).aud = s.aud ∧
    (clearFault a0 a1 s).bob = s.bob ∧ (clearFault a0 a1 s).card = s.card ∧ (clearFault a0 a1 s).dlg = s.dlg :=
  have h : Only [.flt, .holds, .status, .net, .sv, .disc, .weft, .bea] s (clearFault a0 a1 s) := by simp
  ⟨h .now (by decide), h .pending (by decide), h .fresh (by decide), h .sent (by decide), h .unit (by decide), h
    .pins (by decide), h .straps (by decide), h .live (by decide), h .pwr (by decide), h .standby (by decide), h
    .clk (by decide), h .boot (by decide), h .test (by decide), h .otp (by decide), h .keys (by decide), h .ldg
    (by decide), h .sens (by decide), h .time (by decide), h .scene (by decide), h .mem (by decide), h .xb (by decide), h .sram (by decide), h .adm (by decide), h .amb (by decide), h .bri (by decide), h .mark (by decide), h .aud (by
    decide), h .bob (by decide), h .card (by decide), h .dlg (by decide)⟩

@[simp] theorem clearAll_frame (a0) (s : State) :
    (clearAll a0 s).now = s.now ∧ (clearAll a0 s).pending = s.pending ∧ (clearAll a0 s).fresh = s.fresh ∧
    (clearAll a0 s).sent = s.sent ∧ (clearAll a0 s).unit = s.unit ∧ (clearAll a0 s).pins = s.pins ∧
    (clearAll a0 s).straps = s.straps ∧ (clearAll a0 s).live = s.live ∧ (clearAll a0 s).pwr = s.pwr ∧
    (clearAll a0 s).standby = s.standby ∧ (clearAll a0 s).clk = s.clk ∧ (clearAll a0 s).boot = s.boot ∧
    (clearAll a0 s).test = s.test ∧ (clearAll a0 s).otp = s.otp ∧ (clearAll a0 s).keys = s.keys ∧
    (clearAll a0 s).ldg = s.ldg ∧ (clearAll a0 s).sens = s.sens ∧ (clearAll a0 s).time = s.time ∧
    (clearAll a0 s).scene = s.scene ∧ (clearAll a0 s).mem = s.mem ∧ (clearAll a0 s).xb = s.xb ∧ (clearAll a0 s).sram = s.sram ∧
    (clearAll a0 s).adm = s.adm ∧ (clearAll a0 s).amb = s.amb ∧ (clearAll a0 s).bri = s.bri ∧
    (clearAll a0 s).mark = s.mark ∧ (clearAll a0 s).aud = s.aud ∧ (clearAll a0 s).bob = s.bob ∧
    (clearAll a0 s).card = s.card ∧ (clearAll a0 s).dlg = s.dlg :=
  have h : Only [.flt, .holds, .status, .net, .sv, .disc, .weft, .bea] s (clearAll a0 s) := by simp
  ⟨h .now (by decide), h .pending (by decide), h .fresh (by decide), h .sent (by decide), h .unit (by decide), h
    .pins (by decide), h .straps (by decide), h .live (by decide), h .pwr (by decide), h .standby (by decide), h
    .clk (by decide), h .boot (by decide), h .test (by decide), h .otp (by decide), h .keys (by decide), h .ldg
    (by decide), h .sens (by decide), h .time (by decide), h .scene (by decide), h .mem (by decide), h .xb (by decide), h .sram (by decide), h .adm (by decide), h .amb (by decide), h .bri (by decide), h .mark (by decide), h .aud (by
    decide), h .bob (by decide), h .card (by decide), h .dlg (by decide)⟩

/-- The facet of a part that the statements speak of. -/
def Part.facet : Safety.Part → Facet
  | .pins => .pins
  | .straps => .straps
  | .live => .live
  | .pwr => .pwr
  | .standby => .standby
  | .clk => .clk
  | .boot => .boot
  | .test => .test
  | .otp => .otp
  | .keys => .keys
  | .ldg => .ldg
  | .sens => .sens
  | .time => .time
  | .scene => .scene
  | .mem => .mem
  | .xb => .xb
  | .sram => .sram
  | .adm => .adm
  | .amb => .amb
  | .bri => .bri
  | .mark => .mark
  | .aud => .aud
  | .bob => .bob
  | .card => .card
  | .dlg => .dlg

/-- A part whose facet is not among those that may change stands. -/
theorem Only.samePart {W : List Facet} {s t : State} (h : Only W s t) (p : Safety.Part) (w : Part.facet p ∉ W) :
    Safety.samePart s t p := by
  have e := h _ w
  cases p <;> exact e

end Sys2Proof.Machine
end

