-- ==== Sys2Proof/Machine/Serial.lean ====
section
/-!
DEFINITION. What a port shifts to its drivers, as functions of State (13 R623, R625, R640, R643 to R646, R650, Tables 13.2
and 13.4). The driver farthest from the PW64 has its word first.
-/
namespace Sys2Proof.Machine
open Sys2Proof

/-- A command by the width of its latch: the words that are shifted while it is given (Table 13.4). -/
structure LatchCmd where
  edges : Nat
  words : List (BitVec 16)
  deriving DecidableEq, Repr

/-- The place in the band of a driver's channel in a scan row, with its colour (R625, Table 13.2). -/
def bandPlace (s : State) (g : WGeom) (r d c : Nat) : Nat × Nat × Nat :=
  let narrow := drvPerUnit (drvClass s) == 3
  let unit := if narrow then d / 3 else d
  let col := if narrow then c else c / 3
  let wide := g.bandW / 16
  (unit % wide * 16 + col, unit / wide * g.scan + r, if narrow then d % 3 else c % 3)

/-- The place in the tile of a place in the band of port p (R627). -/
def bandToTile (s : State) (g : WGeom) (p bx by_ : Nat) : Nat × Nat :=
  let i := (bandPorts s).findIdx (· == p)
  if g.columns then (i * g.bandW + bx, by_) else (bx, i * g.bandH + by_)

def colourOf (c : Nat × Nat × Nat) (i : Nat) : Nat := match i with | 0 => c.1 | 1 => c.2.1 | _ => c.2.2

/-- The code in a panel for channel c of driver d of port p in scan row r. -/
def codeAt (s : State) (g : WGeom) (panel : List (List (Nat × Nat × Nat))) (p r d c : Nat) : Nat :=
  let b : Nat × Nat × Nat := bandPlace s g r d c
  let t : Nat × Nat := bandToTile s g p b.1 b.2.1
  colourOf ((panel.getD t.2 []).getD t.1 (0, 0, 0)) b.2.2

/-- Drivers of the chain, farthest first (R623). -/
def chainOrder (s : State) (p : Nat) : List Nat := (List.range (s.weft.port.getD p {}).chain).reverse

/-- The word of each driver for scan row r and channel c (R643). -/
def channelWords (s : State) (g : WGeom) (p r c : Nat) : List (BitVec 16) :=
  (chainOrder s p).map (fun d => BitVec.ofNat 16 (codeAt s g s.weft.panel p r d c))

/-- Every driver has the same word. -/
def toAll (s : State) (p : Nat) (w : BitVec 16) : List (BitVec 16) := (chainOrder s p).map (fun _ => w)

def wordEdges : Nat := 1
def vsyncEdges : Nat := 3
def wrcfg1Edges : Nat := 5
def wrcfg2Edges : Nat := 6
def detectEdges : Nat := 7
def wordStatEdges : Nat := 9
def resetPtrEdges : Nat := 11

/-- The WORD commands of one frame on a port of classes G and C: scan row by scan row, channel by channel (R643). -/
def frameWords (s : State) (g : WGeom) (p : Nat) : List LatchCmd :=
  (List.range g.scan).flatMap (fun r => (List.range (drvChannels (drvClass s))).map (fun c =>
    ⟨wordEdges, channelWords s g p r c⟩))

/-- The configuration words of the port's group (R645). -/
def configCmds (s : State) (p : Nat) : List LatchCmd :=
  let w := s.weft.group.getD (p / 8) {}
  [⟨wrcfg1Edges, toAll s p w.cfg1⟩, ⟨wrcfg2Edges, toAll s p w.cfg2⟩]

/-- The load of one frame: its words, the configuration words where the analogue code differs from the last, and VSYNC at a
word boundary after the last word (R643, R645, R646). -/
def loadCmds (s : State) (g : WGeom) (p : Nat) (changed : Bool) : List LatchCmd :=
  frameWords s g p ++ (if changed then configCmds s p else []) ++ [⟨vsyncEdges, toAll s p 0⟩]

/-- Clock periods of a load: 16 for each driver and 2 idle after each word (R643, R649). -/
def wordClocks (s : State) (p : Nat) : Nat := 16 * (s.weft.port.getD p {}).chain + 2

/-- The data word of the DETECT under way: channel block, open or short (Table 13.4, R650). -/
def detectWord (s : State) : BitVec 16 := BitVec.ofNat 16 (s.weft.read.block % 4 + (if s.weft.read.kind then 4 else 0))

def detectCmd (s : State) (p : Nat) : LatchCmd := ⟨detectEdges, toAll s p (detectWord s)⟩

/-- A WORD that also loads the captured flags (Table 13.4). -/
def withFlags (l : LatchCmd) : LatchCmd := { l with edges := wordStatEdges }

/-- The bits of a word as they leave, most significant first (R623). -/
def wordBits (w : BitVec 16) : List Bool := (List.range 16).map (fun i => w.getLsbD (15 - i))

/-- The bits of a command on `WPnn_SDO`. -/
def cmdBits (l : LatchCmd) : List Bool := l.words.flatMap wordBits

/-! ### Class S (R640) -/

/-- Planes of a pick in descending weight. -/
def planeOrder (s : State) (p : Nat) : List Nat := (List.range (s.weft.group.getD (p / 8) {}).n).reverse

/-- Plane i of row j in refresh r: the drivers farthest first, each by its 16 channels. Plane i is lit for 2^i units. -/
def planeBits (s : State) (g : WGeom) (p r j i : Nat) : List (List Bool) :=
  let w := s.weft.group.getD (p / 8) {}
  (chainOrder s p).map (fun d => (List.range 16).map (fun c =>
    bitAt (litUnits true w.n w.kp r (codeAt s g s.weft.panel p j d c)) i))

/-- Units for which `WGg_GCLK` is low for the planes of a pick (R640); a unit is 8 system clocks. -/
def planeUnits (s : State) (p : Nat) : List Nat := (planeOrder s p).map (2 ^ ·)

/-- The current that `WGg_IRET` sinks in class S, in mA (R642). -/
def iretCurrent (s : State) (g : Nat) : Rat :=
  2 * ((iscale s : Nat) / 16) * (((s.weft.group.getD g {}).code + 1 : Nat) / 256)

/-! ### What a driver of classes G and C does with the commands (R643, R644, R647, R648, Table 13.4) -/

/-- A driver: its two banks by scan row and channel, its pointer, the row it displays, and the words of configuration. -/
structure Driver where
  channels : Nat
  rows : Nat
  front : List (List (BitVec 16))
  back : List (List (BitVec 16))
  pointer : Nat := 0
  row : Nat := 0
  shadow1 : BitVec 16 := 0
  shadow2 : BitVec 16 := 0
  config1 : BitVec 16 := 0
  config2 : BitVec 16 := 0
  swapDue : Bool := false
  armed : Option (Nat × Bool) := none
  /-- Captured flags, in the shift register after a WORD+STAT. -/
  flags : BitVec 16 := 0
  shift : BitVec 16 := 0
  deriving DecidableEq, Repr

/-- The word goes to the back bank at the pointer, which advances: scan row by scan row, channel by channel. -/
def driverWord (w : BitVec 16) (d : Driver) : Driver :=
  let n := d.rows * d.channels
  if n = 0 then d
  else { d with
    back := updAt d.back (d.pointer / d.channels) (fun l => updAt l (d.pointer % d.channels) (fun _ => w))
    pointer := (d.pointer + 1) % n }

/-- A latch of some edges with the word in the shift register; a width not listed is ignored (R644). -/
def driverLatch (edges : Nat) (w : BitVec 16) (d : Driver) : Driver :=
  match edges with
  | 1 => driverWord w d
  | 3 => { d with swapDue := true, pointer := 0 }
  | 5 => { d with shadow1 := w }
  | 6 => { d with shadow2 := w }
  | 7 => { d with armed := some ((w &&& 3).toNat, w.getLsbD 2) }
  | 9 => let x := driverWord w d; { x with shift := x.flags }
  | 11 => { d with pointer := 0 }
  | _ => d

/-- The next pick starts: the banks of a VSYNC swap, its configuration applies and its row is 0; else the row counter advances at the
first edge of a `WGg_GCLK` stopped for 300 ns or more (R646, R647). -/
def driverPick (d : Driver) : Driver :=
  if d.swapDue then
    { d with front := d.back, back := d.front, config1 := d.shadow1, config2 := d.shadow2, row := 0, swapDue := false }
  else { d with row := (d.row + 1) % max 1 d.rows }

/-- The end of the active part: an armed capture takes the flags that the driver sees, of the block and kind asked for (R650). -/
def driverCapture (seen : Nat → Bool → BitVec 16) (d : Driver) : Driver :=
  match d.armed with | some (block, short) => { d with flags := seen block short, armed := none } | none => d

/-- The code that a channel displays. -/
def driverShows (d : Driver) (c : Nat) : BitVec 16 := (d.front.getD d.row []).getD c 0

end Sys2Proof.Machine
end

