-- ==== Sys2Proof/WellFormed.lean ====
section
/-!
DEFINITION. Which commands are well formed: the bounds that the spec puts on what a command brings and that the types of
Syntax.lean do not already keep (numbers of readings, lengths of knots and frames, ranges of addresses and counts).
-/
namespace Sys2Proof

/-- A reading is 8 conversions of 12 bits, each at most the 1.25 V full scale and a little over (03 R90). -/
def Reading.wf (r : Reading) : Bool := r.conv.length == 8 && r.conv.all (fun v => v ≤ 1300000)

/-- A pass reads the 48 pins (03 R94). -/
def passWf (l : List Reading) : Bool := l.length == 48 && l.all Reading.wf

/-- A MAC frame from destination address to FCS (07 R273). -/
def Frame.wf (f : Frame) : Bool :=
  1 ≤ f.len && f.len ≤ 65535 && (match f.vlan with | none => true | some v => v < 4096)

/-- Hop count and sequence of 16 bits, WALLID of 8 (07 Table 7.4). -/
def Guard.wf (g : Guard) : Bool := g.hops < 65536 && g.seq < 65536 && g.wallId < 256

/-- A PTP timestamp: 48-bit seconds, nanoseconds below 10^9 (08 Table 8.1). -/
def PtpTime.wf (t : PtpTime) : Bool := t.sec < 2 ^ 48 && t.ns < 1000000000

def PtpHeader.wf (h : PtpHeader) : Bool := h.seq < 65536 && h.domain < 256

/-- A line of the 4 GiB stack: 64 bytes at a whole multiple (12 R566, R577). -/
def lineWf (offset : Nat) : Bool := offset % 64 == 0 && offset < 2 ^ 32

/-- Injections seen in a row: at least one, and within half an injection period of 40 ns (05 R183). -/
def Injections.wf (x : Injections) : Bool := 1 ≤ x.count && decide (-20000 ≤ x.ps) && decide (x.ps ≤ 20000)

/-- Bytes of the ROM, or of the 1 MiB of working SRAM (06 R227, R228). -/
def flipsWf (size : Nat) (l : List (Nat × Byte)) : Bool := l.all (fun x => x.1 < size)

/-- The well-formed commands. -/
def Instr.wf : Instr → Bool
  | .aonOn _ _ => true
  | .fusePairDone _ _ => true
  | .fuseSequenceTempWaitEnd _ => true
  | .d1d2SwitchOn _ => true
  | .strapPass _ readings => passWf readings
  | .vinBrownout _ => true
  | .railBrownout _ _ => true
  | .brownoutRestart _ => true
  | .standbyBrownout => true
  | .aonOff => true
  | .resetNAssert => true
  | .resetNRelease _ _ => true
  | .bankRemeasure _ _ => true
  | .domainSwitchOn => true
  | .domainPowerGood d => d.val != 0
  | .domainSwitchTimeout d => d.val != 0
  | .domainRetry d => d.val != 0
  | .domainGateOff d => d.val != 0
  | .vcoreInitialSet margins _ => margins.length == 21
  | .ageingMeasure _ _ => true
  | .mdllLock run => run.all Injections.wf
  | .bootCheckDone romFlips sramFlips _ sensorPf => flipsWf 65536 romFlips && flipsWf 0x100000 sramFlips && sensorPf ≤ 1000000
  | .mdllLossOfLock run => run.all Injections.wf
  | .mdllLockTimeout run => run.all Injections.wf
  | .referenceEdgeMissing => true
  | .referenceRecheck _ => true
  | .slowCrystalConfirm _ => true
  | .slowClockFault _ => true
  | .slowOscTrim => true
  | .slowCrystalRecheck _ => true
  | .standbySlowCrystalStop _ => true
  | .seqWatchdogExpiry => true
  | .dramTrainingDone _ => true
  | .weftCensusComplete ports => ports.length == 64 && ports.all (fun p =>
      p.phases62.length == 16 && p.phases31.length == 16 && p.phases15.length == 16)
  | .strapRereadPass _ readings => passWf readings
  | .strapConfirmRead _ reading => reading.wf
  | .liveStrapRead _ r1 r2 => r1.wf && r2.wf
  | .livePinSample _ _ _ => true
  | .selftestHold2s => true
  | .selftestHold10s => true
  | .invisibleSuiteDone => true
  | .visibleStepAdvance => true
  | .visibleSequenceEnd => true
  | .testSliceAbandon _ => true
  | .eyeMarginRead _ margin => margin ≤ 100
  | .dacSwapCalibrate _ _ => true
  | .romCrcCheck romFlips => flipsWf 65536 romFlips
  | .otpCheck flipped => flipped.all (fun p => p < 32768)
  | .sensorRead sites _ _ => sites.length == 4
  | .tempSiteIgnore _ => true
  | .standbyPowerDown _ => true
  | .cardDialogueStandbyLimit => true
  | .nightStandbyDecision => true
  | .timedWake _ => true
  | .slowListenerMatch levels => levels.length ≤ 20000
  | .wakeCheck _ => true
  | .moduleInsert _ => true
  | .moduleIdRead _ bytes => bytes.length == 96
  | .moduleRemove _ => true
  | .linkUp _ _ => true
  | .linkDown _ => true
  | .netLinkTimeout _ => true
  | .portListenEnd _ => true
  | .frameReceive _ frame => frame.wf
  | .macAgeOut _ => true
  | .mediaQueueRelease _ _ => true
  | .launchTime _ => true
  | .guardFrame _ g => g.wf
  | .guardSend => true
  | .guardLift _ => true
  | .flushFloodEnd => true
  | .routerPortExpiry _ => true
  | .igmpQuerySend => true
  | .igmpStateReport _ => true
  | .igmpQueryAnswer => true
  | .sdpExpiry _ udp => udp < 65536
  | .netSdpTimeout _ => true
  | .senderTimeout _ => true
  | .arpProbe => true
  | .addressClaim => true
  | .positionalAddressRetry => true
  | .statusRecordLaunch => true
  | .announce _ h _ => h.wf
  | .sync _ h _ origin => h.wf && origin.wf
  | .followUp h origin => h.wf && origin.wf
  | .followUpTimeout => true
  | .delayReq => true
  | .delayResp h _ received _ => h.wf && received.wf
  | .masterLoss => true
  | .servoRangeTimeout => true
  | .timeNomasterTimeout => true
  | .followerStepTimeout => true
  | .beatInconsistentTimeout => true
  | .leadChangeHoldTimeout => true
  | .reedBeat flags => flags.all (fun x => x.driver < 64 && x.channel < 48)
  | .refreshStart => true
  | .pickStart => true
  | .blockLock _ headers => !headers.isEmpty
  | .blockLockLoss _ headers => !headers.isEmpty
  | .hello _ run => !run.blocks.isEmpty
  | .helloSend => true
  | .helloTimeout _ => true
  | .svLinkTimeout _ => true
  | .markReqSend _ => true
  | .markReq _ _ => true
  | .markRsp _ _ => true
  | .markBeat _ _ => true
  | .pos _ run => !run.blocks.isEmpty
  | .posSend => true
  | .census _ run => !run.blocks.isEmpty
  | .censusSend => true
  | .censusLapse _ => true
  | .lead _ run => !run.blocks.isEmpty
  | .leadSend => true
  | .leadSettle => true
  | .becomeActingLead => true
  | .leadLost => true
  | .noLeadTimeout => true
  | .positionInconsistency _ => true
  | .beat _ run => !run.blocks.isEmpty
  | .fault _ run => !run.blocks.isEmpty
  | .faultKnotSend => true
  | .sceneChangeStart => true
  | .prepareRepeat => true
  | .prepare _ run => !run.blocks.isEmpty
  | .readySend => true
  | .ready _ run => !run.blocks.isEmpty
  | .sceneDecision => true
  | .commitRepeat => true
  | .commit _ run => !run.blocks.isEmpty
  | .commitEcho => true
  | .echoPreparedCommit => true
  | .commitDeadlineMiss => true
  | .unsolicitedReady => true
  | .streamLossTimeout _ => true
  | .memRead _ offset _ => lineWf offset
  | .memWriteWhole _ offset data => lineWf offset && data.length == 64
  | .memWritePartial _ offset data _ =>
      1 ≤ data.length && offset % 64 + data.length ≤ 64 && offset < 2 ^ 32
  | .scrubLine _ => true
  | .xbTransaction _ _ address length => 1 ≤ length && length ≤ 4096 && address < 2 ^ 40
  | .xbHang _ => true
  | .weftPinTrip _ edges others => !edges.isEmpty && others.all (fun o => !o.edges.isEmpty)
  | .weftSdoMismatch _ echo => !echo.isEmpty && echo.all (fun e => e.sent.length == e.back.length)
  | .weftRetest _ _ => true
  | .wearUpdate => true
  | .wearFlush => true
  | .ledgerProgramDone _ => true
  | .ambientConvert _ => true
  | .ambientReport => true
  | .brightTargetCompute => true
  | .bright _ run => !run.blocks.isEmpty
  | .markerUpdate meas _ => meas.length == 48
  | .markerRetest _ _ _ _ => true
  | .supplyShortRetry _ meas _ => 1 ≤ meas.length && meas.length ≤ 10
  | .retryCountClear _ => true
  | .markerThermalReduce _ => true
  | .vledOutOfRange _ => true
  | .vledRestore _ => true
  | .nonAudioEnd _ _ => true
  | .audioFetch => true
  | .audioSenderTimeout _ => true
  | .levelChangeApply _ _ => true
  | .audNosourceTimeout _ => true
  | .bobbinFrame levels _ => 170 ≤ levels.length
  | .bobbinFrameGap => true
  | .xon => true
  | .xoff => true
  | .xoffTimeout => true
  | .answerSend _ => true
  | .answerDrop => true
  | .rollcallSlot _ => true
  | .rollcallSend _ => true
  | .rollcallResend _ => true
  | .beaconFrame lows => lows.all (fun x => decide (x.1 ≤ x.2))
  | .cardPresent => true
  | .ts levels => levels.length == 3720
  | .tsTimeout => true
  | .atrComplete chars => chars.length ≤ 160
  | .ppsEcho chars => chars.length ≤ 20
  | .cardCharacterTimeout _ => true
  | .cardRemoval => true
  | .cardReactivate => true
  | .select chars => !chars.isEmpty
  | .helloCertificate chars => !chars.isEmpty
  | .helloState chars => !chars.isEmpty
  | .getResponse chars => !chars.isEmpty
  | .order chars => !chars.isEmpty
  | .ledgerRetagDone => true
  | .result chars => !chars.isEmpty
  | .dialogueTimeout => true
  | .tapInstructionLoad _ _ => true
  | .faultRaise _ _ => true
  | .faultClear _ _ => true
  | .faultHandlerEnd sev => sev.val != 3
  | .handlerTimeout sev => sev.val != 3
  | .s3HoldoffEnd _ => true
  | .ledgerMirror => true
  | .cardAbsenceConfirmed => true
  | .memoryInitComplete => true
  | .knotSequenceExpiry _ _ => true
  | .posClaimExpiry _ => true
  | .leadClaimLapse => true
  | .flowControlSend _ => true
  | .buckPhaseChange _ => true

end Sys2Proof
end

