-- ==== Sys2Proof/Tests/Slice0.lean ====
section
/-!
SUPPORT. Tests: an ill-formed command for each check of WellFormed.lean; for each statement with hypotheses, a state and
operands that meet them, at the ends of their ranges where they have some; a few steps from the spec's figures.
-/
namespace Sys2Proof.Tests
set_option Elab.async false
set_option linter.unusedVariables false
open Sys2Proof Sys2Proof.Machine Sys2Proof.Safety

/-- A tile with everything on. -/
def up : State :=
  { now := secT 10000
    pwr := { aonOn := true, buckOn := true, vcoreSet := true, bankW := { level := .v33 }, bankM := { level := .v33 }
             dom := List.replicate 12 { phase := .on } }
    clk := { locked := true, running := true, refPresent := true }
    boot := { ref := secT 9000, started := true, shadowRead := true, d1d2 := true, remap := true, dramTrained := true
              censusDone := true, idleShown := true, ended := true }
    straps := { decided := true }
    otp := { shadow := [0, 1, 2688, 2689, 2690, 2691] }
    time := { sec := 10000, running := true }
    mem := { ready := true } }

def strap (p : Nat) (c : Code) (s : State) : State := { s with straps := { s.straps with inUse := s.straps.inUse.set p c } }

def asleep : State :=
  { now := secT 10000
    pwr := { aonOn := true }
    boot := { ref := secT 9000, shadowRead := true }
    straps := { decided := true }
    keys := { phase := .blank }
    standby := { asleep := true, source := some .bobbin } }

/-- A standalone tile at a beat. -/
def alone : State :=
  strap pinRole 0 { up with
    time := { up.time with beat := some 5, beatAt := up.now }
    disc := { up.disc with position := some (0, 0) } }

def wakeOne : BFrame := { dest := 0xFF, src := 0xFE, type := 0x21, seq := 1, body := [], tag := [0, 0, 0, 0], at_ := secT 9999 }
/-- The characters of `wakeOne` after its destination. -/
def wakeChars : List Byte := [0xFE, 0x21, 0, 0, 0, 0, 1, 0, 0, 0, 0]
def heardWake : State :=
  { asleep with
    boot := { asleep.boot with checking := true }
    clk := { asleep.clk with locked := true }
    standby := { asleep.standby with listened := some (0xFF, wakeChars, secT 9999) } }

def anEntry (f : FaultName) : RingEntry := ⟨f, false, false, false, 0, 1, 2, 3⟩
def ringOf (n : Nat) : State := { up with flt := { ring := List.replicate n (anEntry .netLink) } }
def aFault (f : FaultName) (key : Nat) : Queued := { f := f, key := key, detail := BitVec.ofNat 32 key, cleared := false }
/-- A severity 2 handler runs, and n raises wait. -/
def crowded (n : Nat) : State :=
  { up with flt := { handlers := [⟨aFault .pwrDomain 0, 2, 0⟩], queue := List.replicate n (aFault .thWarn 0) } }

/-- A module identification block of a 10G module whose checksum holds. -/
def idBytes : List Byte := List.replicate 12 0 ++ [103] ++ List.replicate 50 0 ++ [103] ++ List.replicate 32 0

def onPort (p : Port) : State :=
  setNetPort up p (fun q => { q with linkUp := some 5, fwd := .forwarding, txDis := false, mode := some .base10 })
def twoPorts : State :=
  setNetPort (onPort 1) 2 (fun q => { q with linkUp := some 5, fwd := .forwarding, txDis := false, mode := some .base10 })
def plainFrame : Frame := ⟨0x020000000001, 0x020000000002, none, 64, true, .ipv4 9⟩
def guardOf (wall : Nat) (s : Serial) : Guard := ⟨false, false, false, 1, wall, 2, s, 5⟩

def hdr (udp : Nat) : PtpHeader := ⟨2, 1, 0, 127, udp, true, 7, 1, 3⟩
def ann : AnnounceSet := ⟨128, 6, 33, 100, 128, 9, 0, 0, -3⟩

def bmv : BankMv := ⟨3300, 3300⟩
def aReading : Reading := ⟨List.replicate 8 0⟩

/-- A knot as the blocks of a lane whose register holds zeros (09 R408, R414). -/
def laneOf (bytes : List Byte) : BlockRun :=
  ⟨0, ((knotBlocks bytes).foldl (fun (x : BitVec 58 × List WireBlock) b =>
    let y := sendBlockBits x.1 b; (y.1, x.2 ++ [y.2])) (0, [])).2⟩
theorem arrives {d : Dir} {r : BlockRun} {s : State} {b : List Byte} (h : (arrive d r s).2 = some b) :
    arrive d r s = ((arrive d r s).1, some b) := by rw [← h]

/-- A character of a card as its nine bits in the direct convention (16 R800). -/
def cardChar (b : Byte) : BitVec 9 :=
  BitVec.ofNat 9 (b.toNat + 256 * (((List.range 8).filter (fun i => b.getLsbD i)).length % 2))
def cardChars (l : List Byte) : List (BitVec 9) := l.map cardChar

def headBy (s : Serial) : Head := ⟨wallId up, 0, s, 1⟩
def helloKnot (wall port : Nat) : List Byte :=
  encodeKnot .hello false ⟨wall, 0, 9, 1⟩ (helloBytes ⟨port, 1, true, false, false, false, false, false, 0, 0, 0, 0, 9, 1, wall, 9⟩)
def leadKnot (s : Serial) : List Byte :=
  encodeKnot .lead false (headBy s) (leadBytes ⟨false, false, true, false, true, 0, 0, 1, 1, 64, 32, 0, 0, 11, 7, []⟩)

/-- A tile whose markers are lit: 12 groups of 4. -/
def lit : State := strap pinMkreg 0 (strap pinMklay1 11 { up with mark := { on := true } })
def chan0 (f : Chan → Chan) : State := modChan 0 f lit
def goodMeas : MarkMeas := ⟨3000, 4000⟩

def tdmOn : State :=
  { up with aud := { clocks := true, pipe := [⟨0, [], []⟩], outA := { pendLevel := some (3, 0, []) } } }
def withBobKey : State := { up with keys := { store := [⟨.bobbin, [1]⟩] } }


theorem taken_local {s : State} {d : Dir} {t : KnotType} {b : List Byte} {h : Head} (hk : readKnot t b = some h)
    (hj : ((linkOf s d).joined.isNone || h.wall != wallId s) = false) : receiveLocal s d t b = .taken s h := by
  simp only [receiveLocal, hk]; rw [hj]; rfl
theorem accepted_flood {s : State} {d : Dir} {t : KnotType} {b : List Byte} {h : Head} (hk : readKnot t b = some h)
    (hj : ((linkOf s d).joined.isNone || h.wall != wallId s) = false) (hl : isLaterKnot s h t = true) :
    acceptFlood s d t b = .taken (noteSeen s h t) h := by
  simp only [acceptFlood, hk]; rw [hj, hl]; rfl
theorem taken_flood {s : State} {d : Dir} {t : KnotType} {b : List Byte} {h : Head} (hk : readKnot t b = some h)
    (hj : ((linkOf s d).joined.isNone || h.wall != wallId s) = false) (hl : isLaterKnot s h t = true) :
    receiveFlood s d t b = .taken (relayFlood (noteSeen s h t) d t b) h := by
  simp only [receiveFlood, accepted_flood hk hj hl]
theorem five_is_no_tag (l : List Byte) : (List.replicate 5 0 == l.take 4) = false := by
  rw [beq_eq_false_iff_ne]; intro e
  have := congrArg List.length e
  simp at this; omega

/-- What no knot is: a length below 24 ends it at once (09 R416). -/
def badKnot : List Byte := []

/-! ### A ROM image whose CRC needs no long calculation (06 R227) -/

theorem crc_zeros (l : List Byte) (h : ∀ b ∈ l, b = 0) : l.foldl crcByte 0 = 0 := by
  induction l with
  | nil => rfl
  | cons b l ih =>
    rw [List.foldl_cons, h b (by simp), show crcByte 0 0 = 0 from by decide]
    exact ih (fun x hx => h x (by simp [hx]))

/-- An image whose first four bytes bring the register of the CRC to 0, zeros after them, and the CRC of that. -/
def romCells : List Host.Cell :=
  [⟨0, 0xFF⟩, ⟨1, 0xFF⟩, ⟨2, 0xFF⟩, ⟨3, 0xFF⟩, ⟨65532, 0xFF⟩, ⟨65533, 0xFF⟩, ⟨65534, 0xFF⟩, ⟨65535, 0xFF⟩]

theorem rom_image (g : Nat → Byte) (h0 : (List.range 4).map g = [0xFF, 0xFF, 0xFF, 0xFF]) (h : ∀ a, 4 ≤ a → a < 65532 → g a = 0) :
    (crc32 (((List.range 65536).map g).take 65532)).toNat = 0xFFFFFFFF := by
  have e : (List.range 65536).take 65532 = List.range 4 ++ (List.range 65528).map (4 + ·) := by
    rw [List.take_range, show min 65532 65536 = 4 + 65528 from by decide +kernel, List.range_add]
  rw [← List.map_take, e, List.map_append, h0, crc32, List.foldl_append, show List.foldl crcByte 0xFFFFFFFF#32 [0xFF, 0xFF, 0xFF, 0xFF] = 0 from by decide +kernel,
    crc_zeros _ (by
      intro b hb
      obtain ⟨a, ha, rfl⟩ := List.mem_map.1 hb
      obtain ⟨c, hc, rfl⟩ := List.mem_map.1 ha
      exact h _ (by omega) (by have := List.mem_range.1 hc; omega))]
  rfl
theorem rom_reads (wrong : List (Nat × Byte)) (s : State) (hr : s.unit.rom = romCells) (hw : ∀ x ∈ wrong, 65532 ≤ x.1) (v : Nat)
    (hv : beNat ((List.range' 65532 4).map (fun a => match wrong.find? (fun c => c.1 == a) with | some c => c.2 | none => cellAt romCells a)) = v) :
    romPasses wrong s = (0xFFFFFFFF == v) := by
  have hf : ∀ a, a < 65532 → wrong.find? (fun c => c.1 == a) = none := by
    intro a ha; rw [List.find?_eq_none]; intro x hx; have := hw x hx; simp; omega
  simp only [romPasses, readsAs, hr]
  rw [rom_image _ (by simp [hf, List.range_succ, cellAt, romCells]) (by
    intro a h1 h2
    simp only [hf a h2, cellAt, romCells, List.find?_cons, List.find?_nil]
    repeat (rw [show (_ == a) = false from beq_eq_false_iff_ne.2 (by omega)])), ← List.map_drop,
    show (List.range 65536).drop 65532 = List.range' 65532 4 from by rw [List.range_eq_range', List.drop_range']]
  exact congrArg (fun x => (0xFFFFFFFF == x)) hv

def bootAt : State := { up with unit := { up.unit with rom := romCells }, boot := { up.boot with remap := false } }
theorem rom_passes : romPasses [] bootAt = true := (rom_reads [] bootAt rfl (by simp) 0xFFFFFFFF (by decide +kernel)).trans rfl
theorem rom_fails : romPasses [(65532, 0)] bootAt = false :=
  (rom_reads [(65532, 0)] bootAt rfl (by decide) 0x00FFFFFF (by decide +kernel)).trans rfl

/-- One character at 2,400 Bd as the slow clock samples it, and the frame of `wakeOne` (16 R790). -/
def slowChar (b : Byte) (ninth : Bool) : List Bool :=
  (List.range 151).map (fun t => let i := t * 256 / 3495
    if i = 0 then false else if i ≤ 8 then b.getLsbD (i - 1) else if i = 9 then ninth else true)
def wakeLevels : List Bool := true :: (slowChar 0xFF true ++ wakeChars.flatMap (fun b => slowChar b false) ++ [true])

/-! ### Ill-formed commands are refused -/

theorem test_ill_formed_reading : Instr.wf (.strapConfirmRead 0 ⟨[0]⟩) = false := by decide +kernel
theorem test_ill_formed_conversion : Instr.wf (.strapConfirmRead 0 ⟨List.replicate 8 1300001⟩) = false := by decide +kernel
theorem test_ill_formed_pass : Instr.wf (.strapPass 1200000 []) = false := by decide +kernel
theorem test_ill_formed_domain : Instr.wf (.domainPowerGood 0) = false := by decide +kernel
theorem test_ill_formed_retried_domain : Instr.wf (.domainRetry 0) = false := by decide +kernel
theorem test_ill_formed_timed_out_domain : Instr.wf (.domainSwitchTimeout 0) = false := by decide +kernel
theorem test_ill_formed_gated_domain : Instr.wf (.domainGateOff 0) = false := by decide +kernel
theorem test_ill_formed_margins : Instr.wf (.vcoreInitialSet [900] 0) = false := by decide +kernel
theorem test_ill_formed_lock_run : Instr.wf (.mdllLock [⟨0, 0⟩]) = false := by decide +kernel
theorem test_ill_formed_loss_run : Instr.wf (.mdllLossOfLock [⟨1, 20001⟩]) = false := by decide +kernel
theorem test_ill_formed_timeout_run : Instr.wf (.mdllLockTimeout [⟨1, -20001⟩]) = false := by decide +kernel
theorem test_ill_formed_rom_byte : Instr.wf (.bootCheckDone [(65536, 0)] [] none 0) = false := by decide +kernel
theorem test_ill_formed_sram_byte : Instr.wf (.bootCheckDone [] [(0x100000, 0)] none 0) = false := by decide +kernel
theorem test_ill_formed_sensor : Instr.wf (.bootCheckDone [] [] none 1000001) = false := by decide +kernel
theorem test_ill_formed_census : Instr.wf (.weftCensusComplete []) = false := by decide +kernel
theorem test_ill_formed_census_phases : Instr.wf (.weftCensusComplete (List.replicate 64 ⟨0, 0, [], [], []⟩)) = false :=
  by decide +kernel
theorem test_ill_formed_reread : Instr.wf (.strapRereadPass 1200000 []) = false := by decide +kernel
theorem test_ill_formed_live_reading : Instr.wf (.liveStrapRead 1200000 ⟨[]⟩ ⟨[]⟩) = false := by decide +kernel
theorem test_ill_formed_eye : Instr.wf (.eyeMarginRead 0 101) = false := by decide +kernel
theorem test_ill_formed_rom_check : Instr.wf (.romCrcCheck [(65536, 0)]) = false := by decide +kernel
theorem test_ill_formed_pairs : Instr.wf (.otpCheck [32768]) = false := by decide +kernel
theorem test_ill_formed_sites : Instr.wf (.sensorRead [1] 3300 5000) = false := by decide +kernel
theorem test_ill_formed_heard_levels : Instr.wf (.slowListenerMatch (List.replicate 20001 true)) = false :=
  by decide +kernel
theorem test_ill_formed_module_block : Instr.wf (.moduleIdRead 0 []) = false := by decide +kernel
theorem test_ill_formed_frame : Instr.wf (.frameReceive 0 { plainFrame with len := 0 }) = false := by decide +kernel
theorem test_ill_formed_vlan : Instr.wf (.frameReceive 0 { plainFrame with vlan := some 4096 }) = false := by decide +kernel
theorem test_ill_formed_guard : Instr.wf (.guardFrame 0 (guardOf 256 1)) = false := by decide +kernel
theorem test_ill_formed_udp_port : Instr.wf (.sdpExpiry 0 65536) = false := by decide +kernel
theorem test_ill_formed_header : Instr.wf (.announce 0 { hdr 320 with seq := 65536 } ann) = false := by decide +kernel
theorem test_ill_formed_origin : Instr.wf (.sync 0 (hdr 319) false ⟨0, 1000000000⟩) = false := by decide +kernel
theorem test_ill_formed_follow_up : Instr.wf (.followUp (hdr 320) ⟨2 ^ 48, 0⟩) = false := by decide +kernel
theorem test_ill_formed_delay_response : Instr.wf (.delayResp (hdr 320) 0 ⟨2 ^ 48, 0⟩ 0) = false := by decide +kernel
theorem test_ill_formed_flag : Instr.wf (.reedBeat [⟨0, 64, 0⟩]) = false := by decide +kernel
theorem test_ill_formed_hunt : Instr.wf (.blockLock .n []) = false := by decide +kernel
theorem test_ill_formed_watch : Instr.wf (.blockLockLoss .n []) = false := by decide +kernel
theorem test_ill_formed_hello_knot : Instr.wf (.hello .n ⟨0, []⟩) = false := by decide +kernel
theorem test_ill_formed_pos_knot : Instr.wf (.pos .n ⟨0, []⟩) = false := by decide +kernel
theorem test_ill_formed_census_knot : Instr.wf (.census .n ⟨0, []⟩) = false := by decide +kernel
theorem test_ill_formed_lead_knot : Instr.wf (.lead .n ⟨0, []⟩) = false := by decide +kernel
theorem test_ill_formed_beat_knot : Instr.wf (.beat .n ⟨0, []⟩) = false := by decide +kernel
theorem test_ill_formed_fault_knot : Instr.wf (.fault .n ⟨0, []⟩) = false := by decide +kernel
theorem test_ill_formed_prepare_knot : Instr.wf (.prepare .n ⟨0, []⟩) = false := by decide +kernel
theorem test_ill_formed_ready_knot : Instr.wf (.ready .n ⟨0, []⟩) = false := by decide +kernel
theorem test_ill_formed_commit_knot : Instr.wf (.commit .n ⟨0, []⟩) = false := by decide +kernel
theorem test_ill_formed_bright_knot : Instr.wf (.bright .n ⟨0, []⟩) = false := by decide +kernel
theorem test_ill_formed_line : Instr.wf (.memRead 0 1 .none) = false := by decide +kernel
theorem test_ill_formed_line_data : Instr.wf (.memWriteWhole 0 64 [1]) = false := by decide +kernel
theorem test_ill_formed_partial_data : Instr.wf (.memWritePartial 0 63 [1, 2] .none) = false := by decide +kernel
theorem test_ill_formed_transaction : Instr.wf (.xbTransaction 0 true 0 4097) = false := by decide +kernel
theorem test_ill_formed_trip : Instr.wf (.weftPinTrip (.port 0) [] []) = false := by decide +kernel
theorem test_ill_formed_other_pin : Instr.wf (.weftPinTrip (.port 0) [1] [⟨.port 1, []⟩]) = false := by decide +kernel
theorem test_ill_formed_echo : Instr.wf (.weftSdoMismatch 0 [⟨[1], []⟩]) = false := by decide +kernel
theorem test_ill_formed_measurements : Instr.wf (.markerUpdate [] 5000) = false := by decide +kernel
theorem test_ill_formed_retry : Instr.wf (.supplyShortRetry 0 [] 5000) = false := by decide +kernel
theorem test_ill_formed_bobbin_levels : Instr.wf (.bobbinFrame [] []) = false := by decide +kernel
theorem test_ill_formed_lows : Instr.wf (.beaconFrame [(5, 4)]) = false := by decide +kernel
theorem test_ill_formed_ts : Instr.wf (.ts []) = false := by decide +kernel
theorem test_ill_formed_atr : Instr.wf (.atrComplete (List.replicate 161 0)) = false := by decide +kernel
theorem test_ill_formed_pps : Instr.wf (.ppsEcho (List.replicate 21 0)) = false := by decide +kernel
theorem test_ill_formed_select : Instr.wf (.select []) = false := by decide +kernel
theorem test_ill_formed_certificate : Instr.wf (.helloCertificate []) = false := by decide +kernel
theorem test_ill_formed_card_state : Instr.wf (.helloState []) = false := by decide +kernel
theorem test_ill_formed_response : Instr.wf (.getResponse []) = false := by decide +kernel
theorem test_ill_formed_order : Instr.wf (.order []) = false := by decide +kernel
theorem test_ill_formed_result : Instr.wf (.result []) = false := by decide +kernel
theorem test_ill_formed_handler : Instr.wf (.faultHandlerEnd 3) = false := by decide +kernel
theorem test_ill_formed_handler_time : Instr.wf (.handlerTimeout 3) = false := by decide +kernel

/-! ### No word spells a command -/

theorem test_no_words : decodeTableWord 16 0 = none := rfl

/-! ### The hypotheses of the statements can be met -/

theorem test_AonPowersUpAndLosesD0 :
    ∃ (banks : BankMv) (testEn : Bool) (s : State), (s.pwr.aonOn = false) :=
  ⟨bmv, true, State.reset, by decide +kernel⟩

theorem test_ResetClearsAllButRing :
    (∃ (s : State), (s.pwr.aonOn = true) ∧ (s.boot.inReset = false)) ∧
    (∃ (banks : BankMv) (testEn : Bool) (s : State), (s.boot.inReset = true) ∧ (s.pwr.vinLow = false)) :=
  ⟨⟨up, by decide +kernel⟩,
   ⟨bmv, false, { up with boot := { up.boot with inReset := true } }, by decide +kernel⟩⟩

theorem test_BrownoutLosesCoreAndRestarts :
    (∃ (firstFuse : Bool) (s : State), (s.pwr.aonOn = true) ∧ (s.standby.asleep = false)) ∧
    (∃ (rail : Rail) (firstFuse : Bool) (s : State), (s.pwr.buckOn = true)) ∧
    (∃ (s : State), (s.standby.asleep = true)) ∧
    (∃ (banks : BankMv) (s : State), (s.pwr.aonOn = true) ∧ (s.pwr.vinLow = true) ∧ (s.flt.safeHold = false) ∧
      (s.standby.asleep = false) ∧ (s.boot.inReset = false) ∧ (s.flt.holdoff.map Holdoff.f = some .pwrBrownout)) :=
  ⟨⟨true, up, by decide +kernel⟩,
   ⟨.vddm, false, up, by decide +kernel⟩,
   ⟨asleep, by decide +kernel⟩,
   ⟨bmv,
     { State.reset with pwr := { aonOn := true, vinLow := true }, flt := { holdoff := some ⟨.pwrBrownout, none, false⟩ } },
     by decide +kernel⟩⟩

theorem test_DomainsSwitchOnAndGateOff :
    (∃ (d : Nat) (s : State), (maySwitch s = true) ∧ (nextDomain s = some d)) ∧
    (∃ (d : Dom) (t : Ticks) (s : State), ((domAt s d.val).phase = .switching t) ∧ (t + usT 20 ≤ s.now)) ∧
    (∃ (d : Dom) (t : Ticks) (s : State), ((domAt s d.val).phase = .switching t) ∧ (d.val < s.pwr.dom.length) ∧ (t + usT 20
      ≤ s.now) ∧ (d.val ∉ [3, 4, 5, 6, 9, 10]) ∧ ((domAt s d.val).heldOff = false)) ∧
    (∃ (d : Dom) (t : Ticks) (s : State), ((domAt s d.val).phase = .switching t) ∧ (d.val < s.pwr.dom.length) ∧ (t + msT 1 ≤
      s.now) ∧ ((domAt s d.val).heldOff = false) ∧ ((domAt s d.val).fails = 0)) ∧
    (∃ (d : Dom) (t : Ticks) (s : State), ((domAt s d.val).phase = .switching t) ∧ (d.val < s.pwr.dom.length) ∧ (t + msT 1 ≤
      s.now) ∧ (1 ≤ (domAt s d.val).fails)) ∧
    (∃ (d : Dom) (s : State), (maySwitch s = true) ∧ (isOff s d.val = true) ∧ (dueBy s.now (domAt s d.val).retryAt = true)) ∧
    (∃ (d : Nat) (s : State), (d < s.pwr.dom.length)) ∧
    (∃ (d : Dom) (s : State), (gating s = true) ∧ (domOn s d.val = true) ∧ (needed s d.val = false) ∧ (passed s.now (domAt s
      d.val).offSince (secT 10) = true)) :=
  ⟨⟨3, setDom up 3 (fun x => {x with phase := .off}), by decide +kernel⟩,
   ⟨3, up.now - usT 20, setDom up 3 (fun x => {x with phase := .switching (up.now - usT 20)}), by decide +kernel⟩,
   ⟨7, up.now - usT 20, setDom up 7 (fun x => {x with phase := .switching (up.now - usT 20)}), by decide +kernel⟩,
   ⟨3, up.now - msT 1, setDom up 3 (fun x => {x with phase := .switching (up.now - msT 1)}), by decide +kernel⟩,
   ⟨3, up.now - msT 1, setDom up 3 (fun x => {x with phase := .switching (up.now - msT 1), fails := 1}), by decide +kernel⟩,
   ⟨4, setDom up 4 (fun x => {x with phase := .off, retryAt := some up.now}), by decide +kernel⟩,
   ⟨11, State.reset, by decide +kernel⟩,
   ⟨4, setDom up 4 (fun x => {x with offSince := some (up.now - secT 10)}), by decide +kernel⟩⟩

theorem test_VcoreBanksAndPhases :
    (∃ (margins : List Nat) (dom : Dom) (s : State), (s.clk.running = true) ∧ (s.pwr.vcoreSet = false) ∧ (s.boot.ref + msT
      40 ≤ s.now) ∧ (mayStep s = true)) ∧
    (∃ (margin : Nat) (dom : Dom) (s : State), (s.clk.running = true) ∧ (dueBy s.now s.pwr.ageNext = true)) ∧
    (∃ (margins : List Nat) (i : Nat), (margins.findIdx? (fun m => 800 ≤ m) = some i) ∧ (i ≤ 20)) ∧
    (∃ (b : Bank) (mv : Nat) (s : State), (s.pwr.aonOn = true) ∧ (s.standby.asleep = false) ∧ (s.boot.inReset = false) ∧
      ((bankSt s b).next ≤ s.now) ∧ ((bankSt s b).level ≠ .none) ∧ ((bankSt s b).lost = false) ∧ (bandOf mv = (bankSt s
      b).level)) ∧
    (∃ (b : Bank) (mv : Nat) (s : State), (s.pwr.aonOn = true) ∧ (s.standby.asleep = false) ∧ (s.boot.inReset = false) ∧
      ((bankSt s b).next ≤ s.now) ∧ ((bankSt s b).level ≠ .none) ∧ ((bankSt s b).lost = false) ∧ (bandOf mv ≠ (bankSt s
      b).level)) ∧
    (∃ (b : Bank) (mv : Nat) (s : State), (s.pwr.aonOn = true) ∧ (s.standby.asleep = false) ∧ (s.boot.inReset = false) ∧
      ((bankSt s b).next ≤ s.now) ∧ ((bankSt s b).level = .none) ∧ (bandOf mv ≠ .none)) ∧
    (∃ (ma : Nat) (s : State), (s.pwr.buckOn = true)) ∧
    (∃ (s : State), (s.pwr.rail ≠ s.pwr.vcore) ∧ (s.pwr.railAt + usT 10 ≤ s.now)) :=
  ⟨⟨List.replicate 21 900, 3, { up with pwr := { up.pwr with vcoreSet := false } }, by decide +kernel⟩,
   ⟨799, 3, { up with pwr := { up.pwr with ageNext := some up.now, vcore := 7980 } }, by decide +kernel⟩,
   ⟨[800], 0, by decide +kernel⟩,
   ⟨.weft, 3050, { up with pwr := { up.pwr with bankW := { level := .v33, run := 2, next := up.now } } }, by decide +kernel⟩,
   ⟨.weft, 3551, { up with pwr := { up.pwr with bankW := { level := .v33, run := 2 } } }, by decide +kernel⟩,
   ⟨.misc, 1650, { up with pwr := { up.pwr with bankM := { run := 2, lastBand := .v18 } } }, by decide +kernel⟩,
   ⟨3000, up, by decide +kernel⟩,
   ⟨{ up with pwr := { up.pwr with rail := 8000, vcore := 7900, railAt := up.now - usT 10 } }, by decide +kernel⟩⟩

theorem test_ClockStartsAndUnlocks :
    (∃ (edges : Nat) (s : State), (s.pwr.aonOn = true) ∧ (wantsCore s = true) ∧ (s.clk.oscOn = true) ∧ (s.clk.refWait ≤
      s.now) ∧ (s.clk.refCheckAt = none)) ∧
    (∃ (run : List Injections) (s : State), (domOn s 1 = true) ∧ (domOn s 2 = true) ∧ (s.clk.locked = false) ∧
      (s.clk.refPresent = true) ∧ (s.flt.holdoff = none) ∧ (s.flt.safeHold = false) ∧ (s.boot.checking = false) ∧ (lockRun
      run s = true)) ∧
    (∃ (run : List Injections) (s : State), (domOn s 1 = true) ∧ (domOn s 2 = true) ∧ (s.clk.locked = false) ∧
      (s.clk.refPresent = true) ∧ (s.flt.holdoff = none) ∧ (s.flt.safeHold = false) ∧ (s.boot.checking = true) ∧ (lockRun
      run s = true)) ∧
    (∃ (run : List Injections) (s : State), (s.clk.locked = true) ∧ (s.clk.running = true) ∧ (64 ≤ errorCount run)) ∧
    (∃ (run : List Injections) (s : State), (domOn s 2 = true) ∧ (s.clk.locked = false) ∧ (s.clk.refPresent = true) ∧
      (s.flt.holdoff = none) ∧ (s.flt.safeHold = false) ∧ (passed s.now s.clk.d2OnAt (msT 20) = true)) ∧
    (∃ (s : State), (s.clk.running = true)) ∧
    (∃ (s : State), (s.clk.running = false) ∧ (domOn s 2 = true) ∧ (s.clk.locked = false) ∧ (s.clk.refPresent = true) ∧
      (s.flt.holdoff = none) ∧ (s.flt.safeHold = false)) :=
  ⟨⟨690, { up with boot := { up.boot with d1d2 := false }, clk := { oscOn := true, refWait := up.now } }, by decide +kernel⟩,
   ⟨[⟨4096, 250⟩],
     { up with clk := { up.clk with locked := false, running := false, d2OnAt := some (up.now - usT 164) }, boot := { up.boot with checking := false } },
     by decide +kernel⟩,
   ⟨[⟨4096, 250⟩],
     { up with clk := { up.clk with locked := false, running := false, d2OnAt := some (up.now - msT 20) }, boot := { up.boot with checking := true } },
     by decide +kernel⟩,
   ⟨[⟨64, 251⟩, ⟨960, 0⟩], up, by decide +kernel⟩,
   ⟨[],
     { up with clk := { up.clk with locked := false, running := false, d2OnAt := some (up.now - msT 20) }, boot := { up.boot with checking := false } },
     by decide +kernel⟩,
   ⟨up, by decide +kernel⟩,
   ⟨{ up with clk := { up.clk with locked := false, running := false } }, by decide +kernel⟩⟩

theorem test_ReferenceAndSlowClock :
    (∃ (edges : Nat) (s : State), (dueBy s.now s.clk.refCheckAt = true)) ∧
    (∃ (n : Nat) (s : State), (s.pwr.aonOn = true) ∧ (s.clk.refPresent = true) ∧ (s.clk.slowXtal = false) ∧
      (s.clk.substituted = false) ∧ (780469 ≤ n) ∧ (n ≤ 782031)) ∧
    (∃ (s : State), (s.pwr.aonOn = true) ∧ (s.standby.asleep = false) ∧ (s.clk.substituted = false) ∧ (s.clk.slowXtal =
      true)) ∧
    (∃ (n : Nat) (s : State), (s.pwr.aonOn = true) ∧ (s.standby.asleep = false) ∧ (s.clk.substituted = false) ∧
      (s.clk.slowXtal = true) ∧ (s.clk.running = true) ∧ (n < 32752 ∨ 32784 < n)) ∧
    (∃ (s : State), (s.pwr.aonOn = true) ∧ (s.standby.asleep = false) ∧ (s.clk.substituted = false) ∧ (s.clk.slowXtal =
      false) ∧ (s.boot.ref + secT 3 ≤ s.now)) ∧
    (∃ (s : State), (s.clk.substituted = true) ∧ (s.clk.running = true) ∧ (dueBy s.now s.clk.nextTrim = true)) ∧
    (∃ (n : Nat) (s : State), (s.clk.substituted = true) ∧ (s.clk.refPresent = true) ∧ (dueBy s.now s.clk.nextSlowCheck =
      true)) ∧
    (∃ (banks : BankMv) (s : State), (s.standby.asleep = true)) :=
  ⟨⟨689, { up with clk := { up.clk with refCheckAt := some up.now } }, by decide +kernel⟩,
   ⟨780469, {up with clk := {up.clk with slowXtal := false}}, by decide +kernel⟩,
   ⟨{up with clk := {up.clk with slowXtal := true}}, by decide +kernel⟩,
   ⟨32751, {up with clk := {up.clk with slowXtal := true}}, by decide +kernel⟩,
   ⟨{up with boot := {up.boot with ref := up.now - secT 3}}, by decide +kernel⟩,
   ⟨{up with clk := {up.clk with substituted := true, nextTrim := some up.now}}, by decide +kernel⟩,
   ⟨780468, { up with clk := { up.clk with substituted := true, nextSlowCheck := some up.now } }, by decide +kernel⟩,
   ⟨bmv, asleep, by decide +kernel⟩⟩

theorem test_BootCheckAndTraining :
    (∃ (romFlips : List (Nat × Byte)) (sramFlips : List (Nat × Byte)) (flash : Option Sfdp) (pf : Nat) (s : State),
      (s.clk.running = true) ∧ (domOn s 1 = true) ∧ (s.boot.started = true) ∧ (s.boot.remap = false) ∧ (s.straps.decided =
      true) ∧ (romPasses romFlips s = true)) ∧
    (∃ (romFlips : List (Nat × Byte)) (sramFlips : List (Nat × Byte)) (flash : Option Sfdp) (pf : Nat) (s : State),
      (s.clk.running = true) ∧ (domOn s 1 = true) ∧ (s.boot.started = true) ∧ (s.boot.remap = false) ∧ (s.straps.decided =
      true) ∧ (romPasses romFlips s = false)) ∧
    (∃ (s : State), (s.sram.bytes = [])) ∧
    (∃ (a : Nat) (b : Byte) (s : State), (a < 0x100000) ∧ (b ≠ 0)) ∧
    (∃ (s : State), (runs s = true) ∧ (domOn s 6 = true) ∧ (s.boot.remap = true) ∧ (s.boot.dramTrained = false)) ∧
    (∃ (c : Fin 8) (s : State), (runs s = true) ∧ (domOn s 6 = true) ∧ (s.boot.remap = true) ∧ (s.boot.dramTrained = false)) :=
  ⟨⟨[], [(3, 1)], none, 1000000, bootAt, by decide +kernel, by decide +kernel, by decide +kernel, by decide +kernel,
     by decide +kernel, rom_passes⟩,
   ⟨[(65532, 0)], [], none, 0, bootAt, by decide +kernel, by decide +kernel, by decide +kernel, by decide +kernel,
     by decide +kernel, rom_fails⟩,
   ⟨up, rfl⟩,
   ⟨0xFFFFF, 1, up, by decide +kernel⟩,
   ⟨{up with boot := {up.boot with dramTrained := false}}, by decide +kernel⟩,
   ⟨7, { up with boot := { up.boot with dramTrained := false } }, by decide +kernel⟩⟩

theorem test_SweepFollowsItsProfile :
    (∃ (s : State), (s.clk.running = false)) ∧
    (∃ (m : Nat) (x : Clk), (x.sub < 39)) ∧
    (∃ (m : Nat) (x : Clk), (x.sub = 39)) ∧
    (∃ (s : State), (s.time.running = true) ∧ (s.time.sec.toNat < 2 ^ 63) ∧ (incrementOf s.time.y < 2 ^ 33) ∧ (depthNow s <
      3200) ∧ (s.clk.carry < 3200)) :=
  ⟨⟨State.reset, by decide +kernel⟩,
   ⟨796, { sub := 38 }, by decide +kernel⟩,
   ⟨796, { sub := 39 }, by decide +kernel⟩,
   ⟨up, by decide +kernel⟩⟩

theorem test_ActiveFaultIsNotRaisedAgain :
    (∃ (f : FaultName) (detail : BitVec 32) (s : State), (Stands f detail s)) ∧
    (∃ (f : FaultName) (detail : BitVec 32) (s : State), (Stands f detail s)) :=
  ⟨⟨.thWarn, 1300, raise .thWarn 1200 up, by simp only [Stands]; decide +kernel⟩,
   ⟨.thWarn, 1300, raise .thWarn 1200 up, by simp only [Stands]; decide +kernel⟩⟩

theorem test_RaisedFaultIsHandledQueuedOrLost :
    (∃ (f : FaultName) (detail : BitVec 32) (s : State), (s.pwr.aonOn = true) ∧ ((sevOf f = 1 ∨ sevOf f = 2)) ∧ (¬ Stands f
      detail s)) ∧
    (∃ (f : FaultName) (detail : BitVec 32) (s : State), (s.pwr.aonOn = true) ∧ (sevOf f ≠ 3) ∧ (¬ Stands f detail s) ∧
      (s.clk.running = true) ∧ (preempts (sevOf f) s = true) ∧ (s.flt.holdoff = none)) ∧
    (∃ (f : FaultName) (detail : BitVec 32) (s : State), (s.pwr.aonOn = true) ∧ (sevOf f ≠ 3) ∧ (¬ Stands f detail s) ∧
      (s.clk.running = true) ∧ (preempts (sevOf f) s = false) ∧ (s.flt.queue.length < 16)) ∧
    (∃ (f : FaultName) (detail : BitVec 32) (s : State), (s.pwr.aonOn = true) ∧ (sevOf f ≠ 3) ∧ (¬ Stands f detail s) ∧
      (s.clk.running = true) ∧ (preempts (sevOf f) s = false) ∧ (16 ≤ s.flt.queue.length) ∧ (s.flt.lost.toNat < 255)) ∧
    (∃ (f : FaultName) (detail : BitVec 32) (s : State), (Stands f detail s)) :=
  ⟨⟨.thWarn, 1, up, by simp only [Stands]; decide +kernel⟩,
   ⟨.pwrDomain, 17, raise .thWarn 1200 up, by simp only [Stands]; decide +kernel⟩,
   ⟨.netLink, 3, raise .thWarn 1200 up, by simp only [Stands]; decide +kernel⟩,
   ⟨.netLink, 3, crowded 16, by simp only [Stands]; decide +kernel⟩,
   ⟨.thWarn, 1, raise .thWarn 1200 up, by simp only [Stands]; decide +kernel⟩⟩

theorem test_RingKeeps256 :
    ∃ (e : RingEntry) (s : State), (s.flt.ring.length ≤ 256) :=
  ⟨anEntry .netLink, ringOf 256, by decide +kernel⟩

theorem test_HandlersEndAndTimeOut :
    (∃ (sev : Sev) (h : Handler) (rest : List Handler) (s : State), (s.flt.handlers = h :: rest) ∧ (h.prio = sev) ∧
      (s.flt.queue = [])) ∧
    (∃ (sev : Sev) (h : Handler) (rest : List Handler) (q : Queued) (s : State), (s.flt.handlers = h :: rest) ∧ (h.prio =
      sev) ∧ (s.flt.queue = [q]) ∧ (rest.all (fun x => x.prio < prioOf q) = true) ∧ (s.flt.holdoff = none) ∧
      (s.flt.lostSince = 0)) ∧
    (∃ (sev : Sev) (h : Handler) (rest : List Handler) (s : State), (s.flt.handlers = h :: rest) ∧ (h.prio = sev) ∧
      (h.started + msT 10 ≤ s.now)) ∧
    (∃ (s : State), (s.ldg.usable = true) ∧ (bankUsable s .misc = true) ∧ (s.keys.debug = false) ∧ (s.keys.phase ≠
      .manufacture) ∧ (s.ldg.stopped = []) ∧ (s.ldg.busy = none) ∧ (0 < mirrorCount false s)) :=
  ⟨⟨1, ⟨aFault .thWarn 0, 1, up.now - msT 10⟩, [], {up with flt := {handlers := [⟨aFault .thWarn 0, 1, up.now - msT 10⟩]}},
     by decide +kernel⟩,
   ⟨1, ⟨aFault .thWarn 0, 1, up.now - msT 10⟩, [], aFault .pwrDomain 3,
     {up with flt := {handlers := [⟨aFault .thWarn 0, 1, up.now - msT 10⟩], queue := [aFault .pwrDomain 3]}},
     by decide +kernel⟩,
   ⟨1, ⟨aFault .thWarn 0, 1, up.now - msT 10⟩, [], {up with flt := {handlers := [⟨aFault .thWarn 0, 1, up.now - msT 10⟩]}},
     by decide +kernel⟩,
   ⟨{ up with keys := { phase := .blank }, ldg := { usable := true }, flt := { ring := [anEntry .pwrDomain] } },
     by decide +kernel⟩⟩

theorem test_S3FaultHoldsOffAndRestarts :
    (∃ (f : FaultName) (detail : BitVec 32) (s : State), (sevOf f = 3) ∧ (¬ Stands f detail s) ∧ (s3RingOnly s = false) ∧
      (s.flt.holdoff = none)) ∧
    (∃ (f : FaultName) (detail : BitVec 32) (d : Ticks) (s : State), (sevOf f = 3) ∧ (f ≠ .pwrBrownout) ∧ (holdoffOf f =
      some d)) ∧
    (∃ (banks : BankMv) (h : Holdoff) (u : Ticks) (s : State), (s.flt.holdoff = some h) ∧ (h.until_ = some u) ∧ (u ≤ s.now)
      ∧ (s.pwr.vinLow = false) ∧ (s.keys.seq = none) ∧ ((h.f = .pwrBrownout ∨ restartsBefore s s.now < 3))) ∧
    (∃ (banks : BankMv) (f : FaultName) (s : State), (f ≠ .pwrBrownout)) ∧
    (∃ (s : State), (domOn s 1 = true) ∧ (passed s.now s.boot.reportAt (msT 250) = true) ∧ (s.flt.holdoff = none) ∧
      (s.flt.safeHold = false) ∧ (s.standby.asleep = false) ∧ (s.boot.inReset = false) ∧ (activeKey s .seqWatchdog (faultKey
      .seqWatchdog 0) = false)) :=
  ⟨⟨.seqRom, 0, up, by simp only [Stands]; decide +kernel⟩,
   ⟨.clkUnlock, 0, msT 1, { up with flt := { restarts := [up.now - 3, up.now - 2, up.now - 1] } }, rfl, by decide, rfl⟩,
   ⟨bmv, ⟨.clkUnlock, some up.now, false⟩, up.now,
     { up with flt := { holdoff := some ⟨.clkUnlock, some up.now, false⟩, safe := true } }, by decide +kernel⟩,
   ⟨bmv, .memTrain, up, by decide +kernel⟩,
   ⟨{ up with boot := { up.boot with reportAt := some (up.now - msT 250) } }, by decide +kernel⟩⟩

theorem test_FuseSequencesRunInOrder :
    (∃ (tj : Int) (q : FuseSeq) (p : Nat) (p2 : Nat) (rest : List Nat) (s : State), (s.keys.seq = some q) ∧ (q.todo = p ::
      p2 :: rest) ∧ (q.hot = false)) ∧
    (∃ (took : Bool) (tj : Int) (q : FuseSeq) (s : State), (s.keys.seq = some q) ∧ (q.hot = true)) ∧
    (∃ (tj : Int) (q : FuseSeq) (s : State), (s.keys.seq = some q) ∧ (q.hot = true) ∧ (tj ≤ 1680)) ∧
    (∃ (tj : Int) (e : Nat) (p : Nat) (q : FuseSeq) (s : State), (s.keys.seq = some q) ∧ (q.kind = .release e) ∧ (q.stage =
      .intent) ∧ (q.todo = [p]) ∧ (q.hot = false)) ∧
    (∃ (tj : Int) (p : Nat) (q : FuseSeq) (s : State), (s.keys.seq = some q) ∧ (q.kind = .retire) ∧ (q.stage = .body) ∧
      (q.todo = [p]) ∧ (q.hot = false)) ∧
    (∃ (q : FuseSeq) (r : Nat) (s : State), (seqRecord q.kind = some r) ∧ (s.live.arm.level = true)) ∧
    (∃ (q : FuseSeq) (r : Nat) (s : State), (seqRecord q.kind = some r) ∧ (s.live.arm.level = false)) ∧
    (∃ (slot : Nat) (old : Nat) (q : FuseSeq) (k : List Byte) (s : State), (s.ldg.busy = some .retag) ∧ (s.ldg.todo = []) ∧
      (s.keys.seq = some q) ∧ (q.kind = .rotate slot old) ∧ (q.stage = .retag) ∧ (keyValue s .faultLog = some k)) :=
  ⟨⟨1681, { kind := .release 2, stage := .body, todo := [700, 701] }, 700, 701, [],
     { up with keys := { up.keys with seq := some { kind := .release 2, stage := .body, todo := [700, 701] } } },
     by decide +kernel⟩,
   ⟨true, 1681, { kind := .release 2, stage := .body, todo := [700, 701], hot := true },
     { up with keys := { up.keys with seq := some { kind := .release 2, stage := .body, todo := [700, 701], hot := true } } },
     by decide +kernel⟩,
   ⟨1680, {kind := .release 2, stage := .body, todo := [700, 701], hot := true},
     {up with keys := {up.keys with seq := some {kind := .release 2, stage := .body, todo := [700, 701], hot := true}}},
     by decide +kernel⟩,
   ⟨0, 2, recIntent 4, { kind := .release 2, stage := .intent, todo := [recIntent 4] },
     { up with keys := { up.keys with seq := some { kind := .release 2, stage := .intent, todo := [recIntent 4] } } },
     by decide +kernel⟩,
   ⟨0, recState 31, { kind := .retire, stage := .body, todo := [recState 31] },
     { up with keys := { up.keys with seq := some { kind := .retire, stage := .body, todo := [recState 31] } } },
     by decide +kernel⟩,
   ⟨{kind := .release 2, stage := .staging, todo := []}, 4, up, by decide +kernel⟩,
   ⟨{kind := .release 2, stage := .staging, todo := []}, 4, {up with live := {up.live with arm := {level := false}}},
     by decide +kernel⟩,
   ⟨1, 0, {kind := .rotate 1 0, stage := .retag, todo := []}, _,
     {up with keys := {up.keys with seq := some {kind := .rotate 1 0, stage := .retag, todo := []}}, ldg := {up.ldg with busy := some .retag, log := [⟨anEntry .pwrDomain, 0, []⟩]}},
     rfl, rfl, rfl, rfl, rfl, rfl⟩⟩

theorem test_FusesAreNeverUndone :
    (∃ (c : Instr) (s : State) (t : State), (exec c s = .next t)) ∧
    (∃ (c : Instr) (s : State) (t : State), (exec c s = .next t) ∧ ((∀ (took : Bool) (tj : Int), c ≠ .fusePairDone took tj))
      ∧ ((∀ b, c ≠ .railBrownout b true)) ∧ (c ≠ .vinBrownout true) ∧ (c ≠ .resetNAssert)) ∧
    (∃ (s : State) (t : State), (step s = .next t)) :=
  ⟨⟨.fusePairDone true 0,
     {up with keys := {up.keys with seq := some {kind := .release 2, stage := .body, todo := [700, 701]}}}, _, rfl⟩,
   ⟨.xoff, up, _, rfl, fun _ _ h => Instr.noConfusion h, fun _ h => Instr.noConfusion h, fun h => Instr.noConfusion h, fun h
     => Instr.noConfusion h⟩,
   ⟨State.reset, _, rfl⟩⟩

theorem test_StrapsReadTwice :
    (∃ (ref : Nat) (readings : List Reading) (s : State), (s.pwr.aonOn = true) ∧ (s.boot.inReset = false) ∧ (s.boot.started
      = true) ∧ (s.straps.decided = false) ∧ (s.straps.decideDue = none) ∧ (s.straps.pass1 = []) ∧ (s.boot.ref + msT 10 ≤
      s.now)) ∧
    (∃ (ref : Nat) (readings : List Reading) (d : Decided) (l : List Decided) (s : State), (s.pwr.aonOn = true) ∧
      (s.boot.inReset = false) ∧ (s.boot.started = true) ∧ (s.straps.decided = false) ∧ (s.straps.decideDue = none) ∧
      (s.straps.pass1 = d :: l) ∧ (s.boot.ref + msT 20 ≤ s.now)) ∧
    (∃ (x : Code) (s : State), (s.straps.decideDue = some x) ∧ (s.boot.ref + msT 23 ≤ s.now)) ∧
    (∃ (x : Straps) (p : Nat) (c : Code), (x.ref1 = true) ∧ (x.ref2 = true)) ∧
    (∃ (x : Straps) (p : Nat), (x.ref1 = false ∨ x.ref2 = false)) :=
  ⟨⟨1200000, List.replicate 48 aReading, { up with straps := {  }, boot := { up.boot with ref := up.now - msT 10 } },
     by decide +kernel⟩,
   ⟨1200000, List.replicate 48 aReading, .firm 0, [.marginal],
     { up with straps := { pass1 := [.firm 0, .marginal] }, boot := { up.boot with ref := up.now - msT 20 } },
     by decide +kernel⟩,
   ⟨3, { up with straps := { decideDue := some 3 }, boot := { up.boot with ref := up.now - msT 23 } }, by decide +kernel⟩,
   ⟨{ pass1 := [.firm 3], pass2 := [.firm 3] }, 0, 3, by decide +kernel⟩,
   ⟨{ ref2 := false }, 0, by decide +kernel⟩⟩

theorem test_StrapsAreReread :
    (∃ (ref : Nat) (readings : List Reading) (s : State), (s.pwr.aonOn = true) ∧ (s.boot.inReset = false) ∧
      (s.straps.decided = true) ∧ (s.straps.nextReread ≤ s.now) ∧ (refInRange ref = false) ∧ (s.straps.refBad = false)) ∧
    (∃ (ref : Nat) (readings : List Reading) (s : State), (s.pwr.aonOn = true) ∧ (s.boot.inReset = false) ∧
      (s.straps.decided = true) ∧ (s.straps.nextReread ≤ s.now) ∧ (refInRange ref = true)) ∧
    (∃ (pin : Fin 48) (reading : Reading) (c : Code) (due : Ticks) (l : List (Nat × Code × Ticks)) (s : State),
      (s.straps.recheck = (pin.val, c, due) :: l) ∧ (due ≤ s.now) ∧ (decideReading reading = .firm c) ∧ (pin.val <
      s.straps.pend.length)) ∧
    (∃ (p : Nat) (r : Reading) (s : State), (decideReading r = .marginal) ∧ (s.straps.marginalRun.getD p 0 = 2) ∧ (p <
      s.straps.marginalRun.length)) ∧
    (∃ (ref : Nat) (scene : Reading) (bright : Reading) (x : Code) (s : State), (runs s = true) ∧ (s.straps.decided = true)
      ∧ (s.boot.ref + msT 30 ≤ s.now) ∧ (s.live.readNext ≤ s.now) ∧ (refInRange ref = true) ∧ (decideReading scene = .firm
      x)) ∧
    (∃ (ref : Nat) (scene : Reading) (bright : Reading) (s : State), (s.now < s.live.readNext)) ∧
    (∃ (ref : Nat) (scene : Reading) (bright : Reading) (s : State), (runs s = true) ∧ (s.straps.decided = true) ∧
      (s.boot.ref + msT 30 ≤ s.now) ∧ (s.live.readNext ≤ s.now) ∧ (refInRange ref = false)) :=
  ⟨⟨1149999, List.replicate 48 aReading, up, by decide +kernel⟩,
   ⟨1150000, List.replicate 48 aReading, up, by decide +kernel⟩,
   ⟨47, ⟨List.replicate 8 0⟩, 0, up.now, [(3, 0, 0)],
     {up with straps := {up.straps with recheck := [(47, 0, up.now), (3, 0, 0)]}}, by decide +kernel⟩,
   ⟨47, ⟨List.replicate 8 1300000⟩, {up with straps := {up.straps with marginalRun := List.replicate 48 2}},
     by decide +kernel⟩,
   ⟨1150000, aReading, aReading, 0, { up with live := { up.live with readNext := up.now } }, by decide +kernel⟩,
   ⟨1150000, aReading, aReading, { up with live := { up.live with readNext := up.now + 1 } }, by decide +kernel⟩,
   ⟨1149999, aReading, aReading, up, by decide +kernel⟩⟩

theorem test_LivePinsAreFiltered :
    (∃ (pin : LivePin) (high : Bool) (banks : BankMv) (s : State), (s.pwr.aonOn = true) ∧ (s.boot.inReset = false) ∧
      ((s.standby.asleep = false ∨ pin = .standby)) ∧ ((pinFilter s.live pin).next ≤ s.now)) ∧
    (∃ (k : Nat) (f : PinFilter) (high : Bool), (1 ≤ k)) ∧
    (∃ (pin : LivePin) (high : Bool) (banks : BankMv) (s : State), (s.pwr.aonOn = true) ∧ (s.boot.inReset = false) ∧
      (s.standby.asleep = false) ∧ ((pinFilter s.live pin).next ≤ s.now) ∧ ((pinFilter s.live pin).level ≠ high) ∧
      ((pinFilter s.live pin).run + 1 < samplesOf pin)) ∧
    (∃ (pin : LivePin) (high : Bool) (banks : BankMv) (s : State), (s.pwr.aonOn = true) ∧ (s.boot.inReset = false) ∧
      (s.standby.asleep = false) ∧ ((pinFilter s.live pin).next ≤ s.now) ∧ ((pinFilter s.live pin).level = high)) ∧
    (∃ (high : Bool) (banks : BankMv) (s : State), (s.pwr.aonOn = true) ∧ (s.boot.inReset = false) ∧ (s.standby.asleep =
      false) ∧ (s.live.mute.next ≤ s.now) ∧ (s.live.mute.level ≠ high) ∧ (s.live.mute.run = 4)) :=
  ⟨⟨.standby, false, bmv, asleep, by decide +kernel⟩,
   ⟨1, {}, true, by decide +kernel⟩,
   ⟨.mute, false, bmv, { up with live := { up.live with mute := { run := 3, next := up.now } } }, by decide +kernel⟩,
   ⟨.mute, true, bmv, up, by decide +kernel⟩,
   ⟨false, bmv, { up with live := { up.live with mute := { run := 4, next := up.now } } }, by decide +kernel⟩⟩

theorem test_SelfTestsStartRunAndEnd :
    (∃ (s : State), (runs s = true) ∧ (lowFor s (secT 2) = true) ∧ (s.live.refusedNow = false) ∧ (s.boot.idleShown = true) ∧
      (anySource s = false)) ∧
    (∃ (s : State), (runs s = true) ∧ (lowFor s (secT 2) = true) ∧ (s.live.refusedNow = false) ∧ (s.boot.idleShown = true) ∧
      (anySource s = true)) ∧
    (∃ (s : State), (runs s = true) ∧ (lowFor s (secT 10) = true) ∧ (s.boot.idleShown = true)) ∧
    (∃ (s : State), (runs s = true) ∧ (lowFor s (secT 2) = true) ∧ (s.live.refusedNow = false) ∧ (s.boot.idleShown = false)) ∧
    (∃ (v : Visible) (s : State), (s.test.visible = some v) ∧ (atBeat s = true) ∧ (partElapsed s v = true) ∧ (atLastPart s v
      = false)) ∧
    (∃ (v : Visible) (s : State), (s.test.visible = some v) ∧ (partElapsed s v = true) ∧ (atLastPart s v = true) ∧
      (s.test.endDue = none)) ∧
    (∃ (q : Suite) (s : State), (s.test.suite = some q) ∧ (runs s = true) ∧ (q.todo = []) ∧ (q.ending = false)) ∧
    (∃ (q : Suite) (i : SuiteItem) (s : State), (s.test.suite = some q) ∧ (i ∈ q.todo) ∧ ((∀ j ∈ q.todo, j ≠ i → itemTest j
      ≠ itemTest i))) :=
  ⟨⟨{up with live := {up.live with lowSince := some (up.now - secT 2)}}, by decide +kernel⟩,
   ⟨{up with live := {up.live with lowSince := some (up.now - secT 2)}, scene := {up.scene with win := [{touches := true, lastComplete := some up.now}]}},
     by decide +kernel⟩,
   ⟨{up with scene := {up.scene with win := [{touches := true, lastComplete := some up.now}]}, live := {up.live with lowSince := some (up.now - secT 10)}},
     by decide +kernel⟩,
   ⟨{up with live := {up.live with lowSince := some (up.now - secT 2)}, boot := {up.boot with idleShown := false}},
     by decide +kernel⟩,
   ⟨⟨1, 0, secT 9000, false, 0⟩,
     { up with time := { up.time with beat := some 5, beatAt := up.now }, test := { up.test with visible := some ⟨1, 0, secT 9000, false, 0⟩ } },
     by decide +kernel⟩,
   ⟨⟨lastStep up, (stepParts up (lastStep up)).1 - 1, up.now - (stepParts up (lastStep up)).2, false, 0⟩,
     { up with test := { up.test with visible := some ⟨lastStep up, (stepParts up (lastStep up)).1 - 1, up.now - (stepParts up (lastStep up)).2, false, 0⟩ } },
     by decide +kernel⟩,
   ⟨⟨secT 9999, [], [.rom], false⟩, { up with test := { up.test with suite := some ⟨secT 9999, [], [.rom], false⟩ } },
     by decide +kernel⟩,
   ⟨⟨secT 9999, [.rom, .dac 1, .dac 2], [], false⟩, .rom,
     { up with test := { up.test with suite := some ⟨secT 9999, [.rom, .dac 1, .dac 2], [], false⟩ } }, rfl, by decide, by
     decide⟩⟩

theorem test_BackgroundTests :
    (∃ (lane : Fin 8) (margin : Nat) (s : State), (runs s = true) ∧ (laneUp s lane.val = true) ∧ ((∀ t : Ticks,
      s.test.eyeNext.getD lane.val none = some t → t ≤ s.now))) ∧
    (∃ (bank : Fin 5) (b : DacBank) (s : State), (runs s = true) ∧ (s.test.dac[bank.val]? = some b) ∧ (b.stopped = false) ∧
      (b.ready = false) ∧ (dacDue s bank.val b = true)) ∧
    (∃ (bank : Fin 5) (b : DacBank) (s : State), (runs s = true) ∧ (s.test.dac[bank.val]? = some b) ∧ (b.stopped = false) ∧
      (b.ready = false) ∧ (dacDue s bank.val b = true)) ∧
    (∃ (romFlips : List (Nat × Byte)) (s : State), (runs s = true) ∧ (s.boot.remap = true) ∧ (hourlyDue s .rom
      s.test.romNext = true)) ∧
    (∃ (flipped : List Nat) (s : State), (runs s = true) ∧ (s.keys.seq = none) ∧ (hourlyDue s .otp s.test.otpNext = true)) :=
  ⟨⟨5, 39, modLink up .e (fun l => { l with locked := true }), by decide +kernel, by decide +kernel, fun _ h => by cases h⟩,
   ⟨4, .of 12, up, by decide +kernel, by decide +kernel, by decide +kernel, by decide +kernel, by decide +kernel⟩,
   ⟨0, .of 8, up, by decide +kernel, by decide +kernel, by decide +kernel, by decide +kernel, by decide +kernel⟩,
   ⟨[(3, 1)], up, by decide +kernel⟩,
   ⟨[700], up, by decide +kernel⟩⟩

theorem test_StandbySleepsAndWakes :
    (∃ (banks : BankMv) (e : Entry) (s : State), (s.standby.entry = some e) ∧ (e.stage = .flushing) ∧ (flushDone s = true) ∧
      (s.flt.holdoff = none) ∧ (s.flt.safeHold = false) ∧ (e.wakeAfter = false)) ∧
    (∃ (banks : BankMv) (e : Entry) (s : State), (s.standby.entry = some e) ∧ (e.stage = .flushing) ∧ (flushDone s = true) ∧
      (s.flt.holdoff = none) ∧ (s.flt.safeHold = false) ∧ (e.wakeAfter = true)) ∧
    (∃ (banks : BankMv) (s : State), (s.ldg.busy ≠ none)) ∧
    (∃ (banks : BankMv) (s : State), (s.standby.asleep = true) ∧ (s.standby.source = some .night) ∧ (passed s.now
      s.standby.enteredAt (secT 3600) = true)) ∧
    (∃ (levels : List Bool) (g : BSeg) (f : Byte × List Byte) (s : State), (s.standby.asleep = true) ∧ (s.boot.checking =
      false) ∧ ((segsOf ((slowReceive {} levels).map (fun c => (0, c)))).getLast? = some g) ∧ (listenFrame s g = some f)) ∧
    (∃ (banks : BankMv) (s : State), (s.standby.asleep = true) ∧ (s.boot.checking = true) ∧ (wakeFrame s = none)) ∧
    (∃ (banks : BankMv) (f : BFrame) (s : State), (s.standby.asleep = true) ∧ (s.boot.checking = true) ∧ (wakeFrame s = some
      f)) ∧
    (∃ (f : BFrame) (s : State), (wakeFrame s = some f)) :=
  ⟨⟨bmv, { source := .pin, due := .nextBeat, stage := .flushing },
     { up with standby := { entry := some { source := .pin, due := .nextBeat, stage := .flushing } } }, by decide +kernel⟩,
   ⟨bmv, { source := .pin, due := .nextBeat, stage := .flushing, wakeAfter := true },
     { up with standby := { entry := some { source := .pin, due := .nextBeat, stage := .flushing, wakeAfter := true } } },
     by decide +kernel⟩,
   ⟨bmv, { up with ldg := { up.ldg with busy := some .wear } }, by decide +kernel⟩,
   ⟨bmv,
     { asleep with standby := { asleep.standby with source := some .night, enteredAt := some (asleep.now - secT 3600) } },
     by decide +kernel⟩,
   ⟨wakeLevels, ⟨⟨0xFF, true, false, false, false⟩, 0, wakeChars.map (fun b => (0, ⟨b, false, false, false, false⟩))⟩,
     (0xFF, wakeChars), asleep, by decide +kernel, by decide +kernel, by decide +kernel, by decide +kernel⟩,
   ⟨bmv, { asleep with boot := { asleep.boot with checking := true } }, by decide +kernel⟩,
   ⟨bmv, wakeOne, heardWake, by decide +kernel⟩,
   ⟨wakeOne, heardWake, by decide +kernel⟩⟩

theorem test_ModulesAreIdentified :
    (∃ (port : Port) (s : State), (runs s = true) ∧ ((netPort s port).module = .absent)) ∧
    (∃ (port : Port) (bytes : List Byte) (since : Ticks) (readAt : Ticks) (tries : Nat) (m : LaneMode) (s : State), (runs s
      = true) ∧ ((netPort s port).module = .waiting since tries readAt) ∧ (readAt ≤ s.now) ∧ (port.val < s.net.port.length)
      ∧ (idCheck bytes = true) ∧ (laneFor s (idIs25 bytes) = some m)) ∧
    (∃ (port : Port) (bytes : List Byte) (since : Ticks) (readAt : Ticks) (tries : Nat) (s : State), (runs s = true) ∧
      ((netPort s port).module = .waiting since tries readAt) ∧ (readAt ≤ s.now) ∧ (idCheck bytes = true) ∧ (laneFor s
      (idIs25 bytes) = none)) ∧
    (∃ (port : Port) (bytes : List Byte) (since : Ticks) (readAt : Ticks) (tries : Nat) (s : State), (runs s = true) ∧
      ((netPort s port).module = .waiting since tries readAt) ∧ (readAt ≤ s.now) ∧ (idCheck bytes = false)) ∧
    (∃ (port : Port) (s : State), (s.pwr.aonOn = true) ∧ (s.standby.asleep = false) ∧ (s.boot.inReset = false) ∧
      (modulePresent s port = true) ∧ (port.val < s.net.port.length)) :=
  ⟨⟨3, up, by decide +kernel⟩,
   ⟨3, idBytes, 0, up.now, 2, .base10, setNetPort up 3 (fun q => {q with module := .waiting 0 2 up.now}), by decide +kernel⟩,
   ⟨0, idBytes, 0, up.now, 2, strap pinNetmode 1 (setNetPort up 0 (fun q => {q with module := .waiting 0 2 up.now})),
     by decide +kernel⟩,
   ⟨1, List.replicate 63 0 ++ [1], 0, up.now, 1, setNetPort up 1 (fun q => {q with module := .waiting 0 1 up.now}),
     by decide +kernel⟩,
   ⟨3, setNetPort up 3 (fun q => { q with module := .failed }), by decide +kernel⟩⟩

theorem test_LinksListenThenForward :
    (∃ (port : Port) (fault : LinkFault) (m : LaneMode) (s : State), (netRuns s = true) ∧ ((netPort s port).txDis = false) ∧
      ((netPort s port).mode = some m) ∧ ((netPort s port).linkUp = none) ∧ (pastFlush s = false) ∧ (port.val <
      s.net.port.length)) ∧
    (∃ (port : Port) (fault : LinkFault) (m : LaneMode) (t0 : Ticks) (s : State), (netRuns s = true) ∧ ((netPort s
      port).txDis = false) ∧ ((netPort s port).mode = some m) ∧ ((netPort s port).linkUp = some t0) ∧ (pastFlush s = false)) ∧
    (∃ (port : Port) (t0 : Ticks) (s : State), (netRuns s = true) ∧ ((netPort s port).fwd = .listening t0) ∧ (t0 + msT 30 ≤
      s.now)) ∧
    (∃ (port : Port) (t0 : Ticks) (s : State), ((netPort s port).fwd = .listening t0) ∧ (s.now < t0 + msT 30)) ∧
    (∃ (port : Port) (s : State), (portUp s port = true) ∧ (port.val < s.net.port.length) ∧ (port.val < s.net.queue.length)) ∧
    (∃ (port : Port) (r : Bool) (c : ModClass) (s : State), (runs s = true) ∧ ((netPort s port).module = .identified r c) ∧
      ((netPort s port).linkUp = none) ∧ (passed s.now (netPort s port).noLinkSince (secT 10) = true)) ∧
    (∃ (port : Port) (s : State), (netRuns s = true) ∧ (launchDue s port = true)) ∧
    (∃ (port : Port) (r : Nat × State) (f : QFrame) (g : Frame) (s : State), (portSends s port = true) ∧ (pickFrame
      (dropHeld s port) port = some r) ∧ ((portQueue r.2 port)[r.1]? = some f) ∧ (f.payload = .relayed g) ∧ ((∀ m :
      PtpRelay, g.body ≠ .ptp m)) ∧ (port.val < s.net.queue.length)) :=
  ⟨⟨1, .none, .base10, setNetPort up 1 (fun q => { q with linkUp := none, txDis := false, mode := some .base10 }),
     by decide +kernel⟩,
   ⟨1, .localFault, .base10, 3, setNetPort up 1 (fun q =>
     { q with linkUp := some 3, txDis := false, mode := some .base10 }), by decide +kernel⟩,
   ⟨1, up.now - msT 30, setNetPort up 1 (fun q => {q with fwd := .listening (up.now - msT 30)}), by decide +kernel⟩,
   ⟨1, up.now - msT 30 + 1, setNetPort up 1 (fun q => {q with fwd := .listening (up.now - msT 30 + 1)}), by decide +kernel⟩,
   ⟨1, onPort 1, by decide +kernel⟩,
   ⟨1, true, .copper, setNetPort up 1 (fun q =>
     {q with module := .identified true .copper, noLinkSince := some (up.now - secT 10)}), by decide +kernel⟩,
   ⟨1,
     { onPort 1 with net := { (onPort 1).net with queue := (onPort 1).net.queue.set 1 [{ klass := .control, queue := 1, len := 64, payload := .own (.igmpQuery 0 100 2), arrived := 0, launch := some 0 }] } },
     by decide +kernel⟩,
   ⟨1, (0, dropHeld (setPortQueue (onPort 1) 1
     [{ klass := .other, queue := 0, len := 64, payload := .relayed plainFrame, arrived := 0 }]) 1),
     { klass := .other, queue := 0, len := 64, payload := .relayed plainFrame, arrived := 0 }, plainFrame, setPortQueue
     (onPort 1) 1 [{ klass := .other, queue := 0, len := 64, payload := .relayed plainFrame, arrived := 0 }],
     by decide +kernel, by decide +kernel, by decide +kernel, rfl, fun _ h => Body.noConfusion h, by decide +kernel⟩⟩

theorem test_FramesAreCheckedLearnedAndForwarded :
    (∃ (port : Port) (f : Frame) (c : Nat) (s : State), (netRuns s = true) ∧ (portUp s port = true) ∧ ((netPort s
      port).fault ≠ .localFault) ∧ (frameCheck f = some c)) ∧
    (∃ (port : Port) (f : Frame) (s : State), (portForwards s port = false) ∧ (frameCheck f = none)) ∧
    (∃ (port : Port) (f : Frame) (s : State), (netRuns s = true) ∧ (portUp s port = true) ∧ ((netPort s port).fault ≠
      .localFault) ∧ (frameCheck f = none) ∧ (portForwards s port = true)) ∧
    (∃ (p : Port) (m : Mac) (s : State), (s.net.mac.length < 4096)) ∧
    (∃ (p : Port) (f : Frame) (s : State), (f.dst = ownMac s)) ∧
    (∃ (p : Port) (q : Port) (f : Frame) (e : MacEntry) (s : State), (f.dst ≠ ownMac s) ∧ (groupAddress f.dst = false) ∧
      (s.net.mac.find? (fun x => x.mac == f.dst) = some e) ∧ (q ∈ (egressOf p f s).1)) ∧
    (∃ (group : Ip4) (udp : Nat) (e : SdpEntry) (s : State), (e ∈ s.net.sdp) ∧ (e.sdp.group = group) ∧ (e.sdp.port = udp) ∧
      (e.announced + secT 3600 ≤ s.now)) ∧
    (∃ (slot : Fin 256) (f : Flow) (s : State), (netRuns s = true) ∧ (f ∈ s.net.flows) ∧ (f.slot = slot.val) ∧ (f.sdp =
      none) ∧ (passed s.now f.rtpSince (secT 10) = true)) ∧
    (∃ (port : Port) (s : State), (passed s.now (netPort s port).queryAt (secT 255) = true)) ∧
    (∃ (s : State), (dueBy s.now s.net.guard.floodUntil = true)) :=
  ⟨⟨1, { plainFrame with len := 63 }, ctRunt, onPort 1, by decide +kernel⟩,
   ⟨2, plainFrame, onPort 1, by decide +kernel⟩,
   ⟨1, plainFrame, onPort 1, by decide +kernel⟩,
   ⟨2, 1, { up with net := { up.net with mac := List.replicate 4095 ⟨5, 1, 0⟩ } }, by decide +kernel⟩,
   ⟨2, { plainFrame with dst := ownMac up }, up, by decide +kernel⟩,
   ⟨1, 2, plainFrame, ⟨plainFrame.dst, 2, up.now⟩,
     {twoPorts with net := {twoPorts.net with mac := [⟨plainFrame.dst, 2, up.now⟩]}}, by decide +kernel⟩,
   ⟨9, 5004, ⟨⟨9, 5004, 96, .anc⟩, up.now - secT 3600⟩,
     { up with net := { up.net with sdp := [⟨⟨9, 5004, 96, .anc⟩, up.now - secT 3600⟩] } }, by decide +kernel⟩,
   ⟨255, {kind := .audio, slot := 255, rtpSince := some (up.now - secT 10)},
     {up with net := {up.net with flows := [{kind := .audio, slot := 255, rtpSince := some (up.now - secT 10)}]}},
     by decide +kernel⟩,
   ⟨3, setNetPort up 3 (fun q => {q with queryAt := some (up.now - secT 255)}), by decide +kernel⟩,
   ⟨{up with net := {up.net with guard := {floodUntil := some up.now}}}, by decide +kernel⟩⟩

theorem test_RingGuardBlocksAndLifts :
    (∃ (port : Port) (g : Guard) (s : State), (netRuns s = true) ∧ (portUp s port = true) ∧ (g.wallId ≠ wallId s)) ∧
    (∃ (port : Port) (g : Guard) (s : State), (netRuns s = true) ∧ (portUp s port = true) ∧ (g.wallId = wallId s) ∧
      (g.serial ≠ serialOf s) ∧ (g.hops ≤ 1) ∧ (g.lead = false) ∧ (g.looped = false) ∧ (g.flush = false) ∧ (actingLead s =
      false)) ∧
    (∃ (port : Port) (g : Guard) (s : State), (netRuns s = true) ∧ (portUp s port = true) ∧ (g.wallId = wallId s) ∧
      (g.serial = serialOf s) ∧ (silenced s = false)) ∧
    (∃ (p : Port) (q : Port) (s : State), (returnPorts s = [p, q]) ∧ (q.val < s.net.port.length) ∧ ((netPort s q).blocked =
      none)) ∧
    (∃ (s : State), (netRuns s = true) ∧ (silenced s = false) ∧ ((∀ t : Ticks, s.net.guard.lastSend = some t → t +
      guardPeriod s ≤ s.now))) ∧
    (∃ (s : State), (silenced s = true)) ∧
    (∃ (port : Port) (t0 : Ticks) (s : State), (netRuns s = true) ∧ ((netPort s port).blocked = some t0) ∧ (silencedLong s =
      false) ∧ (noReturn s port = true)) :=
  ⟨⟨1, guardOf 5 9, onPort 1, by decide +kernel⟩,
   ⟨1, guardOf (wallId up) 9, onPort 1, by decide +kernel⟩,
   ⟨1, guardOf (wallId up) (serialOf up), onPort 1, by decide +kernel⟩,
   ⟨1, 2, {twoPorts with net := {twoPorts.net with guard := {returned := [(2, 1, up.now), (1, 2, up.now)]}}},
     by decide +kernel⟩,
   ⟨up, by decide +kernel, by decide +kernel, fun _ h => by cases h⟩,
   ⟨{up with net := {up.net with guard := {silencedAt := some (up.now - msT 30 + 1)}}}, by decide +kernel⟩,
   ⟨2, 0, setNetPort up 2 (fun q => {q with blocked := some 0}), by decide +kernel⟩⟩

theorem test_GroupsAndAddressesAreClaimed :
    (∃ (g : Ip4) (join : Bool) (s : State), (joinedLocal s g = join)) ∧
    (∃ (g : Ip4) (join : Bool) (s : State), (joinedLocal s g ≠ join)) ∧
    (∃ (group : Ip4) (j : Join) (s : State), (netRuns s = true) ∧ (s.net.joins.find? (fun x => x.group == group) = some j) ∧
      (dueBy s.now j.repeatAt = true)) ∧
    (∃ (t0 : Ticks) (s : State), (netRuns s = true) ∧ (s.net.answerBy = some t0)) ∧
    (∃ (s : State), (netRuns s = true) ∧ (s.disc.role = .acting) ∧ ((∀ t : Ticks, s.net.lowerQuery = some t → t + secT 255 ≤
      s.now)) ∧ ((∀ t : Ticks, s.net.nextQuery = some t → t ≤ s.now))) ∧
    (∃ (t0 : Ticks) (s : State), (s.net.lowerQuery = some t0) ∧ (s.now < t0 + secT 255)) ∧
    (∃ (c : AClaim) (s : State), (netRuns s = true) ∧ (s.net.addr.prov = some c) ∧ (c.next ≤ s.now) ∧ (c.frames < 3)) ∧
    (∃ (c : AClaim) (s : State), (s.net.addr.pos = some c) ∧ (c.frames = 3) ∧ (c.next ≤ s.now) ∧ (s.net.addr.claimed ≠ some
      c.addr)) ∧
    (∃ (c : AClaim) (s : State), (s.net.addr.pos = none) ∧ (s.net.addr.prov = some c) ∧ (c.frames = 3) ∧ (c.next ≤ s.now) ∧
      (s.net.addr.claimed ≠ some c.addr) ∧ (s.net.addr.claimedPositional = false)) ∧
    (∃ (c : AClaim) (s : State), (netRuns s = true) ∧ (s.net.addr.prov = none) ∧ (s.net.addr.pos = some c) ∧ (c.next ≤
      s.now) ∧ (3 ≤ c.frames) ∧ (s.net.addr.claimed = some c.addr)) ∧
    (∃ (s : State), (netRuns s = true) ∧ (positionKnown s = true) ∧ (dueBy s.now s.net.addr.positionalRetry = true)) :=
  ⟨⟨9, false, up, by decide +kernel⟩,
   ⟨9, true, up, by decide +kernel⟩,
   ⟨5, ⟨5, true, some up.now⟩, { up with net := { up.net with joins := [⟨5, true, some up.now⟩] } }, by decide +kernel⟩,
   ⟨up.now, {up with net := {up.net with answerBy := some up.now}}, by decide +kernel⟩,
   ⟨{ up with disc := { up.disc with role := .acting } }, by decide +kernel, by decide +kernel, (fun _ h => by cases h), fun
     _ h => by cases h⟩,
   ⟨up.now - secT 255 + 1, {up with net := {up.net with lowerQuery := some (up.now - secT 255 + 1)}}, by decide +kernel⟩,
   ⟨⟨7, 2, up.now⟩, { up with net := { up.net with addr := { up.net.addr with prov := some ⟨7, 2, up.now⟩ } } },
     by decide +kernel⟩,
   ⟨⟨7, 3, up.now⟩,
     { up with net := { up.net with addr := { up.net.addr with pos := some ⟨7, 3, up.now⟩, claimed := some 6 } } },
     by decide +kernel⟩,
   ⟨⟨7, 3, up.now⟩, { up with net := { up.net with addr := { up.net.addr with prov := some ⟨7, 3, up.now⟩ } } },
     by decide +kernel⟩,
   ⟨⟨7, 3, up.now⟩,
     { up with net := { up.net with addr := { up.net.addr with pos := some ⟨7, 3, up.now⟩, claimed := some 7 } } },
     by decide +kernel⟩,
   ⟨{up with disc := {up.disc with position := some (1, 2)}, net := {up.net with addr := {positionalRetry := some up.now}}},
     by decide +kernel⟩⟩

theorem test_StatusRecordOncePerSecond :
    (∃ (s : State), (recordsRun s = true) ∧ (s.status.lastWindow ≠ s.time.sec.toNat + 1) ∧ (launchOffset s * 1000000 ≤
      s.time.ns.toNat) ∧ (replaced s = false)) ∧
    (∃ (s : State), (recordsRun s = true) ∧ (s.status.lastWindow ≠ s.time.sec.toNat + 1) ∧ (launchOffset s * 1000000 ≤
      s.time.ns.toNat) ∧ (replaced s = true)) ∧
    (∃ (s : State), (s.status.lastWindow = s.time.sec.toNat + 1)) ∧
    (∃ (kind : BitVec 8) (s : State), (recordsRun s = true) ∧ (sentLastSecond s < 10)) ∧
    (∃ (kind : BitVec 8) (s : State), (recordsRun s = true) ∧ (10 ≤ sentLastSecond s)) :=
  ⟨⟨{up with time := {up.time with ns := 2000000}, disc := {up.disc with position := some (0, 2)}}, by decide +kernel⟩,
   ⟨{{up with time := {up.time with ns := 2000000}, disc := {up.disc with position := some (0, 2)}} with status := {triggeredAt := some (up.now - msT 50 + 1)}},
     by decide +kernel⟩,
   ⟨{up with status := {lastWindow := up.time.sec.toNat + 1}}, by decide +kernel⟩,
   ⟨1, { up with status := { sentAt := List.replicate 9 up.now } }, by decide +kernel⟩,
   ⟨1, { up with status := { sentAt := List.replicate 10 up.now } }, by decide +kernel⟩⟩

theorem test_MastersAreSelectedAndLost :
    (∃ (port : Port) (h : PtpHeader) (a : AnnounceSet) (s : State), (255 ≤ a.stepsRemoved)) ∧
    (∃ (port : Port) (h : PtpHeader) (a : AnnounceSet) (s : State), (ptpOk s 320 h = true) ∧ (portForwards s port = true) ∧
      (a.stepsRemoved < 255) ∧ ((timeProfile s).annLo ≤ a.logAnnounce) ∧ (a.logAnnounce ≤ (timeProfile s).annHi) ∧
      ((timeProfile s).syncLo ≤ a.logSync) ∧ (a.logSync ≤ (timeProfile s).syncHi)) ∧
    (∃ (port : Port) (h : PtpHeader) (a : AnnounceSet) (s : State), (ptpOk s 320 h = true) ∧ (portForwards s port = true) ∧
      (a.stepsRemoved < 255) ∧ ((timeProfile s).annLo ≤ a.logAnnounce) ∧ (a.logAnnounce ≤ (timeProfile s).annHi) ∧
      ((timeProfile s).syncLo ≤ a.logSync) ∧ (a.logSync ≤ (timeProfile s).syncHi) ∧ (s.time.masters = []) ∧ (s.time.master =
      none)) ∧
    (∃ (port : Port) (p0 : Port) (h : PtpHeader) (a : AnnounceSet) (a0 : AnnounceSet) (t0 : Ticks) (s : State), (ptpOk s 320
      h = true) ∧ (portForwards s port = true) ∧ (a.stepsRemoved < 255) ∧ ((timeProfile s).annLo ≤ a.logAnnounce) ∧
      (a.logAnnounce ≤ (timeProfile s).annHi) ∧ ((timeProfile s).syncLo ≤ a.logSync) ∧ (a.logSync ≤ (timeProfile s).syncHi)
      ∧ (s.time.masters = [⟨h.source, a0, [t0], p0⟩]) ∧ (s.time.master = none) ∧ (s.now ≤ t0 + 4 * logTicks a.logAnnounce) ∧
      (s.time.servo = .listen)) ∧
    (∃ (m : Master_) (s : State), (s.time.master = some m) ∧ (m.lastAnnounce + 3 * logTicks m.set_.logAnnounce ≤ s.now)) ∧
    (∃ (m : Master_) (s : State), (s.time.master = some m) ∧ (m.lastSync + 16 * logTicks m.set_.logSync ≤ s.now)) ∧
    (∃ (m : Master_) (s : State), (s.time.master = some m) ∧ (s.time.masters = []) ∧ (s.time.servo = .track) ∧
      (s.time.ptpOrigin = true) ∧ (s.disc.role = .acting)) ∧
    (∃ (s : State), (s.time.servo = .track) ∧ (passed s.now s.time.limitSince (secT 60) = true)) ∧
    (∃ (s : State), (runs s = true) ∧ (s.time.servo = .listen) ∧ (s.time.master = none) ∧ (passed s.now s.time.firstLink
      (secT 10) = true)) ∧
    (∃ (theta : Int) (t0 : Ticks) (s : State), (s.time.stepNeed = some (theta, t0)) ∧ (follower s = true) ∧ (s.time.stepAnn
      = none) ∧ (t0 + secT 4 ≤ s.now)) ∧
    (∃ (s : State), (s.time.servo = .holdover) ∧ (passed s.now s.time.inconsistentSince (secT 1) = true) ∧ (followable s =
      false)) ∧
    (∃ (s : State), (s.time.servo = .holdover) ∧ (passed s.now s.time.leadHold (secT 2) = true)) :=
  ⟨⟨1, hdr 320, { ann with stepsRemoved := 255 }, up, by decide +kernel⟩,
   ⟨1, hdr 320, { ann with stepsRemoved := 254 }, onPort 1, by decide +kernel⟩,
   ⟨1, hdr 320, {ann with stepsRemoved := 254}, onPort 1, by decide +kernel⟩,
   ⟨1, 2, hdr 320, ann, ann, up.now - 4 * logTicks ann.logAnnounce,
     {(onPort 1) with time := {(onPort 1).time with masters := [⟨7, ann, [up.now - 4 * logTicks ann.logAnnounce], 2⟩]}},
     by decide +kernel⟩,
   ⟨⟨7, ann, up.now - 3 * logTicks ann.logAnnounce, up.now⟩,
     {up with time := {up.time with master := some ⟨7, ann, up.now - 3 * logTicks ann.logAnnounce, up.now⟩}},
     by decide +kernel⟩,
   ⟨⟨7, ann, up.now, up.now - 16 * logTicks ann.logSync⟩,
     {up with time := {up.time with master := some ⟨7, ann, up.now, up.now - 16 * logTicks ann.logSync⟩}},
     by decide +kernel⟩,
   ⟨⟨7, ann, up.now, up.now⟩,
     {up with time := {up.time with master := some ⟨7, ann, up.now, up.now⟩, servo := .track, ptpOrigin := true}, disc := {up.disc with role := .acting}},
     by decide +kernel⟩,
   ⟨{up with time := {up.time with servo := .track, limitSince := some (up.now - secT 60)}}, by decide +kernel⟩,
   ⟨{up with time := {up.time with firstLink := some (up.now - secT 10)}}, by decide +kernel⟩,
   ⟨5000000, up.now - secT 4, {up with time := {up.time with stepNeed := some (5000000, up.now - secT 4)}},
     by decide +kernel⟩,
   ⟨{up with time := {up.time with servo := .holdover, inconsistentSince := some (up.now - secT 1)}}, by decide +kernel⟩,
   ⟨{up with time := {up.time with servo := .holdover, leadHold := some (up.now - secT 2)}}, by decide +kernel⟩⟩

theorem test_OffsetAndDelayAreMeasured :
    (∃ (port : Port) (h : PtpHeader) (origin : PtpTime) (m : Master_) (s : State), (s.time.master = some m) ∧ (m.id =
      h.source) ∧ (ptpOk s 319 h = true) ∧ (portForwards s port = true) ∧ ((s.time.slavePort = none ∨ s.time.slavePort =
      some port))) ∧
    (∃ (port : Port) (h : PtpHeader) (origin : PtpTime) (m : Master_) (s : State), (s.time.master = some m) ∧ (m.id =
      h.source) ∧ (ptpOk s 319 h = true) ∧ (portForwards s port = true) ∧ ((s.time.slavePort = none ∨ s.time.slavePort =
      some port))) ∧
    (∃ (port : Port) (q : Port) (h : PtpHeader) (two : Bool) (origin : PtpTime) (m : Master_) (s : State), (s.time.master =
      some m) ∧ (m.id = h.source) ∧ (ptpOk s 319 h = true) ∧ (portForwards s port = true) ∧ (s.time.slavePort = some q) ∧
      (port ≠ q) ∧ (s.now < s.time.slaveHeard + logTicks m.set_.logSync)) ∧
    (∃ (h : PtpHeader) (origin : PtpTime) (m : Master_) (p : PendSync) (s : State), (s.time.master = some m) ∧ (m.id =
      h.source) ∧ (ptpOk s 320 h = true) ∧ (s.time.pend.find? (fun x => x.seq == h.seq && decide (s.now ≤ x.at_ + 2 *
      logTicks m.set_.logSync)) = some p)) ∧
    (∃ (t1 : Int) (t2 : Int) (c : Int) (s : State), (s.time.servo = .track) ∧ (s.time.portHold = none) ∧
      (s.time.delayMeanSet = true) ∧ (s.time.runMilli < 15)) ∧
    (∃ (m : Master_) (s : State), (s.time.master = some m)) ∧
    (∃ (p : Port) (m : Master_) (s : State), (netRuns s = true) ∧ (s.time.master = some m) ∧ (dueBy s.now
      s.time.nextDelayReq = true) ∧ (s.time.unanswered < 16) ∧ (s.time.slavePort = some p) ∧ (portUp s p = true)) ∧
    (∃ (m : Master_) (s : State), (netRuns s = true) ∧ (s.time.master = some m) ∧ (dueBy s.now s.time.nextDelayReq = true) ∧
      (16 ≤ s.time.unanswered)) ∧
    (∃ (h : PtpHeader) (requester : BitVec 80) (received : PtpTime) (logInterval : Int) (m : Master_) (q : Nat) (t3 : Int)
      (v : Int) (s : State), (s.time.master = some m) ∧ (ptpOk s 320 h = true) ∧ (m.id = h.source) ∧ (requester =
      Config.portIdentity (serialOf s).toNat) ∧ (s.time.delayOut.find? (fun x => x.1 == h.seq) = some (q, some t3, some v))) ∧
    (∃ (d : Int) (s : State), (s.time.dFilter = []) ∧ (s.time.servo ≠ .acquire)) :=
  ⟨⟨1, hdr 319, ⟨5, 6⟩, ⟨7, ann, up.now, up.now⟩,
     { (onPort 1) with time := { (onPort 1).time with master := some ⟨7, ann, up.now, up.now⟩ } }, by decide +kernel⟩,
   ⟨1, hdr 319, ⟨5, 6⟩, ⟨7, ann, up.now, up.now⟩,
     { (onPort 1) with time := { (onPort 1).time with master := some ⟨7, ann, up.now, up.now⟩, slavePort := some 1 } },
     by decide +kernel⟩,
   ⟨1, 2, hdr 319, false, ⟨5, 6⟩, ⟨7, ann, up.now, up.now⟩,
     { (onPort 1) with time := { (onPort 1).time with master := some ⟨7, ann, up.now, up.now⟩, slavePort := some 2, slaveHeard := up.now } },
     by decide +kernel⟩,
   ⟨hdr 320, ⟨5, 6⟩, ⟨7, ann, up.now, up.now⟩, ⟨1, 0, 0, up.now - 2 * logTicks ann.logSync⟩,
     { (onPort 1) with time := { (onPort 1).time with master := some ⟨7, ann, up.now, up.now⟩, pend := [⟨1, 0, 0, up.now - 2 * logTicks ann.logSync⟩] } },
     by decide +kernel⟩,
   ⟨0, 0, 0, { up with time := { up.time with servo := .track, delayMeanSet := true, runMilli := 14 } }, by decide +kernel⟩,
   ⟨⟨7, ann, up.now, up.now⟩, {up with time := {up.time with master := some ⟨7, ann, up.now, up.now⟩}}, by decide +kernel⟩,
   ⟨1, ⟨7, ann, up.now, up.now⟩,
     {(onPort 1) with time := {(onPort 1).time with master := some ⟨7, ann, up.now, up.now⟩, nextDelayReq := some up.now, unanswered := 15, slavePort := some 1}},
     by decide +kernel⟩,
   ⟨⟨7, ann, up.now, up.now⟩,
     {up with time := {up.time with master := some ⟨7, ann, up.now, up.now⟩, nextDelayReq := some up.now, unanswered := 16}},
     by decide +kernel⟩,
   ⟨hdr 320, Config.portIdentity (serialOf up).toNat, ⟨5, 6⟩, 0, ⟨7, ann, up.now, up.now⟩, 1, 3, 4,
     { up with time := { up.time with master := some ⟨7, ann, up.now, up.now⟩, delayOut := [(1, some 3, some 4)] } }, rfl,
     by decide +kernel, by decide +kernel, rfl, rfl⟩,
   ⟨5, { up with time := { up.time with servo := .track } }, by decide +kernel⟩⟩

theorem test_SyncedOnlyInTrack :
    (∃ (v : Servo) (s : State), (v ≠ .track)) ∧
    (∃ (t : TimeSt), (t.servo ≠ .track)) ∧
    (∃ (theta : Int) (t : TimeSt), (t.servo = .track) ∧ (t.synced = false)) ∧
    (∃ (theta : Int) (t : TimeSt), (t.servo = .track) ∧ (t.synced = true)) ∧
    (∃ (theta : Int) (tau : Int) (s : State), (s.time.servo = .track) ∧ (s.time.stepNeed = none) ∧ (nsF 1000000 < |theta|) ∧
      (s.time.runMilli = 15)) :=
  ⟨⟨.acquire, up, by decide +kernel⟩,
   ⟨{servo := .holdover}, by decide +kernel⟩,
   ⟨200, { servo := .track, run200 := 7 }, by decide +kernel⟩,
   ⟨-1000001, { servo := .track, synced := true, runMicro := 2 }, by decide +kernel⟩,
   ⟨nsF 1000000 + 1, 3, { up with time := { up.time with servo := .track, runMilli := 15 } }, by decide +kernel⟩⟩

theorem test_BeatsRefreshesAndPicks :
    (∃ (flags : List LedFlag) (s : State), (beatDue s = false)) ∧
    (∃ (flags : List LedFlag) (s : State), (beatDue s = true)) ∧
    (∃ (k : Nat) (s : State), (s.time.beat = some k) ∧ (runs s = true) ∧ (domOn s 3 = true) ∧ (nextRefresh s < refreshCount
      s) ∧ (partStart s k (refreshCount s) (nextRefresh s) ≤ counterOf s)) ∧
    (∃ (k : Nat) (r : Nat) (g : WGeom) (s : State), (s.time.beat = some k) ∧ (s.time.refresh = some r) ∧ (s.weft.geom = some
      g) ∧ (runs s = true) ∧ (s.boot.censusDone = true) ∧ (nextPick s r < g.scan) ∧ (partStart s k (refreshCount s * g.scan)
      (r * g.scan + nextPick s r) ≤ counterOf s)) ∧
    (∃ (n : Nat) (kp : Nat) (v : Nat), (n + kp ≤ 16) ∧ (v < 2 ^ 16)) :=
  ⟨⟨[], State.reset, by decide +kernel⟩,
   ⟨[⟨3, 5, 7⟩], up, by decide +kernel⟩,
   ⟨5, {up with time := {up.time with beat := some 5}}, by decide +kernel⟩,
   ⟨5, 0, ⟨64, 32, 8, 16, 32, 16, true⟩,
     {up with time := {up.time with beat := some 5, refresh := some 0}, weft := {up.weft with geom := some ⟨64, 32, 8, 16, 32, 16, true⟩, pick := some (0, 14, 3)}},
     by decide +kernel⟩,
   ⟨10, 6, 65535, by decide +kernel⟩⟩

theorem test_LinksJoinAndMeasureDelay :
    (∃ (link : Dir) (headers : List (BitVec 2)) (s : State), (svRuns s = true)) ∧
    (∃ (l : Link), (l.locked = false)) ∧
    (∃ (link : Dir) (headers : List (BitVec 2)) (s : State), (svRuns s = true) ∧ ((linkOf s link).locked = true)) ∧
    (∃ (link : Dir) (run : BlockRun) (bytes : List Byte) (x : Head) (s : State) (u : State), (arrive link run s = (u, some
      bytes)) ∧ (standalone u = false) ∧ (readKnot .hello bytes = some x) ∧ ((readHello bytes).port = dirNo (opposite link))
      ∧ ((readHello bytes).wallId = wallId u) ∧ ((readHello bytes).standalone = false)) ∧
    (∃ (link : Dir) (run : BlockRun) (bytes : List Byte) (x : Head) (s : State) (u : State), (arrive link run s = (u, some
      bytes)) ∧ (standalone u = false) ∧ (readKnot .hello bytes = some x) ∧ ((readHello bytes).port ≠ dirNo (opposite
      link))) ∧
    (∃ (link : Dir) (run : BlockRun) (bytes : List Byte) (s : State) (u : State), (arrive link run s = (u, some bytes)) ∧
      (standalone u = false) ∧ (readKnot .hello bytes = none)) ∧
    (∃ (link : Dir) (h : Hello) (a : Ticks) (b : Ticks) (s : State), ((linkOf s link).joined = none) ∧ ((linkOf s
      link).hellos = [a, b]) ∧ (s.now ≤ a + msT 30) ∧ (s.now ≤ b + msT 30)) ∧
    (∃ (link : Dir) (h : Hello) (s : State), ((linkOf s link).joined = none) ∧ ((linkOf s link).hellos = [])) ∧
    (∃ (link : Dir) (t0 : Ticks) (s : State), ((linkOf s link).joined = some t0) ∧ (passed s.now (linkOf s link).lastHello
      (msT 50) = true)) ∧
    (∃ (s : State), (svRuns s = true) ∧ ((∀ t : Ticks, s.disc.lastHelloSent = some t → t + msT 10 ≤ s.now))) ∧
    (∃ (link : Dir) (s : State), (svRuns s = true) ∧ (standalone s = false) ∧ ((linkOf s link).crossed = false) ∧ ((linkOf s
      link).joined = none) ∧ ((linkOf s link).everJoined = true) ∧ (passed s.now (linkOf s link).unjoinedSince (secT 1) =
      true)) ∧
    (∃ (link : Dir) (t0 : Ticks) (s : State), (svRuns s = true) ∧ ((linkOf s link).joined = some t0) ∧ ((∀ t : Ticks,
      (linkOf s link).reqAt = some t → t + msT 10 ≤ s.now))) ∧
    (∃ (link : Dir) (value : BitVec 16) (t0 : Ticks) (s : State), (svRuns s = true) ∧ ((linkOf s link).joined = some t0)) ∧
    (∃ (link : Dir) (value : BitVec 16) (t0 : Ticks) (t1 : Int) (s : State), (svRuns s = true) ∧ ((linkOf s link).joined =
      some t0) ∧ ((linkOf s link).req = some (value, t1))) ∧
    (∃ (link : Dir) (value : BitVec 16) (t0 : Ticks) (s : State), (svRuns s = true) ∧ (actingLead s = false) ∧ ((linkOf s
      link).joined = some t0) ∧ (delayValid (linkOf s link) = true) ∧ (markHeard value s = false)) ∧
    (∃ (d : Int) (l : Link), (l.delays ≠ []) ∧ (nsF 5 < |d - linkDelay l|) ∧ (l.rejects < 3)) ∧
    (∃ (d : Int) (l : Link), (l.delays ≠ []) ∧ (nsF 5 < |d - linkDelay l|) ∧ (3 ≤ l.rejects)) ∧
    (∃ (d : Int) (l : Link), (l.delays = [] ∨ |d - linkDelay l| ≤ nsF 5)) :=
  ⟨⟨.e, [1, 2], up, by decide +kernel⟩,
   ⟨{}, by decide +kernel⟩,
   ⟨.e, [0, 3], modLink up .e (fun l => { l with locked := true }), by decide +kernel⟩,
   ⟨.e, laneOf (helloKnot (wallId up) 3), helloKnot (wallId up) 3, headOf (helloKnot (wallId up) 3), modLink up .e (fun l =>
     { l with locked := true }), (arrive .e (laneOf (helloKnot (wallId up) 3)) (modLink up .e (fun l =>
     { l with locked := true }))).1, arrives (by decide +kernel), by decide +kernel, by decide +kernel, by decide +kernel,
     by decide +kernel, by decide +kernel⟩,
   ⟨.e, laneOf (helloKnot (wallId up) 1), helloKnot (wallId up) 1, headOf (helloKnot (wallId up) 1), modLink up .e (fun l =>
     { l with locked := true }), (arrive .e (laneOf (helloKnot (wallId up) 1)) (modLink up .e (fun l =>
     { l with locked := true }))).1, arrives (by decide +kernel), by decide +kernel, by decide +kernel, by decide +kernel⟩,
   ⟨.e, laneOf badKnot, badKnot, modLink up .e (fun l => { l with locked := true }), (arrive .e (laneOf badKnot) (modLink up
     .e (fun l => { l with locked := true }))).1, arrives (by decide +kernel), by decide +kernel, by decide +kernel⟩,
   ⟨.e, ⟨3, 1, true, false, false, false, false, false, 0, 0, 0, 0, 9, 1, 0, 9⟩, up.now - msT 15, up.now - msT 30, modLink
     up .e (fun l => { l with locked := true, hellos := [up.now - msT 15, up.now - msT 30] }), by decide +kernel⟩,
   ⟨.e, ⟨3, 1, true, false, false, false, false, false, 0, 0, 0, 0, 9, 1, 0, 9⟩, modLink up .e (fun l =>
     { l with locked := true }), by decide +kernel⟩,
   ⟨.s, 3, modLink up .s (fun l => {l with locked := true, joined := some 3, lastHello := some (up.now - msT 50)}),
     by decide +kernel⟩,
   ⟨up, by decide +kernel, fun _ h => by cases h⟩,
   ⟨.w, modLink up .w (fun l => {l with everJoined := true, unjoinedSince := some (up.now - secT 1)}), by decide +kernel⟩,
   ⟨.n, 3, modLink up .n (fun l => { l with locked := true, joined := some 3 }), by decide +kernel, by decide +kernel, fun _
     h => by cases h⟩,
   ⟨.n, 9, 3, modLink up .n (fun l => { l with locked := true, joined := some 3 }), by decide +kernel⟩,
   ⟨.n, 9, 3, 4, modLink up .n (fun l => {l with locked := true, joined := some 3, req := some (9, 4)}), by decide +kernel⟩,
   ⟨.n, 9, 3, modLink (modLink up .s (fun l => { l with joined := some 3 })) .n (fun l =>
     { l with locked := true, joined := some 3, delays := [1000], accepted := 16 }), by decide +kernel⟩,
   ⟨nsF 5 + 101, {delays := [100], rejects := 2}, by decide +kernel⟩,
   ⟨nsF 5 + 101, {delays := [100], rejects := 3}, by decide +kernel⟩,
   ⟨nsF 5 + 100, {delays := [100], rejects := 3}, by decide +kernel⟩⟩

theorem test_BestClaimIsChosen :
    (∃ (s : State), (fixedPos s = true)) ∧
    (∃ (c : Choice) (s : State), (fixedPos s = false) ∧ (c ∈ (ownClaim s).toList ++ receivedChoices s)) :=
  ⟨⟨strap pinPosX 14 (strap pinPosY 0 (up)), by decide +kernel⟩,
   ⟨⟨serialOf up, false, 0, 0, 0, none⟩, up, by decide +kernel⟩⟩

theorem test_ClaimsCensusAndFloodsCirculate :
    (∃ (link : Dir) (run : BlockRun) (bytes : List Byte) (h : Head) (s : State) (r : State) (u : State), (arrive link run s
      = (r, some bytes)) ∧ (receiveLocal r link .pos bytes = .taken u h) ∧ ((readPos bytes).seed ≠ serialOf u) ∧ ((readPos
      bytes).hops < 0xFFFE)) ∧
    (∃ (link : Dir) (c : Claim) (s : State), ((linkOf s link).claim = some c) ∧ (c.at_ + msT 300 ≤ s.now)) ∧
    (∃ (c : Choice) (s : State), (svRuns s = true) ∧ (s.disc.choice = some c) ∧ ((∀ t : Ticks, s.disc.lastPos = some t → t +
      msT 100 ≤ s.now))) ∧
    (∃ (link : Dir) (run : BlockRun) (bytes : List Byte) (h : Head) (s : State) (r : State) (u : State), (arrive link run s
      = (r, some bytes)) ∧ (receiveLocal r link .census bytes = .taken u h)) ∧
    (∃ (c : Choice) (s : State), (svRuns s = true) ∧ (standalone s = false) ∧ (s.disc.choice = some c) ∧ ((s.disc.censusDue
      = true ∨ ∀ t : Ticks, s.disc.lastCensus = some t → t + secT 5 ≤ s.now))) ∧
    (∃ (serial : Serial) (s : State), (s.disc.role = .acting)) ∧
    (∃ (link : Dir) (t0 : Ticks) (s : State), (svRuns s = true) ∧ ((linkOf s link).joined = some t0) ∧ (passed s.now (linkOf
      s link).diffSince (secT 1) = true)) ∧
    (∃ (link : Dir) (run : BlockRun) (bytes : List Byte) (h : Head) (x : Head) (m : MarkSeen) (s : State) (r : State) (u :
      State), (arrive link run s = (r, some bytes)) ∧ (readKnot .beat bytes = some x) ∧ (r.disc.markSeen = some m) ∧
      (delayValid (linkOf r link) = true) ∧ (m.link = link) ∧ (m.value = (readBeat bytes).beat.setWidth 16) ∧ (acceptFlood r
      link .beat bytes = .taken u h)) ∧
    (∃ (link : Dir) (m : MarkSeen) (bytes : List Byte) (s : State), (byteAt bytes 6 ≠ 255)) ∧
    (∃ (link : Dir) (run : BlockRun) (bytes : List Byte) (h : Head) (s : State) (r : State) (u : State), (arrive link run s
      = (r, some bytes)) ∧ (receiveFlood r link .fault bytes = .taken u h)) ∧
    (∃ (q : QKnot) (rest : List QKnot) (s : State), (s.disc.faultHeld = q :: rest) ∧ (svRuns s = true) ∧ (faultSentRecently
      s < 4) ∧ (mayFlood s = true)) :=
  ⟨⟨.n, laneOf (encodeKnot .pos false (headBy 9) (posBytes ⟨3, true, 0xFFFD, 1, 2⟩)), encodeKnot .pos false (headBy 9)
     (posBytes ⟨3, true, 0xFFFD, 1, 2⟩), headBy 9, modLink up .n (fun l => { l with locked := true, joined := some 3 }),
     (arrive .n (laneOf (encodeKnot .pos false (headBy 9) (posBytes ⟨3, true, 0xFFFD, 1, 2⟩))) (modLink up .n (fun l =>
     { l with locked := true, joined := some 3 }))).1, (arrive .n (laneOf (encodeKnot .pos false (headBy 9) (posBytes ⟨3,
     true, 0xFFFD, 1, 2⟩))) (modLink up .n (fun l => { l with locked := true, joined := some 3 }))).1, arrives
     (by decide +kernel), taken_local (by decide +kernel) (by decide +kernel), by decide +kernel, by decide +kernel⟩,
   ⟨.e, ⟨3, true, 1, 0, 0, up.now - msT 300⟩, modLink up .e (fun l =>
     {l with claim := some ⟨3, true, 1, 0, 0, up.now - msT 300⟩}), by decide +kernel⟩,
   ⟨⟨3, true, 1, 0, 0, none⟩, { up with disc := { up.disc with choice := some ⟨3, true, 1, 0, 0, none⟩ } },
     by decide +kernel, by decide +kernel, fun _ h => by cases h⟩,
   ⟨.n, laneOf (encodeKnot .census false (headBy 9) (censusBytes ⟨1, 2, 64, 32, true, false, 3, 1, 2⟩)), encodeKnot .census
     false (headBy 9) (censusBytes ⟨1, 2, 64, 32, true, false, 3, 1, 2⟩), headBy 9, modLink up .n (fun l =>
     { l with locked := true, joined := some 3 }), (arrive .n (laneOf (encodeKnot .census false (headBy 9) (censusBytes ⟨1,
     2, 64, 32, true, false, 3, 1, 2⟩))) (modLink up .n (fun l => { l with locked := true, joined := some 3 }))).1, (arrive
     .n (laneOf (encodeKnot .census false (headBy 9) (censusBytes ⟨1, 2, 64, 32, true, false, 3, 1, 2⟩))) (modLink up .n
     (fun l => { l with locked := true, joined := some 3 }))).1, arrives (by decide +kernel), taken_local
     (by decide +kernel) (by decide +kernel)⟩,
   ⟨⟨3, true, 1, 0, 0, none⟩,
     { up with disc := { up.disc with choice := some ⟨3, true, 1, 0, 0, none⟩, censusDue := true } }, by decide +kernel,
     by decide +kernel, by decide +kernel, Or.inl rfl⟩,
   ⟨9, { up with disc := { up.disc with role := .acting } }, by decide +kernel⟩,
   ⟨.n, 3, modLink up .n (fun l => {l with joined := some 3, diffSince := some (up.now - secT 1)}), by decide +kernel⟩,
   ⟨.n, laneOf (encodeKnot .beat true (headBy 9) (beatBytes ⟨true, 2, 11, 100, 5, 6, 7, 0, false, 0, 0⟩)), encodeKnot .beat
     true (headBy 9) (beatBytes ⟨true, 2, 11, 100, 5, 6, 7, 0, false, 0, 0⟩), headBy 9, headOf (encodeKnot .beat true
     (headBy 9) (beatBytes ⟨true, 2, 11, 100, 5, 6, 7, 0, false, 0, 0⟩)), ⟨100, .n, 5⟩, modDisc (fun d =>
     { d with markSeen := some ⟨100, .n, 5⟩ }) (modLink up .n (fun l =>
     { l with locked := true, joined := some 3, delays := [1000], accepted := 16 })), (arrive .n (laneOf (encodeKnot .beat
     true (headBy 9) (beatBytes ⟨true, 2, 11, 100, 5, 6, 7, 0, false, 0, 0⟩))) (modDisc (fun d =>
     { d with markSeen := some ⟨100, .n, 5⟩ }) (modLink up .n (fun l =>
     { l with locked := true, joined := some 3, delays := [1000], accepted := 16 })))).1, noteSeen ((arrive .n (laneOf
     (encodeKnot .beat true (headBy 9) (beatBytes ⟨true, 2, 11, 100, 5, 6, 7, 0, false, 0, 0⟩))) (modDisc (fun d =>
     { d with markSeen := some ⟨100, .n, 5⟩ }) (modLink up .n (fun l =>
     { l with locked := true, joined := some 3, delays := [1000], accepted := 16 })))).1) (headBy 9) .beat, arrives
     (by decide +kernel), by decide +kernel, by decide +kernel, by decide +kernel, rfl, by decide +kernel, accepted_flood
     (by decide +kernel) (by decide +kernel) (by decide +kernel)⟩,
   ⟨.n, ⟨100, .n, 5⟩, encodeKnot .beat true (headBy 9) (beatBytes ⟨true, 2, 11, 100, 5, 6, 7, 0, false, 0, 0⟩), up,
     by decide +kernel⟩,
   ⟨.n, laneOf (encodeKnot .fault true (headBy 9) (faultBytes ⟨0x0102, 2, false, 0, 0, 3⟩)), encodeKnot .fault true (headBy
     9) (faultBytes ⟨0x0102, 2, false, 0, 0, 3⟩), headBy 9, modLink up .n (fun l =>
     { l with locked := true, joined := some 3 }), (arrive .n (laneOf (encodeKnot .fault true (headBy 9) (faultBytes
     ⟨0x0102, 2, false, 0, 0, 3⟩))) (modLink up .n (fun l => { l with locked := true, joined := some 3 }))).1, relayFlood
     (noteSeen ((arrive .n (laneOf (encodeKnot .fault true (headBy 9) (faultBytes ⟨0x0102, 2, false, 0, 0, 3⟩))) (modLink up
     .n (fun l => { l with locked := true, joined := some 3 }))).1) (headBy 9) .fault) .n .fault (encodeKnot .fault true
     (headBy 9) (faultBytes ⟨0x0102, 2, false, 0, 0, 3⟩)), arrives (by decide +kernel), taken_flood (by decide +kernel)
     (by decide +kernel) (by decide +kernel)⟩,
   ⟨⟨.fault, [1], .asIs⟩, [],
     { up with disc := { up.disc with faultHeld := [⟨.fault, [1], .asIs⟩], faultSent := List.replicate 3 up.now } },
     by decide +kernel⟩⟩

theorem test_LeadIsElected :
    (∃ (s : State), (mayClaim s = true) ∧ (s.disc.lead = none) ∧ (mayFlood s = true) ∧ (s.disc.lastLeadSent = none)) ∧
    (∃ (s : State), (svRuns s = true) ∧ (mayFlood s = true) ∧ (s.disc.role = .acting) ∧ (s.disc.resign = 0) ∧ ((∀ t : Ticks,
      s.disc.lastLeadSent = some t → t + msT 100 ≤ s.now))) ∧
    (∃ (t0 : Ticks) (s : State), (s.disc.role = .claiming t0) ∧ (svRuns s = true) ∧ (betterHeard s = false) ∧ (t0 + msT 300
      ≤ s.now)) ∧
    (∃ (t0 : Ticks) (s : State), (s.disc.role = .claiming t0) ∧ (s.now < t0 + msT 300)) ∧
    (∃ (d : Dir) (h : Head) (b : LeadBody) (s : State), (s.disc.role = .acting) ∧ (b.resign = false) ∧ (ranksBefore (b.cls,
      h.orig) (ownRank s) = true)) ∧
    (∃ (link : Dir) (run : BlockRun) (bytes : List Byte) (h : Head) (s : State) (r : State) (u : State), (arrive link run s
      = (r, some bytes)) ∧ (acceptFlood r link .lead bytes = .taken u h)) ∧
    (∃ (v : LeadView) (s : State), (s.disc.lead = some v) ∧ (s.disc.role = .idle) ∧ (v.heard + msT 500 ≤ s.now)) ∧
    (∃ (s : State), (svRuns s = true) ∧ (standalone s = false) ∧ (s.disc.role = .idle) ∧ (s.disc.lead = none) ∧ (passed
      s.now s.disc.firstJoin (secT 2) = true)) ∧
    (∃ (e : CensusEntry) (l : List CensusEntry) (s : State), (s.disc.role = .acting) ∧ (s.disc.results.settled = false) ∧
      (s.disc.table = e :: l) ∧ (s.disc.results.changedAt + msT 500 ≤ s.now)) :=
  ⟨⟨up, by decide +kernel⟩,
   ⟨{ up with disc := { up.disc with role := .acting } }, by decide +kernel, by decide +kernel, by decide +kernel,
     by decide +kernel, fun _ h => by cases h⟩,
   ⟨up.now - msT 300, {up with disc := {up.disc with role := .claiming (up.now - msT 300)}}, by decide +kernel⟩,
   ⟨up.now - msT 300 + 1, {up with disc := {up.disc with role := .claiming (up.now - msT 300 + 1)}}, by decide +kernel⟩,
   ⟨.n, headBy 0, readLead (leadKnot 0), { up with disc := { up.disc with role := .acting } }, by decide +kernel⟩,
   ⟨.n, laneOf (leadKnot 9), leadKnot 9, headBy 9, modLink up .n (fun l => { l with locked := true, joined := some 3 }),
     (arrive .n (laneOf (leadKnot 9)) (modLink up .n (fun l => { l with locked := true, joined := some 3 }))).1, noteSeen
     ((arrive .n (laneOf (leadKnot 9)) (modLink up .n (fun l => { l with locked := true, joined := some 3 }))).1) (headBy 9)
     .lead, arrives (by decide +kernel), accepted_flood (by decide +kernel) (by decide +kernel) (by decide +kernel)⟩,
   ⟨⟨9, 1, true, false, 1, 1, 64, 32, 0, 0, 60, 2, up.now - msT 500⟩,
     {up with disc := {up.disc with lead := some ⟨9, 1, true, false, 1, 1, 64, 32, 0, 0, 60, 2, up.now - msT 500⟩}},
     by decide +kernel⟩,
   ⟨{up with disc := {up.disc with firstJoin := some (up.now - secT 2)}}, by decide +kernel⟩,
   ⟨⟨9, 0, 0, 64, 32, false, 3, 1, 2, up.now, false⟩, [],
     {up with disc := {up.disc with role := .acting, table := [⟨9, 0, 0, 64, 32, false, 3, 1, 2, up.now, false⟩], results := {changedAt := up.now - msT 500}}},
     by decide +kernel⟩⟩

theorem test_KnotsReadBack :
    (∃ (h : Head) (b : PosBody), (h.wall < 256) ∧ (h.hops < 256) ∧ (b.hops < 65536) ∧ (-32768 ≤ b.row) ∧ (b.row < 32768) ∧
      (-32768 ≤ b.col) ∧ (b.col < 32768)) ∧
    (∃ (h : Head) (b : BeatBody), (h.wall < 256) ∧ (h.hops < 256) ∧ (b.servo < 8) ∧ (b.refresh < 256) ∧ (b.sec < 2 ^ 48) ∧
      (b.ns < 2 ^ 32) ∧ (b.frac < 65536) ∧ (-(2 ^ 63) ≤ b.delay) ∧ (b.delay < 2 ^ 63) ∧ (-(2 ^ 63) ≤ b.stepNs) ∧ (b.stepNs <
      2 ^ 63)) ∧
    (∃ (h : Head) (b : PrepareBody), (h.wall < 256) ∧ (h.hops < 256) ∧ (b.scene < 256) ∧ (b.table < 256) ∧ (b.ofs < 256)) ∧
    (∃ (h : Head) (b : CommitBody), (h.wall < 256) ∧ (h.hops < 256) ∧ (b.n < 256) ∧ (b.states.length = 9) ∧ ((∀ x ∈
      b.states, x.1 < 256 ∧ x.2 < 256))) ∧
    (∃ (h : Head) (b : BrightBody), (h.wall < 256) ∧ (h.hops < 256) ∧ (b.value < 2 ^ 32)) ∧
    (∃ (h : Head) (b : FaultBody), (h.wall < 256) ∧ (h.hops < 256) ∧ (b.code < 65536) ∧ (b.sev < 256) ∧ (b.row < 65536) ∧
      (b.col < 65536)) ∧
    (∃ (h : Head) (b : CensusBody), (h.wall < 256) ∧ (h.hops < 256) ∧ (-32768 ≤ b.row) ∧ (b.row < 32768) ∧ (-32768 ≤ b.col)
      ∧ (b.col < 32768) ∧ (b.tileW < 65536) ∧ (b.tileH < 65536) ∧ (b.ports < 256) ∧ (b.role < 256) ∧ (b.drv < 256)) ∧
    (∃ (src : Mac) (g : Guard), (g.hops < 65536) ∧ (g.wallId < 256) ∧ (g.seq < 65536)) :=
  ⟨⟨⟨255, 255, 9, 4⟩, ⟨3, true, 65535, 32767, -32768⟩, by decide +kernel⟩,
   ⟨⟨255, 255, 9, 4⟩, ⟨true, 7, 255, 9, 2 ^ 48 - 1, 2 ^ 32 - 1, 65535, -(2 ^ 63), true, 8, 2 ^ 63 - 1⟩, by decide +kernel⟩,
   ⟨⟨255, 255, 9, 4⟩, ⟨7, 255, 255, 255, 9⟩, by decide +kernel⟩,
   ⟨⟨255, 255, 9, 4⟩, ⟨7, 8, 255, List.replicate 9 (255, 255)⟩, by decide +kernel⟩,
   ⟨⟨255, 255, 9, 4⟩, ⟨true, false, 2 ^ 32 - 1, 9⟩, by decide +kernel⟩,
   ⟨⟨255, 255, 9, 4⟩, ⟨65535, 255, true, 65535, 65535, 9⟩, by decide +kernel⟩,
   ⟨⟨255, 255, 9, 4⟩, ⟨32767, -32768, 65535, 65535, true, false, 255, 255, 255⟩, by decide +kernel⟩,
   ⟨5, { lead := true, looped := false, flush := true, hops := 65535, wallId := 255, port := 3, serial := 7, seq := 65535 },
     by decide +kernel⟩⟩

theorem test_MemoryReadsBackWhatWasWritten :
    (∃ (l : List Host.Cell) (a : Nat) (x : Nat) (b : Byte), (Memory.wf l = true)) ∧
    (∃ (m : Master) (offset : Nat) (data : List Byte) (s : State), (runs s = true) ∧ (mayAccess s m = true) ∧ (memAnswers s
      m true offset = true) ∧ (data.length = 64) ∧ (MemoryCanonical s)) ∧
    (∃ (m : Master) (offset : Nat) (data : List Byte) (s : State), (runs s = true) ∧ (mayAccess s m = true) ∧ (memAnswers s
      m true offset = true) ∧ (offset % 64 + data.length ≤ 64) ∧ (lineBad s (lineOf offset) = none) ∧ (MemoryCanonical s)) ∧
    (∃ (m : Master) (offset : Nat) (s : State), (runs s = true) ∧ (mayAccess s m = true) ∧ (memAnswers s m false offset =
      true) ∧ (lineBad s (lineOf offset) = none)) :=
  ⟨⟨[⟨3, 5⟩], 3, 5, 0, by decide +kernel⟩,
   ⟨12, 64, List.replicate 64 7, up, by decide +kernel, by decide +kernel, by decide +kernel, by decide +kernel,
     by simp only [MemoryCanonical]; decide +kernel⟩,
   ⟨13, 62, [1, 2], up, by decide +kernel, by decide +kernel, by decide +kernel, by decide +kernel, by decide +kernel,
     by simp only [MemoryCanonical]; decide +kernel⟩,
   ⟨7, 2 ^ 32 - 64, up, by decide +kernel⟩⟩

theorem test_UntrustedLinesArePoisoned :
    (∃ (m : Master) (offset : Nat) (s : State), (runs s = true) ∧ (mayAccess s m = true) ∧ (memAnswers s m false offset =
      true) ∧ (lineBad s (lineOf offset) = some .poison)) ∧
    (∃ (m : Master) (offset : Nat) (s : State), (runs s = true) ∧ (mayAccess s m = true) ∧ (memAnswers s m false offset =
      true) ∧ (lineBad s (lineOf offset) = some .uncorrectable)) ∧
    (∃ (m : Master) (offset : Nat) (s : State), (runs s = true) ∧ (mayAccess s m = true) ∧ (memAnswers s m false offset =
      true) ∧ (lineBad s (lineOf offset) = some .oneSymbol)) ∧
    (∃ (m : Master) (offset : Nat) (data : List Byte) (s : State), (runs s = true) ∧ (mayAccess s m = true) ∧ (memAnswers s
      m true offset = true) ∧ (untrusted (lineBad s (lineOf offset)) = true) ∧ (MemoryCanonical s)) ∧
    (∃ (s : State), (runs s = true) ∧ (domOn s 6 = true) ∧ (s.mem.ready = true) ∧ (lineBad s (lineOf s.mem.scrubAt) = none)) ∧
    (∃ (s : State), (runs s = true) ∧ (domOn s 6 = true) ∧ (s.mem.ready = true) ∧ (lineBad s (lineOf s.mem.scrubAt) = none)
      ∧ (MemoryCanonical s)) :=
  ⟨⟨0, 64, { up with mem := { up.mem with bytes := [⟨64, 5⟩], bad := [(1, .poison)] } }, by decide +kernel⟩,
   ⟨0, 64, { up with mem := { up.mem with bytes := [⟨64, 5⟩], bad := [(1, .uncorrectable)] } }, by decide +kernel⟩,
   ⟨0, 64, { up with mem := { up.mem with bytes := [⟨64, 5⟩], bad := [(1, .oneSymbol)] } }, by decide +kernel⟩,
   ⟨12, 64, List.replicate 64 7, { up with mem := { up.mem with bytes := [⟨64, 5⟩], bad := [(1, .integrity)] } },
     by decide +kernel, by decide +kernel, by decide +kernel, by decide +kernel,
     by simp only [MemoryCanonical]; decide +kernel⟩,
   ⟨{ up with mem := { up.mem with scrubAt := 2 ^ 32 - 64 } }, by decide +kernel⟩,
   ⟨{up with mem := {up.mem with bytes := [⟨64, 5⟩], scrubAt := 64}}, by simp only [MemoryCanonical]; decide +kernel⟩⟩

theorem test_CrossbarAnswersOrHangs :
    (∃ (m : Master) (write : Bool) (address : Nat) (length : Nat) (s : State), (runs s = true) ∧ (mayAccess s m = true)) ∧
    (∃ (a : Nat) (len : Nat), (0 < len) ∧ (len ≤ 4096)) ∧
    (∃ (m : Master) (write : Bool) (pooled : Bool) (a : Nat) (len : Nat) (s : State), (mayIssue s m = some pooled) ∧
      (answers s (targetOf s m write a) = true) ∧ (targetBusy s (targetOf s m write a) = false)) ∧
    (∃ (m : Master) (write : Bool) (pooled : Bool) (a : Nat) (len : Nat) (s : State), (mayIssue s m = some pooled) ∧
      (targetOf s m write a = .unmapped)) ∧
    (∃ (m : Master) (p : Piece) (s : State), (oldestPiece s m = some p) ∧ (runs s = true) ∧ (p.issued + hangClocks ≤
      s.clk.count) ∧ (m.val = 16)) ∧
    (∃ (m : Master) (p : Piece) (s : State), (oldestPiece s m = some p) ∧ (runs s = true) ∧ (p.issued + hangClocks ≤
      s.clk.count) ∧ (m.val ≠ 16) ∧ (s.flt.hangs = [])) ∧
    (∃ (m : Master) (s : State), (m.val ≠ 23)) :=
  ⟨⟨3, true, 64, 4096, up, by decide +kernel⟩,
   ⟨7, 4096, by decide +kernel⟩,
   ⟨0, false, false, 0x1000000000, 64, up, by decide +kernel⟩,
   ⟨3, false, false, 0x60000000, 64, up, by decide +kernel⟩,
   ⟨16, ⟨16, 0, false, .unmapped, 0x60000000, 64, false, 0⟩,
     { up with clk := { up.clk with count := hangClocks }, xb := { up.xb with pend := [⟨16, 0, false, .unmapped, 0x60000000, 64, false, 0⟩] } },
     by decide +kernel⟩,
   ⟨3, ⟨3, 0, false, .unmapped, 0x60000000, 64, false, 0⟩,
     { up with clk := { up.clk with count := hangClocks }, xb := { up.xb with pend := [⟨3, 0, false, .unmapped, 0x60000000, 64, false, 0⟩] } },
     by decide +kernel⟩,
   ⟨22, up, by decide +kernel⟩⟩

theorem test_StepKeepsMemoryCanonical :
    ∃ (s : State) (t : State), (MemoryCanonical s) ∧ (step s = .next t) :=
  ⟨State.reset, _, (by decide +kernel : Memory.wf State.reset.mem.bytes = true), rfl⟩

theorem test_ScenesArePreparedAndAnswered :
    (∃ (s : State), (mayStart s = true)) ∧
    (∃ (s : State), (mayStart s = false)) ∧
    (∃ (c : Change) (s : State), (s.scene.change = some c) ∧ (runs s = true) ∧ (c.decided = none) ∧ (c.nextRepeat ≤ s.now)) ∧
    (∃ (link : Dir) (run : BlockRun) (bytes : List Byte) (h : Head) (s : State) (r : State) (u : State), (arrive link run s
      = (r, some bytes)) ∧ (receiveFlood r link .prepare bytes = .taken u h) ∧ (actingLead u = false) ∧ (fromLead u h =
      true)) ∧
    (∃ (h : Head) (b : PrepareBody) (s : State), (takesScenes s = true) ∧ (s.scene.prepared = none) ∧ (s.scene.committed =
      none)) ∧
    (∃ (p : Prepared) (s : State), (s.scene.prepared = some p) ∧ (runs s = true) ∧ (p.answered = false) ∧ (p.echo = false) ∧
      (p.commit = none) ∧ ((p.first + secT 1 ≤ s.now ∨ preparationEnds s p = true))) ∧
    (∃ (link : Dir) (run : BlockRun) (bytes : List Byte) (h : Head) (s : State) (r : State) (u : State), (arrive link run s
      = (r, some bytes)) ∧ (receiveLocal r link .ready bytes = .taken u h) ∧ (actingLead u = true)) ∧
    (∃ (o : Serial) (l : List (WState × Reason)) (c : Change) (s : State), (s.scene.change = some c) ∧ (c.decided = none)) :=
  ⟨⟨alone, by decide +kernel⟩,
   ⟨up, by decide +kernel⟩,
   ⟨{ident := 7, key := ⟨1, 2, 3⟩, p0 := 0, deadline := 9, awaited := [5], readies := [], nextRepeat := up.now},
     {up with scene := {up.scene with change := some {ident := 7, key := ⟨1, 2, 3⟩, p0 := 0, deadline := 9, awaited := [5], readies := [], nextRepeat := up.now}}},
     by decide +kernel⟩,
   ⟨.n, laneOf (encodeKnot .prepare true (headBy 9) (prepareBytes ⟨7, 15, 15, 15, 9⟩)), encodeKnot .prepare true (headBy 9)
     (prepareBytes ⟨7, 15, 15, 15, 9⟩), headBy 9, modDisc (fun d =>
     { d with lead := some ⟨9, 1, true, false, 1, 1, 64, 32, 0, 0, 60, 2, up.now⟩ }) (modLink up .n (fun l =>
     { l with locked := true, joined := some 3 })), (arrive .n (laneOf (encodeKnot .prepare true (headBy 9) (prepareBytes
     ⟨7, 15, 15, 15, 9⟩))) (modDisc (fun d =>
     { d with lead := some ⟨9, 1, true, false, 1, 1, 64, 32, 0, 0, 60, 2, up.now⟩ }) (modLink up .n (fun l =>
     { l with locked := true, joined := some 3 })))).1, relayFlood (noteSeen ((arrive .n (laneOf (encodeKnot .prepare true
     (headBy 9) (prepareBytes ⟨7, 15, 15, 15, 9⟩))) (modDisc (fun d =>
     { d with lead := some ⟨9, 1, true, false, 1, 1, 64, 32, 0, 0, 60, 2, up.now⟩ }) (modLink up .n (fun l =>
     { l with locked := true, joined := some 3 })))).1) (headBy 9) .prepare) .n .prepare (encodeKnot .prepare true (headBy
     9) (prepareBytes ⟨7, 15, 15, 15, 9⟩)), arrives (by decide +kernel), taken_flood (by decide +kernel) (by decide +kernel)
     (by decide +kernel), by decide +kernel, by decide +kernel⟩,
   ⟨headBy 9, ⟨7, 15, 15, 15, 9⟩, alone, by decide +kernel⟩,
   ⟨{ ident := 7, key := ⟨1, 2, 3⟩, lead := 9, deadline := 9, first := up.now - secT 1, own := [] },
     { up with scene := { up.scene with prepared := some { ident := 7, key := ⟨1, 2, 3⟩, lead := 9, deadline := 9, first := up.now - secT 1, own := [] } } },
     by decide +kernel, by decide +kernel, by decide +kernel, by decide +kernel, by decide +kernel, Or.inl
     (by decide +kernel)⟩,
   ⟨.n, laneOf (encodeKnot .ready false (headBy 9) (readyBytes ⟨7, 1, List.replicate 9 (0, 0)⟩)), encodeKnot .ready false
     (headBy 9) (readyBytes ⟨7, 1, List.replicate 9 (0, 0)⟩), headBy 9, modDisc (fun d => { d with role := .acting })
     (modLink up .n (fun l => { l with locked := true, joined := some 3 })), (arrive .n (laneOf (encodeKnot .ready false
     (headBy 9) (readyBytes ⟨7, 1, List.replicate 9 (0, 0)⟩))) (modDisc (fun d => { d with role := .acting }) (modLink up .n
     (fun l => { l with locked := true, joined := some 3 })))).1, (arrive .n (laneOf (encodeKnot .ready false (headBy 9)
     (readyBytes ⟨7, 1, List.replicate 9 (0, 0)⟩))) (modDisc (fun d => { d with role := .acting }) (modLink up .n (fun l =>
     { l with locked := true, joined := some 3 })))).1, arrives (by decide +kernel), taken_local (by decide +kernel)
     (by decide +kernel), by decide +kernel⟩,
   ⟨5, [], { ident := 7, key := ⟨1, 2, 3⟩, p0 := 0, deadline := 9, awaited := [5], readies := [], nextRepeat := up.now },
     { up with scene := { up.scene with change := some { ident := 7, key := ⟨1, 2, 3⟩, p0 := 0, deadline := 9, awaited := [5], readies := [], nextRepeat := up.now } } },
     by decide +kernel⟩⟩

theorem test_ScenesAreDecidedAndCommitted :
    (∃ (c : Change) (s : State), (s.scene.change = some c) ∧ (leads s = true) ∧ (decisionDue s c = true)) ∧
    (∃ (c : Change) (d : Ticks) (beat : BitVec 32) (n : Nat) (s : State), (s.scene.change = some c) ∧ (c.decided = some (d,
      beat, n)) ∧ (leads s = true) ∧ (n < 2) ∧ (d + msT (20 * (n + 1)) ≤ s.now)) ∧
    (∃ (link : Dir) (run : BlockRun) (bytes : List Byte) (h : Head) (s : State) (r : State) (u : State), (arrive link run s
      = (r, some bytes)) ∧ (receiveFlood r link .commit bytes = .taken u h) ∧ (actingLead u = false) ∧ (fromLead u h =
      true)) ∧
    (∃ (lead : Serial) (ident : BitVec 32) (beat : BitVec 32) (l : List (WState × Reason)) (c : Committed) (s : State),
      (s.scene.committed = some c) ∧ (c.ident = ident)) ∧
    (∃ (i : BitVec 32) (b : BitVec 32) (l : List (WState × Reason)) (s : State), (leads s = true) ∧ (s.scene.change = none)
      ∧ ((∀ t : Ticks, s.scene.echoAt = some t → t ≤ s.now)) ∧ (s.scene.latest = some (i, b, l))) ∧
    (∃ (p : Prepared) (s : State), (s.scene.prepared = some p) ∧ (runs s = true) ∧ (p.commit = none) ∧ (p.echo = false) ∧
      (beatPast p.deadline (beatNow s) = true)) ∧
    (∃ (k : Nat) (p : Prepared) (beat : BitVec 32) (l : List (WState × Reason)) (s : State), (s.scene.prepared = some p) ∧
      (p.commit = some (beat, l)) ∧ (p.echo = false)) ∧
    (∃ (p : Prepared) (beat : BitVec 32) (l : List (WState × Reason)) (s : State), (s.scene.prepared = some p) ∧ (p.commit =
      some (beat, l)) ∧ (runs s = true) ∧ (p.echo = true) ∧ (p.due = none) ∧ (preparationEnds s p = true)) ∧
    (∃ (k : Nat) (p : Prepared) (d : BitVec 32) (beat : BitVec 32) (l : List (WState × Reason)) (s : State),
      (s.scene.prepared = some p) ∧ (p.commit = some (beat, l)) ∧ (p.echo = true) ∧ (p.due = some d)) ∧
    (∃ (c : Committed) (s : State), (s.scene.committed = some c) ∧ (runs s = true) ∧ (passed s.now s.adm.diffSince (secT 2)
      = true) ∧ (sameStates (reportOf s) s.adm.lastReady = false)) ∧
    (∃ (w : Fin 9) (c : Committed) (x : Win) (n : Nat) (s : State), (s.scene.committed = some c) ∧ (runs s = true) ∧
      (s.scene.win[w.val]? = some x) ∧ (x.touches = true) ∧ (x.slot = some n) ∧ (x.noStream = false) ∧ (x.lastComplete =
      none) ∧ ((c.agreed.getD w.val (.served, .none)).1 ≠ .refused) ∧ (c.at_ + secT 1 ≤ s.now)) :=
  ⟨⟨{ident := 7, key := ⟨1, 2, 3⟩, p0 := up.now - msT 1500, deadline := 9, awaited := [5], readies := [], nextRepeat := up.now},
     {alone with scene := {alone.scene with change := some {ident := 7, key := ⟨1, 2, 3⟩, p0 := up.now - msT 1500, deadline := 9, awaited := [5], readies := [], nextRepeat := up.now}}},
     by decide +kernel⟩,
   ⟨{ident := 7, key := ⟨1, 2, 3⟩, p0 := 0, deadline := 9, awaited := [5], readies := [], nextRepeat := up.now, decided := some (up.now - msT 40, 300, 1)},
     up.now - msT 40, 300, 1,
     {alone with scene := {alone.scene with change := some {ident := 7, key := ⟨1, 2, 3⟩, p0 := 0, deadline := 9, awaited := [5], readies := [], nextRepeat := up.now, decided := some (up.now - msT 40, 300, 1)}}},
     by decide +kernel⟩,
   ⟨.n, laneOf (encodeKnot .commit true (headBy 9) (commitBytes ⟨7, 8, 9, List.replicate 9 (0, 0)⟩)), encodeKnot .commit
     true (headBy 9) (commitBytes ⟨7, 8, 9, List.replicate 9 (0, 0)⟩), headBy 9, modDisc (fun d =>
     { d with lead := some ⟨9, 1, true, false, 1, 1, 64, 32, 0, 0, 60, 2, up.now⟩ }) (modLink up .n (fun l =>
     { l with locked := true, joined := some 3 })), (arrive .n (laneOf (encodeKnot .commit true (headBy 9) (commitBytes ⟨7,
     8, 9, List.replicate 9 (0, 0)⟩))) (modDisc (fun d =>
     { d with lead := some ⟨9, 1, true, false, 1, 1, 64, 32, 0, 0, 60, 2, up.now⟩ }) (modLink up .n (fun l =>
     { l with locked := true, joined := some 3 })))).1, relayFlood (noteSeen ((arrive .n (laneOf (encodeKnot .commit true
     (headBy 9) (commitBytes ⟨7, 8, 9, List.replicate 9 (0, 0)⟩))) (modDisc (fun d =>
     { d with lead := some ⟨9, 1, true, false, 1, 1, 64, 32, 0, 0, 60, 2, up.now⟩ }) (modLink up .n (fun l =>
     { l with locked := true, joined := some 3 })))).1) (headBy 9) .commit) .n .commit (encodeKnot .commit true (headBy 9)
     (commitBytes ⟨7, 8, 9, List.replicate 9 (0, 0)⟩)), arrives (by decide +kernel), taken_flood (by decide +kernel)
     (by decide +kernel) (by decide +kernel), by decide +kernel, by decide +kernel⟩,
   ⟨9, 7, 8, [], ⟨7, ⟨1, 2, 3⟩, [], 9, up.now - secT 1⟩,
     { up with scene := { up.scene with committed := some ⟨7, ⟨1, 2, 3⟩, [], 9, up.now - secT 1⟩ } }, by decide +kernel⟩,
   ⟨7, 8, [], { alone with scene := { alone.scene with latest := some (7, 8, []) } }, by decide +kernel, by decide +kernel,
     (fun _ h => by cases h), by decide +kernel⟩,
   ⟨{ident := 7, key := ⟨1, 2, 3⟩, lead := 9, deadline := 9, first := up.now - secT 1, own := []},
     {up with time := {up.time with beat := some 10}, scene := {up.scene with prepared := some {ident := 7, key := ⟨1, 2, 3⟩, lead := 9, deadline := 9, first := up.now - secT 1, own := []}}},
     by decide +kernel⟩,
   ⟨5,
     { ident := 7, key := ⟨1, 2, 3⟩, lead := 9, deadline := 9, first := up.now - secT 1, own := [], commit := some (300, []) },
     300, [],
     { up with scene := { up.scene with prepared := some { ident := 7, key := ⟨1, 2, 3⟩, lead := 9, deadline := 9, first := up.now - secT 1, own := [], commit := some (300, []) } } },
     by decide +kernel⟩,
   ⟨{ ident := 7, key := ⟨1, 2, 3⟩, lead := 9, deadline := 9, first := up.now - secT 1, own := [], commit := some (300, []), echo := true },
     300, [],
     { alone with scene := { alone.scene with prepared := some { ident := 7, key := ⟨1, 2, 3⟩, lead := 9, deadline := 9, first := up.now - secT 1, own := [], commit := some (300, []), echo := true } } },
     by decide +kernel⟩,
   ⟨6,
     { ident := 7, key := ⟨1, 2, 3⟩, lead := 9, deadline := 9, first := up.now - secT 1, own := [], commit := some (300, []), echo := true, due := some 6 },
     6, 300, [],
     { up with scene := { up.scene with prepared := some { ident := 7, key := ⟨1, 2, 3⟩, lead := 9, deadline := 9, first := up.now - secT 1, own := [], commit := some (300, []), echo := true, due := some 6 } } },
     by decide +kernel⟩,
   ⟨⟨7, ⟨1, 2, 3⟩, [], 9, up.now - secT 1⟩,
     {up with scene := {up.scene with committed := some ⟨7, ⟨1, 2, 3⟩, [], 9, up.now - secT 1⟩}, adm := {up.adm with diffSince := some (up.now - secT 2), own := [(.served, .none)], lastReady := [(.refused, .memory)]}},
     by decide +kernel⟩,
   ⟨0, ⟨7, ⟨1, 2, 3⟩, [], 9, up.now - secT 1⟩, {touches := true, slot := some 3}, 3,
     {up with scene := {up.scene with committed := some ⟨7, ⟨1, 2, 3⟩, [], 9, up.now - secT 1⟩, win := [{touches := true, slot := some 3}]}},
     by decide +kernel⟩⟩

theorem test_BrightnessIsAgreed :
    (∃ (pa : Nat) (s : State), (runs s = true) ∧ (s.amb.sensor = true) ∧ (dueBy s.now s.amb.convertNext = true) ∧ (0 <
      s.amb.discard)) ∧
    (∃ (pa : Nat) (s : State), (runs s = true) ∧ (s.amb.sensor = true) ∧ (dueBy s.now s.amb.convertNext = true) ∧
      (s.amb.discard = 0)) ∧
    (∃ (s : State), (runs s = true) ∧ (dueBy s.now s.amb.reportNext = true)) ∧
    (∃ (s : State), (runs s = true) ∧ (s.mark.on = true) ∧ (dueBy s.now s.bri.nextCompute = true) ∧ (governs s = true)) ∧
    (∃ (link : Dir) (run : BlockRun) (bytes : List Byte) (h : Head) (s : State) (r : State) (u : State), (arrive link run s
      = (r, some bytes)) ∧ (byteAt bytes 20 = 1) ∧ (receiveFlood r link .bright bytes = .taken u h) ∧ (actingLead u = false)
      ∧ (standalone u = false) ∧ (fromLead u h = true)) ∧
    (∃ (link : Dir) (run : BlockRun) (bytes : List Byte) (h : Head) (s : State) (r : State) (u : State), (arrive link run s
      = (r, some bytes)) ∧ (byteAt bytes 20 ≠ 1) ∧ (receiveLocal r link .bright bytes = .taken u h) ∧ (actingLead u = true)) ∧
    (∃ (k : Nat) (v : Nat) (s : State), (s.bri.due = [(beatNo k, v)])) ∧
    (∃ (s : State), (runs s = true) ∧ (governs s = true) ∧ (s.time.beat.isSome = true) ∧ (nightQuiet s = true) ∧ (passed
      s.now s.standby.nightSince (secT 900) = true)) :=
  ⟨⟨90000, { up with amb := { sensor := true, discard := 1, convertNext := some up.now } }, by decide +kernel⟩,
   ⟨0, { up with amb := { sensor := true, last := List.replicate 10 3, convertNext := some up.now } }, by decide +kernel⟩,
   ⟨{ up with amb := { reportNext := some up.now } }, by decide +kernel⟩,
   ⟨{alone with mark := {on := true}, bri := {nextCompute := some up.now}}, by decide +kernel⟩,
   ⟨.n, laneOf (encodeKnot .bright true (headBy 9) (brightBytes ⟨true, false, 5, 9⟩)), encodeKnot .bright true (headBy 9)
     (brightBytes ⟨true, false, 5, 9⟩), headBy 9, modDisc (fun d =>
     { d with lead := some ⟨9, 1, true, false, 1, 1, 64, 32, 0, 0, 60, 2, up.now⟩ }) (modLink up .n (fun l =>
     { l with locked := true, joined := some 3 })), (arrive .n (laneOf (encodeKnot .bright true (headBy 9) (brightBytes
     ⟨true, false, 5, 9⟩))) (modDisc (fun d =>
     { d with lead := some ⟨9, 1, true, false, 1, 1, 64, 32, 0, 0, 60, 2, up.now⟩ }) (modLink up .n (fun l =>
     { l with locked := true, joined := some 3 })))).1, relayFlood (noteSeen ((arrive .n (laneOf (encodeKnot .bright true
     (headBy 9) (brightBytes ⟨true, false, 5, 9⟩))) (modDisc (fun d =>
     { d with lead := some ⟨9, 1, true, false, 1, 1, 64, 32, 0, 0, 60, 2, up.now⟩ }) (modLink up .n (fun l =>
     { l with locked := true, joined := some 3 })))).1) (headBy 9) .bright) .n .bright (encodeKnot .bright true (headBy 9)
     (brightBytes ⟨true, false, 5, 9⟩)), arrives (by decide +kernel), by decide +kernel, taken_flood (by decide +kernel)
     (by decide +kernel) (by decide +kernel), by decide +kernel, by decide +kernel, by decide +kernel⟩,
   ⟨.n, laneOf (encodeKnot .bright false (headBy 9) (brightBytes ⟨false, false, 5, 9⟩)), encodeKnot .bright false (headBy 9)
     (brightBytes ⟨false, false, 5, 9⟩), headBy 9, modDisc (fun d => { d with role := .acting }) (modLink up .n (fun l =>
     { l with locked := true, joined := some 3 })), (arrive .n (laneOf (encodeKnot .bright false (headBy 9) (brightBytes
     ⟨false, false, 5, 9⟩))) (modDisc (fun d => { d with role := .acting }) (modLink up .n (fun l =>
     { l with locked := true, joined := some 3 })))).1, (arrive .n (laneOf (encodeKnot .bright false (headBy 9) (brightBytes
     ⟨false, false, 5, 9⟩))) (modDisc (fun d => { d with role := .acting }) (modLink up .n (fun l =>
     { l with locked := true, joined := some 3 })))).1, arrives (by decide +kernel), by decide +kernel, taken_local
     (by decide +kernel) (by decide +kernel), by decide +kernel⟩,
   ⟨7, 9, {up with bri := {up.bri with due := [(7, 9)]}}, by decide +kernel⟩,
   ⟨{alone with bri := {own := 0}, standby := {nightSince := some (up.now - secT 900)}}, by decide +kernel⟩⟩

theorem test_OutputPinsFollowTheState :
    (∃ (p : OutPin) (s : State), (scanned s = true) ∧ (crystalPin p = false) ∧ ((outOnChain p = true ∨ outAcScan p = true))) ∧
    (∃ (p : OutPin) (s : State), (crystalPin p = false) ∧ (s.pwr.aonOn = false ∨ s.boot.inReset = true)) ∧
    (∃ (p : OutPin) (s : State), (crystalPin p = false) ∧ (s.pwr.aonOn = true) ∧ (s.standby.asleep = true) ∧ (standbyPin p =
      false)) ∧
    (∃ (g : Fin 8) (s : State), (pinsTaken s = true) ∧ (bankUsable s .weft = true) ∧ (aonHoldsPins s = false) ∧ (safeState s
      = true) ∧ ((domOn s (groupDom g.val) = true ∨ restartSafe s = true)) ∧ ((s.weft.group.getD g.val {}).hiZ = false)) ∧
    (∃ (p : OutPin) (s : State), (scanned s = false) ∧ (weftPin p = true) ∧ (aonHoldsPins s = true)) ∧
    (∃ (p : Fin 64) (s : State), (scanned s = false) ∧ (portHiZ s p.val = true)) ∧
    (∃ (g : Fin 8) (s : State), (pinsTaken s = true) ∧ (bankUsable s .weft = true) ∧ (s.clk.running = true) ∧ (domOn s
      (groupDom g.val) = true) ∧ (s.live.blanked = true) ∧ ((s.weft.group.getD g.val {}).hiZ = false)) ∧
    (∃ (g : Fin 8) (r : Nat) (j : Nat) (q : Ticks) (x : Nat) (t : WTiming) (s : State), (pinsTaken s = true) ∧ (bankUsable s
      .weft = true) ∧ (s.clk.running = true) ∧ (domOn s (groupDom g.val) = true) ∧ (groupCensus s g.val = false) ∧
      (groupBlanked s g.val = false) ∧ (rowsOff s = false) ∧ ((s.weft.group.getD g.val {}).hiZ = false) ∧ (s.weft.pick =
      some (r, j, q)) ∧ (s.weft.timing = some t) ∧ (1 ≤ t.g) ∧ (q + nsT (500 * t.g) ≤ s.now) ∧ (s.weft.activeAt = some x)) ∧
    (∃ (a : Active) (s : State), (scanned s = false) ∧ (s.pwr.aonOn = true) ∧ (s.boot.inReset = false) ∧ (bankUsable s .misc
      = true) ∧ (a ∈ s.flt.active) ∧ (2 ≤ (sevOf a.f).val)) ∧
    (∃ (s : State), (s.pwr.aonOn = true) ∧ (s.boot.inReset = false) ∧ (s.boot.shadowRead = true) ∧ (bankUsable s .misc =
      true) ∧ (s.standby.asleep = true)) ∧
    (∃ (s : State), (pinsTaken s = true) ∧ (s.boot.shadowRead = true) ∧ (bankUsable s .misc = true) ∧ (safeState s = true)) :=
  ⟨⟨.svTx .e, { up with pins := { boundaryScan := true } }, by decide +kernel⟩,
   ⟨.tdo, State.reset, by decide +kernel⟩,
   ⟨.cardVccEn, asleep, by decide +kernel⟩,
   ⟨7, { up with flt := { safeHold := true }, pwr := { up.pwr with dom := List.replicate 12 {} } }, by decide +kernel⟩,
   ⟨.wgRowenN 2, { up with clk := {}, flt := { safe := true, holdoff := some ⟨.clkXtal, none, false⟩ } }, by decide +kernel⟩,
   ⟨63, { up with weft := { up.weft with port := up.weft.port.set 63 { hiZ := true } } }, by decide +kernel⟩,
   ⟨4, {up with live := {up.live with blanked := true}}, by decide +kernel⟩,
   ⟨3, 0, 7, up.now - nsT 500, 9, ⟨64, 1, 12, 8, 4⟩,
     { up with weft := { up.weft with pick := some (0, 7, up.now - nsT 500), timing := some ⟨64, 1, 12, 8, 4⟩, activeAt := some 9 } },
     by decide +kernel⟩,
   ⟨⟨.pwrDomain, 0, 0, 0⟩, { up with flt := { active := [⟨.pwrDomain, 0, 0, 0⟩] } }, by decide +kernel⟩,
   ⟨{ asleep with pwr := { asleep.pwr with bankM := { level := .v18 } } }, by decide +kernel⟩,
   ⟨{up with flt := {safe := true}}, by decide +kernel⟩⟩

theorem test_WeftPortsAreGuarded :
    (∃ (l : List CensusPort) (s : State), (censusReady s = true)) ∧
    (∃ (l : List CensusPort) (s : State), (censusReady s = false)) ∧
    (∃ (pin : WeftPin) (edges : List Nat) (others : List PinEdges) (s : State), (pinDriven s pin = true) ∧ (trips edges =
      true)) ∧
    (∃ (pin : WeftPin) (edges : List Nat) (others : List PinEdges) (s : State), (pinDriven s pin = true) ∧ (trips edges =
      false)) ∧
    (∃ (port : Fin 64) (echo : List EchoWord) (w : WPort) (s : State), (runs s = true) ∧ (s.weft.port[port.val]? = some w) ∧
      (w.inCanvas = true) ∧ (w.sdo = none) ∧ (portLive s port.val = true)) ∧
    (∃ (e : EchoWord) (n : Nat), (n < 16)) ∧
    (∃ (pin : WeftPin) (at_ : Ticks) (pass : Bool) (s : State), (runs s = true) ∧ (bankUsable s .weft = true) ∧ ((pinDom
      pin).all (domOn s) = true) ∧ (pinTripped s pin = some (.short, at_))) ∧
    (∃ (s : State), (runs s = true) ∧ (s.boot.censusDone = true) ∧ (dueBy s.now s.weft.wearNext = true)) ∧
    (∃ (s : State), (runs s = true) ∧ (s.boot.censusDone = true) ∧ (dueBy s.now s.weft.flushNext = true)) :=
  ⟨⟨List.replicate 64 ⟨0, 0, [], [], []⟩, { up with boot := { up.boot with censusDone := false } }, by decide +kernel⟩,
   ⟨List.replicate 64 ⟨0, 0, [], [], []⟩, up, by decide +kernel⟩,
   ⟨.group 7, (List.range 16).map (1023 + ·), [⟨.port 3, [1024]⟩], up, by decide +kernel⟩,
   ⟨.port 63, (List.range 15).map (1023 + ·) ++ [2047], [], up, by decide +kernel⟩,
   ⟨0, [⟨[0x8001], [0x8003]⟩], { inCanvas := true }, { up with weft := { up.weft with port := [{ inCanvas := true }] } },
     by decide +kernel⟩,
   ⟨⟨[1], [3]⟩, 15, by decide +kernel⟩,
   ⟨.port 0, up.now - secT 60, true,
     { up with weft := { up.weft with port := [{ trip := some (.short, up.now - secT 60) }] } }, by decide +kernel⟩,
   ⟨{up with weft := {up.weft with wearNext := some up.now}}, by decide +kernel⟩,
   ⟨{up with weft := {up.weft with flushNext := some up.now}}, by decide +kernel⟩⟩

theorem test_LedgerProgramsCompleteOrStop :
    (∃ (op : LedgerOp) (s : State), (s.ldg.busy = some op) ∧ (bankUsable s .misc = true) ∧ (op ≠ .retag)) ∧
    (∃ (op : LedgerOp) (s : State), (s.ldg.busy = some op) ∧ (bankUsable s .misc = true) ∧ (s.ldg.fails = [])) ∧
    (∃ (op : LedgerOp) (n : Nat) (s : State), (s.ldg.busy = some op) ∧ (bankUsable s .misc = true) ∧ (s.ldg.fails = [(op,
      n)]) ∧ (s.keys.seq = none)) ∧
    (∃ (e : RingEntry) (s : State), (s.flt.ring = [e]) ∧ (e.mirrored = false) ∧ (s.ldg.mirroring = 1) ∧ (s.ldg.log.length <
      16384)) ∧
    (∃ (s : State), (s.ldg.log.length ≤ 16384)) ∧
    (∃ (c : WearCopy) (s : State), (s.ldg.copy = some c) ∧ (0 < s.ldg.copyCount)) :=
  ⟨⟨.wear, { up with ldg := { up.ldg with busy := some .wear } }, by decide +kernel⟩,
   ⟨.wear, { up with ldg := { up.ldg with busy := some .wear } }, by decide +kernel⟩,
   ⟨.wear, 2, { up with ldg := { up.ldg with busy := some .wear, fails := [(.wear, 2)] } }, by decide +kernel⟩,
   ⟨anEntry .pwrDomain, {up with flt := {ring := [anEntry .pwrDomain]}, ldg := {mirroring := 1}}, by decide +kernel⟩,
   ⟨up, by decide +kernel⟩,
   ⟨⟨1, 2, 3, [], 0, []⟩, { up with ldg := { up.ldg with copy := some ⟨1, 2, 3, [], 0, []⟩, copyCount := 1 } },
     by decide +kernel⟩⟩

theorem test_MarkersAreSetAndGuarded :
    (∃ (meas : List MarkMeas) (vled : Nat) (s : State), (runs s = true) ∧ (domOn s 11 = true) ∧ (s.time.running = true) ∧
      (markDue s = true) ∧ (s.mark.on = false)) ∧
    (∃ (meas : List MarkMeas) (vled : Nat) (s : State), (markDue s = false)) ∧
    (∃ (meas : List MarkMeas) (vled : Nat) (s : State), (runs s = true) ∧ (domOn s 11 = true) ∧ (s.time.running = true) ∧
      (markDue s = true)) ∧
    (∃ (ch : Nat) (s : State), (ch < s.mark.chan.length)) ∧
    (∃ (t : Nat) (nn : Nat) (s : State), (groupOfChan s nn = none ∨ marksDark s = true ∨ (chanAt s nn).dead = true ∨ (chanAt
      s nn).latched = true)) ∧
    (∃ (vled : Nat) (t0 : Ticks) (s : State), (runs s = true) ∧ (domOn s 11 = true) ∧ (mkGroups s ≠ 0) ∧ (s.mark.vledOut =
      false) ∧ ((vled < 2800 ∨ 17500 < vled)) ∧ (s.mark.vledBadSince = some t0) ∧ (t0 + msT 10 ≤ s.now)) ∧
    (∃ (vled : Nat) (t0 : Ticks) (s : State), (runs s = true) ∧ (domOn s 11 = true) ∧ (s.mark.vledOut = true) ∧ (3000 ≤
      vled) ∧ (vled ≤ 17000) ∧ (s.mark.vledGoodSince = some t0) ∧ (t0 + msT 100 ≤ s.now)) ∧
    (∃ (ch : Fin 48) (first : MarkMeas) (second : MarkMeas) (vled : Nat) (g : Nat) (s : State), (groupOfChan s ch.val = some
      g) ∧ (marksRun s = true) ∧ (regulated s g = true) ∧ (((chanAt s ch.val).openF = true ∨ (chanAt s ch.val).shortF =
      true)) ∧ ((chanAt s ch.val).latched = false) ∧ (dueBy s.now (chanAt s ch.val).nextRetest = true) ∧ ((checkPasses
      (modChan ch.val (fun x => {x with retestMs := some (wallNs s / 1000000)}) s) g ch.val vled first = false ∨ checkPasses
      (modChan ch.val (fun x => {x with retestMs := some (wallNs s / 1000000)}) s) g ch.val vled second = false))) ∧
    (∃ (ch : Fin 48) (first : MarkMeas) (second : MarkMeas) (vled : Nat) (g : Nat) (s : State), (groupOfChan s ch.val = some
      g) ∧ (marksRun s = true) ∧ (regulated s g = true) ∧ (((chanAt s ch.val).openF = true ∨ (chanAt s ch.val).shortF =
      true)) ∧ ((chanAt s ch.val).latched = false) ∧ (dueBy s.now (chanAt s ch.val).nextRetest = true) ∧ (checkPasses
      (modChan ch.val (fun x => {x with retestMs := some (wallNs s / 1000000)}) s) g ch.val vled first = true) ∧
      (checkPasses (modChan ch.val (fun x => {x with retestMs := some (wallNs s / 1000000)}) s) g ch.val vled second = true)
      ∧ (ch.val < s.mark.chan.length)) ∧
    (∃ (ch : Fin 48) (meas : List MarkMeas) (vled : Nat) (g : Nat) (s : State), (groupOfChan s ch.val = some g) ∧ (marksRun
      s = true) ∧ ((chanAt s ch.val).latched = true) ∧ ((chanAt s ch.val).dead = false) ∧ (dueBy s.now (chanAt s
      ch.val).nextRetry = true) ∧ (meas.any (supplyCond vled) = true) ∧ (ch.val < s.mark.chan.length)) ∧
    (∃ (ch : Fin 48) (meas : List MarkMeas) (vled : Nat) (g : Nat) (s : State), (groupOfChan s ch.val = some g) ∧ (marksRun
      s = true) ∧ ((chanAt s ch.val).latched = true) ∧ ((chanAt s ch.val).dead = false) ∧ (dueBy s.now (chanAt s
      ch.val).nextRetry = true) ∧ (meas.any (supplyCond vled) = false)) ∧
    (∃ (ch : Fin 48) (s : State), (runs s = true) ∧ ((chanAt s ch.val).dead = false) ∧ (passed s.now (chanAt s
      ch.val).lastSupply (secT 600) = true)) ∧
    (∃ (c : Fin 48) (p : Nat) (t0 : Ticks) (s : State), (runs s = true) ∧ (domOn s 11 = true) ∧ (c.val < s.mark.chan.length)
      ∧ ((chanAt s c.val).halved = false) ∧ (500000 < p) ∧ ((chanAt s c.val).overSince = some t0) ∧ (t0 + msT 100 ≤ s.now)) ∧
    (∃ (c : Fin 48) (p : Nat) (s : State), (runs s = true) ∧ (domOn s 11 = true) ∧ (c.val < s.mark.chan.length) ∧ ((chanAt s
      c.val).halved = false) ∧ (p ≤ 500000)) ∧
    (∃ (p : Nat) (s : State), (runs s = true) ∧ (domOn s 11 = true)) :=
  ⟨⟨List.replicate 48 goodMeas, 5000, up, by decide +kernel⟩,
   ⟨List.replicate 48 goodMeas, 5000, { up with mark := { up.mark with nextMs := some (wallNs up / 1000000 + 1) } },
     by decide +kernel⟩,
   ⟨List.replicate 48 goodMeas, 5000, lit, by decide +kernel⟩,
   ⟨47, lit, by decide +kernel⟩,
   ⟨7, 0, chan0 (fun c => { c with dead := true }), by decide +kernel⟩,
   ⟨17501, up.now - msT 10, { lit with mark := { lit.mark with vledBadSince := some (up.now - msT 10) } },
     by decide +kernel⟩,
   ⟨3000, up.now - msT 100,
     { lit with mark := { lit.mark with vledOut := true, vledGoodSince := some (up.now - msT 100) } }, by decide +kernel⟩,
   ⟨0, goodMeas, ⟨0, 0⟩, 5000, 0, chan0 (fun c => { c with shortF := true, nextRetest := some up.now }), by decide +kernel,
     by decide +kernel, by decide +kernel, Or.inr (by decide +kernel), by decide +kernel, by decide +kernel, Or.inr
     (by decide +kernel)⟩,
   ⟨0, goodMeas, goodMeas, 5000, 0, chan0 (fun c => { c with openF := true, nextRetest := some up.now }), by decide +kernel,
     by decide +kernel, by decide +kernel, Or.inl (by decide +kernel), by decide +kernel, by decide +kernel,
     by decide +kernel, by decide +kernel, by decide +kernel⟩,
   ⟨0, [⟨4400, 0⟩], 5000, 0, chan0 (fun c => {c with latched := true, nextRetry := some up.now, retries := 6}),
     by decide +kernel⟩,
   ⟨0, [⟨4399, 0⟩], 5000, 0, chan0 (fun c => {c with latched := true, nextRetry := some up.now}), by decide +kernel⟩,
   ⟨0, chan0 (fun c => {c with lastSupply := some (up.now - secT 600)}), by decide +kernel⟩,
   ⟨0, 500001, up.now - msT 100, chan0 (fun c => {c with overSince := some (up.now - msT 100)}), by decide +kernel⟩,
   ⟨0, 500000, lit, by decide +kernel⟩,
   ⟨500001, chan0 (fun c => { c with overSince := some (up.now - msT 100) }), by decide +kernel⟩⟩

theorem test_AudioFollowsItsSources :
    (∃ (flow : Fin 4) (f : AFlow) (x : Sender) (s : State), (s.aud.flows[flow.val]? = some f) ∧ (f.sender = some x) ∧
      (x.heard + msT 100 ≤ s.now)) ∧
    (∃ (flow : Fin 4) (pair : Fin 8) (f : AFlow) (j : Int) (t : Int) (s : State), (s.aud.flows[flow.val]? = some f) ∧
      (lastPreamble f pair.val = some j) ∧ (f.top = some t) ∧ (pair.val ∈ f.nonAudio) ∧ (j + 8192 ≤ t)) ∧
    (∃ (s : State), (tdmRuns s = true) ∧ (audioRuns s = true) ∧ (s.time.running = true) ∧ (edgeTime (playDue s) (fetchIndex
      (playDue s)) - fetchLead ≤ counterOf (playDue s))) ∧
    (∃ (s : State), (s.time.stepped = false) ∧ (s.aud.pipe = [])) ∧
    (∃ (channel : Fin 32) (s : State), (tdmRuns s = true)) ∧
    (∃ (now : Ticks) (t : Ticks) (q : Nat) (j : Nat) (v : Int) (o : AOut), (o.pendLevel = some (q, t, [])) ∧ (t ≤ now)) ∧
    (∃ (flow : Fin 4) (f : AFlow) (s : State), (s.aud.flows[flow.val]? = some f) ∧ (runs s = true) ∧ (f.noSource = false) ∧
      (lacksSource s f = true)) ∧
    (∃ (w : Nat) (v : Int), (0 < w)) :=
  ⟨⟨0, {slot := 3, sender := some ⟨9, 5, up.now - msT 100⟩}, ⟨9, 5, up.now - msT 100⟩,
     {up with aud := {up.aud with flows := [{slot := 3, sender := some ⟨9, 5, up.now - msT 100⟩}]}}, by decide +kernel⟩,
   ⟨0, 7, {slot := 3, nonAudio := [7], sincePre := [(7, 5)], top := some 8197}, 5, 8197,
     {up with aud := {up.aud with flows := [{slot := 3, nonAudio := [7], sincePre := [(7, 5)], top := some 8197}]}},
     by decide +kernel⟩,
   ⟨{ tdmOn with aud := { tdmOn.aud with m := some 480000000 } }, by decide +kernel⟩,
   ⟨up, by decide +kernel⟩,
   ⟨31, tdmOn, by decide +kernel⟩,
   ⟨7, 7, 3, 0, 5, { pendLevel := some (3, 7, []) }, by decide +kernel⟩,
   ⟨0, {slot := 3, selectedAt := up.now - secT 10},
     {up with aud := {up.aud with flows := [{slot := 3, selectedAt := up.now - secT 10}]}}, by decide +kernel⟩,
   ⟨1, -5, by decide +kernel⟩⟩

theorem test_CardIsActivatedOnce :
    (∃ (s : State), (cardRuns s = true) ∧ (s.card.stage = .absent)) ∧
    (∃ (levels : List Bool) (s : State), (cardRuns s = true) ∧ (s.card.stage = .awaitTs) ∧ (s.card.activated + usT 2350 +
      levels.length * cardClock ≤ s.now)) ∧
    (∃ (s : State), (cardRuns s = true) ∧ (s.card.stage = .awaitTs) ∧ (s.card.activated + usT 12250 ≤ s.now)) ∧
    (∃ (s : State), (cardRuns s = true) ∧ (s.card.stage = .ready)) ∧
    (∃ (detail : BitVec 32) (s : State), (s.keys.seq = none) ∧ (s.card.failed = false)) ∧
    (∃ (s : State), (cardRuns s = true) ∧ (s.card.stage = .ended) ∧ (dueBy s.now s.card.retryAt = true)) ∧
    (∃ (chars : List (BitVec 9)) (bytes : List Byte) (errors : Nat) (a : Atr) (s : State), (cardRuns s = true) ∧
      (s.card.stage = .awaitAtr) ∧ (takeChars s.card.direct 0 chars = some (bytes, errors)) ∧ (parseAtr bytes = some a) ∧
      (a.proto = some 1)) ∧
    (∃ (chars : List (BitVec 9)) (bytes : List Byte) (errors : Nat) (a : Atr) (s : State), (cardRuns s = true) ∧
      (s.card.stage = .awaitAtr) ∧ (takeChars s.card.direct 0 chars = some (bytes, errors)) ∧ (parseAtr bytes = some a) ∧
      (a.proto = none) ∧ (a.tc1 = none) ∧ (a.tc2 = none)) ∧
    (∃ (t : Byte) (p : Nat × Nat) (chars : List (BitVec 9)) (bytes : List Byte) (errors : Nat) (s : State), (s.card.stage =
      .awaitPps t) ∧ (cardRuns s = true) ∧ (takeChars s.card.direct 0 chars = some (bytes, errors))) ∧
    (∃ (s : State), (cardBusy s = true) ∧ (s.keys.seq = none)) ∧
    (∃ (s : State), (cardBusy s = false)) ∧
    (∃ (s : State), (cardBusy s = true) ∧ (s.card.activated + secT 60 ≤ s.now)) ∧
    (∃ (e : Entry) (s : State), (s.standby.entry = some e) ∧ (e.stage = .waiting) ∧ (cardBusy s = true) ∧ (passed s.now
      e.waitSince (secT 10) = true)) :=
  ⟨⟨up, by decide +kernel⟩,
   ⟨List.replicate 3720 true,
     { up with card := { up.card with stage := .awaitTs, activated := up.now - usT 2350 - 3720 * cardClock } },
     by decide +kernel⟩,
   ⟨{up with card := {up.card with stage := .awaitTs, activated := up.now - usT 12250}}, by decide +kernel⟩,
   ⟨{up with card := {up.card with stage := .ready}}, by decide +kernel⟩,
   ⟨3, { up with card := { up.card with stage := .ready } }, by decide +kernel⟩,
   ⟨{up with card := {up.card with stage := .ended, retryAt := some up.now}}, by decide +kernel⟩,
   ⟨cardChars [0x80, 0x01], [0x80, 0x01], 0, ⟨none, none, some 1, none, none⟩,
     { up with card := { up.card with stage := .awaitAtr } }, by decide +kernel⟩,
   ⟨[cardChar 0 ^^^ 1, cardChar 0], [0x00], 1, ⟨none, none, none, none, none⟩,
     { up with card := { up.card with stage := .awaitAtr } }, by decide +kernel⟩,
   ⟨0x11, (372, 1), cardChars (ppsRequest 0x11), ppsRequest 0x11, 0,
     { up with card := { up.card with stage := .awaitPps 0x11 } }, by decide +kernel⟩,
   ⟨{up with card := {up.card with stage := .ready}}, by decide +kernel⟩,
   ⟨{up with card := {up.card with stage := .ended}}, by decide +kernel⟩,
   ⟨{up with card := {up.card with stage := .ready, activated := up.now - secT 60}}, by decide +kernel⟩,
   ⟨{source := .pin, due := .nextBeat, waitSince := some (up.now - secT 10)},
     {up with card := {stage := .ready}, standby := {entry := some {source := .pin, due := .nextBeat, waitSince := some (up.now - secT 10)}}},
     by decide +kernel⟩⟩

theorem test_DialogueFollowsItsSteps :
    (∃ (chars : List (BitVec 9)) (bytes : List Byte) (errors : Nat) (sw : BitVec 16) (s : State), (atStep 1 s = true) ∧
      (takeChars s.card.direct 0 chars = some (bytes, errors)) ∧ ((t0Run cmdSelect cardAid 0 bytes).sw = some sw) ∧ (sw =
      0x9000)) ∧
    (∃ (chars : List (BitVec 9)) (bytes : List Byte) (errors : Nat) (sw : BitVec 16) (s : State), (atStep 1 s = true) ∧
      (takeChars s.card.direct 0 chars = some (bytes, errors)) ∧ ((t0Run cmdSelect cardAid 0 bytes).sw = some sw) ∧ (sw ≠
      0x9000) ∧ (s.keys.seq = none)) ∧
    (∃ (chars : List (BitVec 9)) (bytes : List Byte) (errors : Nat) (sw : BitVec 16) (s : State), (atStep 2 s = true) ∧
      (takeChars s.card.direct 0 chars = some (bytes, errors)) ∧ ((t0Run cmdCertificate (deviceCertificate s.otp.shadow) 0
      bytes).sw = some sw) ∧ (sw = 0x9000)) ∧
    (∃ (chars : List (BitVec 9)) (bytes : List Byte) (errors : Nat) (sw : BitVec 16) (s : State), (atStep 3 s = true) ∧
      (takeChars s.card.direct 0 chars = some (bytes, errors)) ∧ ((t0Run cmdState (helloState (drawNonce s)) 0 bytes).sw =
      some sw) ∧ (sw = 0x6194)) ∧
    (∃ (chars : List (BitVec 9)) (bytes : List Byte) (errors : Nat) (sw : BitVec 16) (s : State), (atStep 4 s = true) ∧
      (takeChars s.card.direct 0 chars = some (bytes, errors)) ∧ ((t0Run cmdResponse [] 148 bytes).sw = some sw) ∧ (sw =
      0x9000) ∧ ((t0Run cmdResponse [] 148 bytes).got.length = 148)) ∧
    (∃ (chars : List (BitVec 9)) (bytes : List Byte) (errors : Nat) (r : CardReply) (s : State), (atStep 5 s = true) ∧
      (s.dlg.reply = some r) ∧ (takeChars s.card.direct 0 chars = some (bytes, errors)) ∧ ((t0Run cmdOrder [] 201 bytes).sw
      = some 0x9000) ∧ ((t0Run cmdOrder [] 201 bytes).got.length = 201)) ∧
    (∃ (o : CardOrder) (r : CardReply) (n : Nat) (s : State), (refusal s r o = some n)) ∧
    (∃ (o : CardOrder) (r : CardReply) (s : State), (s.live.arm.level = true) ∧ (o.action ≠ 2)) ∧
    (∃ (o : CardOrder) (r : CardReply) (s : State), (s.keys.debug = true)) ∧
    (∃ (chars : List (BitVec 9)) (bytes : List Byte) (errors : Nat) (sw : BitVec 16) (n : Nat) (r : CardReply) (s : State),
      (s.dlg.outcome = some n) ∧ (s.dlg.reply = some r) ∧ (atStep 6 s = true) ∧ (s.keys.seq = none) ∧ (takeChars
      s.card.direct 0 chars = some (bytes, errors)) ∧ ((t0Run cmdResult (signReceipt (drawBytes s 32).2 (receiptBody
      (drawBytes s 32).2 n r.nC) (drawBytes s 32).1) 0 bytes).sw = some sw)) ∧
    (∃ (chars : List (BitVec 9)) (s : State), (takeChars s.card.direct 0 chars = none)) ∧
    (∃ (ir : TapIr) (s : State), (s.pwr.aonOn = true) ∧ (s.boot.inReset = false) ∧ (s.standby.asleep = false) ∧
      (tapForbidden ir s = true)) ∧
    (∃ (ir : TapIr) (s : State), (s.pwr.aonOn = true) ∧ (s.boot.inReset = false) ∧ (s.standby.asleep = false) ∧ (debugIr ir
      = false)) ∧
    (∃ (ir : TapIr) (s : State), (s.pwr.aonOn = true) ∧ (s.boot.inReset = false) ∧ (s.standby.asleep = false) ∧ (debugIr ir
      = true) ∧ (tapForbidden ir s = false) ∧ (s.keys.debug = false)) ∧
    (∃ (ir : TapIr) (s : State), (s.pwr.aonOn = true) ∧ (s.boot.inReset = false) ∧ (s.standby.asleep = false)) ∧
    (∃ (s : State), (runs s = true) ∧ (s.mem.initUntil.isSome = true)) :=
  ⟨⟨cardChars ([0xA4, 0x90, 0x00]), [0xA4, 0x90, 0x00], 0, 0x9000,
     { up with card := { stage := .ready }, dlg := { step := 0 } }, by decide +kernel, by decide +kernel, by decide +kernel,
     rfl⟩,
   ⟨cardChars ([0x6A, 0x82]), [0x6A, 0x82], 0, 0x6A82, { up with card := { stage := .ready }, dlg := { step := 0 } },
     by decide +kernel, by decide +kernel, by decide +kernel, by decide +kernel, by decide +kernel⟩,
   ⟨cardChars ([0x10, 0x90, 0x00]), [0x10, 0x90, 0x00], 0, 0x9000,
     { up with card := { stage := .ready }, dlg := { step := 1 } }, by decide +kernel, by decide +kernel, rfl, rfl⟩,
   ⟨cardChars ([0x10, 0x61, 0x94]), [0x10, 0x61, 0x94], 0, 0x6194,
     { up with card := { stage := .ready }, dlg := { step := 2 } }, by decide +kernel, by decide +kernel, rfl, rfl⟩,
   ⟨cardChars ([0xC0] ++ List.replicate 148 1 ++ [0x90, 0x00]), [0xC0] ++ List.replicate 148 1 ++ [0x90, 0x00], 0, 0x9000,
     { up with card := { stage := .ready }, dlg := { step := 3 } }, by decide +kernel, by decide +kernel, by decide +kernel,
     by decide +kernel, by decide +kernel⟩,
   ⟨cardChars ([0x12] ++ List.replicate 201 1 ++ [0x90, 0x00]), [0x12] ++ List.replicate 201 1 ++ [0x90, 0x00], 0, ⟨1, 0,
     [], [], []⟩, { up with card := { stage := .ready }, dlg := { step := 4, reply := some ⟨1, 0, [], [], []⟩ } },
     by decide +kernel, by decide +kernel, by decide +kernel, by decide +kernel, by decide +kernel⟩,
   ⟨⟨2, 2, 0, 0, 0, [], 0, [], [], []⟩, ⟨2, 0, [], [], []⟩, 10, up, by decide +kernel⟩,
   ⟨⟨1, 1, 0, 0, 0, [], 0, [], [], []⟩, ⟨1, 0, [], [], []⟩, up, by decide +kernel⟩,
   ⟨⟨1, 2, 0, 0, 0, [], 0, [], [], []⟩, ⟨1, 0, [], [], []⟩, { up with keys := { up.keys with debug := true } },
     by decide +kernel⟩,
   ⟨cardChars ([0x90, 0x00]), [0x90, 0x00], 0, 0x9000, 4, ⟨1, 0, [], [], []⟩,
     { up with card := { stage := .ready }, dlg := { step := 5, outcome := some 4, reply := some ⟨1, 0, [], [], []⟩ } },
     by decide +kernel, by decide +kernel, by decide +kernel, by decide +kernel, by decide +kernel, rfl⟩,
   ⟨[cardChar 0 ^^^ 1, cardChar 0 ^^^ 1, cardChar 0 ^^^ 1, cardChar 0 ^^^ 1, cardChar 0 ^^^ 1], up, by decide +kernel⟩,
   ⟨.extest, { up with keys := { up.keys with phase := .blank } }, by decide +kernel⟩,
   ⟨.idcode, up, by decide +kernel⟩,
   ⟨.other, { up with keys := { phase := .blank }, live := { up.live with arm := { level := false } } }, by decide +kernel⟩,
   ⟨.bypass, up, by decide +kernel⟩,
   ⟨{up with mem := {up.mem with initUntil := some up.now}}, by decide +kernel⟩⟩

theorem test_BobbinFramesAndFlow :
    (∃ (s : State), (bobRuns s = true)) ∧
    (∃ (s : State), (bobRuns s = true)) ∧
    (∃ (s : State), (bobRuns s = true) ∧ (dueBy s.now s.bob.xoffUntil = true)) ∧
    (∃ (s : State), (bobRuns s = true) ∧ (s.bob.partial_ = true) ∧ (passed s.now s.bob.lastChar (10 * bobChar s) = true)) ∧
    (∃ (echo : List RxChar) (a : Answer) (s : State), (s.bob.answer = some a) ∧ (bobRuns s = true) ∧ (sendingNow s = false)
      ∧ (heldByXoff s = false) ∧ (answerInTime s a = true) ∧ (s.bob.waiting = []) ∧ (wholeEcho s a.dest a.type a.body echo =
      true)) ∧
    (∃ (echo : List RxChar) (a : Answer) (s : State), (s.bob.answer = some a) ∧ (bobRuns s = true) ∧ (sendingNow s = false)
      ∧ (heldByXoff s = false) ∧ (answerInTime s a = true) ∧ (s.bob.waiting = []) ∧ (wholeEcho s a.dest a.type a.body echo =
      false)) ∧
    (∃ (a : Answer) (s : State), (s.bob.answer = some a) ∧ (bobRuns s = true) ∧ (a.reqEnd + msT 100 ≤ s.now)) ∧
    (∃ (echo : List RxChar) (s : State), (bobRuns s = true) ∧ (busIdle s = true) ∧ (4 ≤ s.bob.waiting.length) ∧
      (s.bob.xoffSent = false)) ∧
    (∃ (echo : List RxChar) (s : State), (bobRuns s = true) ∧ (busIdle s = true) ∧ (s.bob.waiting = []) ∧ (s.bob.xoffSent =
      true)) ∧
    (∃ (levels : List Bool) (s : State), (bobRuns s = true) ∧ (s.bob.partial_ = false) ∧ (strayFlow (receive 0 {} levels) =
      [])) ∧
    (∃ (g : BSeg) (last : Bool) (ended : Ticks) (s : State), (takesAddr s g.dest.data = false) ∧ ((g.chars.map
      Prod.snd).filter isFlow = []) ∧ (badChars [g.dest] = 0)) ∧
    (∃ (f : BFrame) (s : State), (tagOk s f = false)) ∧
    (∃ (f : BFrame) (s : State), (f.type ≠ 0x22) ∧ (freshOrder s f = false)) ∧
    (∃ (echo : List RxChar) (r : Nat) (a : Nat) (z : Nat) (t : Ticks) (own : Byte) (s : State), (s.bob.window = some (r, a,
      z, t)) ∧ (ownAddress s = some own) ∧ (bobRuns s = true) ∧ (actingLead s = false) ∧ (a ≤ own.toNat) ∧ (own.toNat ≤ z) ∧
      (heldByXoff s = false) ∧ (t + (own.toNat - a) * 320 * bobChar s + 8 * bobChar s ≤ s.now) ∧ (s.now < t + (own.toNat -
      a) * 320 * bobChar s + 320 * bobChar s)) ∧
    (∃ (echo : List RxChar) (u : State) (s : State), (mayRollcall s = true) ∧ (dueBy s.now s.bob.rollNext = true) ∧ (u =
      {s with bob := {s.bob with rollNo := s.bob.rollNo + 1}})) ∧
    (∃ (echo : List RxChar) (s : State), (mayRollcall s = true) ∧ (dueBy s.now s.bob.resendAt = true)) ∧
    (∃ (lows : List (Ticks × Ticks)) (s : State), (beaconRuns s = true) ∧ ((s.bea.lastEnd = none ∨ passed s.now
      s.bea.lastEnd (10 * beaconChar s) = true))) :=
  ⟨⟨up, by decide +kernel⟩,
   ⟨up, by decide +kernel⟩,
   ⟨{up with bob := {xoffUntil := some up.now}}, by decide +kernel⟩,
   ⟨{up with bob := {partial_ := true, lastChar := some (up.now - 10 * bobChar up)}}, by decide +kernel⟩,
   ⟨(ninthBits 5 (sentChars up 5 0x04 [1, 2])).map (fun c => ⟨c.1, c.2, false, false, false⟩), ⟨5, 0x04, [1, 2], up.now - 4
     * bobChar up, false⟩, { up with bob := { answer := some ⟨5, 0x04, [1, 2], up.now - 4 * bobChar up, false⟩ } },
     by decide +kernel, by decide +kernel, by decide +kernel, by decide +kernel, by decide +kernel, by decide +kernel,
     by decide +kernel⟩,
   ⟨[], ⟨5, 0x04, [1, 2], up.now - 4 * bobChar up, false⟩,
     { up with bob := { answer := some ⟨5, 0x04, [1, 2], up.now - 4 * bobChar up, false⟩ } }, by decide +kernel,
     by decide +kernel, by decide +kernel, by decide +kernel, by decide +kernel, by decide +kernel, by decide +kernel⟩,
   ⟨⟨5, 0x04, [1, 2], up.now - msT 100, false⟩,
     { up with bob := { answer := some ⟨5, 0x04, [1, 2], up.now - msT 100, false⟩ } }, by decide +kernel⟩,
   ⟨[], { up with bob := { waiting := List.replicate 4 wakeOne } }, by decide +kernel⟩,
   ⟨[], { up with bob := { xoffSent := true } }, by decide +kernel⟩,
   ⟨List.replicate 170 true, up, by decide +kernel⟩,
   ⟨⟨⟨5, true, false, false, false⟩, 0, [(11, ⟨1, false, false, false, false⟩)]⟩, true, up.now, up, by decide +kernel⟩,
   ⟨{wakeOne with tag := List.replicate 5 0}, withBobKey, by rw [tagOk, Bool.or_eq_false_iff]; exact ⟨rfl, five_is_no_tag
     _⟩⟩,
   ⟨wakeOne, {up with bob := {seqIn := [(wakeOne.src, wakeOne.seq)]}}, by decide +kernel⟩,
   ⟨[], 3, 0, 1, up.now - 640 * bobChar up + 1, 1,
     { up with disc := { up.disc with position := some (0, 0) }, bob := { window := some (3, 0, 1, up.now - 640 * bobChar up + 1) } },
     by decide +kernel⟩,
   ⟨[],
     { up with disc := { up.disc with position := some (0, 0), role := .acting }, bob := { rollNext := some up.now, rollNo := 1 } },
     { up with disc := { up.disc with position := some (0, 0), role := .acting }, bob := { rollNext := some up.now } },
     by decide +kernel, by decide +kernel, rfl⟩,
   ⟨[], { up with disc := { up.disc with position := some (0, 0), role := .acting }, bob := { resendAt := some up.now } },
     by decide +kernel⟩,
   ⟨[(0, 5)], { up with mark := { up.mark with on := true } }, by decide +kernel, Or.inl rfl⟩⟩

theorem test_SensorsGuardTheJunction :
    (∃ (sites : List Int) (vin : Nat) (vled : Nat) (s : State), (runs s = true) ∧ (dueBy s.now s.test.sensorNext = true) ∧
      (beyondRatings s sites vin vled = false)) ∧
    (∃ (sites : List Int) (vin : Nat) (vled : Nat) (s : State), (runs s = true) ∧ (dueBy s.now s.test.sensorNext = true) ∧
      (beyondRatings s sites vin vled = false) ∧ ((thresholds s).1 ≤ hottest (usedSites sites s.sens.ignored)) ∧
      (s.sens.warnRun = 9)) ∧
    (∃ (sites : List Int) (vin : Nat) (vled : Nat) (s : State), (runs s = true) ∧ (dueBy s.now s.test.sensorNext = true) ∧
      (beyondRatings s sites vin vled = false) ∧ ((thresholds s).2.2 ≤ hottest (usedSites sites s.sens.ignored)) ∧
      (s.sens.shutRun = 2) ∧ (s.flt.thermal = false) ∧ (s.keys.seq = none)) ∧
    (∃ (sites : List Int) (vin : Nat) (vled : Nat) (s : State), (runs s = true) ∧ (dueBy s.now s.test.sensorNext = true) ∧
      (beyondRatings s sites vin vled = true)) ∧
    (∃ (site : Fin 4) (s : State), (runs s = true) ∧ (site ∉ s.sens.ignored) ∧ (passed s.now (s.sens.offSince.getD site.val
      none) (secT 10) = true)) :=
  ⟨⟨[400, 400, 400, 400], 3300, 5000, { up with test := { up.test with sensorNext := some up.now } }, by decide +kernel⟩,
   ⟨List.replicate 4 (thresholds up).1, 3300, 5000,
     {{up with test := {up.test with sensorNext := some up.now}} with sens := {warnRun := 9}}, by decide +kernel⟩,
   ⟨List.replicate 4 (thresholds up).2.2, 3300, 5000,
     {{up with test := {up.test with sensorNext := some up.now}} with sens := {shutRun := 2}}, by decide +kernel⟩,
   ⟨[400, 400, 400, 400], 4001, 5000, {up with test := {up.test with sensorNext := some up.now}}, by decide +kernel⟩,
   ⟨3, {up with sens := {up.sens with offSince := [none, none, none, some (up.now - secT 10)]}}, by decide +kernel⟩⟩

theorem test_StepRunsFrontCommand :
    (∃ (c : Instr) (rest : List Instr) (s : State), (s.pending = c :: rest)) ∧
    (∃ (s : State), (s.pending = [])) :=
  ⟨⟨.xoff, [.xon], {State.reset with pending := [.xoff, .xon]}, by decide +kernel⟩,
   ⟨State.reset, by decide +kernel⟩⟩

theorem test_EveryCommandRuns :
    (∃ (c : Instr) (s : State), ((∀ sites vin vled, c ≠ .sensorRead sites vin vled))) ∧
    (∃ (sites : List Int) (vin : Nat) (vled : Nat) (s : State), (beyondRatings s sites vin vled = false)) :=
  ⟨⟨.xoff, up, fun _ _ _ h => Instr.noConfusion h⟩,
   ⟨[400, 400, 400, 400], 4000, 20000, up, by decide +kernel⟩⟩

theorem test_CommandsLeaveRulerQueueAndUnit :
    ∃ (c : Instr) (s : State) (t : State), (exec c s = .next t) :=
  ⟨.xoff, State.reset, _, rfl⟩

theorem test_CommandsKeepTheirFrame :
    ∃ (c : Instr) (s : State) (t : State), (exec c s = .next t) :=
  ⟨.xoff, up, _, rfl⟩

/-! ### The spec's worked cases, by the numbers printed there -/

def strapsOf (l : List (Nat × Code)) (s : State) : State := l.foldl (fun s x => strap x.1 x.2 s) s

/-- The typical cabinet of worked case 3.2. -/
def typical : State := strapsOf [(pinWall1, 0), (pinWall0, 6), (pinDrv, 3), (pinChain, 8), (pinTileW, 7), (pinTileH, 7), (pinMap, 2),
  (pinPeak, 6), (pinIscale, 11), (pinNetmode, 3), (pinIpmode, 1), (pinBeacon, 5)] up

/-- A tile of a settled wall of 512 × 512 tiles. -/
def inWall (rows cols : Nat) (p : Nat × Nat) (s : State) : State := { s with
  sv := { s.sv with e := { s.sv.e with joined := some 1 } }
  disc := { s.disc with position := some p, settled := some ⟨rows, cols, 512, 512, 0, 0, false, 60, 3⟩ } }

/-- Worked cases 3.1 and 3.2: WALLID of open straps and of the typical cabinet. -/
theorem test_wallId : (wallId up, wallId typical) = (0, 7) := by decide +kernel
/-- Worked cases 3.2 and 3.3: 0.879 V is code 11, firm; 0.600 V is marginal. -/
theorem test_strap_reading : ((decideReading ⟨List.replicate 8 879000⟩), decideReading ⟨List.replicate 8 600000⟩) = (.firm 11, .marginal) := by
  decide +kernel
/-- Chapter 08: 10 ns in units of 2^-32 ns less 12.5 ppm. -/
theorem test_increment : incrementOf 12500 = 4294913609 := by decide +kernel
/-- Worked case 5.1: 796 injection periods. -/
theorem test_sweep : periodsOf .tri1 = 796 := by decide +kernel
/-- Worked case 8.1: beat index, its low half, and how far the RTP timestamp is ahead. -/
theorem test_beat : let t : Int := 1700000000 * 1000000000 * 4294967296
    (beatIndex (beatRate 10) t, beatNo 101898101898, rtpAhead t 380014439 90000) = (101898101898, 0xB999A48A, -153) := by
  decide +kernel
/-- Worked case 9.2: the hop of F1 makes the accumulated delay 109.9 ns, 7,202,406 units. -/
theorem test_beat_delay :
    let b := encodeKnot .beat false ⟨0, 0, 9, 1⟩ (beatBytes ⟨true, 2, 10, 0xB999A48C, 1700000000, 31666669, 57016, 0, false, 0, 0⟩)
    let f := filled { beatOut := some (0, 7202406 * 65536) } ⟨.beat, b, .residence 0⟩
    (signedAt f 40 8, b2n (knotOk .beat f)) = (7202406, 1) := by decide +kernel
/-- Worked case 10.1: the canvas of 6 × 4 tiles of 512 × 512 pixels. -/
theorem test_canvas : canvasSize (inWall 4 6 (3, 2) up) = (3072, 2048) := by decide +kernel
/-- Worked case 13.1 steps 1 to 3: units, M, gap, n, d, k' and the configuration words. -/
theorem test_scan : (unitsPerChain typical 32, weftTiming typical (depthN typical 64)) = (32, ⟨64, 4, 10, 13, 6⟩) := by decide +kernel
theorem test_config_words :
    configWords typical { n := 10, kp := 6, gain := gainOf typical 28 } = (0x6415, 0x008F) := by decide +kernel
/-- Worked case 13.1 step 5: pixel (37, 300) lies on WP02, band row 5, unit 18, channels 36 to 38. -/
theorem test_channel :
    (300 / 512, 37 / 16, channelAt typical ⟨512, 512, 32, 512, 16, 16, false⟩ 300 5 0) = (0, 2, (18, 36)) := by decide +kernel
/-- Worked case 13.1 steps 6 and 7: codes 28 and 255, gains 21 and 191. -/
theorem test_current : (wantedCode (1 / 10), wantedCode 1, gainOf typical 28, gainOf typical 255) = (28, 255, 21, 191) := by decide +kernel
/-- Worked case 13.2 step 2: the median of the five reports is 240 lux. -/
theorem test_median : lowerMedian [2880, 3520, 3840, 4000, 152000] = 3840 := by decide +kernel
/-- The sign cabinet of worked case 14.1. -/
def arrows : State :=
  let s := inWall 1 6 (0, 2) (strapsOf [(pinMklay1, 3), (pinMklay0, 7), (pinMkreg, 2), (pinMkcur, 9)] up)
  { s with bri := { s.bri with agreed := some 13107 }, mark := { on := true }
           scene := { s.scene with committed := some ⟨1, ⟨13, 0, 0⟩, [], 5, 0⟩ } }
/-- Worked case 14.1: full scale 40 mA, 8 channels a group, u of MK05; q of MK05 lit, of MK20 lit, of MK05 dim. -/
theorem test_markers : (mkFullMa arrows, mkChannels arrows, markerU arrows 8 5) = (40, 8, 43 / 96) := by decide +kernel
theorem test_chase : (patternQ arrows 0 1000000000 5, patternQ arrows 2 1000000000 20, patternQ arrows 0 1890000000 5) = (64, 51, 6) := by
  decide +kernel
/-- Worked case 15.1: the steady status words of the two outputs, 7 and 5 valid slots of 8. -/
theorem test_status_words :
    (statusWord 8 32 0 (List.replicate 7 true), statusWord 8 32 0 (List.replicate 5 true ++ [false, false])) = (0x3F800000, 0x3E000000) := by
  decide +kernel
/-- Worked case 16.1: row 5, column 11 of 24 columns is address 132; three bytes need escaping. -/
theorem test_bobbin_address : ownAddress (inWall 12 24 (5, 11) up) = some 132 := by decide +kernel
theorem test_escape : escapeBob 0x11 ++ escapeBob 0x7D ++ escapeBob 0x13 = [0x7D, 0x31, 0x7D, 0x5D, 0x7D, 0x33] := by decide +kernel
/-- Worked case 18.2: the input of the Bobbin tag. -/
theorem test_tag_input : tagInput 0x84 0 0x22 0x117D [2, 0xC] = [0x84, 0, 0x22, 2, 0, 0, 0x11, 0x7D, 2, 0xC] := by decide +kernel
/-- Worked case 16.2: F 512, D 32, and the PPS request. -/
theorem test_pps : (supported 0x96, ppsRequest 0x96) = (some (512, 32), [0xFF, 0x10, 0x96, 0x79]) := by decide +kernel
/-- Worked case 17.1: the input under which K_wall is derived. -/
theorem test_label : beBytes 4 1 ++ labelWall 7 ++ [0] ++ beBytes 4 256 =
    [0, 0, 0, 1, 0x77, 0x61, 0x6C, 0x6C, 0x3A, 0x37, 0, 0, 0, 1, 0] := by decide +kernel
/-- Worked case 17.2: a staging of 273 pairs, and 263 pairs left after a cut in the destruction. -/
theorem test_staging : (stagingImage 1 0x9C1E44B7 (beBytes 32 (2 ^ 131 - 1)) (beBytes 32 (2 ^ 124 - 1))).length = 273 := by decide +kernel
/-- Worked case 19.1: the latest entries of the training failures. -/
theorem test_last_entries :
    (lastEntry ⟨.memTrain, false, true, false, 1, 0, 0, 3⟩).take 4 = [8, 3, 0x43, 3] ∧
    (lastEntry ⟨.memTrain, false, true, true, 1, 0, 0, 0x83⟩).take 4 = [8, 3, 0x63, 0x83] ∧
    ringByte2 ⟨.memTrain, true, true, false, 1, 0, 0, 3⟩ = 0xC3 := by decide +kernel
/-- FIPS 180-4: the digest of "abc". -/
theorem test_sha256 : beNat (sha256 [0x61, 0x62, 0x63]) = 0xBA7816BF8F01CFEA414140DE5DAE2223B00361A396177A9CB410FF61F20015AD := by
  decide +kernel
/-- RFC 4493: the CMAC of 16 bytes. -/
theorem test_cmac : cmac (beBytes 16 0x2B7E151628AED2A6ABF7158809CF4F3C) (beBytes 16 0x6BC1BEE22E409F96E93D7E117393172A) =
    beBytes 16 0x070A16B46B4D4144F79BDD9DD04A287C := by decide +kernel
/-- Worked case 13.2 steps 3 and 4: the first TARGET of the ramp from 200 to 240 lux. -/
theorem test_target : unitsOf (powR (200 / 1000) (1 / 2) * rampFactor) = 30606 := by decide +kernel

/-- 13 R625, Table 13.2: blue of band pixel (3, 17), class G 16, two units to a stack: channel 1 of driver 5. -/
theorem test_band_place :
    channelAt up ⟨32, 32, 1, 32, 32, 16, false⟩ 17 3 2 = (5, 1) ∧ bandPlace up ⟨32, 32, 1, 32, 32, 16, false⟩ 3 5 1 = (17, 3, 2) := by
  decide +kernel

/-- 13 R623: a word leaves most significant bit first. -/
theorem test_word_bits : wordBits 0x8001 = [true] ++ List.replicate 14 false ++ [true] := by decide +kernel

/-- 09 R408: what a lane scrambles, the other end descrambles. -/
theorem test_scrambler :
    let bits := (List.replicate 8 (0x1E : Byte)).flatMap byteBits
    (descramble 5 (scramble 5 bits).2).2 = bits ∧ (scramble 5 bits).2 ≠ bits := by decide +kernel

/-- 16 R764: a character sent at 16 ticks a bit, least significant bit first, with its ninth bit. -/
theorem test_character :
    receive 0 {} (true :: ([false] ++ byteBits 0xA3 ++ [true, true]).flatMap (List.replicate 16)) =
      [(1, ⟨0xA3, true, false, false, false⟩)] := by decide +kernel

/-- 04 R137: two phases run from 3 A to 6 A, three above. -/
theorem test_phases : (phasesAt 1 2999, phasesAt 1 3000, phasesAt 2 6000, phasesAt 2 6001) = (1, 2, 2, 3) := by decide +kernel

end Sys2Proof.Tests
end

section
/-!
PROOFS. What a raise of a fault of S1 or S2 does to the list of active faults (19 R899, R906).
-/
namespace Sys2Proof.Machine
open Sys2Proof

@[simp] theorem addEntry_active (e : RingEntry) (s : State) : (addEntry e s).flt.active = s.flt.active := by
  unfold addEntry
  split
  · rfl
  · split <;> rfl

@[simp] theorem writeQueued_active (q : Queued) (s : State) : (writeQueued q s).flt.active = s.flt.active :=
  addEntry_active _ s

@[simp] theorem launchRecord_flt (k : BitVec 8) (s : State) : (launchRecord k s).flt = s.flt := by
  have h : Only [.status, .net] s (launchRecord k s) := by simp
  exact h .flt (by decide)

@[simp] theorem originFault_flt (f : FaultName) (c : Bool) (s : State) : (originFault f c s).flt = s.flt := by
  have h : Only [.status, .sv, .disc] s (originFault f c s) := by simp
  exact h .flt (by decide)

@[simp] theorem handle_active (q : Queued) (s : State) : (handle q s).flt.active = s.flt.active := by
  simp only [handle, apply_ite State.flt, modBea_frame, originFault_flt, launchRecord_flt,
    writeQueued_active, ite_self]

@[simp] theorem submit_active (q : Queued) (s : State) : (submit q s).flt.active = s.flt.active := by
  simp only [submit, apply_ite State.flt, apply_ite Flt.active, handle_active, writeQueued_active, modFlt_flt, ite_self]

@[simp] theorem noteRaise_active (f : FaultName) (key : Nat) (detail : BitVec 32) (s : State) (h : sevOf f ≠ 0) :
    (noteRaise f key detail s).flt.active = s.flt.active ++ [⟨f, key, detail, s.now⟩] := by
  simp [noteRaise, countRaise, setActive, h, apply_ite State.flt]

/-- A raise of a fault of S1 or S2 that is not active appends an entry, and of one that is active does nothing (R906). -/
theorem raise_active (f : FaultName) (detail : BitVec 32) (s : State) (h0 : sevOf f ≠ 0) (h3 : sevOf f ≠ 3) :
    (raise f detail s).flt.active =
      if activeKey s f (faultKey f detail) then s.flt.active
      else s.flt.active ++ [⟨f, faultKey f detail, detail, s.now⟩] := by
  simp [raise, h0, h3, apply_ite State.flt, apply_ite Flt.active]

theorem isActive_of_activeKey {s : State} {f : FaultName} {key : Nat} (h : activeKey s f key = true) : isActive s f = true := by
  obtain ⟨a, ha, hf⟩ := List.any_eq_true.1 h
  exact List.any_eq_true.2 ⟨a, ha, (Bool.and_eq_true_iff.1 hf).1⟩

theorem isActive_raise_self (f : FaultName) (detail : BitVec 32) (s : State) (h0 : sevOf f ≠ 0) (h3 : sevOf f ≠ 3) :
    isActive (raise f detail s) f = true := by
  unfold isActive
  rw [raise_active f detail s h0 h3]
  split
  case isTrue h => exact isActive_of_activeKey h
  case isFalse => simp

theorem isActive_raise_of_isActive {s : State} {g : FaultName} (f : FaultName) (detail : BitVec 32) (h0 : sevOf f ≠ 0)
    (h3 : sevOf f ≠ 3) (h : isActive s g = true) : isActive (raise f detail s) g = true := by
  unfold isActive at *
  rw [raise_active f detail s h0 h3]
  split
  · exact h
  · simp [h]

end Sys2Proof.Machine
end

section
/-!
PROOFS. The readings of junction temperature, VIN and VLED (20 R939, R949, R951; 19 R925): what each part of a reading
leaves, and from it what a reading within the ratings does.
-/
namespace Sys2Proof.Machine
open Sys2Proof Sys2Proof.Safety

/-! ### What the parts of a reading leave of the sensors, the tests, the keys and the fault manager -/

theorem thermalFaults_keeps (s : State) : Only [.flt, .status, .net, .sv, .disc, .weft, .bea] s (thermalFaults s) := by simp

@[simp] theorem thermalFaults_sens (s : State) : (thermalFaults s).sens = s.sens := thermalFaults_keeps s .sens (by decide)
@[simp] theorem thermalFaults_test (s : State) : (thermalFaults s).test = s.test := thermalFaults_keeps s .test (by decide)
@[simp] theorem thermalFaults_keys (s : State) : (thermalFaults s).keys = s.keys := thermalFaults_keeps s .keys (by decide)
@[simp] theorem thermalFaults_thermal (s : State) : (thermalFaults s).flt.thermal = s.flt.thermal := by
  obtain ⟨_, _, _, _, hthermal, _⟩ := thermalFaults_keeps s .holds (by decide)
  exact hthermal

theorem noteSensors_keeps (before : Bool) (s : State) : Only [.test] s (noteSensors before s) := by simp

@[simp] theorem noteSensors_sens (b : Bool) (s : State) : (noteSensors b s).sens = s.sens := noteSensors_keeps b s .sens (by decide)
@[simp] theorem noteSensors_flt (b : Bool) (s : State) : (noteSensors b s).flt = s.flt := noteSensors_keeps b s .flt (by decide)
@[simp] theorem noteSensors_keys (b : Bool) (s : State) : (noteSensors b s).keys = s.keys := noteSensors_keeps b s .keys (by decide)

@[simp] theorem enterSafe_flt (s : State) : (enterSafe s).flt = s.flt := by
  have h : Only [.test, .status, .net, .aud] s (enterSafe s) := by simp
  exact h .flt (by decide)

@[simp] theorem abandonOrder_flt (s : State) : (abandonOrder s).flt = s.flt := by
  have h : Only [.keys, .lifecycle] s (abandonOrder s) := by simp
  exact h .flt (by decide)

@[simp] theorem abandonOrder_test (s : State) : (abandonOrder s).test = s.test := by
  have h : Only [.keys, .lifecycle] s (abandonOrder s) := by simp
  exact h .test (by decide)

@[simp] theorem launchRecord_test (k : BitVec 8) (s : State) : (launchRecord k s).test = s.test := by
  have h : Only [.status, .net] s (launchRecord k s) := by simp
  exact h .test (by decide)

@[simp] theorem muteAll_test (c : MuteCause) (r : Nat) (s : State) : (muteAll c r s).test = s.test := by
  have h : Only [.aud] s (muteAll c r s) := by simp
  exact h .test (by decide)

@[simp] theorem unmuteAll_frame (c : MuteCause) (r : Nat) (s : State) :
    (unmuteAll c r s).test = s.test ∧ (unmuteAll c r s).flt = s.flt := by
  have h : Only [.aud] s (unmuteAll c r s) := by simp
  exact ⟨h .test (by decide), h .flt (by decide)⟩

/-! ### The instant of the next reading (20 R939) -/

@[simp] theorem addResult_sensorNext (n : Nat) (r : TestResult) (s : State) :
    (addResult n r s).test.sensorNext = s.test.sensorNext := rfl

@[simp] theorem noteTest_sensorNext (i : SuiteItem) (failed : Bool) (s : State) :
    (noteTest i failed s).test.sensorNext = s.test.sensorNext := by
  unfold noteTest
  (repeat' split) <;> simp [apply_ite State.test, apply_ite Test.sensorNext]

@[simp] theorem noteSensors_sensorNext (before : Bool) (s : State) :
    (noteSensors before s).test.sensorNext = s.test.sensorNext := by
  simp [noteSensors, ranAgain]

@[simp] theorem abortVisible_sensorNext (s : State) : (abortVisible s).test.sensorNext = s.test.sensorNext := by
  simp [abortVisible, onOutputs, apply_ite State.test, apply_ite Test.sensorNext]

@[simp] theorem endSuite_sensorNext (s : State) : (endSuite s).test.sensorNext = s.test.sensorNext := by
  unfold endSuite
  (repeat' split) <;> simp

@[simp] theorem abortSuite_sensorNext (s : State) : (abortSuite s).test.sensorNext = s.test.sensorNext := rfl

@[simp] theorem enterSafe_sensorNext (s : State) : (enterSafe s).test.sensorNext = s.test.sensorNext := by
  simp [enterSafe, abortTests]

@[simp] theorem shutDown_sensorNext (s : State) : (shutDown s).test.sensorNext = s.test.sensorNext := by
  simp [shutDown]

@[simp] theorem tryShutDown_sensorNext (s : State) : (tryShutDown s).test.sensorNext = s.test.sensorNext := by
  unfold tryShutDown
  split
  · simp
  · split <;> simp

@[simp] theorem thermalShutdown_sensorNext (s : State) : (thermalShutdown s).test.sensorNext = s.test.sensorNext := by
  simp [thermalShutdown, endShutDown, apply_ite State.test, apply_ite Test.sensorNext]

/-! ### What the thermal shutdown does (20 R949, Table 20.21) -/

theorem thermalShutdown_keeps (s : State) :
    Only [.test, .keys, .lifecycle, .flt, .holds, .status, .net, .sv, .disc, .weft, .aud, .bea] s (thermalShutdown s) := by
  simp

@[simp] theorem thermalShutdown_sens (s : State) : (thermalShutdown s).sens = s.sens :=
  thermalShutdown_keeps s .sens (by decide)

/-- With the shutdown not in force and fewer than three readings at its threshold, nothing happens. -/
theorem thermalShutdown_idle {s : State} (ht : s.flt.thermal = false) (hrun : s.sens.shutRun ≠ 3) : thermalShutdown s = s := by
  simp [thermalShutdown, ht, hrun]

/-- The third reading at its threshold shuts down at once where no fuse sequence runs. -/
theorem thermalShutdown_third {s : State} (ht : s.flt.thermal = false) (hrun : s.sens.shutRun = 3) (hseq : s.keys.seq = none) :
    thermalShutdown s = shutDown s := by
  simp [thermalShutdown, ht, hrun, tryShutDown, hseq]

theorem shutDown_isActive_thLimit (s : State) : isActive (shutDown s) .thLimit = true :=
  isActive_raise_self .thLimit _ _ (by decide) (by decide)

theorem shutDown_thermal (s : State) : (shutDown s).flt.thermal = true := by
  have h (d : BitVec 32) (u : State) : Only [.flt, .status, .net, .sv, .disc, .weft, .bea] u (raise .thLimit d u) := by simp
  obtain ⟨_, _, _, _, hthermal, _⟩ := h _ _ .holds (by decide)
  exact hthermal.trans (by simp)

theorem isActive_congr {s t : State} (h : t.flt.active = s.flt.active) (f : FaultName) : isActive t f = isActive s f := by
  simp only [isActive, h]

/-- A shutdown clears no fault. -/
theorem isActive_shutDown_of_isActive {s : State} {f : FaultName} (h : isActive s f = true) : isActive (shutDown s) f = true := by
  refine isActive_raise_of_isActive .thLimit _ (by decide) (by decide) ?_
  exact (isActive_congr (by simp) f).trans h

/-- Neither the beginning nor the end of a shutdown clears a fault. -/
theorem isActive_thermalShutdown_of_isActive {s : State} {f : FaultName} (h : isActive s f = true) :
    isActive (thermalShutdown s) f = true := by
  unfold thermalShutdown
  split
  · split
    case isTrue => exact (isActive_congr (by simp [endShutDown, apply_ite State.flt]) f).trans h
    case isFalse => exact h
  · split
    case isTrue =>
      unfold tryShutDown
      split
      · exact isActive_shutDown_of_isActive h
      · split
        · exact isActive_shutDown_of_isActive ((isActive_congr (by simp) f).trans h)
        · exact h
    case isFalse => exact h

/-! ### A reading -/

/-- One reading lengthens a run of zero to one at most. -/
theorem runOf_zero_le_one (cap : Nat) (hit : Bool) : runOf 0 cap hit ≤ 1 := by
  cases hit <;> simp [runOf]

/-- The last reading that a rule needs completes its run. -/
theorem runOf_last (n : Nat) : runOf n (n + 1) true = n + 1 := by simp [runOf]

/-- What a reading within the ratings leaves. -/
def afterReading (sites : List Int) (vin vled : Nat) (s : State) : State :=
  thermalShutdown (noteSensors (sensorFault s) (thermalFaults (storeReading sites vin vled s)))

/-- A reading that is due either ends the run or is stored and judged, as its values lie beyond the ratings or within. -/
theorem execSensorRead_due {s : State} (sites : List Int) (vin vled : Nat) (hr : runs s = true)
    (hd : dueBy s.now s.test.sensorNext = true) :
    execSensorRead sites vin vled s =
      if beyondRatings s sites vin vled then .fault .beyondAbsoluteMaximum else .next (afterReading sites vin vled s) := by
  simp [execSensorRead, hr, hd, afterReading]

@[simp] theorem afterReading_sens (sites : List Int) (vin vled : Nat) (s : State) :
    (afterReading sites vin vled s).sens = (storeReading sites vin vled s).sens := by
  simp [afterReading]

@[simp] theorem afterReading_sensorNext (sites : List Int) (vin vled : Nat) (s : State) :
    (afterReading sites vin vled s).test.sensorNext = some (s.now + msT 100) := by
  simp [afterReading, storeReading]

theorem afterReading_keeps (sites : List Int) (vin vled : Nat) (s : State) :
    Only [.test, .keys, .lifecycle, .flt, .holds, .status, .sens, .net, .sv, .disc, .weft, .aud, .bea] s
      (afterReading sites vin vled s) := by
  simp [afterReading]

/-- The first reading at the shutdown threshold does not shut down. -/
theorem afterReading_thermal_of_shutRun_zero {s : State} (sites : List Int) (vin vled : Nat) (hs : s.sens.shutRun = 0)
    (ht : s.flt.thermal = false) : (afterReading sites vin vled s).flt.thermal = false := by
  have hrun : (storeReading sites vin vled s).sens.shutRun ≠ 3 := by
    have h := runOf_zero_le_one 3 (decide ((thresholds s).2.2 ≤ hottest (usedSites sites s.sens.ignored)))
    simp only [storeReading, hs]
    omega
  rw [afterReading, thermalShutdown_idle (by simpa [storeReading] using ht) (by simpa using hrun)]
  simpa [storeReading] using ht

/-- A full run at the warning threshold raises its fault, which stands while no span below the threshold has begun. -/
theorem thermalFaults_isActive_thWarn {s : State} (hrun : s.sens.warnRun = 10) (hb : s.sens.belowSince = none) :
    isActive (thermalFaults s) .thWarn = true := by
  have hw : isActive (raise .thWarn (tjDetail s) s) .thWarn = true := isActive_raise_self _ _ _ (by decide) (by decide)
  by_cases hl : s.sens.limitRun = 10
  · simpa [thermalFaults, hrun, hl, hb, passed] using isActive_raise_of_isActive .thLimit _ (by decide) (by decide) hw
  · simpa [thermalFaults, hrun, hl, hb, passed] using hw

theorem afterReading_tenth {s : State} (sites : List Int) (vin vled : Nat)
    (hit : (thresholds s).1 ≤ hottest (usedSites sites s.sens.ignored)) (hrun : s.sens.warnRun = 9) :
    isActive (afterReading sites vin vled s) .thWarn = true := by
  have hf : isActive (thermalFaults (storeReading sites vin vled s)) .thWarn = true :=
    thermalFaults_isActive_thWarn (by simp [storeReading, hrun, hit, runOf_last]) (by simp [storeReading, hit])
  exact isActive_thermalShutdown_of_isActive ((isActive_congr (by simp) _).trans hf)

theorem afterReading_third {s : State} (sites : List Int) (vin vled : Nat)
    (hit : (thresholds s).2.2 ≤ hottest (usedSites sites s.sens.ignored)) (hrun : s.sens.shutRun = 2)
    (ht : s.flt.thermal = false) (hseq : s.keys.seq = none) :
    (afterReading sites vin vled s).flt.thermal = true ∧ isActive (afterReading sites vin vled s) .thLimit = true := by
  rw [afterReading, thermalShutdown_third (by simpa [storeReading] using ht)
    (by simp [storeReading, hrun, hit, runOf_last]) (by simpa [storeReading] using hseq)]
  exact ⟨shutDown_thermal _, shutDown_isActive_thLimit _⟩

/-- Settles O55: a reading that is due is `afterReading` or the fault, and `afterReading` is taken apart into the stored values,
the faults of the runs and the shutdown. -/
theorem sensorsGuardTheJunction : Obligations.SensorsGuardTheJunction := by
  unfold Obligations.SensorsGuardTheJunction
  have hread {sites : List Int} {vin vled : Nat} {s : State} (hr : runs s = true)
      (hd : dueBy s.now s.test.sensorNext = true) (hb : beyondRatings s sites vin vled = false) :
      exec (.sensorRead sites vin vled) s = .next (afterReading sites vin vled s) :=
    (execSensorRead_due sites vin vled hr hd).trans (by simp [hb])
  refine ⟨?stored, ?tenth, ?third, ?beyond, ?ignored⟩
  case stored =>
    intro sites vin vled s hr hd hb
    have hsens := afterReading_sens sites vin vled s
    have hkeep := afterReading_keeps sites vin vled s
    exact ⟨_, hread hr hd hb, congrArg Sens.tj hsens, congrArg Sens.vin hsens, congrArg Sens.vled hsens,
      congrArg Sens.sites hsens, afterReading_sensorNext sites vin vled s, hkeep .mem (by decide), hkeep .otp (by decide),
      fun _ _ hs ht => afterReading_thermal_of_shutRun_zero sites vin vled hs ht⟩
  case tenth =>
    intro sites vin vled s hr hd hb hit hrun
    exact ⟨_, hread hr hd hb, afterReading_tenth sites vin vled hit hrun⟩
  case third =>
    intro sites vin vled s hr hd hb hit hrun ht hseq
    exact ⟨_, hread hr hd hb, afterReading_third sites vin vled hit hrun ht hseq⟩
  case beyond =>
    intro sites vin vled s hr hd hb
    exact (execSensorRead_due sites vin vled hr hd).trans (by simp [hb])
  case ignored =>
    intro site s hr hsite hoff
    refine if_pos ?_
    simp only [hr, hoff, List.contains_eq_mem, hsite, decide_false, Bool.not_false, Bool.and_self]

end Sys2Proof.Machine
end

section
/-!
PROOFS. Every command but `SENSOR_READ` answers a next state in every state (00 R17; log 10).
-/
namespace Sys2Proof.Machine
open Sys2Proof

/-- The command ends in a next state. -/
def Answers (o : Out) : Prop := ∃ t, o = .next t

@[simp] theorem answers_next (t : State) : Answers (.next t) := ⟨t, rfl⟩

@[simp] theorem answers_ite (a b : Out) (c : Prop) [Decidable c] :
    Answers (if c then a else b) ↔ if c then Answers a else Answers b := by
  split <;> rfl

/-- What arrives in a block run is a knot or is none. -/
theorem onKnot_answers (d : Dir) (run : BlockRun) (f : List Byte → State → State) (s : State) : Answers (onKnot d run f s) := by
  unfold onKnot
  split <;> exact answers_next _

/-- Every command but `SENSOR_READ` answers a next state, by what its meaning branches on: nothing, the knot that arrived,
conditions on the state and the operands, or besides them what a part of the state or an operand holds. -/
theorem exec_answers (c : Instr) (hc : ∀ sites vin vled, c ≠ .sensorRead sites vin vled) (s : State) : Answers (exec c s) := by
  cases c with
  | sensorRead sites vin vled => exact absurd rfl (hc sites vin vled)
  | aonOff | linkDown | macAgeOut | mediaQueueRelease | senderTimeout | faultClear | ledgerMirror | knotSequenceExpiry |
    leadClaimLapse => exact ⟨_, rfl⟩
  | hello | pos | census | lead | beat | fault | prepare | ready | commit | bright => exact onKnot_answers _ _ _ _
  -- power, the clock, fuses and the ledger (04, 05, 17, 19)
  | aonOn | d1d2SwitchOn | vinBrownout | railBrownout | standbyBrownout | resetNAssert | resetNRelease | bankRemeasure |
    domainRetry | domainGateOff | vcoreInitialSet | ageingMeasure | mdllLock | mdllLossOfLock | mdllLockTimeout |
    referenceEdgeMissing | slowCrystalConfirm | slowOscTrim | slowCrystalRecheck | standbySlowCrystalStop |
    seqWatchdogExpiry | ledgerRetagDone | buckPhaseChange =>
    simp only [exec, execAonOn, execD1d2SwitchOn, execVinBrownout, execRailBrownout, execStandbyBrownout,
      execResetNAssert, execResetNRelease, execBankRemeasure, execDomainRetry, execDomainGateOff, execVcoreInitialSet,
      execAgeingMeasure, execMdllLock, execMdllLossOfLock, execMdllLockTimeout, execReferenceEdgeMissing,
      execSlowCrystalConfirm, execSlowOscTrim, execSlowCrystalRecheck, execStandbySlowCrystalStop,
      execSeqWatchdogExpiry, execLedgerRetagDone, execBuckPhaseChange, answers_ite, answers_next, ite_self]
  -- straps, bring-up, self-tests, sensors and standby (03, 06, 20)
  | strapPass | strapRereadPass | liveStrapRead | livePinSample | selftestHold2s | selftestHold10s | testSliceAbandon |
    eyeMarginRead | dacSwapCalibrate | romCrcCheck | otpCheck | tempSiteIgnore | timedWake =>
    simp only [exec, execStrapPass, execStrapRereadPass, execLiveStrapRead, execLivePinSample, execSelftestHold2s,
      execSelftestHold10s, execTestSliceAbandon, execEyeMarginRead, execDacSwapCalibrate, execRomCrcCheck, execOtpCheck,
      execTempSiteIgnore, execTimedWake, answers_ite, answers_next, ite_self]
  -- the network and wall time (07, 08)
  | moduleRemove | linkUp | netLinkTimeout | launchTime | guardFrame | guardSend | guardLift | flushFloodEnd |
    routerPortExpiry | igmpQuerySend | igmpStateReport | igmpQueryAnswer | sdpExpiry | netSdpTimeout |
    positionalAddressRetry | statusRecordLaunch | announce | servoRangeTimeout | timeNomasterTimeout |
    beatInconsistentTimeout | leadChangeHoldTimeout | reedBeat =>
    simp only [exec, execModuleRemove, execLinkUp, execNetLinkTimeout, execLaunchTime, execGuardFrame, execGuardSend,
      execGuardLift, execFlushFloodEnd, execRouterPortExpiry, execIgmpQuerySend, execIgmpStateReport,
      execIgmpQueryAnswer, execSdpExpiry, execNetSdpTimeout, execPositionalAddressRetry, execStatusRecordLaunch,
      execAnnounce, execServoRangeTimeout, execTimeNomasterTimeout, execBeatInconsistentTimeout,
      execLeadChangeHoldTimeout, execReedBeat, answers_ite, answers_next, ite_self]
  -- the Selvedge, scenes and frame memory (09 to 12)
  | blockLock | blockLockLoss | helloSend | helloTimeout | svLinkTimeout | markReqSend | markReq | markBeat |
    censusLapse | leadSettle | noLeadTimeout | positionInconsistency | sceneChangeStart | memRead | memWriteWhole |
    memWritePartial | scrubLine | xbTransaction =>
    simp only [exec, execBlockLock, execBlockLockLoss, execHelloSend, execHelloTimeout, execSvLinkTimeout,
      execMarkReqSend, execMarkReq, execMarkBeat, execCensusLapse, execLeadSettle, execNoLeadTimeout,
      execPositionInconsistency, execSceneChangeStart, execMemRead, execMemWriteWhole, execMemWritePartial,
      execScrubLine, execXbTransaction, answers_ite, answers_next, ite_self]
  -- weft ports, brightness, markers and audio (13 to 15)
  | weftCensusComplete | nightStandbyDecision | weftSdoMismatch | wearUpdate | wearFlush | ambientConvert |
    ambientReport | brightTargetCompute | markerUpdate | retryCountClear | vledOutOfRange | vledRestore | audioFetch |
    levelChangeApply =>
    simp only [exec, execWeftCensusComplete, execNightStandbyDecision, execWeftSdoMismatch, execWearUpdate,
      execWearFlush, execAmbientConvert, execAmbientReport, execBrightTargetCompute, execMarkerUpdate,
      execRetryCountClear, execVledOutOfRange, execVledRestore, execAudioFetch, execLevelChangeApply, answers_ite,
      answers_next, ite_self]
  -- the card and the Bobbin (16, 18)
  | bobbinFrame | bobbinFrameGap | xon | xoff | xoffTimeout | rollcallSend | rollcallResend | beaconFrame |
    cardPresent | ts | tsTimeout | cardRemoval | cardReactivate | select | helloCertificate | helloState | getResponse |
    order | dialogueTimeout | tapInstructionLoad | cardAbsenceConfirmed | memoryInitComplete | flowControlSend =>
    simp only [exec, execBobbinFrame, execBobbinFrameGap, execXon, execXoff, execXoffTimeout, execRollcallSend,
      execRollcallResend, execBeaconFrame, execCardPresent, execTs, execTsTimeout, execCardRemoval, execCardReactivate,
      execSelect, execHelloCertificate, execHelloState, execGetResponse, execOrder, execDialogueTimeout,
      execTapInstructionLoad, execCardAbsenceConfirmed, execMemoryInitComplete, execFlowControlSend, answers_ite,
      answers_next, ite_self]
  -- power, the clock, fuses and the ledger (04, 05, 17, 19)
  | fusePairDone | fuseSequenceTempWaitEnd | brownoutRestart | domainSwitchOn | domainSwitchTimeout | referenceRecheck |
    slowClockFault | faultRaise | faultHandlerEnd | handlerTimeout | s3HoldoffEnd =>
    simp only [exec, execFusePairDone, execFuseSequenceTempWaitEnd, execBrownoutRestart, execDomainSwitchOn,
      execDomainSwitchTimeout, execReferenceRecheck, execSlowClockFault, execFaultRaise, execFaultHandlerEnd,
      execHandlerTimeout, execS3HoldoffEnd, answers_ite, answers_next]
    (repeat' split) <;> simp only [answers_next]
  -- straps, bring-up, self-tests, sensors and standby (03, 06, 20)
  | domainPowerGood | bootCheckDone | dramTrainingDone | strapConfirmRead | invisibleSuiteDone | visibleStepAdvance |
    visibleSequenceEnd | standbyPowerDown | slowListenerMatch | wakeCheck =>
    simp only [exec, execDomainPowerGood, execBootCheckDone, execDramTrainingDone, execStrapConfirmRead,
      execInvisibleSuiteDone, execVisibleStepAdvance, execVisibleSequenceEnd, execStandbyPowerDown,
      execSlowListenerMatch, execWakeCheck, answers_ite, answers_next]
    (repeat' split) <;> simp only [answers_next]
  -- the network and wall time (07, 08)
  | moduleInsert | moduleIdRead | portListenEnd | frameReceive | arpProbe | addressClaim | sync | followUp |
    followUpTimeout | delayReq | delayResp | masterLoss | followerStepTimeout | refreshStart | pickStart =>
    simp only [exec, execModuleInsert, execModuleIdRead, execPortListenEnd, execFrameReceive, execArpProbe,
      execAddressClaim, execSync, execFollowUp, execFollowUpTimeout, execDelayReq, execDelayResp, execMasterLoss,
      execFollowerStepTimeout, execRefreshStart, execPickStart, answers_ite, answers_next]
    (repeat' split) <;> simp only [answers_next]
  -- the Selvedge, scenes and frame memory (09 to 12)
  | markRsp | posSend | censusSend | leadSend | becomeActingLead | leadLost | faultKnotSend | prepareRepeat |
    readySend | sceneDecision | commitRepeat | commitEcho | echoPreparedCommit | commitDeadlineMiss | unsolicitedReady |
    streamLossTimeout | xbHang | posClaimExpiry =>
    simp only [exec, execMarkRsp, execPosSend, execCensusSend, execLeadSend, execBecomeActingLead, execLeadLost,
      execFaultKnotSend, execPrepareRepeat, execReadySend, execSceneDecision, execCommitRepeat, execCommitEcho,
      execEchoPreparedCommit, execCommitDeadlineMiss, execUnsolicitedReady, execStreamLossTimeout, execXbHang,
      execPosClaimExpiry, answers_ite, answers_next]
    (repeat' split) <;> simp only [answers_next]
  -- weft ports, brightness, markers and audio (13 to 15)
  | weftPinTrip | weftRetest | ledgerProgramDone | markerRetest | supplyShortRetry | markerThermalReduce | nonAudioEnd |
    audioSenderTimeout | audNosourceTimeout =>
    simp only [exec, execWeftPinTrip, execWeftRetest, execLedgerProgramDone, execMarkerRetest, execSupplyShortRetry,
      execMarkerThermalReduce, execNonAudioEnd, execAudioSenderTimeout, execAudNosourceTimeout, answers_ite,
      answers_next]
    (repeat' split) <;> simp only [answers_next]
  -- the card and the Bobbin (16, 18)
  | cardDialogueStandbyLimit | answerSend | answerDrop | rollcallSlot | atrComplete | ppsEcho | cardCharacterTimeout |
    result =>
    simp only [exec, execCardDialogueStandbyLimit, execAnswerSend, execAnswerDrop, execRollcallSlot, execAtrComplete,
      execPpsEcho, execCardCharacterTimeout, execResult, answers_ite, answers_next]
    (repeat' split) <;> simp only [answers_next]

/-- `SENSOR_READ` stops only where its readings lie beyond the absolute maximum ratings (00 R17; log 10). -/
theorem execSensorRead_answers {s : State} {sites : List Int} {vin vled : Nat} (hb : beyondRatings s sites vin vled = false) :
    Answers (execSensorRead sites vin vled s) := by
  simp [execSensorRead, hb]

theorem execSensorRead_fault_or_answers (sites : List Int) (vin vled : Nat) (s : State) :
    execSensorRead sites vin vled s = .fault .beyondAbsoluteMaximum ∨ Answers (execSensorRead sites vin vled s) := by
  cases hb : beyondRatings s sites vin vled with
  | false => exact .inr (execSensorRead_answers hb)
  | true =>
    unfold execSensorRead
    split
    · exact .inr (answers_next s)
    · exact .inl rfl

/-- Settles O57: by the command, `SENSOR_READ` apart. -/
theorem everyCommandRuns : Obligations.EveryCommandRuns := by
  unfold Obligations.EveryCommandRuns
  exact ⟨fun c s hc => exec_answers c hc s, execSensorRead_fault_or_answers, fun _ _ _ _ hb => execSensorRead_answers hb⟩

end Sys2Proof.Machine
end

section
/-!
PROOFS. What each command may change, said once for all commands: the facets of the parts that the table of `touches` names
for it, and those by which faults are announced. From it the frame of every command (02 R70, 04 R145, 12 R576, 19 R904).
-/
namespace Sys2Proof.Machine
open Sys2Proof Sys2Proof.Safety

/-- The facets that no frame speaks of: what announces a fault and what has left the part, and the narrower facets, of which
a frame names the whole part. -/
def unframed : List Facet :=
  [.fresh, .sent, .supply, .fuse, .lifecycle, .flt, .holds, .status, .net, .sv, .disc, .weft, .bea]

/-- All parts that a frame speaks of. -/
def allParts : List Safety.Part :=
  [.pins, .straps, .live, .pwr, .standby, .clk, .boot, .test, .otp, .keys, .ldg, .sens, .time, .scene, .mem, .xb, .sram,
   .adm, .amb, .bri, .mark, .aud, .bob, .card, .dlg]

/-- The facets that a command may change by the table of `touches`; where the table names no parts, those of every part. The
ruler, the queue and the unit are never among them. -/
def mayChange (c : Instr) : List Facet := unframed ++ ((touches c).getD allParts).map Part.facet

theorem Part.facet_injective : Function.Injective Part.facet := by
  intro p q h
  cases p <;> cases q <;> cases h <;> rfl

theorem Part.facet_notMem_unframed (p : Safety.Part) : Part.facet p ∉ unframed := by
  cases p <;> decide

/-- `Only` of a list whose facets the command may all change. -/
theorem Only.inMayChange {W : List Facet} {s t : State} {c : Instr} (h : Only W s t)
    (w : W.all (fun f => decide (f ∈ mayChange c)) = true) : Only (mayChange c) s t :=
  fun f hf => h f fun hW => hf (of_decide_eq_true (List.all_eq_true.1 w f hW))

/-- No command changes more than the table lets it: by its `_only` lemma, command by command. -/
theorem exec_only {c : Instr} {s t : State} (h : exec c s = .next t) : Only (mayChange c) s t := by
  cases c with
  | aonOn => exact (execAonOn_only (h := h)).inMayChange rfl
  | fusePairDone => exact (execFusePairDone_only (h := h)).inMayChange rfl
  | fuseSequenceTempWaitEnd => exact (execFuseSequenceTempWaitEnd_only (h := h)).inMayChange rfl
  | d1d2SwitchOn => exact (execD1d2SwitchOn_only (h := h)).inMayChange rfl
  | strapPass => exact (execStrapPass_only (h := h)).inMayChange rfl
  | vinBrownout => exact (execVinBrownout_only (h := h)).inMayChange rfl
  | railBrownout => exact (execRailBrownout_only (h := h)).inMayChange rfl
  | brownoutRestart => exact (execBrownoutRestart_only (h := h)).inMayChange rfl
  | standbyBrownout => exact (execStandbyBrownout_only (h := h)).inMayChange rfl
  | aonOff => exact (execAonOff_only (h := h)).inMayChange rfl
  | resetNAssert => exact (execResetNAssert_only (h := h)).inMayChange rfl
  | resetNRelease => exact (execResetNRelease_only (h := h)).inMayChange rfl
  | bankRemeasure => exact (execBankRemeasure_only (h := h)).inMayChange rfl
  | domainSwitchOn => exact (execDomainSwitchOn_only (h := h)).inMayChange rfl
  | domainPowerGood => exact (execDomainPowerGood_only (h := h)).inMayChange rfl
  | domainSwitchTimeout => exact (execDomainSwitchTimeout_only (h := h)).inMayChange rfl
  | domainRetry => exact (execDomainRetry_only (h := h)).inMayChange rfl
  | domainGateOff => exact (execDomainGateOff_only (h := h)).inMayChange rfl
  | vcoreInitialSet => exact (execVcoreInitialSet_only (h := h)).inMayChange rfl
  | ageingMeasure => exact (execAgeingMeasure_only (h := h)).inMayChange rfl
  | mdllLock => exact (execMdllLock_only (h := h)).inMayChange rfl
  | bootCheckDone => exact (execBootCheckDone_only (h := h)).inMayChange rfl
  | mdllLossOfLock => exact (execMdllLossOfLock_only (h := h)).inMayChange rfl
  | mdllLockTimeout => exact (execMdllLockTimeout_only (h := h)).inMayChange rfl
  | referenceEdgeMissing => exact (execReferenceEdgeMissing_only (h := h)).inMayChange rfl
  | referenceRecheck => exact (execReferenceRecheck_only (h := h)).inMayChange rfl
  | slowCrystalConfirm => exact (execSlowCrystalConfirm_only (h := h)).inMayChange rfl
  | slowClockFault => exact (execSlowClockFault_only (h := h)).inMayChange rfl
  | slowOscTrim => exact (execSlowOscTrim_only (h := h)).inMayChange rfl
  | slowCrystalRecheck => exact (execSlowCrystalRecheck_only (h := h)).inMayChange rfl
  | standbySlowCrystalStop => exact (execStandbySlowCrystalStop_only (h := h)).inMayChange rfl
  | seqWatchdogExpiry => exact (execSeqWatchdogExpiry_only (h := h)).inMayChange rfl
  | dramTrainingDone => exact (execDramTrainingDone_only (h := h)).inMayChange rfl
  | weftCensusComplete => exact (execWeftCensusComplete_only (h := h)).inMayChange rfl
  | strapRereadPass => exact (execStrapRereadPass_only (h := h)).inMayChange rfl
  | strapConfirmRead => exact (execStrapConfirmRead_only (h := h)).inMayChange rfl
  | liveStrapRead => exact (execLiveStrapRead_only (h := h)).inMayChange rfl
  | livePinSample => exact (execLivePinSample_only (h := h)).inMayChange rfl
  | selftestHold2s => exact (execSelftestHold2s_only (h := h)).inMayChange rfl
  | selftestHold10s => exact (execSelftestHold10s_only (h := h)).inMayChange rfl
  | invisibleSuiteDone => exact (execInvisibleSuiteDone_only (h := h)).inMayChange rfl
  | visibleStepAdvance => exact (execVisibleStepAdvance_only (h := h)).inMayChange rfl
  | visibleSequenceEnd => exact (execVisibleSequenceEnd_only (h := h)).inMayChange rfl
  | testSliceAbandon => exact (execTestSliceAbandon_only (h := h)).inMayChange rfl
  | eyeMarginRead => exact (execEyeMarginRead_only (h := h)).inMayChange rfl
  | dacSwapCalibrate => exact (execDacSwapCalibrate_only (h := h)).inMayChange rfl
  | romCrcCheck => exact (execRomCrcCheck_only (h := h)).inMayChange rfl
  | otpCheck => exact (execOtpCheck_only (h := h)).inMayChange rfl
  | sensorRead => exact (execSensorRead_only (h := h)).inMayChange rfl
  | tempSiteIgnore => exact (execTempSiteIgnore_only (h := h)).inMayChange rfl
  | standbyPowerDown => exact (execStandbyPowerDown_only (h := h)).inMayChange rfl
  | cardDialogueStandbyLimit => exact (execCardDialogueStandbyLimit_only (h := h)).inMayChange rfl
  | nightStandbyDecision => exact (execNightStandbyDecision_only (h := h)).inMayChange rfl
  | timedWake => exact (execTimedWake_only (h := h)).inMayChange rfl
  | slowListenerMatch => exact (execSlowListenerMatch_only (h := h)).inMayChange rfl
  | wakeCheck => exact (execWakeCheck_only (h := h)).inMayChange rfl
  | moduleInsert => exact (execModuleInsert_only (h := h)).inMayChange rfl
  | moduleIdRead => exact (execModuleIdRead_only (h := h)).inMayChange rfl
  | moduleRemove => exact (execModuleRemove_only (h := h)).inMayChange rfl
  | linkUp => exact (execLinkUp_only (h := h)).inMayChange rfl
  | linkDown => exact (execLinkDown_only (h := h)).inMayChange rfl
  | netLinkTimeout => exact (execNetLinkTimeout_only (h := h)).inMayChange rfl
  | portListenEnd => exact (execPortListenEnd_only (h := h)).inMayChange rfl
  | frameReceive => exact (execFrameReceive_only (h := h)).inMayChange rfl
  | macAgeOut => exact (execMacAgeOut_only (h := h)).inMayChange rfl
  | mediaQueueRelease => exact (execMediaQueueRelease_only (h := h)).inMayChange rfl
  | launchTime => exact (execLaunchTime_only (h := h)).inMayChange rfl
  | guardFrame => exact (execGuardFrame_only (h := h)).inMayChange rfl
  | guardSend => exact (execGuardSend_only (h := h)).inMayChange rfl
  | guardLift => exact (execGuardLift_only (h := h)).inMayChange rfl
  | flushFloodEnd => exact (execFlushFloodEnd_only (h := h)).inMayChange rfl
  | routerPortExpiry => exact (execRouterPortExpiry_only (h := h)).inMayChange rfl
  | igmpQuerySend => exact (execIgmpQuerySend_only (h := h)).inMayChange rfl
  | igmpStateReport => exact (execIgmpStateReport_only (h := h)).inMayChange rfl
  | igmpQueryAnswer => exact (execIgmpQueryAnswer_only (h := h)).inMayChange rfl
  | sdpExpiry => exact (execSdpExpiry_only (h := h)).inMayChange rfl
  | netSdpTimeout => exact (execNetSdpTimeout_only (h := h)).inMayChange rfl
  | senderTimeout => exact (execSenderTimeout_only (h := h)).inMayChange rfl
  | arpProbe => exact (execArpProbe_only (h := h)).inMayChange rfl
  | addressClaim => exact (execAddressClaim_only (h := h)).inMayChange rfl
  | positionalAddressRetry => exact (execPositionalAddressRetry_only (h := h)).inMayChange rfl
  | statusRecordLaunch => exact (execStatusRecordLaunch_only (h := h)).inMayChange rfl
  | announce => exact (execAnnounce_only (h := h)).inMayChange rfl
  | sync => exact (execSync_only (h := h)).inMayChange rfl
  | followUp => exact (execFollowUp_only (h := h)).inMayChange rfl
  | followUpTimeout => exact (execFollowUpTimeout_only (h := h)).inMayChange rfl
  | delayReq => exact (execDelayReq_only (h := h)).inMayChange rfl
  | delayResp => exact (execDelayResp_only (h := h)).inMayChange rfl
  | masterLoss => exact (execMasterLoss_only (h := h)).inMayChange rfl
  | servoRangeTimeout => exact (execServoRangeTimeout_only (h := h)).inMayChange rfl
  | timeNomasterTimeout => exact (execTimeNomasterTimeout_only (h := h)).inMayChange rfl
  | followerStepTimeout => exact (execFollowerStepTimeout_only (h := h)).inMayChange rfl
  | beatInconsistentTimeout => exact (execBeatInconsistentTimeout_only (h := h)).inMayChange rfl
  | leadChangeHoldTimeout => exact (execLeadChangeHoldTimeout_only (h := h)).inMayChange rfl
  | reedBeat => exact (execReedBeat_only (h := h)).inMayChange rfl
  | refreshStart => exact (execRefreshStart_only (h := h)).inMayChange rfl
  | pickStart => exact (execPickStart_only (h := h)).inMayChange rfl
  | blockLock => exact (execBlockLock_only (h := h)).inMayChange rfl
  | blockLockLoss => exact (execBlockLockLoss_only (h := h)).inMayChange rfl
  | hello => exact (execHello_only (h := h)).inMayChange rfl
  | helloSend => exact (execHelloSend_only (h := h)).inMayChange rfl
  | helloTimeout => exact (execHelloTimeout_only (h := h)).inMayChange rfl
  | svLinkTimeout => exact (execSvLinkTimeout_only (h := h)).inMayChange rfl
  | markReqSend => exact (execMarkReqSend_only (h := h)).inMayChange rfl
  | markReq => exact (execMarkReq_only (h := h)).inMayChange rfl
  | markRsp => exact (execMarkRsp_only (h := h)).inMayChange rfl
  | markBeat => exact (execMarkBeat_only (h := h)).inMayChange rfl
  | pos => exact (execPos_only (h := h)).inMayChange rfl
  | posSend => exact (execPosSend_only (h := h)).inMayChange rfl
  | census => exact (execCensus_only (h := h)).inMayChange rfl
  | censusSend => exact (execCensusSend_only (h := h)).inMayChange rfl
  | censusLapse => exact (execCensusLapse_only (h := h)).inMayChange rfl
  | lead => exact (execLead_only (h := h)).inMayChange rfl
  | leadSend => exact (execLeadSend_only (h := h)).inMayChange rfl
  | leadSettle => exact (execLeadSettle_only (h := h)).inMayChange rfl
  | becomeActingLead => exact (execBecomeActingLead_only (h := h)).inMayChange rfl
  | leadLost => exact (execLeadLost_only (h := h)).inMayChange rfl
  | noLeadTimeout => exact (execNoLeadTimeout_only (h := h)).inMayChange rfl
  | positionInconsistency => exact (execPositionInconsistency_only (h := h)).inMayChange rfl
  | beat => exact (execBeat_only (h := h)).inMayChange rfl
  | fault => exact (execFault_only (h := h)).inMayChange rfl
  | faultKnotSend => exact (execFaultKnotSend_only (h := h)).inMayChange rfl
  | sceneChangeStart => exact (execSceneChangeStart_only (h := h)).inMayChange rfl
  | prepareRepeat => exact (execPrepareRepeat_only (h := h)).inMayChange rfl
  | prepare => exact (execPrepare_only (h := h)).inMayChange rfl
  | readySend => exact (execReadySend_only (h := h)).inMayChange rfl
  | ready => exact (execReady_only (h := h)).inMayChange rfl
  | sceneDecision => exact (execSceneDecision_only (h := h)).inMayChange rfl
  | commitRepeat => exact (execCommitRepeat_only (h := h)).inMayChange rfl
  | commit => exact (execCommit_only (h := h)).inMayChange rfl
  | commitEcho => exact (execCommitEcho_only (h := h)).inMayChange rfl
  | echoPreparedCommit => exact (execEchoPreparedCommit_only (h := h)).inMayChange rfl
  | commitDeadlineMiss => exact (execCommitDeadlineMiss_only (h := h)).inMayChange rfl
  | unsolicitedReady => exact (execUnsolicitedReady_only (h := h)).inMayChange rfl
  | streamLossTimeout => exact (execStreamLossTimeout_only (h := h)).inMayChange rfl
  | memRead => exact (execMemRead_only (h := h)).inMayChange rfl
  | memWriteWhole => exact (execMemWriteWhole_only (h := h)).inMayChange rfl
  | memWritePartial => exact (execMemWritePartial_only (h := h)).inMayChange rfl
  | scrubLine => exact (execScrubLine_only (h := h)).inMayChange rfl
  | xbTransaction => exact (execXbTransaction_only (h := h)).inMayChange rfl
  | xbHang => exact (execXbHang_only (h := h)).inMayChange rfl
  | weftPinTrip => exact (execWeftPinTrip_only (h := h)).inMayChange rfl
  | weftSdoMismatch => exact (execWeftSdoMismatch_only (h := h)).inMayChange rfl
  | weftRetest => exact (execWeftRetest_only (h := h)).inMayChange rfl
  | wearUpdate => exact (execWearUpdate_only (h := h)).inMayChange rfl
  | wearFlush => exact (execWearFlush_only (h := h)).inMayChange rfl
  | ledgerProgramDone => exact (execLedgerProgramDone_only (h := h)).inMayChange rfl
  | ambientConvert => exact (execAmbientConvert_only (h := h)).inMayChange rfl
  | ambientReport => exact (execAmbientReport_only (h := h)).inMayChange rfl
  | brightTargetCompute => exact (execBrightTargetCompute_only (h := h)).inMayChange rfl
  | bright => exact (execBright_only (h := h)).inMayChange rfl
  | markerUpdate => exact (execMarkerUpdate_only (h := h)).inMayChange rfl
  | markerRetest => exact (execMarkerRetest_only (h := h)).inMayChange rfl
  | supplyShortRetry => exact (execSupplyShortRetry_only (h := h)).inMayChange rfl
  | retryCountClear => exact (execRetryCountClear_only (h := h)).inMayChange rfl
  | markerThermalReduce => exact (execMarkerThermalReduce_only (h := h)).inMayChange rfl
  | vledOutOfRange => exact (execVledOutOfRange_only (h := h)).inMayChange rfl
  | vledRestore => exact (execVledRestore_only (h := h)).inMayChange rfl
  | nonAudioEnd => exact (execNonAudioEnd_only (h := h)).inMayChange rfl
  | audioFetch => exact (execAudioFetch_only (h := h)).inMayChange rfl
  | audioSenderTimeout => exact (execAudioSenderTimeout_only (h := h)).inMayChange rfl
  | levelChangeApply => exact (execLevelChangeApply_only (h := h)).inMayChange rfl
  | audNosourceTimeout => exact (execAudNosourceTimeout_only (h := h)).inMayChange rfl
  | bobbinFrame => exact (execBobbinFrame_only (h := h)).inMayChange rfl
  | bobbinFrameGap => exact (execBobbinFrameGap_only (h := h)).inMayChange rfl
  | xon => exact (execXon_only (h := h)).inMayChange rfl
  | xoff => exact (execXoff_only (h := h)).inMayChange rfl
  | xoffTimeout => exact (execXoffTimeout_only (h := h)).inMayChange rfl
  | answerSend => exact (execAnswerSend_only (h := h)).inMayChange rfl
  | answerDrop => exact (execAnswerDrop_only (h := h)).inMayChange rfl
  | rollcallSlot => exact (execRollcallSlot_only (h := h)).inMayChange rfl
  | rollcallSend => exact (execRollcallSend_only (h := h)).inMayChange rfl
  | rollcallResend => exact (execRollcallResend_only (h := h)).inMayChange rfl
  | beaconFrame => exact (execBeaconFrame_only (h := h)).inMayChange rfl
  | cardPresent => exact (execCardPresent_only (h := h)).inMayChange rfl
  | ts => exact (execTs_only (h := h)).inMayChange rfl
  | tsTimeout => exact (execTsTimeout_only (h := h)).inMayChange rfl
  | atrComplete => exact (execAtrComplete_only (h := h)).inMayChange rfl
  | ppsEcho => exact (execPpsEcho_only (h := h)).inMayChange rfl
  | cardCharacterTimeout => exact (execCardCharacterTimeout_only (h := h)).inMayChange rfl
  | cardRemoval => exact (execCardRemoval_only (h := h)).inMayChange rfl
  | cardReactivate => exact (execCardReactivate_only (h := h)).inMayChange rfl
  | select => exact (execSelect_only (h := h)).inMayChange rfl
  | helloCertificate => exact (execHelloCertificate_only (h := h)).inMayChange rfl
  | helloState => exact (execHelloState_only (h := h)).inMayChange rfl
  | getResponse => exact (execGetResponse_only (h := h)).inMayChange rfl
  | order => exact (execOrder_only (h := h)).inMayChange rfl
  | ledgerRetagDone => exact (execLedgerRetagDone_only (h := h)).inMayChange rfl
  | result => exact (execResult_only (h := h)).inMayChange rfl
  | dialogueTimeout => exact (execDialogueTimeout_only (h := h)).inMayChange rfl
  | tapInstructionLoad => exact (execTapInstructionLoad_only (h := h)).inMayChange rfl
  | faultRaise => exact (execFaultRaise_only (h := h)).inMayChange rfl
  | faultClear => exact (execFaultClear_only (h := h)).inMayChange rfl
  | faultHandlerEnd => exact (execFaultHandlerEnd_only (h := h)).inMayChange rfl
  | handlerTimeout => exact (execHandlerTimeout_only (h := h)).inMayChange rfl
  | s3HoldoffEnd => exact (execS3HoldoffEnd_only (h := h)).inMayChange rfl
  | ledgerMirror => exact (execLedgerMirror_only (h := h)).inMayChange rfl
  | cardAbsenceConfirmed => exact (execCardAbsenceConfirmed_only (h := h)).inMayChange rfl
  | memoryInitComplete => exact (execMemoryInitComplete_only (h := h)).inMayChange rfl
  | knotSequenceExpiry => exact (execKnotSequenceExpiry_only (h := h)).inMayChange rfl
  | posClaimExpiry => exact (execPosClaimExpiry_only (h := h)).inMayChange rfl
  | leadClaimLapse => exact (execLeadClaimLapse_only (h := h)).inMayChange rfl
  | flowControlSend => exact (execFlowControlSend_only (h := h)).inMayChange rfl
  | buckPhaseChange => exact (execBuckPhaseChange_only (h := h)).inMayChange rfl

/-- Settles O59: a part that the table does not name is none of the facets that the command may change. -/
theorem commandsKeepTheirFrame : Obligations.CommandsKeepTheirFrame := by
  unfold Obligations.CommandsKeepTheirFrame
  intro c s t h l hl p hp
  refine (exec_only h).samePart p ?_
  simp [mayChange, hl, hp, Part.facet_notMem_unframed, Part.facet_injective.eq_iff]

end Sys2Proof.Machine
end

section
/-!
PROOFS. How a bring-up begins, and what the loss of the core, of AON, or of all but the fault ring leaves (04 R141, R142,
R145; 06 R221, R222, R231, R235; 02 R70).
-/
namespace Sys2Proof.Machine
open Sys2Proof Sys2Proof.Safety

/-! ### Domains of a core that is lost (04 R142, 06 R222) -/

/-- Rebuilt with D0 alone, the domains D1 to D11 are off. -/
theorem domOn_of_mapIdx {s : State} {l : List DomSt} {f : DomSt → DomSt}
    (h : s.pwr.dom = l.mapIdx fun i x => if i = 0 then f x else {}) {d : Nat} (hd : 1 ≤ d) : domOn s d = false := by
  have hoff : domAt s d = {} := by
    rw [domAt, h, List.getD_eq_getElem?_getD, List.getElem?_mapIdx]
    cases l[d]? with
    | none => rfl
    | some x => exact if_neg (by omega)
  simp [domOn, hoff]

theorem loseCore_domOn (s : State) {d : Nat} (hd : 1 ≤ d) : domOn (loseCore s) d = false :=
  domOn_of_mapIdx (l := s.pwr.dom) (f := id) rfl hd

/-! ### A bring-up begins (06 R221, R222, R231) -/

@[simp] theorem reraiseKept_frame (d : BitVec 32) (s : State) :
    (reraiseKept d s).pwr = s.pwr ∧ (reraiseKept d s).boot = s.boot ∧ (reraiseKept d s).otp = s.otp ∧
      (reraiseKept d s).keys = s.keys := by
  have h : Only [.flt, .status, .net, .sv, .disc, .weft, .bea] s (reraiseKept d s) := by simp
  exact ⟨h .pwr (by decide), h .boot (by decide), h .otp (by decide), h .keys (by decide)⟩

@[simp] theorem measureBanks_frame (m : BankMv) (s : State) :
    (measureBanks m s).boot = s.boot ∧ (measureBanks m s).otp = s.otp ∧ (measureBanks m s).keys = s.keys := by
  have h : Only [.pwr, .flt, .status, .net, .sv, .disc, .weft, .bea] s (measureBanks m s) := by simp
  exact ⟨h .boot (by decide), h .otp (by decide), h .keys (by decide)⟩

@[simp] theorem measureBank_dom (b : Bank) (mv : Nat) (s : State) : (measureBank b mv s).pwr.dom = s.pwr.dom := by
  cases b <;> simp [measureBank, setBank, apply_ite State.pwr]

@[simp] theorem measureBanks_dom (m : BankMv) (s : State) : (measureBanks m s).pwr.dom = s.pwr.dom := by
  simp [measureBanks]

@[simp] theorem readPhase_frame (s : State) :
    (readPhase s).boot = s.boot ∧ (readPhase s).otp = s.otp ∧ (readPhase s).pwr = s.pwr := by
  have h : Only [.keys, .lifecycle, .flt, .status, .net, .sv, .disc, .weft, .bea] s (readPhase s) := by simp
  exact ⟨h .boot (by decide), h .otp (by decide), h .pwr (by decide)⟩

@[simp] theorem readPhase_debug (s : State) : (readPhase s).keys.debug = s.keys.debug := by
  unfold readPhase
  dsimp only
  split <;> simp [verifyPair]

@[simp] theorem readFuses_pwr (s : State) : (readFuses s).pwr = s.pwr := by
  have h : Only [.boot, .otp, .keys, .lifecycle, .flt, .status, .net, .sv, .disc, .weft, .bea] s (readFuses s) := by simp
  exact h .pwr (by decide)

@[simp] theorem readFuses_boot (s : State) : (readFuses s).boot = { s.boot with shadowRead := true } := by
  simp [readFuses, apply_ite State.boot]

/-- The shadow is read from the fuses (06 R231). -/
@[simp] theorem readFuses_otp (s : State) : (readFuses s).otp = { s.otp with shadow := s.otp.fuse } := by
  simp [readFuses, apply_ite State.otp]

@[simp] theorem readFuses_debug (s : State) : (readFuses s).keys.debug = s.keys.debug := by
  simp [readFuses, apply_ite State.keys, apply_ite Keys.debug]

/-- What follows the reset of the core at a bring-up: the kept faults, the banks and the fuses. -/
theorem readBringUp_keeps (d : BitVec 32) (banks : BankMv) (u : State) :
    Only [.pwr, .boot, .otp, .keys, .lifecycle, .flt, .status, .net, .sv, .disc, .weft, .bea] u
      (readFuses (measureBanks banks (reraiseKept d u))) := by
  simp

@[simp] theorem flushQueue_frame (s : State) :
    (flushQueue s).now = s.now ∧ (flushQueue s).pins = s.pins ∧ (flushQueue s).pwr = s.pwr ∧
      (flushQueue s).otp = s.otp ∧ (flushQueue s).keys = s.keys ∧ (flushQueue s).flt.bringUp = s.flt.bringUp := by
  have h : Only [.flt] s (flushQueue s) := by simp
  exact ⟨h .now (by decide), h .pins (by decide), h .pwr (by decide), h .otp (by decide), h .keys (by decide),
    (h .holds (by decide)).1⟩

@[simp] theorem endActive_frame (s : State) :
    (endActive s).now = s.now ∧ (endActive s).pins = s.pins ∧ (endActive s).pwr = s.pwr ∧
      (endActive s).otp = s.otp ∧ (endActive s).keys = s.keys ∧ (endActive s).flt.bringUp = s.flt.bringUp := by
  have h : Only [.flt] s (endActive s) := by simp
  exact ⟨h .now (by decide), h .pins (by decide), h .pwr (by decide), h .otp (by decide), h .keys (by decide),
    (h .holds (by decide)).1⟩

@[simp] theorem forgetModules_frame (kind : BootKind) (s : State) :
    (forgetModules kind s).now = s.now ∧ (forgetModules kind s).pins = s.pins ∧
      (forgetModules kind s).pwr = s.pwr ∧ (forgetModules kind s).otp = s.otp ∧
      (forgetModules kind s).keys = s.keys ∧ (forgetModules kind s).flt = s.flt := by
  have h : Only [.net] s (forgetModules kind s) := by simp
  exact ⟨h .now (by decide), h .pins (by decide), h .pwr (by decide), h .otp (by decide), h .keys (by decide),
    h .flt (by decide)⟩

section
variable (kind : BootKind) (cause : Option FaultName) (banks : BankMv) (s : State)

@[simp] theorem beginBringUp_boot : (beginBringUp kind cause banks s).boot =
    { kind := kind, cause := cause, ref := s.now, started := true, shadowRead := true } := by
  simp [beginBringUp, apply_ite State.boot, clearCore, leaveStandby]

@[simp] theorem beginBringUp_otp : (beginBringUp kind cause banks s).otp = { s.otp with shadow := s.otp.fuse } := by
  simp [beginBringUp, apply_ite State.otp, clearCore, leaveStandby]

@[simp] theorem beginBringUp_pins : (beginBringUp kind cause banks s).pins = s.pins := by
  refine (readBringUp_keeps _ banks _ .pins (by decide)).trans ?_
  simp [apply_ite State.pins, clearCore, leaveStandby]

@[simp] theorem beginBringUp_debug : (beginBringUp kind cause banks s).keys.debug = s.keys.debug := by
  simp [beginBringUp, apply_ite State.keys, clearCore, leaveStandby]

@[simp] theorem beginBringUp_running : (beginBringUp kind cause banks s).clk.running = false := by
  refine (congrArg Clk.running (readBringUp_keeps _ banks _ .clk (by decide))).trans ?_
  simp [apply_ite State.clk]

@[simp] theorem beginBringUp_aonOn : (beginBringUp kind cause banks s).pwr.aonOn = s.pwr.aonOn := by
  refine (readBringUp_keeps _ banks _ .supply (by decide)).2.trans ?_
  simp [apply_ite State.pwr, clearCore, leaveStandby]

@[simp] theorem beginBringUp_bringUp : (beginBringUp kind cause banks s).flt.bringUp = s.flt.bringUp + 1 := by
  refine (readBringUp_keeps _ banks _ .holds (by decide)).1.trans ?_
  simp [apply_ite State.flt, apply_ite Flt.bringUp, clearCore, leaveStandby]

@[simp] theorem beginBringUp_resetN_restarts : (beginBringUp .resetN cause banks s).flt.restarts = [] :=
  (readBringUp_keeps _ banks _ .holds (by decide)).2.2.1

@[simp] theorem beginBringUp_domOn {d : Nat} (hd : 1 ≤ d) : domOn (beginBringUp kind cause banks s) d = false := by
  refine domOn_of_mapIdx (l := s.pwr.dom) (f := fun _ => { phase := .on }) ?_ hd
  simp [beginBringUp, apply_ite State.pwr, clearCore, leaveStandby]

end

/-! ### AON and `RESET_N` (04 R141, R145; 06 R235; 02 R70) -/

/-- Settles O1: AON on begins a bring-up from the state that AON off leaves, which holds the fuses and the flash alone. -/
theorem aonPowersUpAndLosesD0 : Obligations.AonPowersUpAndLosesD0 := by
  unfold Obligations.AonPowersUpAndLosesD0
  refine ⟨?on, ?off⟩
  case on =>
    intro banks testEn s haon
    refine ⟨_, by simp only [exec, execAonOn, haon]; rfl, ?_⟩
    simp +contextual [sampleTestEn, aonLost]
  case off =>
    intro s
    exact ⟨_, rfl, rfl, rfl, rfl, rfl, rfl, rfl, rfl, rfl, rfl, rfl, rfl, rfl, rfl, rfl⟩

@[simp] theorem completePair_frame (s : State) :
    (completePair s).flt = s.flt ∧ (completePair s).clk = s.clk := by
  have h : Only [.otp, .fuse, .keys, .lifecycle] s (completePair s) := by simp
  exact ⟨h .flt (by decide), h .clk (by decide)⟩

/-- With no pair in programming there is none to complete. -/
theorem completePair_of_idle {s : State} (h : s.keys.seq = none) : completePair s = s := by
  simp [completePair, h]

/-- Settles O2: the assertion is the loss of the core and of D0 but for the ring; the release is a bring-up of kind 1. -/
theorem resetClearsAllButRing : Obligations.ResetClearsAllButRing := by
  unfold Obligations.ResetClearsAllButRing
  refine ⟨?assert, ?release⟩
  case assert =>
    intro s haon hout
    refine ⟨_, by simp only [exec, execResetNAssert, haon, hout]; rfl, ?_⟩
    obtain ⟨hflt, hclk⟩ := completePair_frame s
    have hring : (completePair s).flt.ring = s.flt.ring := congrArg Flt.ring hflt
    have hxtal : (completePair s).clk.slowXtal = s.clk.slowXtal := congrArg Clk.slowXtal hclk
    have hsub : (completePair s).clk.substituted = s.clk.substituted := congrArg Clk.substituted hclk
    have hotp (h : s.keys.seq = none) : (completePair s).otp = s.otp := congrArg State.otp (completePair_of_idle h)
    exact ⟨rfl, hring, hxtal, hsub, hotp, rfl, fun _ hd => loseCore_domOn _ hd, rfl, rfl, rfl, rfl, rfl, rfl, rfl, rfl,
      rfl, rfl, rfl, rfl, rfl, rfl, rfl, rfl, rfl, rfl, rfl, rfl, rfl⟩
  case release =>
    intro banks testEn s hin hvin
    refine ⟨beginBringUp .resetN none banks (sampleTestEn testEn (modBoot (fun z => { z with inReset := false }) s)),
      by simp [exec, execResetNRelease, hin, hvin, sampleTestEn], ?_⟩
    simp [sampleTestEn]

end Sys2Proof.Machine
end

section
/-!
PROOFS. The output pins (02 R57, R71, R79, R81, R83, Tables 2.11 and 2.13; 13 R672, R678, Table 13.3; 06 Table 6.3; 19 R902,
R911): which of its sources drives a pin, and what the weft pins and the status pins do then.
-/
namespace Sys2Proof.Machine
open Sys2Proof Sys2Proof.Safety

/-! ### Which source drives a pin -/

theorem lanePin_of_weftPin {p : OutPin} (h : weftPin p = true) : lanePin p = false := by cases p <;> trivial

theorem crystalPin_of_weftPin {p : OutPin} (h : weftPin p = true) : crystalPin p = false := by cases p <;> trivial

theorem standbyPin_of_weftPin {p : OutPin} (h : weftPin p = true) : standbyPin p = false := by cases p <;> trivial

theorem pinsTaken_iff (s : State) : pinsTaken s = true ↔
    s.pins.boundaryScan = false ∧ s.pwr.aonOn = true ∧ s.boot.inReset = false ∧ s.standby.asleep = false := by
  simp [pinsTaken, and_assoc]

theorem scanned_iff (s : State) : scanned s = true ↔
    s.pins.boundaryScan = true ∧ s.pwr.aonOn = true ∧ s.boot.inReset = false ∧ s.standby.asleep = false := by
  simp [scanned, and_assoc]

theorem scanned_of_asleep {s : State} (h : s.standby.asleep = true) : scanned s = false := by simp [scanned, h]

theorem scanned_of_pinsTaken {s : State} (h : pinsTaken s = true) : scanned s = false := by
  obtain ⟨hscan, -⟩ := (pinsTaken_iff s).1 h
  simp [scanned, hscan]

/-- Without AON, in reset, and in standby but for the pins that work there, a pin is at its reset state (R57, R71, R79). -/
theorem pinDrive_of_reset {p : OutPin} {s : State} (hc : crystalPin p = false)
    (h : s.pwr.aonOn = false ∨ s.boot.inReset = true ∨ (s.standby.asleep = true ∧ standbyPin p = false)) :
    pinDrive s p = resetDrive s.pwr.aonOn p := by
  rw [pinDrive, if_neg (by simp [hc]), if_pos (by simpa [or_assoc] using h)]

/-- The boundary-scan cells drive the pins of the chain and the AC cells (02 R83). -/
theorem pinDrive_of_scanned {p : OutPin} {s : State} (hc : crystalPin p = false) (hs : scanned s = true)
    (hp : outOnChain p = true ∨ outAcScan p = true) : pinDrive s p = .scan := by
  obtain ⟨-, haon, hreset, hawake⟩ := (scanned_iff s).1 hs
  simp [pinDrive, hc, haon, hreset, hawake, hs, hp]

/-- A weft pin that no boundary scan has is at its reset state, or does what its block says. -/
theorem pinDrive_weft_cases {p : OutPin} {s : State} (hp : weftPin p = true) (hs : scanned s = false) :
    pinDrive s p = resetDrive s.pwr.aonOn p ∨ (weftTaken s p = true ∧ pinDrive s p = weftDrive s p) := by
  by_cases hr : s.pwr.aonOn = false ∨ s.boot.inReset = true ∨ (s.standby.asleep = true ∧ standbyPin p = false)
  case pos => exact .inl (pinDrive_of_reset (crystalPin_of_weftPin hp) hr)
  case neg =>
    obtain ⟨haon, hreset, hawake⟩ : s.pwr.aonOn = true ∧ s.boot.inReset = false ∧ s.standby.asleep = false := by
      simpa [standbyPin_of_weftPin hp] using hr
    have hdrive : pinDrive s p = if bankUsable s .weft && weftTaken s p then weftDrive s p else resetDrive true p := by
      simp [pinDrive, hp, hs, lanePin_of_weftPin hp, crystalPin_of_weftPin hp, haon, hreset, hawake]
    rw [hdrive, haon]
    split
    case isTrue h => exact .inr ⟨(Bool.and_eq_true_iff.1 h).2, rfl⟩
    case isFalse => exact .inl rfl

/-- With the pins taken, a weft pin of a usable bank that its block has taken does what the block says. -/
theorem pinDrive_weft_taken {p : OutPin} {s : State} (hp : weftPin p = true) (ht : pinsTaken s = true)
    (hbank : bankUsable s .weft = true) (htaken : weftTaken s p = true) : pinDrive s p = weftDrive s p := by
  obtain ⟨-, haon, hreset, hawake⟩ := (pinsTaken_iff s).1 ht
  simp [pinDrive, hp, lanePin_of_weftPin hp, crystalPin_of_weftPin hp, scanned_of_pinsTaken ht, haon, hreset, hawake,
    hbank, htaken]

/-- A status pin, which works in standby too, does what its state says (02 R71). -/
theorem pinDrive_status {p : OutPin} {s : State} (hp : standbyPin p = true) (hs : scanned s = false)
    (haon : s.pwr.aonOn = true) (hreset : s.boot.inReset = false) (hbank : bankUsable s .misc = true) :
    pinDrive s p = miscDrive s p := by
  have hkind : crystalPin p = false ∧ lanePin p = false ∧ weftPin p = false := by
    cases p <;> trivial
  obtain ⟨hc, hl, hw⟩ := hkind
  simp [pinDrive, hc, hl, hw, hp, hs, haon, hreset, hbank]

/-! ### The weft pins (13 R672, R678, Table 13.3) -/

theorem aonHoldsPins_of_running {s : State} (h : s.clk.running = true) : aonHoldsPins s = false := by
  simp [aonHoldsPins, h]

/-- A pin of a tripped port or of its group is high-impedance also at its reset state (13 R678). -/
theorem pinDrive_of_portHiZ {p : OutPin} {n : Fin 64} {s : State} (hp : p = .wpClk n ∨ p = .wpSdo n)
    (hs : scanned s = false) (hz : portHiZ s n.val = true) : pinDrive s p = .hiZ := by
  have hweft : weftPin p = true := by rcases hp with rfl | rfl <;> rfl
  rcases pinDrive_weft_cases hweft hs with h | ⟨-, h⟩ <;> rw [h]
  · rcases hp with rfl | rfl <;> rfl
  · rcases hp with rfl | rfl <;> exact if_pos hz

/-- In safe state `WGg_GCLK` rests high (13 R672, 19 R902). -/
theorem gclkDrive_of_safeState {s : State} {g : Nat} (hz : (s.weft.group.getD g {}).hiZ = false) (h : safeState s = true) :
    gclkDrive s g = .high := by
  rw [gclkDrive, hz]
  simp [h]

/-- `WGg_ROWEN_N` is high where no row is lit. -/
theorem rowenDrive_of_rowsOff {s : State} {g : Nat} (hz : (s.weft.group.getD g {}).hiZ = false)
    (h : safeState s = true ∨ rowsOff s = true) : rowenDrive s g = .high := by
  rw [rowenDrive, hz]
  rcases h with h | h <;> simp [h, level]

theorem rowsOff_eq_false_iff (s : State) : rowsOff s = false ↔
    safeState s = false ∧ s.live.blanked = false ∧ enteringStandby s = false ∧ domOn s 8 = true := by
  simp [rowsOff, and_assoc]

section
variable {s : State} {g r j x : Nat} {q : Ticks} {t : WTiming}

theorem inPick_eq (hpick : s.weft.pick = some (r, j, q)) (htiming : s.weft.timing = some t) :
    inPick s = some (j, s.now - q, nsT (500 * t.g)) := by
  simp [inPick, hpick, htiming]

/-- After the gap the row of the pick is supplied. -/
theorem rowOn_of_gap (hpick : s.weft.pick = some (r, j, q)) (htiming : s.weft.timing = some t)
    (hgap : q + nsT (500 * t.g) ≤ s.now) : rowOn s = true := by
  simpa only [rowOn, inPick_eq hpick htiming, decide_eq_true_eq] using
    Nat.le_add_right_of_le (Nat.le_sub_of_add_le' hgap)

/-- After the gap, of 500 ns at least, the row of the pick is addressed. -/
theorem rowAddress_of_gap (hpick : s.weft.pick = some (r, j, q)) (htiming : s.weft.timing = some t) (hg : 1 ≤ t.g)
    (hgap : q + nsT (500 * t.g) ≤ s.now) : rowAddress s = j := by
  have hlast : nsT 100 ≤ nsT (500 * t.g) := Nat.mul_le_mul_left 3200 (by omega)
  simp only [rowAddress, inPick_eq hpick htiming]
  exact if_pos (hlast.trans (Nat.le_sub_of_add_le' hgap))

/-- A pick past its gap lights the row: `WGg_ROWEN_N` is low for a group that nothing blanks. -/
theorem rowenDrive_of_rowOn (hz : (s.weft.group.getD g {}).hiZ = false) (hcensus : groupCensus s g = false)
    (hblank : groupBlanked s g = false) (hoff : rowsOff s = false) (hon : rowOn s = true) : rowenDrive s g = .low := by
  rw [rowenDrive, hz]
  simp [hcensus, hblank, hoff, hon, ((rowsOff_eq_false_iff s).1 hoff).1, level]

/-- In the active part of a pick `WGg_GCLK` lights in class S, and else clocks up to its last cycle (13 Table 13.3). -/
theorem gclkDrive_of_active (hz : (s.weft.group.getD g {}).hiZ = false) (hcensus : groupCensus s g = false)
    (hoff : rowsOff s = false) (htiming : s.weft.timing = some t) (hactive : s.weft.activeAt = some x) :
    gclkDrive s g =
      if isClassS s then .carries
      else if x + lightClocks s g ≤ s.clk.count then .high else level (gclkLevel t.d (s.clk.count - x)) := by
  obtain ⟨hsafe, -, hentering, -⟩ := (rowsOff_eq_false_iff s).1 hoff
  rw [gclkDrive, hz]
  simp [hcensus, hsafe, hentering, htiming, hactive]

end

/-! ### The status pins (06 Table 6.3, 19 R911) -/

theorem faultLow_of_active {s : State} {a : Active} (haon : s.pwr.aonOn = true) (ha : a ∈ s.flt.active)
    (hsev : 2 ≤ (sevOf a.f).val) : faultLow s = true := by
  have hany : (s.flt.active.any fun b => decide (2 ≤ (sevOf b.f).val)) = true :=
    List.any_eq_true.2 ⟨a, ha, decide_eq_true hsev⟩
  cases hsleep : s.standby.asleep <;> simp [faultLow, haon, hsleep, hany]

theorem stateCode_of_asleep {s : State} (haon : s.pwr.aonOn = true) (hreset : s.boot.inReset = false)
    (hread : s.boot.shadowRead = true) (hsleep : s.standby.asleep = true) : stateCode s = 5 := by
  simp [stateCode, haon, hreset, hread, hsleep]

theorem stateCode_of_safeState {s : State} (ht : pinsTaken s = true) (hread : s.boot.shadowRead = true)
    (hsafe : safeState s = true) : stateCode s = 6 := by
  obtain ⟨-, haon, hreset, hawake⟩ := (pinsTaken_iff s).1 ht
  simp [stateCode, haon, hreset, hread, hawake, hsafe]

/-- Settles O47: each pin's source is found first, then what that source says of the pin. -/
theorem outputPinsFollowTheState : Obligations.OutputPinsFollowTheState := by
  unfold Obligations.OutputPinsFollowTheState
  refine ⟨?scan, ?reset, ?standby, ?safe, ?held, ?tripped, ?blanked, ?pick, ?fault, ?asleep, ?safeStatus⟩
  case scan => exact fun p s hs hc hp => pinDrive_of_scanned hc hs hp
  case reset => exact fun p s hc h => pinDrive_of_reset hc (h.imp_right .inl)
  case standby =>
    intro p s hc haon hsleep hp
    rw [pinDrive_of_reset hc (.inr (.inr ⟨hsleep, hp⟩)), haon]
  case safe =>
    intro g s ht hbank hheld hsafe hdom hz
    have htaken : ((domOn s (groupDom g.val) || restartSafe s) && !aonHoldsPins s) = true := by simp [hheld, hdom]
    exact ⟨(pinDrive_weft_taken (p := .wgGclk g) rfl ht hbank htaken).trans (gclkDrive_of_safeState hz hsafe),
      (pinDrive_weft_taken (p := .wgRowenN g) rfl ht hbank htaken).trans (rowenDrive_of_rowsOff hz (.inl hsafe))⟩
  case held =>
    intro p s hs hp hheld
    rcases pinDrive_weft_cases hp hs with h | ⟨htaken, -⟩
    · exact h
    · cases p <;> simp [weftTaken, hheld] at htaken
  case tripped => exact fun p s hs hz => ⟨pinDrive_of_portHiZ (.inl rfl) hs hz, pinDrive_of_portHiZ (.inr rfl) hs hz⟩
  case blanked =>
    intro g s ht hbank hrun hdom hblank hz
    have htaken : weftTaken s (.wgRowenN g) = true := by simp [weftTaken, hdom, aonHoldsPins_of_running hrun]
    exact (pinDrive_weft_taken rfl ht hbank htaken).trans (rowenDrive_of_rowsOff hz (.inr (by simp [rowsOff, hblank])))
  case pick =>
    intro g r j q x t s ht hbank hrun hdom hcensus hblank hoff hz hpick htiming hg hgap hactive
    have hheld := aonHoldsPins_of_running hrun
    have hrowen : pinDrive s (.wgRowenN g) = rowenDrive s g.val :=
      pinDrive_weft_taken rfl ht hbank (by simp [weftTaken, hdom, hheld])
    have hgclk : pinDrive s (.wgGclk g) = gclkDrive s g.val :=
      pinDrive_weft_taken rfl ht hbank (by simp [weftTaken, hdom, hheld])
    have hlines (i : Fin 5) : pinDrive s (.wgA g i) = weftDrive s (.wgA g i) :=
      pinDrive_weft_taken rfl ht hbank (by simp [weftTaken, hdom, hheld])
    have hlight := hgclk.trans (gclkDrive_of_active hz hcensus hoff htiming hactive)
    refine ⟨hrowen.trans (rowenDrive_of_rowOn hz hcensus hblank hoff (rowOn_of_gap hpick htiming hgap)), ?_, ?_, ?_, ?_⟩
    · intro hclass
      simpa [hclass] using hlight
    · intro hclass hdone
      simpa [hclass, hdone] using hlight
    · intro hclass hlit
      simpa [hclass, Nat.not_le.2 hlit] using hlight
    · intro i
      rw [hlines, weftDrive, hz, rowAddress_of_gap hpick htiming hg hgap]
      rfl
  case fault =>
    intro a s hs haon hreset hbank ha hsev
    rw [pinDrive_status rfl hs haon hreset hbank]
    simp [miscDrive, faultLow_of_active haon ha hsev]
  case asleep =>
    intro s haon hreset hread hbank hsleep
    have hpin {p : OutPin} (hp : standbyPin p = true) : pinDrive s p = miscDrive s p :=
      pinDrive_status hp (scanned_of_asleep hsleep) haon hreset hbank
    have hcode := stateCode_of_asleep haon hreset hread hsleep
    rw [hpin rfl, hpin rfl, hpin rfl, hpin rfl, hpin rfl]
    simp [miscDrive, hcode, bitAt, level, ready, syncedPin, hsleep]
  case safeStatus =>
    intro s ht hread hbank hsafe
    obtain ⟨-, haon, hreset, hawake⟩ := (pinsTaken_iff s).1 ht
    have hpin {p : OutPin} (hp : standbyPin p = true) : pinDrive s p = miscDrive s p :=
      pinDrive_status hp (scanned_of_pinsTaken ht) haon hreset hbank
    have hcode := stateCode_of_safeState ht hread hsafe
    rw [hpin rfl, hpin rfl, hpin rfl, hpin rfl, hpin rfl]
    simp [miscDrive, hcode, bitAt, level, ready, faultLow, haon, hawake, hsafe]

end Sys2Proof.Machine
end

section
/-!
PROOFS. The two passes of a bring-up (03 R92, R94) and the decision after them (R95 to R99, R101): what each part of the decision
leaves of the straps.
-/
namespace Sys2Proof.Machine
open Sys2Proof Sys2Proof.Safety

/-! ### An entry of a list -/

theorem updAt_eq_modify {α : Type} (l : List α) (i : Nat) (f : α → α) : updAt l i f = l.modify i f := by
  induction l generalizing i with
  | nil => simp [updAt]
  | cons x xs ih => cases i <;> simp [updAt, ih]

theorem getD_updAt_self {α : Type} {l : List α} {i : Nat} (f : α → α) (d : α) (h : i < l.length) :
    (updAt l i f).getD i d = f (l.getD i d) := by
  simp [updAt_eq_modify, List.getD_eq_getElem?_getD, h]

/-! ### The code of a pin (R95) -/

theorem bothFirm_eq_some_iff (a b : Decided) (c : Code) : bothFirm a b = some c ↔ a = .firm c ∧ b = .firm c := by
  cases a with
  | marginal => simp [bothFirm]
  | firm x =>
    cases b with
    | marginal => simp [bothFirm]
    | firm y =>
      simp only [bothFirm, Option.ite_none_right_eq_some, Option.some.injEq, Decided.firm.injEq]
      constructor <;> (rintro ⟨rfl, rfl⟩; exact ⟨rfl, rfl⟩)

theorem pinCode_of_refOut {x : Straps} (p : Nat) (h : x.ref1 = false ∨ x.ref2 = false) : pinCode x p = none := by
  rcases h with h | h <;> simp [pinCode, h]

theorem fieldCode_of_pinCode_none {x : Straps} {p : Nat} (h : pinCode x p = none) : fieldCode x p = 15 := by
  simp [fieldCode, takes, h]

/-! ### The decision after pass 2 (R95 to R99, R101) -/

@[simp] theorem raiseDirect_straps (f : FaultName) (d : BitVec 32) (s : State) : (raiseDirect f d s).straps = s.straps := by
  have h : Only [.flt, .weft] s (raiseDirect f d s) := by simp
  exact h .straps (by decide)

/-- The faults of the readings change of the straps only whether the reference was bad. -/
theorem readingFaults_straps (s : State) :
    (readingFaults s).straps = { s.straps with refBad := !(s.straps.ref1 && s.straps.ref2) } := by
  unfold readingFaults
  split
  case isTrue hout =>
    rw [hout]
    split
    case isTrue hbad => rw [← hbad]
    case isFalse => simp
  case isFalse hin =>
    rw [Bool.eq_false_of_not_eq_true hin]
    refine foldl_holds (fun u => u.straps = { s.straps with refBad := false }) _ ?_ _ _ rfl
    intro u p hu
    dsimp only
    (repeat' split) <;> simpa using hu

/-- A resolved row changes of the straps the codes in use alone. -/
theorem resolveRow_straps (row : Nat) (s : State) : ∃ use, (resolveRow row s).straps = { s.straps with inUse := use } := by
  unfold resolveRow
  split <;> exact ⟨_, rfl⟩

theorem resolveConflicts_straps (s : State) : ∃ use, (resolveConflicts s).straps = { s.straps with inUse := use } := by
  refine foldl_holds (fun u => ∃ use, u.straps = { s.straps with inUse := use }) _ ?_ _ _ ⟨_, rfl⟩
  rintro u row ⟨use, hu⟩
  dsimp only
  split
  case isTrue =>
    obtain ⟨use', hrow⟩ := resolveRow_straps row (raiseDirect .strapConflict (BitVec.ofNat 32 row) u)
    exact ⟨use', by rw [hrow, raiseDirect_straps, hu]⟩
  case isFalse => exact ⟨use, hu⟩

@[simp] theorem lateSweep_frame (known : Bool) (s : State) :
    (lateSweep known s).straps = s.straps ∧ (lateSweep known s).live = s.live := by
  have h : Only [.clk] s (lateSweep known s) := by simp
  exact ⟨h .straps (by decide), h .live (by decide)⟩

theorem startLive_straps (b : Code) (s : State) :
    ∃ codes pend, (startLive b s).straps = { s.straps with code := codes, pend := pend } := ⟨_, _, rfl⟩

/-- The live code of `CS_SCENE` is the one that the record shows (R101). -/
theorem startLive_scene {b : Code} {s : State} (h : pinScene < s.straps.code.length) :
    (startLive b s).straps.code.getD pinScene 15 = (startLive b s).live.sceneCode :=
  getD_updAt_self _ _ h

/-- What the decision makes of the readings before the live straps start: faults, codes and conflicts. -/
def codesDecided (b : Code) (s : State) : State :=
  resolveConflicts { readingFaults s with straps := decideCodes b (readingFaults s).straps }

theorem decideFields_eq (bright : Code) (s : State) : decideFields bright s =
    lateSweep (sweepKnown s) (startLive (bringUpBright s.straps bright) (codesDecided (bringUpBright s.straps bright) s)) := rfl

theorem codesDecided_straps (b : Code) (s : State) : ∃ use, (codesDecided b s).straps =
    { decideCodes b { s.straps with refBad := !(s.straps.ref1 && s.straps.ref2) } with inUse := use } := by
  rw [← readingFaults_straps]
  exact resolveConflicts_straps _

/-- The decision keeps the readings of both passes, the end of the last and what is due. -/
theorem decideFields_straps (bright : Code) (s : State) : ∃ codes pend use bad, (decideFields bright s).straps =
    { s.straps with code := codes, pend := pend, inUse := use, refBad := bad, decided := true } := by
  obtain ⟨use, hs⟩ := codesDecided_straps (bringUpBright s.straps bright) s
  obtain ⟨codes, pend, hlive⟩ := startLive_straps (bringUpBright s.straps bright)
    (codesDecided (bringUpBright s.straps bright) s)
  refine ⟨codes, pend, use, !(s.straps.ref1 && s.straps.ref2), ?_⟩
  rw [decideFields_eq, (lateSweep_frame _ _).1, hlive, hs]
  rfl

/-- After the decision the record shows the live code of `CS_SCENE`. -/
theorem decideFields_scene (bright : Code) (s : State) :
    (decideFields bright s).straps.code.getD pinScene 15 = (decideFields bright s).live.sceneCode := by
  obtain ⟨use, hs⟩ := codesDecided_straps (bringUpBright s.straps bright) s
  rw [decideFields_eq, (lateSweep_frame _ _).1, (lateSweep_frame _ _).2]
  exact startLive_scene (by simp [hs, decideCodes, pinScene])

/-- Before 23 ms nothing is decided. -/
theorem settleStraps_of_early {s : State} (h : s.now < s.boot.ref + msT 23) : settleStraps s = s := by
  unfold settleStraps
  split
  · rfl
  · exact if_neg (Nat.not_le.2 h)

theorem settleStraps_of_due {x : Code} {s : State} (hx : s.straps.decideDue = some x) (h : s.boot.ref + msT 23 ≤ s.now) :
    settleStraps s = decideFields x (modStraps (fun z => { z with decideDue := none }) s) := by
  simp [settleStraps, hx, h]

/-- A decision that is due at 23 ms is made, once (R98). -/
theorem settleStraps_decides {x : Code} {s : State} (hx : s.straps.decideDue = some x) (h : s.boot.ref + msT 23 ≤ s.now) :
    (settleStraps s).straps.decided = true ∧ (settleStraps s).straps.decideDue = none ∧
      (settleStraps s).straps.code.getD pinScene 15 = (settleStraps s).live.sceneCode := by
  rw [settleStraps_of_due hx h]
  obtain ⟨codes, pend, use, bad, hs⟩ := decideFields_straps x (modStraps (fun z => { z with decideDue := none }) s)
  exact ⟨congrArg Straps.decided hs, congrArg Straps.decideDue hs, decideFields_scene x _⟩

/-- Made or not, the decision keeps what the passes read. -/
theorem settleStraps_readings (s : State) :
    (settleStraps s).straps.pass1 = s.straps.pass1 ∧ (settleStraps s).straps.pass2 = s.straps.pass2 ∧
      (settleStraps s).straps.ref2 = s.straps.ref2 ∧ (settleStraps s).straps.passEnd = s.straps.passEnd := by
  unfold settleStraps
  split
  case h_1 => exact ⟨rfl, rfl, rfl, rfl⟩
  case h_2 x _ =>
    split
    case isTrue =>
      obtain ⟨codes, pend, use, bad, hs⟩ := decideFields_straps x (modStraps (fun z => { z with decideDue := none }) s)
      rw [hs]
      exact ⟨rfl, rfl, rfl, rfl⟩
    case isFalse => exact ⟨rfl, rfl, rfl, rfl⟩

@[simp] theorem settleStraps_frame (s : State) : (settleStraps s).keys = s.keys ∧ (settleStraps s).mem = s.mem := by
  have h : Only [.straps, .live, .clk, .flt, .status, .net, .sv, .disc, .weft, .bea] s (settleStraps s) := by simp
  exact ⟨h .keys (by decide), h .mem (by decide)⟩

/-! ### The two passes (R92, R94) -/

/-- The state that pass 2 leaves, with the decision still to come. -/
def afterSecondPass (ref : Nat) (readings : List Reading) (s : State) : State :=
  modStraps (fun z => { z with
    pass2 := readings.map decideReading, ref2 := refInRange ref, passEnd := s.now + usT 2420
    decideDue := some (nearestCode (readings.getD pinBright ⟨[]⟩)) }) s

section
variable {s : State} (ref : Nat) (readings : List Reading) (haon : s.pwr.aonOn = true) (hreset : s.boot.inReset = false)
  (hstarted : s.boot.started = true) (hdecided : s.straps.decided = false) (hdue : s.straps.decideDue = none)
include haon hreset hstarted hdecided hdue

theorem execStrapPass_first (hpass : s.straps.pass1 = []) (h : s.boot.ref + msT 10 ≤ s.now) :
    execStrapPass ref readings s = .next (modStraps (fun z => { z with
      pass1 := readings.map decideReading, ref1 := refInRange ref, passEnd := s.now + usT 2420 }) s) := by
  simp [execStrapPass, haon, hreset, hstarted, hdecided, hdue, hpass, h, passLength]

theorem execStrapPass_second {d : Decided} {l : List Decided} (hpass : s.straps.pass1 = d :: l)
    (h : s.boot.ref + msT 20 ≤ s.now) :
    execStrapPass ref readings s = .next (settleStraps (afterSecondPass ref readings s)) := by
  simp [execStrapPass, haon, hreset, hstarted, hdecided, hdue, hpass, h, passLength, afterSecondPass]

end

/-- Settles O18: pass 1 stores its readings, pass 2 stores its own and leaves the decision, which `settleStraps` makes from 23 ms
on. -/
theorem strapsReadTwice : Obligations.StrapsReadTwice := by
  unfold Obligations.StrapsReadTwice
  refine ⟨?first, ?second, ?decision, ?pin, ?refOut⟩
  case first =>
    intro ref readings s haon hreset hstarted hdecided hdue hpass h
    exact execStrapPass_first ref readings haon hreset hstarted hdecided hdue hpass h
  case second =>
    intro ref readings d l s haon hreset hstarted hdecided hdue hpass h
    obtain ⟨hpass1, hpass2, href2, hend⟩ := settleStraps_readings (afterSecondPass ref readings s)
    obtain ⟨hkeys, hmem⟩ := settleStraps_frame (afterSecondPass ref readings s)
    refine ⟨_, execStrapPass_second ref readings haon hreset hstarted hdecided hdue hpass h, hpass1.trans hpass, hpass2, href2,
      hend, hkeys, hmem, fun hearly => ?_, fun hlate => ?_⟩
    · rw [settleStraps_of_early (s := afterSecondPass ref readings s) hearly]
      exact ⟨hdecided, rfl, rfl⟩
    · obtain ⟨hdone, -, hscene⟩ := settleStraps_decides (s := afterSecondPass ref readings s) rfl hlate
      exact ⟨hdone, hscene⟩
  case decision =>
    intro x s hx h
    exact settleStraps_decides hx h
  case pin =>
    intro x p c h1 h2
    simp [pinCode, h1, h2, bothFirm_eq_some_iff]
  case refOut =>
    intro x p h
    have hpin := pinCode_of_refOut p h
    exact ⟨hpin, fieldCode_of_pinCode_none hpin⟩

end Sys2Proof.Machine
end

section
/-!
PROOFS. The straps once they are decided (03 R100 to R106): the re-read of every minute with its confirmation, and the slots of
the two live straps.
-/
namespace Sys2Proof.Machine
open Sys2Proof Sys2Proof.Safety

/-! ### Results and faults beside the straps -/

@[simp] theorem noteTest_straps (i : SuiteItem) (failed : Bool) (s : State) : (noteTest i failed s).straps = s.straps := by
  have h : Only [.test] s (noteTest i failed s) := by simp
  exact h .straps (by decide)

@[simp] theorem addResult_straps (n : Nat) (r : TestResult) (s : State) : (addResult n r s).straps = s.straps := rfl
@[simp] theorem ranAgain_straps (t : TestKind) (s : State) : (ranAgain t s).straps = s.straps := rfl
@[simp] theorem countUp_straps (i n : Nat) (s : State) : (countUp i n s).straps = s.straps := rfl

/-- A fault of S1 or S2 stands once raised (19 R906). -/
theorem stands_raise_self (f : FaultName) (d : BitVec 32) (s : State) (h0 : sevOf f ≠ 0) (h3 : sevOf f ≠ 3) :
    Stands f d (raise f d s) := by
  unfold Stands activeKey
  rw [raise_active f d s h0 h3]
  split
  case isTrue h => exact h
  case isFalse => simp

/-! ### A re-read of one pin (R100, R102) -/

/-- A marginal re-read of a pin changes of the straps its run of marginal readings alone. -/
theorem marginalReread_straps (p : Nat) (s : State) :
    (marginalReread p s).straps = { s.straps with marginalRun := updAt s.straps.marginalRun p (· + 1) } := by
  simp [marginalReread, apply_ite State.straps]

theorem firmReread_straps (p : Nat) (c : Code) (s : State) : ∃ recheck, (firmReread p c s).straps =
    { s.straps with marginalRun := updAt s.straps.marginalRun p (fun _ => 0), recheck := recheck } := by
  unfold firmReread
  dsimp only
  split <;> exact ⟨_, rfl⟩

/-- Re-reads change of the straps the runs of marginal readings and the second readings to come. -/
def PinsReread (s t : State) : Prop := ∃ run recheck, t.straps = { s.straps with marginalRun := run, recheck := recheck }

theorem PinsReread.trans {s t u : State} (h : PinsReread s t) (k : PinsReread t u) : PinsReread s u := by
  obtain ⟨run, recheck, ht⟩ := h
  obtain ⟨run', recheck', hu⟩ := k
  exact ⟨run', recheck', by rw [hu, ht]⟩

theorem rereadPin_pinsReread (p : Nat) (r : Reading) (s : State) : PinsReread s (rereadPin p r s) := by
  unfold rereadPin
  split
  case h_1 => exact ⟨_, _, marginalReread_straps p s⟩
  case h_2 c _ =>
    obtain ⟨recheck, h⟩ := firmReread_straps p c s
    exact ⟨_, recheck, h⟩

/-- The third marginal re-read in a row is reported. -/
theorem rereadPin_third_marginal {p : Nat} {r : Reading} {s : State} (hr : decideReading r = .marginal)
    (hrun : s.straps.marginalRun.getD p 0 = 2) (hp : p < s.straps.marginalRun.length) :
    ∃ u : State, rereadPin p r s = raise .strapAmbig (BitVec.ofNat 32 p) u ∧ u.straps.marginalRun.getD p 0 = 3 := by
  have hthird : (updAt s.straps.marginalRun p (· + 1)).getD p 0 = 3 := by rw [getD_updAt_self _ _ hp, hrun]
  refine ⟨countUp ctMarginal 1 (modStraps (fun z => { z with marginalRun := updAt z.marginalRun p (· + 1) }) s), ?_, hthird⟩
  simp only [rereadPin, hr, marginalReread]
  exact if_pos hthird

/-! ### The re-read of all pins (R92, R100, R102) -/

/-- A re-read begins: the next is due 60 s later, and what the last one left to confirm is dropped. -/
def rereadBegun (s : State) : State :=
  modStraps (fun z => { z with nextReread := s.now + secT 60, recheck := [], passEnd := s.now + usT 2340 }) (ranAgain .strap s)

theorem rereadBegun_of_due {s : State} (h : s.straps.nextReread ≤ s.now) :
    modStraps (fun z => { z with
      nextReread := if z.nextReread ≤ s.now then s.now + secT 60 else z.nextReread
      recheck := [], passEnd := s.now + passLength false }) (ranAgain .strap s) = rereadBegun s := by
  simp [rereadBegun, modStraps, h, passLength]

section
variable {s : State} (ref : Nat) (readings : List Reading) (haon : s.pwr.aonOn = true) (hreset : s.boot.inReset = false)
  (hdecided : s.straps.decided = true) (hdue : s.straps.nextReread ≤ s.now)
include haon hreset hdecided hdue

/-- With the reference out of range for the first time no pin is read, and `f:STRAP_AMBIG` is raised. -/
theorem execStrapRereadPass_refOut (href : refInRange ref = false) (hbad : s.straps.refBad = false) :
    execStrapRereadPass ref readings s =
      .next (raise .strapAmbig 255 (noteTest .strap true (modStraps (fun z => { z with refBad := true }) (rereadBegun s)))) := by
  unfold execStrapRereadPass
  rw [if_neg (by simp [haon, hreset, hdecided, hdue])]
  dsimp only
  rw [rereadBegun_of_due hdue, if_neg (by simp [href]), if_neg (by simp [rereadBegun, hbad])]

/-- With the reference in range the pins are re-read one after the other. -/
theorem execStrapRereadPass_refIn (href : refInRange ref = true) :
    Goes (execStrapRereadPass ref readings s) (PinsReread (modStraps (fun z => { z with refBad := false }) (rereadBegun s))) := by
  unfold execStrapRereadPass
  rw [if_neg (by simp [haon, hreset, hdecided, hdue])]
  dsimp only
  rw [rereadBegun_of_due hdue, if_pos href]
  refine ⟨_, rfl, ?_⟩
  rw [PinsReread, noteTest_straps]
  refine foldl_holds (PinsReread _) _ ?_ _ _ ⟨_, _, rfl⟩
  intro u p hu
  split
  case h_1 => exact hu
  case h_2 r _ => exact hu.trans (rereadPin_pinsReread p r u)

end

/-! ### The second reading, 10 ms later (R100) -/

/-- A confirmed code is pending; beside it the straps keep what is to confirm and the changes seen. -/
theorem execStrapConfirmRead_confirmed {pin : Fin 48} {reading : Reading} {c : Code} {due : Ticks}
    {l : List (Nat × Code × Ticks)} {s : State} (hl : s.straps.recheck = (pin.val, c, due) :: l) (hdue : due ≤ s.now)
    (hr : decideReading reading = .firm c) : Goes (execStrapConfirmRead pin reading s) (fun t => ∃ seen, t.straps =
      { s.straps with
        recheck := s.straps.recheck.filter (fun y => y.1 != pin.val)
        pend := updAt s.straps.pend pin.val (fun _ => c), changedSeen := seen }) := by
  have hfind : s.straps.recheck.find? (fun x => x.1 == pin.val) = some (pin.val, c, due) := by simp [hl]
  unfold execStrapConfirmRead
  rw [hfind]
  dsimp only
  rw [if_neg (Nat.not_lt.2 hdue), if_pos hr]
  split
  case isTrue => exact ⟨_, rfl, _, rfl⟩
  case isFalse => exact ⟨_, rfl, (pin.val, c) :: s.straps.changedSeen, by simp⟩

/-! ### `CS_SCENE` (R104, R105) -/

/-- How many equal firm readings in a row a firm reading makes. -/
def runWith (x : Code) (run : Option (Code × Nat)) : Nat :=
  match run with
  | some (d, n) => if x = d then n + 1 else 1
  | none => 1

theorem runWith_same (x : Code) (n : Nat) : runWith x (some (x, n)) = n + 1 := if_pos rfl

theorem runWith_other {x : Code} {run : Option (Code × Nat)} (h : ∀ m, run ≠ some (x, m)) : runWith x run = 1 := by
  cases run with
  | none => rfl
  | some r =>
    obtain ⟨d, n⟩ := r
    exact if_neg (by rintro rfl; exact h n rfl)

/-- A firm reading: the third equal one in a row is accepted, a hundredth without a run of three is reported, and any other is
counted. -/
theorem readScene_firm {r : Reading} {x : Code} {s : State} (h : decideReading r = .firm x) :
    readScene r s =
      let u := modLive (fun z => { z with sceneRun := some (x, runWith x z.sceneRun), sceneMiss := z.sceneMiss + 1 }) s
      if 3 ≤ runWith x s.live.sceneRun then acceptScene x (modLive (fun z => { z with sceneMiss := 0 }) u)
      else if 100 ≤ s.live.sceneMiss + 1 then
        raise .strapAmbig (BitVec.ofNat 32 pinScene) (acceptScene 15 (modLive (fun z => { z with sceneMiss := 0 }) u))
      else u := by
  cases hrun : s.live.sceneRun with
  | none => simp [readScene, h, hrun, runWith, modLive]
  | some p =>
    obtain ⟨d, n⟩ := p
    by_cases hx : x = d <;> simp [readScene, h, hrun, runWith, modLive, hx]

theorem readScene_third {r : Reading} {x : Code} {s : State} (h : decideReading r = .firm x)
    (hrun : s.live.sceneRun = some (x, 2)) (hnew : s.live.sceneCode ≠ x) :
    (readScene r s).live.sceneCode = x ∧ (readScene r s).live.sceneDue = some x ∧ (readScene r s).live.sceneMiss = 0 ∧
      (readScene r s).flt = s.flt := by
  rw [readScene_firm h, hrun, runWith_same]
  simp [acceptScene, showLive, Ne.symm hnew]

/-- A reading that makes no run of three, and is not the hundredth, is counted and changes nothing else. -/
theorem readScene_counted {r : Reading} {x : Code} {s : State} (h : decideReading r = .firm x)
    (hrun : runWith x s.live.sceneRun < 3) (hmiss : s.live.sceneMiss < 99) :
    readScene r s =
      modLive (fun z => { z with sceneRun := some (x, runWith x z.sceneRun), sceneMiss := z.sceneMiss + 1 }) s := by
  rw [readScene_firm h]
  dsimp only
  rw [if_neg (by omega), if_neg (by omega)]

@[simp] theorem acceptScene_readNext (c : Code) (s : State) : (acceptScene c s).live.readNext = s.live.readNext := by
  simp [acceptScene, showLive, apply_ite State.live, apply_ite Live.readNext]

theorem readScene_readNext {r : Reading} {x : Code} {s : State} (h : decideReading r = .firm x) :
    (readScene r s).live.readNext = s.live.readNext := by
  simp [readScene_firm h, apply_ite State.live, apply_ite Live.readNext]

/-! ### A slot of the live straps (R103 to R106) -/

/-- A reading of `CS_BRIGHT` changes of the live straps its own fields. -/
theorem readBrightPin_live (r : Reading) (s : State) : ∃ run c due, (readBrightPin r s).live =
    { s.live with brightRun := run, brightCode := c, brightDue := due } := by
  unfold readBrightPin
  split
  case isTrue => exact ⟨_, _, _, rfl⟩
  case isFalse =>
    dsimp only
    (repeat' split) <;> exact ⟨_, _, _, rfl⟩

@[simp] theorem readBrightPin_flt (r : Reading) (s : State) : (readBrightPin r s).flt = s.flt := by
  have h : Only [.straps, .live] s (readBrightPin r s) := by simp
  exact h .flt (by decide)

theorem execLiveStrapRead_early (ref : Nat) (scene bright : Reading) {s : State} (h : s.now < s.live.readNext) :
    execLiveStrapRead ref scene bright s = .next s := by
  simp [execLiveStrapRead, h]

/-- A slot begins: the next is 10 ms later. -/
def slotBegun (s : State) : State := modLive (fun z => { z with readNext := s.now + msT 10 }) s

/-- In a slot that is due both pins are read where the reference is in range. -/
theorem execLiveStrapRead_due {s : State} (ref : Nat) (scene bright : Reading) (hruns : runs s = true)
    (hdecided : s.straps.decided = true) (hstart : s.boot.ref + msT 30 ≤ s.now) (hdue : s.live.readNext ≤ s.now) :
    execLiveStrapRead ref scene bright s =
      .next (if refInRange ref then readBrightPin bright (readScene scene (slotBegun s)) else slotBegun s) := by
  simp [execLiveStrapRead, slotBegun, hruns, hdecided, Nat.not_lt.2 hstart, Nat.not_lt.2 hdue, apply_ite Host.Outcome.next]

/-- Settles O19: a re-read, its confirmation and a slot of the live straps, each from what its parts leave. -/
theorem strapsAreReread : Obligations.StrapsAreReread := by
  unfold Obligations.StrapsAreReread
  refine ⟨?refOut, ?refIn, ?confirm, ?marginal, ?live, ?early, ?noReading⟩
  case refOut =>
    intro ref readings s haon hreset hdecided hdue href hbad
    refine ⟨_, execStrapRereadPass_refOut ref readings haon hreset hdecided hdue href hbad,
      stands_raise_self _ _ _ (by decide) (by decide), ?_⟩
    simp [rereadBegun]
  case refIn =>
    intro ref readings s haon hreset hdecided hdue href
    obtain ⟨t, hexec, run, recheck, ht⟩ := execStrapRereadPass_refIn ref readings haon hreset hdecided hdue href
    refine ⟨t, hexec, ?_⟩
    beta_reduce
    rw [ht]
    exact ⟨rfl, rfl, rfl, rfl, rfl⟩
  case confirm =>
    intro pin reading c due l s hl hdue hr hpin
    obtain ⟨t, hexec, seen, ht⟩ := execStrapConfirmRead_confirmed hl hdue hr
    refine ⟨t, hexec, ?_⟩
    beta_reduce
    rw [ht]
    exact ⟨getD_updAt_self _ _ hpin, rfl, rfl, fun y hy => by simpa using (List.mem_filter.1 hy).2⟩
  case marginal =>
    intro p r s hr hrun hp
    exact rereadPin_third_marginal hr hrun hp
  case live =>
    intro ref scene bright x s hruns hdecided hstart hdue href hx
    have hexec := execLiveStrapRead_due ref scene bright hruns hdecided hstart hdue
    rw [if_pos href] at hexec
    have honly := execLiveStrapRead_only ref scene bright s _ hexec
    obtain ⟨brun, bcode, bdue, hb⟩ := readBrightPin_live bright (readScene scene (slotBegun s))
    refine ⟨_, hexec, ?_, honly .keys (by decide), honly .mem (by decide), ?third, ?second, ?first⟩
    · rw [hb]
      exact readScene_readNext hx
    case third =>
      intro hrun hnew
      rw [hb, readBrightPin_flt]
      exact readScene_third (s := slotBegun s) hx hrun hnew
    case second =>
      intro hrun hmiss
      have htwo : runWith x s.live.sceneRun = 2 := by rw [hrun, runWith_same]
      rw [hb, readScene_counted (s := slotBegun s) hx (by simp [slotBegun, htwo]) hmiss]
      simp [slotBegun, htwo]
    case first =>
      intro hrun hmiss
      have hone : runWith x s.live.sceneRun = 1 := runWith_other hrun
      rw [hb, readScene_counted (s := slotBegun s) hx (by simp [slotBegun, hone]) hmiss]
      simp [slotBegun, hone]
  case early =>
    intro ref scene bright s h
    exact execLiveStrapRead_early ref scene bright h
  case noReading =>
    intro ref scene bright s hruns hdecided hstart hdue href
    refine (execLiveStrapRead_due ref scene bright hruns hdecided hstart hdue).trans ?_
    rw [href]
    rfl

end Sys2Proof.Machine
end

section
/-!
PROOFS. The filters of the digital live pins (03 R109): one sample, and what an accepted level does.
-/
namespace Sys2Proof.Machine
open Sys2Proof Sys2Proof.Safety

/-! ### One sample of a filter -/

/-- A sample of the accepted level ends a run of the other. -/
theorem sampleFilter_same {f : PinFilter} {high : Bool} (n : Nat) (h : f.level = high) :
    sampleFilter n f high = ({ f with run := 0 }, false) := if_pos h.symm

/-- A sample of the other level that does not complete the run lengthens it. -/
theorem sampleFilter_short {n : Nat} {f : PinFilter} {high : Bool} (h : f.level ≠ high) (hrun : f.run + 1 < n) :
    sampleFilter n f high = ({ f with run := f.run + 1 }, false) := by
  simp [sampleFilter, h.symm, hrun]

/-- The sample that completes the run is accepted. -/
theorem sampleFilter_last {n : Nat} {f : PinFilter} {high : Bool} (h : f.level ≠ high) (hrun : n ≤ f.run + 1) :
    sampleFilter n f high = ({ f with level := high, run := 0 }, true) := by
  simp [sampleFilter, h.symm, Nat.not_lt.2 hrun]

/-- What one sample can do to a filter. -/
theorem sampleFilter_spec (n : Nat) (f : PinFilter) (high : Bool) :
    ((sampleFilter n f high).2 = true ↔ f.level ≠ high ∧ n ≤ f.run + 1) ∧ (sampleFilter n f high).1.next = f.next ∧
      ((sampleFilter n f high).2 = true → (sampleFilter n f high).1.level = high ∧ (sampleFilter n f high).1.run = 0) ∧
      ((sampleFilter n f high).2 = false → (sampleFilter n f high).1.level = f.level) := by
  by_cases hlevel : f.level = high
  · simp [sampleFilter_same n hlevel, hlevel]
  · by_cases hrun : f.run + 1 < n
    · simp [sampleFilter_short hlevel hrun, hrun]
    · simp [sampleFilter_last hlevel (Nat.not_lt.1 hrun), hlevel, Nat.not_lt.1 hrun]

/-! ### One sample of a pin -/

/-- The filter that a due sample goes through, with the next sample set. -/
def dueFilter (pin : LivePin) (s : State) : PinFilter :=
  { pinFilter s.live pin with next := s.now + samplePeriod s.standby.asleep pin }

/-- What the outcome of a filter leaves: an accepted level acts. -/
def afterSample (pin : LivePin) (high : Bool) (banks : BankMv) (r : PinFilter × Bool) (s : State) : State :=
  let u : State := { s with live := setPinFilter s.live pin r.1 }
  if r.2 then pinAccept pin high banks u else u

theorem execLivePinSample_due {pin : LivePin} {s : State} (high : Bool) (banks : BankMv) (haon : s.pwr.aonOn = true)
    (hreset : s.boot.inReset = false) (hpin : s.standby.asleep = false ∨ pin = .standby)
    (hdue : (pinFilter s.live pin).next ≤ s.now) :
    execLivePinSample pin high banks s =
      .next (afterSample pin high banks (sampleFilter (samplesOf pin) (dueFilter pin s) high) s) := by
  have hsampled : (s.standby.asleep && !decide (pin = .standby)) = false := by
    rcases hpin with h | h <;> simp [h]
  exact if_neg (by simp [haon, hreset, hsampled, hdue])

section
variable {pin : LivePin} {high : Bool} {s : State} (banks : BankMv) (haon : s.pwr.aonOn = true)
  (hreset : s.boot.inReset = false) (hawake : s.standby.asleep = false) (hdue : (pinFilter s.live pin).next ≤ s.now)
include haon hreset hawake hdue

theorem execLivePinSample_short (hlevel : (pinFilter s.live pin).level ≠ high)
    (hrun : (pinFilter s.live pin).run + 1 < samplesOf pin) :
    execLivePinSample pin high banks s = .next { s with
      live := setPinFilter s.live pin
        { level := !high, run := (pinFilter s.live pin).run + 1, next := s.now + samplePeriod false pin } } := by
  rw [execLivePinSample_due high banks haon hreset (.inl hawake) hdue,
    sampleFilter_short (f := dueFilter pin s) hlevel hrun]
  simp [afterSample, dueFilter, hawake, Bool.eq_not.2 hlevel]

theorem execLivePinSample_same (hlevel : (pinFilter s.live pin).level = high) :
    execLivePinSample pin high banks s = .next { s with
      live := setPinFilter s.live pin { level := high, run := 0, next := s.now + samplePeriod false pin } } := by
  rw [execLivePinSample_due high banks haon hreset (.inl hawake) hdue,
    sampleFilter_same (f := dueFilter pin s) _ hlevel]
  simp [afterSample, dueFilter, hawake, hlevel]

theorem execLivePinSample_last (hlevel : (pinFilter s.live pin).level ≠ high)
    (hrun : samplesOf pin ≤ (pinFilter s.live pin).run + 1) :
    execLivePinSample pin high banks s = .next (pinAccept pin high banks { s with
      live := setPinFilter s.live pin { level := high, run := 0, next := s.now + samplePeriod false pin } }) := by
  rw [execLivePinSample_due high banks haon hreset (.inl hawake) hdue,
    sampleFilter_last (f := dueFilter pin s) hlevel hrun]
  simp [afterSample, dueFilter, hawake]

end

/-- Settles O20: a sample that is due is one of the filter, which ends a run, lengthens it or completes it. -/
theorem livePinsAreFiltered : Obligations.LivePinsAreFiltered := by
  unfold Obligations.LivePinsAreFiltered
  refine ⟨?due, ?filter, ?short, ?same, ?mute, ?samples, ?periods⟩
  case due =>
    intro pin high banks s haon hreset hpin hdue
    exact execLivePinSample_due high banks haon hreset hpin hdue
  case filter =>
    intro k f high _
    exact sampleFilter_spec k f high
  case short =>
    intro pin high banks s haon hreset hawake hdue hlevel hrun
    exact execLivePinSample_short banks haon hreset hawake hdue hlevel hrun
  case same =>
    intro pin high banks s haon hreset hawake hdue hlevel
    exact execLivePinSample_same banks haon hreset hawake hdue hlevel
  case mute =>
    intro high banks s haon hreset hawake hdue hlevel hrun
    exact execLivePinSample_last (pin := .mute) banks haon hreset hawake hdue hlevel (by simp [samplesOf, pinFilter, hrun])
  case samples => exact ⟨rfl, rfl, rfl, rfl, rfl, rfl⟩
  case periods => exact ⟨rfl, rfl, rfl⟩

end Sys2Proof.Machine
end

section
/-!
PROOFS. The state before power (04 R141, R145; 12 R576).
-/
namespace Sys2Proof.Machine
open Sys2Proof Sys2Proof.Safety

/-- Each of the 12 domains is off before power, and so is one that the part does not have. -/
theorem domOn_reset (d : Nat) : domOn State.reset d = false := by
  have hoff : domAt State.reset d = {} := by
    by_cases hd : d < 12
    · exact List.getD_replicate _ hd
    · exact List.getD_eq_default _ _ (by simpa [State.reset] using hd)
  simp [domOn, hoff]

/-- Settles O60: memory lists no byte, and no domain is on. -/
theorem resetIsUnpowered : Obligations.ResetIsUnpowered := by
  unfold Obligations.ResetIsUnpowered
  exact ⟨Memory.wf_nil, rfl, rfl, rfl, rfl, domOn_reset, fun _ => rfl⟩

end Sys2Proof.Machine
end

section
/-!
PROOFS. A brown-out and the restart after it (04 R142 to R144, R975): what of the supply and of a fuse sequence the fault leaves,
and what the bring-up after it keeps of the fault manager.
-/
namespace Sys2Proof.Machine
open Sys2Proof Sys2Proof.Safety

/-! ### The loss of the core (04 R142) -/

/-- The buck and the system clock stand, and D1 to D11 are off with their state lost. -/
def CoreLost (t : State) : Prop :=
  t.pwr.buckOn = false ∧ t.clk.running = false ∧ (∀ d : Nat, 1 ≤ d → domOn t d = false) ∧ t.mem = {} ∧ t.scene = {} ∧
    t.time = {}

theorem loseCore_coreLost (s : State) : CoreLost (loseCore s) := ⟨rfl, rfl, fun _ hd => loseCore_domOn s hd, rfl, rfl, rfl⟩

theorem brownout_coreLost (detail : BitVec 32) (firstFuse : Bool) (s : State) : CoreLost (brownout detail firstFuse s) :=
  loseCore_coreLost _

theorem checkBrownout_coreLost (detail : BitVec 32) (s : State) : CoreLost (checkBrownout detail s) := loseCore_coreLost _

/-- The fall of a rail loses the core, in a wake check as well as awake (04 R143, R975). -/
theorem execRailBrownout_coreLost {s : State} (rail : Rail) (firstFuse : Bool) (hbuck : s.pwr.buckOn = true) :
    Goes (execRailBrownout rail firstFuse s) CoreLost := by
  cases hasleep : s.standby.asleep with
  | true => exact ⟨_, by simp only [execRailBrownout, hbuck, hasleep]; rfl, checkBrownout_coreLost _ s⟩
  | false => exact ⟨_, by simp only [execRailBrownout, hbuck, hasleep]; rfl, brownout_coreLost _ firstFuse s⟩

@[simp] theorem loseCore_vinLow (s : State) : (loseCore s).pwr.vinLow = s.pwr.vinLow := rfl
@[simp] theorem loseCore_seq (s : State) : (loseCore s).keys.seq = s.keys.seq := rfl

/-- A raise of any severity leaves the supply levels and the fuse sequence. -/
theorem raise_supply_seq (f : FaultName) (detail : BitVec 32) (s : State) :
    (raise f detail s).pwr.vinLow = s.pwr.vinLow ∧ (raise f detail s).keys.seq = s.keys.seq := by
  have h := (raise_only f detail s s _ (Facet.within_self _)).mpr (by simp)
  obtain ⟨hvin, -⟩ := h .supply (by decide)
  obtain ⟨hseq, -⟩ := h .lifecycle (by decide)
  exact ⟨hvin, hseq⟩

@[simp] theorem abortFuse_pwr (firstFuse : Bool) (s : State) : (abortFuse firstFuse s).pwr = s.pwr := by
  have h : Only [.otp, .fuse, .keys, .lifecycle] s (abortFuse firstFuse s) := by simp
  exact h .pwr (by decide)

/-- The pulse in progress ends, with its sequence (17 R853). -/
@[simp] theorem abortFuse_seq (firstFuse : Bool) (s : State) : (abortFuse firstFuse s).keys.seq = none := by
  unfold abortFuse
  split
  case h_1 hseq => exact hseq
  case h_2 => dsimp only; split <;> simp [apply_ite State.keys]

theorem brownout_vinLow (detail : BitVec 32) (firstFuse : Bool) (s : State) : (brownout detail firstFuse s).pwr.vinLow = true := by
  simp [brownout, raise_supply_seq]

theorem brownout_seq (detail : BitVec 32) (firstFuse : Bool) (s : State) : (brownout detail firstFuse s).keys.seq = none := by
  simp [brownout, raise_supply_seq]

/-! ### The restart (04 R144) -/

section
variable (kind : BootKind) (cause : Option FaultName) (banks : BankMv) (s : State)

@[simp] theorem beginBringUp_vinLow : (beginBringUp kind cause banks s).pwr.vinLow = false :=
  (readBringUp_keeps _ banks _ .supply (by decide)).1.trans (by simp [apply_ite State.pwr])

/-- A bring-up ends a hold-off (19 R908). -/
@[simp] theorem beginBringUp_holdoff : (beginBringUp kind cause banks s).flt.holdoff = none := by
  obtain ⟨-, hholdoff, -⟩ := readBringUp_keeps (slowDetail s) banks _ .holds (by decide)
  exact hholdoff.trans (by simp [apply_ite State.flt, apply_ite Flt.holdoff])

@[simp] theorem flushQueue_restarts (s : State) : (flushQueue s).flt.restarts = s.flt.restarts := by
  have h : Only [.flt] s (flushQueue s) := by simp
  obtain ⟨-, -, hrestarts, -⟩ := h .holds (by decide)
  exact hrestarts

@[simp] theorem endActive_restarts (s : State) : (endActive s).flt.restarts = s.flt.restarts := by
  have h : Only [.flt] s (endActive s) := by simp
  obtain ⟨-, -, hrestarts, -⟩ := h .holds (by decide)
  exact hrestarts

/-- Only a release of `RESET_N` forgets the restarts that are counted (19 R909, R910). -/
theorem beginBringUp_restarts (h : kind ≠ .resetN) : (beginBringUp kind cause banks s).flt.restarts = s.flt.restarts := by
  obtain ⟨-, -, hrestarts, -⟩ := readBringUp_keeps (slowDetail s) banks _ .holds (by decide)
  exact hrestarts.trans (by simp [h, clearCore, leaveStandby])

end

/-- The restart of a brown-out that is held off is a bring-up of its own kind. -/
theorem execBrownoutRestart_held {s : State} (banks : BankMv) (haon : s.pwr.aonOn = true) (hvin : s.pwr.vinLow = true)
    (hhold : s.flt.safeHold = false) (hawake : s.standby.asleep = false) (hreset : s.boot.inReset = false)
    (hoff : s.flt.holdoff.map Holdoff.f = some .pwrBrownout) :
    execBrownoutRestart banks s =
      .next (beginBringUp .brownout none banks (modPwr (fun z => { z with vinLow := false }) s)) := by
  obtain ⟨h, hh, hf⟩ := Option.map_eq_some_iff.1 hoff
  simp [execBrownoutRestart, haon, hvin, hhold, hawake, hreset, hh, hf]

/-- Settles O3: a brown-out ends in `loseCore`, whichever way it comes, and its restart in `beginBringUp`. -/
theorem brownoutLosesCoreAndRestarts : Obligations.BrownoutLosesCoreAndRestarts := by
  unfold Obligations.BrownoutLosesCoreAndRestarts
  refine ⟨?vin, ?rail, ?standby, ?restart⟩
  case vin =>
    intro firstFuse s haon hawake
    obtain ⟨hbuck, hclk, hdom, hmem, hscene, htime⟩ := brownout_coreLost 0 firstFuse s
    exact ⟨brownout 0 firstFuse s, by simp [exec, execVinBrownout, haon, hawake], brownout_vinLow 0 firstFuse s, hbuck,
      hclk, hdom, hmem, hscene, htime, brownout_seq 0 firstFuse s⟩
  case rail =>
    intro rail firstFuse s hbuck
    obtain ⟨t, ht, hoff, hclk, hdom, hmem, hscene, -⟩ := execRailBrownout_coreLost rail firstFuse hbuck
    exact ⟨t, ht, hoff, hclk, hdom, hmem, hscene⟩
  case standby =>
    intro s hasleep
    exact if_pos hasleep
  case restart =>
    intro banks s haon hvin hhold hawake hreset hoff
    refine ⟨_, execBrownoutRestart_held banks haon hvin hhold hawake hreset hoff, ?_⟩
    simp [beginBringUp_restarts]

end Sys2Proof.Machine
end

section
/-!
PROOFS. Domains as they are switched on, time out and go off (04 R148, R150, R151): what an update of one domain leaves of the
others, and what each command does when it is due.
-/
namespace Sys2Proof.Machine
open Sys2Proof Sys2Proof.Safety

/-! ### One domain of the list -/

theorem getD_updAt_ne {α : Type} {l : List α} {i j : Nat} (f : α → α) (d : α) (h : j ≠ i) :
    (updAt l i f).getD j d = l.getD j d := by
  simp [updAt_eq_modify, List.getD_eq_getElem?_getD, List.getElem?_modify_ne f l h.symm]

theorem domAt_setDom_self {s : State} {d : Nat} (f : DomSt → DomSt) (h : d < s.pwr.dom.length) :
    domAt (setDom s d f) d = f (domAt s d) := getD_updAt_self f {} h

theorem domAt_setDom_ne (s : State) {d e : Nat} (f : DomSt → DomSt) (h : e ≠ d) : domAt (setDom s d f) e = domAt s e :=
  getD_updAt_ne f {} h

theorem domAt_congr {s t : State} (h : t.pwr.dom = s.pwr.dom) (d : Nat) : domAt t d = domAt s d := by
  simp only [domAt, h]

/-- A domain that is on is one of the part's. -/
theorem lt_length_of_domOn {s : State} {d : Nat} (h : domOn s d = true) : d < s.pwr.dom.length := by
  by_contra hd
  have hoff : domAt s d = {} := List.getD_eq_default _ _ (not_lt.1 hd)
  simp [domOn, hoff] at h

/-! ### Switching on (R150) -/

/-- A domain as its switch-on begins. -/
def switchBegun (now : Ticks) (x : DomSt) : DomSt := { x with phase := .switching now, retryAt := none, offSince := none }

theorem startSwitch_pwr (d : Nat) (s : State) :
    (startSwitch d s).pwr = { (setDom s d (switchBegun s.now)).pwr with lastSwitchOn := some s.now } := by
  unfold startSwitch
  dsimp only
  split
  · rfl
  · split <;> rfl

theorem domAt_startSwitch {s : State} {d : Nat} (h : d < s.pwr.dom.length) :
    domAt (startSwitch d s) d = switchBegun s.now (domAt s d) :=
  (domAt_congr (s := setDom s d _) (by rw [startSwitch_pwr]) d).trans (domAt_setDom_self _ h)

/-! ### Power-good (R151) -/

/-- The domain as power-good leaves it. -/
def powerGood (d : Nat) (s : State) : State :=
  setDom s d (fun x => { x with phase := .on, fails := 0, heldOff := false, retryAt := none, offSince := none })

theorem execDomainPowerGood_due {d : Dom} {t : Ticks} {s : State} (hd : (domAt s d.val).phase = .switching t)
    (ht : t + usT 20 ≤ s.now) : execDomainPowerGood d s =
      .next (if (domAt s d.val).heldOff then settlePower (domainStarts d (domAt s d.val).heldOff (powerGood d.val s))
        else domainStarts d (domAt s d.val).heldOff (powerGood d.val s)) := by
  simp [execDomainPowerGood, hd, not_lt.2 ht, powerGood]

/-- Nothing starts in a domain but D3 to D6, D9 and D10. -/
theorem domainStarts_of_notMem {d : Dom} (hd : d.val ∉ [3, 4, 5, 6, 9, 10]) (held : Bool) (s : State) :
    domainStarts d held s = s := by
  unfold domainStarts
  split <;> simp_all

/-! ### No power-good (R151) -/

theorem execDomainSwitchTimeout_first {d : Dom} {t : Ticks} {s : State} (hd : (domAt s d.val).phase = .switching t)
    (ht : t + msT 1 ≤ s.now) (hheld : (domAt s d.val).heldOff = false) (hfails : (domAt s d.val).fails = 0) :
    execDomainSwitchTimeout d s =
      .next (setDom s d.val (fun x => { x with phase := .off, fails := 1, retryAt := some (s.now + msT 10) })) := by
  simp [execDomainSwitchTimeout, hd, not_lt.2 ht, hheld, hfails]

theorem execDomainSwitchTimeout_again {d : Dom} {t : Ticks} {s : State} (hd : (domAt s d.val).phase = .switching t)
    (ht : t + msT 1 ≤ s.now) (hfails : 1 ≤ (domAt s d.val).fails) :
    execDomainSwitchTimeout d s = .next (raise .pwrDomain (BitVec.ofNat 32 d.val) (setDom s d.val (fun x =>
      { x with phase := .off, heldOff := true, fails := 2, retryAt := some (s.now + secT 10) }))) := by
  simp [execDomainSwitchTimeout, hd, not_lt.2 ht, hfails]

theorem domAt_raise_pwrDomain (detail : BitVec 32) (s : State) (d : Nat) : domAt (raise .pwrDomain detail s) d = domAt s d :=
  domAt_congr (by simp) d

/-! ### Gating (R148) -/

/-- The state that a domain gated off leaves. -/
def gatedOff (d : Nat) (s : State) : State :=
  let u := abandonTests d (setDom s d (fun x => { x with phase := .off, offSince := none }))
  if d = 4 then modPwr (fun z => { z with lane := List.replicate 4 false }) u else u

theorem execDomainGateOff_due {d : Dom} {s : State} (hgate : gating s = true) (hon : domOn s d.val = true)
    (hneed : needed s d.val = false) (hoff : passed s.now (domAt s d.val).offSince (secT 10) = true) :
    execDomainGateOff d s = .next (gatedOff d.val s) := by
  simp [execDomainGateOff, hgate, hon, hneed, hoff, gatedOff]

theorem abandonTests_pwr (d : Nat) (s : State) : (abandonTests d s).pwr = s.pwr := by
  have h : Only [.test, .weft] s (abandonTests d s) := by simp
  exact h .pwr (by decide)

theorem gatedOff_domAt (d e : Nat) (s : State) :
    domAt (gatedOff d s) e = domAt (setDom s d (fun x => { x with phase := .off, offSince := none })) e := by
  refine domAt_congr ?_ e
  simp [gatedOff, abandonTests_pwr, apply_ite State.pwr, apply_ite Pwr.dom]

theorem gatedOff_frame (d : Nat) (s : State) :
    gatedOff d s = { s with pwr := (gatedOff d s).pwr, test := (gatedOff d s).test, weft := (gatedOff d s).weft } := by
  unfold gatedOff abandonTests
  dsimp only
  (repeat' split) <;> rfl

/-- Settles O4: each command that is due is an update of one domain, and what starts in D3 to D6, D9 and D10 is named. -/
theorem domainsSwitchOnAndGateOff : Obligations.DomainsSwitchOnAndGateOff := by
  unfold Obligations.DomainsSwitchOnAndGateOff
  refine ⟨?next, ?good, ?on, ?first, ?again, ?retry, ?start, ?gate⟩
  case next =>
    intro d s hmay hnext
    simp [exec, execDomainSwitchOn, hmay, hnext]
  case good =>
    intro d t s hd ht
    exact execDomainPowerGood_due hd ht
  case on =>
    intro d t s hd hlt ht hplain hheld
    have hat : domAt (powerGood d.val s) d.val = _ := domAt_setDom_self _ hlt
    refine ⟨powerGood d.val s, (execDomainPowerGood_due hd ht).trans ?_, ?_, ?_, fun _ he => domAt_setDom_ne s _ he, rfl⟩
    · simp [hheld, domainStarts_of_notMem hplain]
    · simp [domOn, hat]
    · rw [hat]
  case first =>
    intro d t s hd hlt ht hheld hfails
    exact ⟨_, execDomainSwitchTimeout_first hd ht hheld hfails, domAt_setDom_self _ hlt,
      fun _ he => domAt_setDom_ne s _ he, rfl⟩
  case again =>
    intro d t s hd hlt ht hfails
    refine ⟨_, execDomainSwitchTimeout_again hd ht hfails, ?_⟩
    simp [domAt_raise_pwrDomain, domAt_setDom_self _ hlt]
  case retry =>
    intro d s hmay hoff hdue
    simp [exec, execDomainRetry, hmay, hoff, hdue]
  case start =>
    intro d s hlt
    exact ⟨congrArg DomSt.phase (domAt_startSwitch hlt), congrArg Pwr.lastSwitchOn (startSwitch_pwr d s)⟩
  case gate =>
    intro d s hgate hon hneed hoff
    refine ⟨_, execDomainGateOff_due hgate hon hneed hoff, ?_, fun e he => ?_, gatedOff_frame d.val s⟩
    · rw [gatedOff_domAt, domAt_setDom_self _ (lt_length_of_domOn hon)]
    · rw [gatedOff_domAt, domAt_setDom_ne s _ he]

end Sys2Proof.Machine
end

section
/-!
PROOFS. VCORE, the banks and the buck's phases (04 R134, R135, R137, R153 to R156, R176): what a set point, a measurement and a
reading leave.
-/
namespace Sys2Proof.Machine
open Sys2Proof Sys2Proof.Safety

/-! ### A set point and its margin (R153, R156) -/

/-- A set point changes of the supply itself and the instant of the last step. -/
theorem setVcore_pwr (mv : Nat) (s : State) :
    ∃ at_, (setVcore mv s).pwr = { s.pwr with vcore := mv, lastStep := at_ } := by
  unfold setVcore
  split
  case isTrue h => exact ⟨s.pwr.lastStep, by rw [h]⟩
  case isFalse => exact ⟨some s.now, rfl⟩

@[simp] theorem setVcore_fields (mv : Nat) (s : State) :
    (setVcore mv s).pwr.vcore = mv ∧ (setVcore mv s).pwr.vcoreSet = s.pwr.vcoreSet ∧
      (setVcore mv s).pwr.margin = s.pwr.margin ∧ (setVcore mv s).pwr.marginDom = s.pwr.marginDom ∧
      (setVcore mv s).pwr.ageNext = s.pwr.ageNext := by
  obtain ⟨at_, h⟩ := setVcore_pwr mv s
  simp [h]

@[simp] theorem ageFault_pwr (at_ margin : Nat) (dom : Dom) (s : State) : (ageFault at_ margin dom s).pwr = s.pwr := by
  have h : Only [.flt, .status, .net, .sv, .disc, .weft, .bea] s (ageFault at_ margin dom s) := by simp
  exact h .pwr (by decide)

/-- The first margin of 8 % or more among the 21 gives its set point. -/
theorem initialVcore_of_findIdx {margins : List Nat} {i : Nat} (h : margins.findIdx? (fun m => 800 ≤ m) = some i)
    (hi : i ≤ 20) : initialVcore margins = 7500 + 25 * i := by
  simp only [initialVcore, h]
  omega

/-! ### A measurement in service (R154, 20 R947) -/

theorem mayStep_congr {s t : State} (hpwr : t.pwr.lastSwitchOn = s.pwr.lastSwitchOn) (hnow : t.now = s.now) :
    mayStep t = mayStep s := by
  simp only [mayStep, hpwr, hnow]

theorem nearDayHigh_congr {s t : State} (hsens : t.sens = s.sens) (hnow : t.now = s.now) : nearDayHigh t = nearDayHigh s := by
  simp only [nearDayHigh, hsens, hnow]

/-- The measurement is noted and its margin stored; the next one is due in 60 min. -/
def ageMeasured (margin : Nat) (dom : Dom) (s : State) : State :=
  let u := noteTest .ageing (decide (s.pwr.rail = 8000) && decide (margin < 500)) (ranAgain .ageing s)
  modPwr (fun z => { z with margin := margin, marginDom := dom, ageNext := some (u.now + secT 3600) }) u

/-- The set point follows a measured margin. -/
def followMargin (margin : Nat) (s : State) : State :=
  if margin < 800 && s.pwr.vcore < 8000 then
    let s := modPwr (fun z => { z with ageNext := some (s.now + secT 1) }) s
    if mayStep s then setVcore (min (s.pwr.vcore + 25) 8000) s else s
  else if 1200 < margin && 7500 < s.pwr.vcore && nearDayHigh s && mayStep s then setVcore (max (s.pwr.vcore - 25) 7500) s
  else s

/-- The set point that a measured margin leads to. -/
def nextVcore (margin : Nat) (s : State) : Nat :=
  if margin < 800 ∧ s.pwr.vcore < 8000 then if mayStep s then min (s.pwr.vcore + 25) 8000 else s.pwr.vcore
  else if 1200 < margin ∧ 7500 < s.pwr.vcore ∧ nearDayHigh s ∧ mayStep s then max (s.pwr.vcore - 25) 7500
  else s.pwr.vcore

theorem execAgeingMeasure_due {s : State} (margin : Nat) (dom : Dom) (hrun : s.clk.running = true)
    (hdue : dueBy s.now s.pwr.ageNext = true) : execAgeingMeasure margin dom s =
      .next (ageFault s.pwr.rail margin dom (followMargin margin (ageMeasured margin dom s))) := by
  simp only [execAgeingMeasure, hrun, hdue]
  rfl

theorem noteTest_frame (i : SuiteItem) (failed : Bool) (s : State) :
    (noteTest i failed s).now = s.now ∧ (noteTest i failed s).pwr = s.pwr ∧ (noteTest i failed s).sens = s.sens := by
  have h : Only [.test] s (noteTest i failed s) := by simp
  exact ⟨h .now (by decide), h .pwr (by decide), h .sens (by decide)⟩

theorem ageMeasured_frame (margin : Nat) (dom : Dom) (s : State) :
    (ageMeasured margin dom s).pwr =
        { s.pwr with margin := margin, marginDom := dom, ageNext := some (s.now + secT 3600) } ∧
      (ageMeasured margin dom s).now = s.now ∧ (ageMeasured margin dom s).sens = s.sens := by
  simp [ageMeasured, noteTest_frame, ranAgain]

/-- What follows a measured margin leaves of the supply. -/
theorem followMargin_pwr (margin : Nat) (s : State) :
    (followMargin margin s).pwr.vcore = nextVcore margin s ∧ (followMargin margin s).pwr.margin = s.pwr.margin ∧
      (followMargin margin s).pwr.marginDom = s.pwr.marginDom ∧
      (800 ≤ margin → (followMargin margin s).pwr.ageNext = s.pwr.ageNext) := by
  have hstep : mayStep (modPwr (fun z => { z with ageNext := some (s.now + secT 1) }) s) = mayStep s := rfl
  by_cases hlow : margin < 800 ∧ s.pwr.vcore < 8000
  · by_cases hmay : mayStep s = true
    · simp [followMargin, nextVcore, hlow, hstep, hmay]
    · simp [followMargin, nextVcore, hlow, hstep, hmay]
  · by_cases hhigh : 1200 < margin ∧ 7500 < s.pwr.vcore ∧ nearDayHigh s ∧ mayStep s
    · simp [followMargin, nextVcore, hlow, hhigh]
    · simp [followMargin, nextVcore, hlow, hhigh, and_assoc]

/-- Below 8 % the set point rises by 2.5 mV, to 0.800 V at most. -/
theorem nextVcore_rise {margin : Nat} {s : State} (hmay : mayStep s = true) (hm : margin < 800) (hv : s.pwr.vcore ≤ 8000) :
    nextVcore margin s = min (s.pwr.vcore + 25) 8000 := by
  by_cases hroom : s.pwr.vcore < 8000
  · simp [nextVcore, hm, hmay, hroom]
  · simp only [nextVcore, hroom, show ¬ 1200 < margin by omega, false_and, and_false, if_false]
    omega

/-- Between 8 % and 12 % it stays. -/
theorem nextVcore_hold {margin : Nat} (s : State) (hm : 800 ≤ margin) (hm' : margin ≤ 1200) :
    nextVcore margin s = s.pwr.vcore := by
  simp [nextVcore, not_lt.2 hm, not_lt.2 hm']

/-- Above 12 %, near the day's highest junction temperature, it falls by 2.5 mV, to 0.750 V at least. -/
theorem nextVcore_fall {margin : Nat} {s : State} (hmay : mayStep s = true) (hday : nearDayHigh s = true) (hm : 1200 < margin)
    (hv : 7500 ≤ s.pwr.vcore) : nextVcore margin s = max (s.pwr.vcore - 25) 7500 := by
  by_cases hroom : 7500 < s.pwr.vcore
  · simp [nextVcore, hm, hmay, hday, hroom, show ¬ margin < 800 by omega]
  · simp only [nextVcore, hroom, show ¬ margin < 800 by omega, false_and, and_false, if_false]
    omega

/-- Just after a switch-on, and above 12 % at a lower junction temperature, it stays. -/
theorem nextVcore_forbidden {margin : Nat} {s : State} (h : mayStep s = false ∨ (1200 < margin ∧ nearDayHigh s = false)) :
    nextVcore margin s = s.pwr.vcore := by
  rcases h with hmay | ⟨hm, hday⟩
  · simp [nextVcore, hmay]
  · simp [nextVcore, hday, show ¬ margin < 800 by omega]

theorem nextVcore_bounds (margin : Nat) {s : State} (hlow : 7500 ≤ s.pwr.vcore) (hhigh : s.pwr.vcore ≤ 8000) :
    7500 ≤ nextVcore margin s ∧ nextVcore margin s ≤ 8000 := by
  unfold nextVcore
  (repeat' split) <;> omega

theorem nextVcore_ageMeasured (margin : Nat) (dom : Dom) (s : State) :
    nextVcore margin (ageMeasured margin dom s) = nextVcore margin s := by
  obtain ⟨hpwr, hnow, hsens⟩ := ageMeasured_frame margin dom s
  have hmay : mayStep (ageMeasured margin dom s) = mayStep s := mayStep_congr (by rw [hpwr]) hnow
  simp [nextVcore, hpwr, hmay, nearDayHigh_congr hsens hnow]

/-! ### Banks (R134, R135) -/

@[simp] theorem bankSt_setBank (b : Bank) (x : BankSt) (s : State) : bankSt (setBank b x s) b = x := by cases b <;> rfl

@[simp] theorem setBank_setBank (b : Bank) (x y : BankSt) (s : State) : setBank b y (setBank b x s) = setBank b y s := by
  cases b <;> rfl

@[simp] theorem setBank_now (b : Bank) (x : BankSt) (s : State) : (setBank b x s).now = s.now := by cases b <;> rfl

theorem bankSt_congr {s t : State} (h : t.pwr = s.pwr) (b : Bank) : bankSt t b = bankSt s b := by
  cases b <;> simp only [bankSt, h]

@[simp] theorem bankSt_raise_pwrDomain (b c : Bank) (s : State) : bankSt (raise .pwrDomain (bankDetail c) s) b = bankSt s b :=
  bankSt_congr (by simp) b

@[simp] theorem bankSt_settlePower (b : Bank) (s : State) : bankSt (settlePower s) b = bankSt s b := by
  have h : Only [.flt, .status, .net, .sv, .disc, .bea] s (settlePower s) := by simp
  exact bankSt_congr (h .pwr (by decide)) b

@[simp] theorem bankSt_recensusAll (b : Bank) (s : State) : bankSt (recensusAll s) b = bankSt s b := bankSt_congr rfl b

/-- The run of equal readings in a band, with one more. -/
def bandRun (last : Level) (run : Nat) (l : Level) : Nat := if l = last then run + 1 else 1

theorem bandRun_eq_three_iff {last l : Level} {run : Nat} : bandRun last run l = 3 ↔ l = last ∧ run = 2 := by
  unfold bandRun
  split <;> simp_all

theorem bankWaits_band {b : Bank} {want : Level → Bool} {mv : Nat} {s : State} (hband : bandOf mv ≠ .none)
    (hwant : want (bandOf mv) = true) : bankWaits b want mv s =
      if bandRun (bankSt s b).lastBand (bankSt s b).run (bandOf mv) = 3 then
        (setBank b { bankSt s b with level := bandOf mv, lost := false, lastBand := bandOf mv, run := 0 } s, true)
      else (setBank b { bankSt s b with
        lastBand := bandOf mv, run := bandRun (bankSt s b).lastBand (bankSt s b).run (bandOf mv) } s, false) := by
  have hwaits : (decide (bandOf mv = .none) || !want (bandOf mv)) = false := by simp [hband, hwant]
  simp only [bankWaits, hwaits]
  rfl

section
variable {b : Bank} {s : State} (mv : Nat) (haon : s.pwr.aonOn = true) (hawake : s.standby.asleep = false)
  (hreset : s.boot.inReset = false) (hdue : (bankSt s b).next ≤ s.now)
include haon hawake hreset hdue

/-- A bank in use reads its own level. -/
theorem execBankRemeasure_kept (hlevel : (bankSt s b).level ≠ .none) (hlost : (bankSt s b).lost = false)
    (hband : bandOf mv = (bankSt s b).level) :
    execBankRemeasure b mv s = .next (setBank b { bankSt s b with run := 0, next := s.now + msT 10 } s) := by
  simp [execBankRemeasure, haon, hawake, hreset, not_lt.2 hdue, hlevel, hlost, hband]

/-- A bank in use reads outside its level. -/
theorem execBankRemeasure_outside (hlevel : (bankSt s b).level ≠ .none) (hlost : (bankSt s b).lost = false)
    (hband : bandOf mv ≠ (bankSt s b).level) : execBankRemeasure b mv s = .next (
      if (bankSt s b).run + 1 = 3 then
        raise .pwrDomain (bankDetail b)
          (setBank b { bankSt s b with lost := true, run := 0, lastBand := .none, next := s.now + msT 10 } s)
      else setBank b { bankSt s b with run := (bankSt s b).run + 1, next := s.now + msT 10 } s) := by
  simp [execBankRemeasure, haon, hawake, hreset, not_lt.2 hdue, hlevel, hlost, hband, apply_ite Host.Outcome.next]

/-- The third equal reading in a band sets the level of a bank that has none. -/
theorem execBankRemeasure_set (hlevel : (bankSt s b).level = .none) (hband : bandOf mv ≠ .none)
    (hrun : bandRun (bankSt s b).lastBand (bankSt s b).run (bandOf mv) = 3) :
    Goes (execBankRemeasure b mv s) (fun t => bankSt t b = { bankSt s b with
      level := bandOf mv, lost := false, lastBand := bandOf mv, run := 0, next := s.now + msT 10 }) := by
  refine ⟨_, by simp [execBankRemeasure, haon, hawake, hreset, not_lt.2 hdue, hlevel, bankWaits_band, hband, hrun]; rfl, ?_⟩
  simp [apply_ite (bankSt · b)]

/-- Fewer than three equal readings in a band are counted. -/
theorem execBankRemeasure_counted (hlevel : (bankSt s b).level = .none) (hband : bandOf mv ≠ .none)
    (hrun : bandRun (bankSt s b).lastBand (bankSt s b).run (bandOf mv) ≠ 3) :
    execBankRemeasure b mv s = .next (setBank b { bankSt s b with
      lastBand := bandOf mv, run := bandRun (bankSt s b).lastBand (bankSt s b).run (bandOf mv), next := s.now + msT 10 } s) := by
  simp [execBankRemeasure, haon, hawake, hreset, not_lt.2 hdue, hlevel, bankWaits_band, hband, hrun]

end

/-! ### The buck's phases and the rail (R137, R155) -/

theorem phasesAt_high (n : Nat) {ma : Nat} (h : 6000 < ma) : phasesAt n ma = 3 := if_pos h

theorem phasesAt_middle (n : Nat) {ma : Nat} (h : 3000 ≤ ma) (h' : ma < 5500) : phasesAt n ma = 2 := by
  simp [phasesAt, h, show ¬ 6000 < ma by omega, show ¬ 5500 ≤ ma by omega]

theorem phasesAt_low (n : Nat) {ma : Nat} (h : ma < 2500) : phasesAt n ma = 1 := by
  simp [phasesAt, show ¬ 6000 < ma by omega, show ¬ 5500 ≤ ma by omega, show ¬ 3000 ≤ ma by omega,
    show ¬ 2500 ≤ ma by omega]

theorem moveRail_due {s : State} (hrail : s.pwr.rail ≠ s.pwr.vcore) (hdue : s.pwr.railAt + usT 10 ≤ s.now) :
    moveRail s = { s with pwr := { s.pwr with
      rail := if s.pwr.rail < s.pwr.vcore then min s.pwr.vcore (s.pwr.rail + 25) else max s.pwr.vcore (s.pwr.rail - 25)
      railAt := s.now, lastStep := some s.now } } := by
  simp [moveRail, hrail, not_lt.2 hdue, modPwr]

/-- Settles O5: the first set point, `nextVcore` of a measured margin, the three outcomes of a bank's reading, and the phases of
a load. -/
theorem vcoreBanksAndPhases : Obligations.VcoreBanksAndPhases := by
  unfold Obligations.VcoreBanksAndPhases
  refine ⟨?initial, ?ageing, ?lowest, ?kept, ?outside, ?unset, ?phases, ?rail⟩
  case initial =>
    intro margins dom s hrun hset hdue hmay
    refine ⟨_, by simp only [exec, execVcoreInitialSet, hrun, hset, not_lt.2 hdue, hmay]; rfl, ?_⟩
    simp
  case ageing =>
    intro margin dom s hrun hdue
    obtain ⟨hpwr, -, -⟩ := ageMeasured_frame margin dom s
    obtain ⟨hvcore, hmargin, hdom, hnext⟩ := followMargin_pwr margin (ageMeasured margin dom s)
    rw [nextVcore_ageMeasured] at hvcore
    refine ⟨_, execAgeingMeasure_due margin dom hrun hdue, ?_⟩
    beta_reduce
    rw [ageFault_pwr, hvcore, hmargin, hdom, hpwr]
    exact ⟨rfl, rfl, nextVcore_rise, fun hlow hhigh => ⟨nextVcore_hold s hlow hhigh, by rw [hnext hlow, hpwr]⟩, nextVcore_fall,
      nextVcore_forbidden, nextVcore_bounds margin⟩
  case lowest => exact fun _ _ h hi => initialVcore_of_findIdx h hi
  case kept =>
    intro b mv s haon hawake hreset hdue hlevel hlost hband
    exact execBankRemeasure_kept mv haon hawake hreset hdue hlevel hlost hband
  case outside =>
    intro b mv s haon hawake hreset hdue hlevel hlost hband
    refine ⟨_, execBankRemeasure_outside mv haon hawake hreset hdue hlevel hlost hband, ?_⟩
    by_cases hrun : (bankSt s b).run = 2
    · simp [hrun, bankUsable]
    · simp [hrun, hlost]
  case unset =>
    intro b mv s haon hawake hreset hdue hlevel hband
    by_cases hrun : bandRun (bankSt s b).lastBand (bankSt s b).run (bandOf mv) = 3
    · obtain ⟨hlast, htwo⟩ := bandRun_eq_three_iff.1 hrun
      obtain ⟨t, ht, hbank⟩ := execBankRemeasure_set mv haon hawake hreset hdue hlevel hband hrun
      exact ⟨t, ht, congrArg BankSt.lastBand hbank, congrArg BankSt.next hbank, fun _ _ => congrArg BankSt.level hbank,
        fun _ hlt => absurd htwo hlt.ne, fun hne => absurd hlast.symm hne⟩
    · refine ⟨_, execBankRemeasure_counted mv haon hawake hreset hdue hlevel hband hrun, ?_⟩
      beta_reduce
      rw [bankSt_setBank]
      exact ⟨rfl, rfl, fun hlast htwo => absurd (bandRun_eq_three_iff.2 ⟨hlast.symm, htwo⟩) hrun,
        fun hlast _ => ⟨hlevel, if_pos hlast.symm⟩, fun hne => ⟨hlevel, if_neg (Ne.symm hne)⟩⟩
  case phases =>
    intro ma s hbuck
    refine ⟨_, by simp only [exec, execBuckPhaseChange, hbuck]; rfl, rfl, ?_⟩
    exact ⟨phasesAt_high _, phasesAt_middle _, phasesAt_low _⟩
  case rail => exact fun _ hrail hdue => moveRail_due hrail hdue

end Sys2Proof.Machine
end

section
/-!
PROOFS. Ambient conversions, reports and the agreed brightness (13 R662 to R667, 14 R696; 04 R158): what each command does when it
is due, and what a knot that arrives does.
-/
namespace Sys2Proof.Machine
open Sys2Proof Sys2Proof.Safety

/-! ### Conversions (R662) -/

theorem execAmbientConvert_due {s : State} (pa : Nat) (hrun : runs s = true) (hsensor : s.amb.sensor = true)
    (hdue : dueBy s.now s.amb.convertNext = true) : execAmbientConvert pa s =
      .next { s with amb := { takeConversion pa s.amb with convertNext := some (s.now + msT 100) } } := by
  simp [execAmbientConvert, hrun, hsensor, hdue, modAmb]

theorem takeConversion_discarded {a : Amb} (pa : Nat) (h : 0 < a.discard) :
    takeConversion pa a = { a with discard := a.discard - 1 } := if_pos h

theorem takeConversion_kept {a : Amb} (pa : Nat) (h : a.discard = 0) : takeConversion pa a = keepConversion pa a :=
  if_neg (by simp [h])

/-- At most ten conversions are held (R664). -/
theorem keepConversion_length (pa : Nat) (a : Amb) : (keepConversion pa a).last.length ≤ 10 := List.length_take_le _ _

/-! ### Reports and the target (R664 to R666) -/

theorem dueBy_iff {now : Ticks} {t : Option Ticks} : dueBy now t = true ↔ ∃ x, t = some x ∧ x ≤ now := by
  cases t <;> simp [dueBy, passed]

/-- The lead, a tile on its own and one without a joined link take their own report; any other sends it up. -/
theorem execAmbientReport_due {s : State} (hrun : runs s = true) (hdue : dueBy s.now s.amb.reportNext = true) :
    execAmbientReport s =
      let u := modAmb (fun a => { a with reportNext := some (s.now + secT 1) }) s
      .next (if actingLead s = true ∨ standalone s = true ∨ anyJoined s = false then takeReport (serialOf s) (reportValue s) u
        else originUp u .bright (brightBytes ⟨false, false, reportValue s, beatNo (beatNow s)⟩)) := by
  obtain ⟨x, hx, hle⟩ := dueBy_iff.1 hdue
  have hown : (actingLead s || standalone s || !anyJoined s) = true ↔
      (actingLead s = true ∨ standalone s = true ∨ anyJoined s = false) := by simp [or_assoc]
  refine (if_neg (by simp [hrun, hx, hle])).trans ?_
  dsimp only
  by_cases h : actingLead s = true ∨ standalone s = true ∨ anyJoined s = false
  · rw [if_pos h]
    exact if_pos (hown.2 h)
  · rw [if_neg h]
    exact if_neg (mt hown.1 h)

/-- What governs the brightness moves its target. -/
theorem execBrightTargetCompute_due {s : State} (hrun : runs s = true) (hmark : s.mark.on = true)
    (hdue : dueBy s.now s.bri.nextCompute = true) (hgoverns : governs s = true) : execBrightTargetCompute s =
      .next (moveTarget (modBri (fun b => { b with nextCompute := some (s.now + secT 1) }) s)) := by
  obtain ⟨x, hx, hle⟩ := dueBy_iff.1 hdue
  refine (if_neg (by simp [hrun, hmark, hx, hle])).trans ?_
  exact if_pos hgoverns

/-! ### Knots that arrive (R665, R667) -/

theorem onKnot_of_arrive {d : Dir} {run : BlockRun} {bytes : List Byte} {s r : State} (f : List Byte → State → State)
    (h : arrive d run s = (r, some bytes)) : onKnot d run f s = .next (f bytes r) := by
  simp [onKnot, h]

/-- A TARGET that is taken from the lead. -/
theorem brightIn_target {d : Dir} {bytes : List Byte} {h : Head} {r u : State} (hkind : byteAt bytes 20 = 1)
    (htaken : receiveFlood r d .bright bytes = .taken u h) (hlead : actingLead u = false) (halone : standalone u = false)
    (hfrom : fromLead u h = true) : brightIn d bytes r = takeTarget (readBright bytes) u := by
  simp [brightIn, hkind, htaken, hlead, halone, hfrom]

/-- A REPORT that is taken by the lead. -/
theorem brightIn_report {d : Dir} {bytes : List Byte} {h : Head} {r u : State} (hkind : byteAt bytes 20 ≠ 1)
    (htaken : receiveLocal r d .bright bytes = .taken u h) (hlead : actingLead u = true) :
    brightIn d bytes r = takeReport h.orig (readBright bytes).value u := by
  simp [brightIn, hkind, htaken, hlead]

/-- A TARGET named for a beat takes effect at it. -/
theorem targetsAtBeat_of_due {k v : Nat} {s : State} (h : s.bri.due = [(beatNo k, v)]) :
    targetsAtBeat k s = modBri (fun b => { b with agreed := some v, due := [] }) s := by
  simp [targetsAtBeat, h, cmp32, modBri]

/-- Settles O46: each command that is due, and each knot that is taken, by its own operation. -/
theorem brightnessIsAgreed : Obligations.BrightnessIsAgreed := by
  unfold Obligations.BrightnessIsAgreed
  refine ⟨?discarded, ?kept, ?report, ?compute, ?target, ?reported, ?beat, ?night⟩
  case discarded =>
    intro pa s hrun hsensor hdue hdiscard
    refine (execAmbientConvert_due pa hrun hsensor hdue).trans ?_
    rw [takeConversion_discarded pa hdiscard]
  case kept =>
    intro pa s hrun hsensor hdue hdiscard
    refine ⟨_, execAmbientConvert_due pa hrun hsensor hdue, ?_⟩
    rw [takeConversion_kept pa hdiscard]
    exact ⟨rfl, rfl, rfl, keepConversion_length pa s.amb, rfl, rfl⟩
  case report => exact fun _ hrun hdue => execAmbientReport_due hrun hdue
  case compute => exact fun _ hrun hmark hdue hgoverns => execBrightTargetCompute_due hrun hmark hdue hgoverns
  case target =>
    intro link run bytes h s r u harrive hkind htaken hlead halone hfrom
    refine (onKnot_of_arrive (brightIn link) harrive).trans ?_
    rw [brightIn_target hkind htaken hlead halone hfrom]
  case reported =>
    intro link run bytes h s r u harrive hkind htaken hlead
    refine (onKnot_of_arrive (brightIn link) harrive).trans ?_
    rw [brightIn_report hkind htaken hlead]
  case beat =>
    intro k v s hdue
    rw [targetsAtBeat_of_due hdue]
    exact ⟨rfl, rfl⟩
  case night =>
    intro s hrun hgoverns hbeat hquiet hsince
    simp only [exec, execNightStandbyDecision, hrun, hgoverns, hbeat, hquiet, hsince]
    rfl

end Sys2Proof.Machine
end

section
/-!
PROOFS. An address match while the 25.000 MHz oscillator already runs (05 R982). The check of a wake frame that a fall of VCORE ends
(04 R143, R975) leaves the oscillator running, so that the next match starts none, and its count waits for no further 2 ms.
-/
namespace Sys2Proof.Machine
open Sys2Proof Sys2Proof.Safety

/-! ### The slow listener (16 R790) -/

theorem execSlowListenerMatch_heard {levels : List Bool} {g : BSeg} {f : Byte × List Byte} {s : State}
    (hasleep : s.standby.asleep = true) (hidle : s.boot.checking = false)
    (hsegs : (segsOf ((slowReceive {} levels).map (fun c => (0, c)))).getLast? = some g) (hframe : listenFrame s g = some f) :
    execSlowListenerMatch levels s = .next (startCheck f s) := by
  simp [execSlowListenerMatch, hasleep, hidle, hsegs, hframe]

/-- An oscillator that runs is not started again. -/
theorem startCheck_refWait_of_oscOn {s : State} (f : Byte × List Byte) (h : s.clk.oscOn = true) :
    (startCheck f s).clk.refWait = s.clk.refWait := by
  simp [startCheck, startOscillator, h]

/-! ### A frame on the line -/

/-- A character as the slow clock samples its bits, 13 + 167/256 periods to each. -/
def slowLevels (c : Byte × Bool) : List Bool := (List.range 151).map (fun t => (bobBits c).getD (t * 256 / 3495) true)

/-- The characters of a frame of type 0x21 without a body, after the address 0xFF. -/
def heardBytes : List Byte := [0xFE, 0x21, 0, 0, 0, 0, 1, 0, 0, 0, 0]

/-- The levels of the frame on an idle line. -/
def heardLevels : List Bool := true :: (slowLevels (0xFF, true) ++ heardBytes.flatMap (fun b => slowLevels (b, false)) ++ [true])

/-- The frame as the slow listener receives it. -/
def heardFrame : BSeg :=
  ⟨⟨0xFF, true, false, false, false⟩, 0, heardBytes.map (fun b => (0, ⟨b, false, false, false, false⟩))⟩

theorem slowReceive_heardLevels : slowReceive {} heardLevels =
    ⟨0xFF, true, false, false, false⟩ :: heardBytes.map (fun b => ⟨b, false, false, false, false⟩) := by decide +kernel

theorem segsOf_heardLevels : (segsOf ((slowReceive {} heardLevels).map (fun c => (0, c)))).getLast? = some heardFrame := by
  rw [slowReceive_heardLevels]
  rfl

/-! ### A tile after the check was cut short -/

/-- A sleeping tile that checks a frame: the oscillator and the buck run. -/
def checkingTile : State :=
  { pwr := { aonOn := true, buckOn := true }, boot := { checking := true }, standby := { asleep := true }
    clk := { oscOn := true, refPresent := true } }

/-- The tile after VCORE has fallen: it sleeps and checks nothing, and the oscillator runs. -/
def cutShortTile : State := checkBrownout 1 checkingTile

theorem execRailBrownout_checkingTile : exec (.railBrownout .vcore false) checkingTile = .next cutShortTile := rfl

theorem cutShortTile_state : cutShortTile.standby.asleep = true ∧ cutShortTile.boot.checking = false ∧
    cutShortTile.clk.oscOn = true ∧ cutShortTile.clk.refWait = 0 ∧ cutShortTile.now = 0 := by decide

/-- Refutes O23: its clause of the address match lets the count of R982 wait for 2 ms from the present instant, and the model does so
only where the match starts the oscillator. In `cutShortTile` it runs already, and the wait stays that of its earlier start. -/
theorem not_standbySleepsAndWakes : ¬ Obligations.StandbySleepsAndWakes := by
  unfold Obligations.StandbySleepsAndWakes
  rintro ⟨-, -, -, -, hmatch, -⟩
  obtain ⟨hasleep, hidle, hosc, hwait, hnow⟩ := cutShortTile_state
  have hframe : listenFrame cutShortTile heardFrame = some (0xFF, heardBytes) := by decide
  obtain ⟨t, ht, -, -, -, -, hlate⟩ := hmatch heardLevels heardFrame _ cutShortTile hasleep hidle segsOf_heardLevels hframe
  have hgoes := execSlowListenerMatch_heard hasleep hidle segsOf_heardLevels hframe
  obtain rfl : startCheck _ cutShortTile = t := Host.Outcome.next.inj (hgoes.symm.trans ht)
  rw [startCheck_refWait_of_oscOn _ hosc, hwait, hnow] at hlate
  exact absurd hlate (by decide)

end Sys2Proof.Machine
end

section
/-!
PROOFS. One step of the block (log 1): it is the front command, which leaves the ruler, the queue and the unit, or one system clock,
which moves the ruler by the length of that clock (05 R193).
-/
namespace Sys2Proof.Machine
open Sys2Proof

/-! ### Commands -/

theorem step_of_cons {c : Instr} {rest : List Instr} {s : State} (h : s.pending = c :: rest) :
    step s = exec c { s with pending := rest } := by
  unfold step
  rw [h]

theorem step_of_nil {s : State} (h : s.pending = []) : step s = .next (tick s) := by
  unfold step
  rw [h]

/-- Settles O56, by the two forms of the queue. -/
theorem stepRunsFrontCommand : Obligations.StepRunsFrontCommand :=
  ⟨fun _ _ _ => step_of_cons, fun _ => step_of_nil⟩

/-- A facet that no frame leaves open and that is no part of a frame stands under every command. -/
theorem Facet.notMem_mayChange {f : Facet} (hopen : f ∉ unframed) (hpart : ∀ p, Part.facet p ≠ f) (c : Instr) :
    f ∉ mayChange c := by
  simp [mayChange, hopen, hpart]

theorem exec_keeps_ruler_queue_unit {c : Instr} {s t : State} (h : exec c s = .next t) :
    t.now = s.now ∧ t.pending = s.pending ∧ t.unit = s.unit :=
  ⟨exec_only h .now (Facet.notMem_mayChange (by decide) (fun p => by cases p <;> decide) c),
   exec_only h .pending (Facet.notMem_mayChange (by decide) (fun p => by cases p <;> decide) c),
   exec_only h .unit (Facet.notMem_mayChange (by decide) (fun p => by cases p <;> decide) c)⟩

/-! ### One system clock -/

@[simp] theorem aonTick_now (s : State) : (aonTick s).now = s.now := by
  have h : Only [.straps, .live, .pwr, .clk, .flt, .status, .net, .sv, .disc, .weft, .bea] s (aonTick s) := by simp
  exact h .now (by decide)

@[simp] theorem countClock_now (m : Nat) (s : State) : (countClock m s).now = s.now := by
  have h : Only [.clk, .time, .aud] s (countClock m s) := by simp
  exact h .now (by decide)

/-- What follows the count of a clock leaves the ruler. -/
theorem playDue_sendClock_now (n : Ticks) (s : State) :
    (playDue (holdLong (flushFrameDue (trackGating (endSuite (sendClock n (xbClock (openPick s)))))))).now = s.now := by
  have h : Only [.sent, .pwr, .test, .status, .net, .time, .sv, .xb, .weft, .aud] s
      (playDue (holdLong (flushFrameDue (trackGating (endSuite (sendClock n (xbClock (openPick s)))))))) := by simp
  exact h .now (by decide)

/-- The ruler moves by the length of the clock. -/
theorem tick_now (s : State) : (tick s).now = s.now + clockTicks s := by
  unfold tick
  dsimp only
  split
  case isTrue => exact aonTick_now _
  case isFalse => simp only [playDue_sendClock_now, countClock_now, aonTick_now]

theorem tick_pending_unit (s : State) : (tick s).pending = s.pending ∧ (tick s).unit = s.unit := by
  have h : Only [.now, .sent, .straps, .live, .pwr, .clk, .test, .flt, .status, .net, .time, .sv, .disc, .xb, .weft, .aud, .bea]
      s (tick s) := by simp
  exact ⟨h .pending (by decide), h .unit (by decide)⟩

theorem clockTicks_of_stopped {s : State} (h : s.clk.running = false) : clockTicks s = 3200 := by
  simp [clockTicks, h]

/-- A clock of the sweep is never shorter than 1 ns (R193). -/
theorem le_clockTicks (s : State) : 3200 ≤ clockTicks s := by
  unfold clockTicks
  split
  case isTrue => exact Nat.le_add_right _ _
  case isFalse => exact Nat.le_refl _

/-- Settles O58: the ruler, the queue and the unit are among the facets that no command may change, and only the ruler is among
those of a clock. -/
theorem commandsLeaveRulerQueueAndUnit : Obligations.CommandsLeaveRulerQueueAndUnit := by
  unfold Obligations.CommandsLeaveRulerQueueAndUnit
  refine ⟨fun c s t h => exec_keeps_ruler_queue_unit h, fun s => ?_⟩
  obtain ⟨hpending, hunit⟩ := tick_pending_unit s
  exact ⟨tick_now s, hpending, hunit, le_clockTicks s⟩

end Sys2Proof.Machine
end

section
/-!
PROOFS. The clock of the sweep and the counter of time (05 R184, R193, R194, R200; 08 R334): that AON starts no system clock, the
counter set to a value and read back, and what one clock adds to it.
-/
namespace Sys2Proof.Machine
open Sys2Proof

/-! ### AON neither starts nor stops the system clock -/

@[simp] theorem useSlowCrystal_clk (s : State) : (useSlowCrystal s).clk =
    { s.clk with slowXtal := true, substituted := false, trimmed := false, nextTrim := none, nextSlowCheck := none } := by
  simp [useSlowCrystal]

@[simp] theorem settleSlow_running (s : State) : (settleSlow s).clk.running = s.clk.running := by
  unfold settleSlow
  split
  case h_1 => rfl
  case h_2 w _ => cases w <;> simp [substituteSlow]

@[simp] theorem settleSlowDue_running (s : State) : (settleSlowDue s).clk.running = s.clk.running := by
  unfold settleSlowDue
  split <;> simp

@[simp] theorem codesDecided_clk (b : Code) (s : State) : (codesDecided b s).clk = s.clk := by
  have hfaults : Only [.straps, .flt, .status, .net, .sv, .disc, .weft, .bea] s (readingFaults s) := by simp
  have hconf (u : State) : Only [.straps, .flt, .status, .net, .sv, .disc, .weft, .bea] u (resolveConflicts u) := by simp
  exact (hconf _ .clk (by decide)).trans (hfaults .clk (by decide))

theorem startLive_clk (b : Code) (s : State) : (startLive b s).clk = s.clk := rfl

@[simp] theorem lateSweep_running (known : Bool) (s : State) : (lateSweep known s).clk.running = s.clk.running := by
  unfold lateSweep
  split <;> rfl

@[simp] theorem decideFields_running (b : Code) (s : State) : (decideFields b s).clk.running = s.clk.running := by
  rw [decideFields_eq, lateSweep_running, startLive_clk, codesDecided_clk]

@[simp] theorem settleStraps_running (s : State) : (settleStraps s).clk.running = s.clk.running := by
  unfold settleStraps
  split
  case h_1 => rfl
  case h_2 x _ =>
    split
    case isTrue => exact decideFields_running x _
    case isFalse => rfl

@[simp] theorem moveRail_clk (s : State) : (moveRail s).clk = s.clk := by
  have h : Only [.pwr] s (moveRail s) := by simp
  exact h .clk (by decide)

@[simp] theorem aonTick_running (s : State) : (aonTick s).clk.running = s.clk.running := by
  simp [aonTick]

theorem tick_of_stopped {s : State} (h : s.clk.running = false) : tick s = aonTick { s with now := s.now + 3200 } := by
  simp [tick, clockTicks_of_stopped h, h]

/-! ### Places of the sweep (R184, R193, R194) -/

theorem sweepClock_within {x : Clk} (m : Nat) (h : x.sub < 39) :
    sweepClock m x = { x with sub := x.sub + 1, count := x.count + 1 } := if_pos (by omega)

theorem sweepClock_last {x : Clk} (m : Nat) (h : x.sub = 39) : sweepClock m x = { x with
    sub := 0, count := x.count + 1, j := (x.j + 1) % periodsOf x.profile, dtc := (x.dtc + m) % 3200
    cell := x.cellNext, cellNext := depthAt x.profile (((x.j + 1) % periodsOf x.profile + 1) % periodsOf x.profile) } :=
  if_neg (by omega)

/-! ### The counter of time (R200, 08 R334) -/

/-- A counter set to a value reads as it, within the 64 bits of its seconds. -/
theorem counterF_setCounterF (t : TimeSt) {v : Int} (h0 : 0 ≤ v) (h : v < 18446744073709551616 * 1000000000 * 4294967296) :
    counterF (setCounterF t v) = v := by
  simp only [counterF, setCounterF, BitVec.toNat_ofNat]
  omega

theorem counterF_nonneg (t : TimeSt) : 0 ≤ counterF t := Int.natCast_nonneg _

/-- Below 2^63 seconds the counter lies within half its range and a second. -/
theorem counterF_lt {t : TimeSt} (h : t.sec.toNat < 2 ^ 63) : counterF t < 9223372036854775809 * 1000000000 * 4294967296 := by
  have hns := t.ns.isLt
  have hfrac := t.frac.isLt
  unfold counterF
  omega

/-- The units that a clock of depth m adds: I, and the whole part of I × m with the remainder of the clock before. -/
def clockGain (m : Nat) (s : State) : Nat :=
  incrementOf s.time.y + (incrementOf s.time.y * m + s.clk.carry) / 3200

theorem clockGain_lt {m : Nat} {s : State} (hi : incrementOf s.time.y < 2 ^ 33) (hm : m < 3200) (hc : s.clk.carry < 3200) :
    clockGain m s < 2 ^ 35 := by
  have hmul : incrementOf s.time.y * m ≤ incrementOf s.time.y * 3200 := Nat.mul_le_mul_left _ hm.le
  unfold clockGain
  omega

theorem gainTime_carry {m : Nat} {s : State} (h : s.time.running = true) :
    (gainTime m s).clk.carry = (incrementOf s.time.y * m + s.clk.carry) % 3200 := by
  simp [gainTime, h]

theorem gainTime_time {m : Nat} {s : State} (h : s.time.running = true) :
    (gainTime m s).time = setCounterF s.time (counterF s.time + clockGain m s) := by
  simp [gainTime, h, clockGain, Int.add_assoc, modTime]

/-- What a clock gains and carries is the increment over its length, with what it was given (R200). -/
theorem clockGain_mul (m : Nat) (s : State) :
    3200 * clockGain m s + (incrementOf s.time.y * m + s.clk.carry) % 3200 =
      incrementOf s.time.y * (3200 + m) + s.clk.carry := by
  unfold clockGain
  rw [Nat.mul_add (incrementOf s.time.y)]
  omega

/-- The audio dividers alone are counted by `audioClock`. -/
theorem audioClock_carry (before after : Int) (s : State) : (audioClock before after s).clk.carry = s.clk.carry := by
  unfold audioClock
  dsimp only
  split
  case isTrue => rfl
  case isFalse =>
    split
    case h_1 => rfl
    case h_2 => split <;> rfl
    case h_3 => split <;> rfl

theorem countClock_carry (m : Nat) (s : State) : (countClock m s).clk.carry = (gainTime m s).clk.carry :=
  audioClock_carry _ _ _

theorem countClock_time (m : Nat) (s : State) : (countClock m s).time = (gainTime m s).time := by
  have haudio (b a : Int) (u : State) : Only [.clk, .aud] u (audioClock b a u) := by simp
  exact haudio _ _ _ .time (by decide)

/-- Settles O9. The time that a clock adds is `clockGain`, which the counter holds without wrapping. -/
theorem sweepFollowsItsProfile : Obligations.SweepFollowsItsProfile := by
  unfold Obligations.SweepFollowsItsProfile
  refine ⟨fun s => tick_of_stopped, fun m x => sweepClock_within m, fun m x => sweepClock_last m, ?gain⟩
  case gain =>
    intro s hrun hsec hincr hdepth hcarry
    have hlt := counterF_lt hsec
    have hgain := clockGain_lt hincr hdepth hcarry
    have hnonneg := counterF_nonneg s.time
    have hcarried : (countClock (depthNow s) s).clk.carry = (incrementOf s.time.y * depthNow s + s.clk.carry) % 3200 := by
      rw [countClock_carry, gainTime_carry hrun]
    refine ⟨clockGain (depthNow s) s, ?_, ?_, ?_⟩
    · rw [hcarried]
      exact Nat.mod_lt _ (by decide)
    · rw [countClock_time, gainTime_time hrun]
      exact counterF_setCounterF _ (by omega) (by omega)
    · rw [hcarried]
      exact clockGain_mul _ s

end Sys2Proof.Machine
end

section
/-!
PROOFS. D1 and D2, lock and loss of lock (05 R181 to R187, R198, R215): what each command does when its conditions hold.
-/
namespace Sys2Proof.Machine
open Sys2Proof Sys2Proof.Safety

/-! ### The reference and D1, D2 (R181, R982) -/

/-- AON counts the reference for a tile that wants its core. -/
theorem execD1d2SwitchOn_counted {edges : Nat} {s : State} (haon : s.pwr.aonOn = true) (hwants : wantsCore s = true)
    (hosc : s.clk.oscOn = true) (hwait : s.clk.refWait ≤ s.now) (hcheck : s.clk.refCheckAt = none) :
    execD1d2SwitchOn edges s = .next (if refCountOk edges then powerD1D2 s else xtalFault 0 s) := by
  simp [execD1d2SwitchOn, haon, hwants, hosc, hwait, hcheck, apply_ite Host.Outcome.next]

theorem startSwitch_two_d2OnAt (s : State) : (startSwitch 2 s).clk.d2OnAt = some s.now := by
  simp [startSwitch, setDom]

theorem refCountOk_iff {edges : Nat} : refCountOk edges = true ↔ 690 ≤ edges ∧ edges ≤ 840 := by
  simp [refCountOk]

theorem refCountOk_eq_false_iff {edges : Nat} : refCountOk edges = false ↔ edges < 690 ∨ 840 < edges := by
  rw [← Bool.not_eq_true, refCountOk_iff]
  omega

/-- D1 and D2 switch at the present instant, with the buck at 0.800 V (04 R151, R153). -/
theorem powerD1D2_spec (s : State) : (powerD1D2 s).boot.d1d2 = true ∧ (powerD1D2 s).clk.refPresent = true ∧
    (powerD1D2 s).clk.d2OnAt = some s.now ∧ (powerD1D2 s).pwr.buckOn = true ∧ (powerD1D2 s).pwr.vcore = 8000 := by
  have hnow : (startSwitch 1 s).now = s.now := (show Only [.pwr, .clk, .boot] s (startSwitch 1 s) by simp) .now (by decide)
  simp [powerD1D2, startSwitch_two_d2OnAt, hnow]

/-! ### Lock (R185, R187, R198) -/

/-- The state as the system clock starts, before the sweep: logic is released and the SRAM holds zeros. -/
def clockStarted (s : State) : State :=
  reportProgress (zeroSram { s with
    clk := { s.clk with
      locked := true, running := true, profile := .off, j := 0, sub := 0, dtc := 0, carry := 0, count := 0, cell := 0, cellNext := 0
      nextTrim := if s.clk.substituted then some (s.now + secT 1) else s.clk.nextTrim }
    pwr := { s.pwr with lane := keptLanes s } })

/-- With D1 and D2 on, no hold-off and a clean run within its 20 ms, lock is declared. -/
theorem execMdllLock_declared {run : List Injections} {s : State} (h1 : domOn s 1 = true) (h2 : domOn s 2 = true)
    (hlocked : s.clk.locked = false) (href : s.clk.refPresent = true) (hoff : s.flt.holdoff = none)
    (hhold : s.flt.safeHold = false) (hrun : lockRun run s = true) :
    execMdllLock run s = .next (if s.boot.checking then modClk (fun z => { z with locked := true }) s
      else if sweepKnown s then startSweep (clockStarted s) else clockStarted s) := by
  have hknown : sweepKnown (clockStarted s) = sweepKnown s := rfl
  cases hc : s.boot.checking with
  | true => simp [execMdllLock, h1, h2, hlocked, href, hoff, hhold, hrun, hc]
  | false =>
    rw [← hknown]
    simp [execMdllLock, h1, h2, hlocked, href, hoff, hhold, hrun, hc, clockStarted]

theorem chooseProfile_clockStarted (s : State) : chooseProfile (clockStarted s) = chooseProfile s := rfl

theorem startIndex_clockStarted (s : State) (p : Profile) : startIndex (clockStarted s) p = startIndex s p := by
  unfold startIndex serialOf
  rfl

theorem startSweep_profile_j (s : State) :
    (startSweep s).clk.profile = chooseProfile s ∧ (startSweep s).clk.j = startIndex s (chooseProfile s) := by
  simp [startSweep]

/-! ### Loss of lock, and a reference that is missing (R183, R185, R186, R215) -/

/-- A lock that is sought and not reached 20 ms after the switch-on of D2 (R186). -/
theorem execMdllLockTimeout_late {run : List Injections} {s : State} (h2 : domOn s 2 = true) (hlocked : s.clk.locked = false)
    (href : s.clk.refPresent = true) (hoff : s.flt.holdoff = none) (hhold : s.flt.safeHold = false)
    (hlate : passed s.now s.clk.d2OnAt (msT 20) = true) :
    execMdllLockTimeout run s = .next (unlockFault (errorCount run) s) := by
  simp [execMdllLockTimeout, h2, hlocked, href, hoff, hhold, hlate]

/-- Settles O6, by the command of each clause under its conditions. -/
theorem clockStartsAndUnlocks : Obligations.ClockStartsAndUnlocks := by
  unfold Obligations.ClockStartsAndUnlocks
  refine ⟨?switchOn, ?lock, ?check, ?loss, ?late, ?running, ?seeking⟩
  case switchOn =>
    intro edges s haon hwants hosc hwait hcheck
    have hexec := execD1d2SwitchOn_counted (edges := edges) haon hwants hosc hwait hcheck
    refine ⟨fun hlow hhigh => ⟨powerD1D2 s, ?_, powerD1D2_spec s⟩, fun hbad => ?_⟩
    · exact hexec.trans (by rw [if_pos (refCountOk_iff.2 ⟨hlow, hhigh⟩)])
    · exact hexec.trans (by simp [refCountOk_eq_false_iff.2 hbad])
  case lock =>
    intro run s h1 h2 hlocked href hoff hhold hchecking hrun
    have hexec := execMdllLock_declared h1 h2 hlocked href hoff hhold hrun
    cases hknown : sweepKnown s with
    | true =>
      obtain ⟨hprofile, hindex⟩ := startSweep_profile_j (clockStarted s)
      rw [chooseProfile_clockStarted] at hprofile hindex
      rw [startIndex_clockStarted] at hindex
      exact ⟨startSweep (clockStarted s), hexec.trans (by simp [hchecking, hknown]), rfl, rfl, rfl, rfl, rfl,
        fun _ => ⟨hprofile, hindex⟩, nofun, rfl⟩
    | false =>
      exact ⟨clockStarted s, hexec.trans (by simp [hchecking, hknown]), rfl, rfl, rfl, rfl, rfl, nofun, fun _ => ⟨rfl, rfl⟩, rfl⟩
  case check =>
    intro run s h1 h2 hlocked href hoff hhold hchecking hrun
    exact (execMdllLock_declared h1 h2 hlocked href hoff hhold hrun).trans (by rw [if_pos hchecking]; rfl)
  case loss =>
    intro run s hlocked hrun herrors
    simp [exec, execMdllLossOfLock, hlocked, hrun, herrors]
  case late =>
    intro run s h2 hlocked href hoff hhold hlate
    exact execMdllLockTimeout_late h2 hlocked href hoff hhold hlate
  case running =>
    intro s hrun
    simp [exec, execReferenceEdgeMissing, hrun]
  case seeking =>
    intro s hrun h2 hlocked href hoff hhold
    simp [exec, execReferenceEdgeMissing, hrun, h2, hlocked, href, hoff, hhold]

end Sys2Proof.Machine
end

section
/-!
PROOFS. The reference counted again, and the slow clock (05 R181, R211, R217, R219, Table 5.4): a count every 100 ms, the crystal or
the oscillator taken now or after the pass or the pair, and the wake of a tile whose crystal stops in standby.
-/
namespace Sys2Proof.Machine
open Sys2Proof Sys2Proof.Safety

/-! ### The reference counted every 100 ms (Table 5.4) -/

theorem holdSince_eq (now : Ticks) (t : Option Ticks) : holdSince now t = some (t.getD now) := by cases t <;> rfl

theorem passed_holdSince {now d : Ticks} {t : Option Ticks} (h : passed now t d = true) : passed now (holdSince now t) d = true := by
  cases t with
  | none => exact nomatch h
  | some x => exact h

/-- The count noted: the next is due 100 ms on, and a reference that fails has not been good since any instant. -/
def refCounted (edges : Nat) (s : State) : State :=
  modClk (fun z => { z with
    refCheckAt := some (s.now + msT 100)
    refPresent := refCountOk edges
    refGoodSince := if refCountOk edges then holdSince s.now z.refGoodSince else none }) s

/-- The hold-off of `f:CLK_XTAL` may end now; any other stays. -/
def endXtalHold (s : State) : State :=
  match s.flt.holdoff with
  | some h =>
    if h.f = .clkXtal then
      { s with flt := { s.flt with holdoff := some { h with until_ := some s.now } }, clk := { s.clk with refCheckAt := none } }
    else s
  | none => s

theorem execReferenceRecheck_due {edges : Nat} {s : State} (h : dueBy s.now s.clk.refCheckAt = true) :
    execReferenceRecheck edges s = .next (if passed s.now (refCounted edges s).clk.refGoodSince (msT 100)
      then endXtalHold (refCounted edges s) else refCounted edges s) := by
  unfold execReferenceRecheck
  rw [if_neg (by simp [h]), apply_ite Host.Outcome.next]
  refine ite_congr rfl (fun _ => ?_) (fun _ => rfl)
  simp only [endXtalHold, refCounted, modClk_frame]
  cases s.flt.holdoff with
  | none => rfl
  | some x => exact (apply_ite Host.Outcome.next _ _ _).symm

@[simp] theorem endXtalHold_refGoodSince (s : State) : (endXtalHold s).clk.refGoodSince = s.clk.refGoodSince := by
  unfold endXtalHold
  split
  case h_1 => split <;> rfl
  case h_2 => rfl

theorem endXtalHold_holdoff {s : State} (h : s.flt.holdoff = some ⟨.clkXtal, none, false⟩) :
    (endXtalHold s).flt.holdoff = some ⟨.clkXtal, some s.now, false⟩ := by
  simp [endXtalHold, h]

theorem refCounted_refGoodSince {edges : Nat} (s : State) (h : refCountOk edges = true) :
    (refCounted edges s).clk.refGoodSince = some (s.clk.refGoodSince.getD s.now) := by
  simp [refCounted, h, holdSince_eq]

theorem refCounted_failed {edges : Nat} (s : State) (h : refCountOk edges = false) :
    (refCounted edges s).clk.refGoodSince = none := by
  simp [refCounted, h]

/-- A reference that fails its count is counted again 100 ms on, and no hold-off ends. -/
theorem execReferenceRecheck_failed {edges : Nat} {s : State} (hdue : dueBy s.now s.clk.refCheckAt = true)
    (h : refCountOk edges = false) : execReferenceRecheck edges s = .next (refCounted edges s) := by
  rw [execReferenceRecheck_due hdue, refCounted_failed s h]
  rfl

/-! ### The crystal or the oscillator taken (R211, R217) -/

/-- The crystal is in use, or waits for the end of the pass or the pair. -/
def CrystalTaken (s t : State) : Prop :=
  (slowBusy s = false → t.clk.slowXtal = true ∧ t.clk.substituted = false) ∧
  (slowBusy s = true → t = { s with clk := { s.clk with slowDue := some .crystal } })

/-- The oscillator is in use with its trim and the search for the crystal due, or waits for the end of the pass or the pair. -/
def OscillatorTaken (detail : BitVec 32) (s t : State) : Prop :=
  (slowBusy s = false → t.clk.slowXtal = false ∧ t.clk.substituted = true ∧ t.clk.nextTrim = some (s.now + secT 1) ∧
    t.clk.nextSlowCheck = some (s.now + secT 10)) ∧
  (slowBusy s = true → t = { s with clk := { s.clk with slowDue := some (.substitute detail) } })

theorem takeCrystal_taken (s : State) : CrystalTaken s (takeCrystal s) := by
  unfold CrystalTaken takeCrystal
  refine ⟨fun hidle => ?_, fun hbusy => ?_⟩
  · simp [hidle]
  · rw [if_pos hbusy]; rfl

theorem takeOscillator_taken (detail : BitVec 32) (s : State) : OscillatorTaken detail s (takeOscillator detail s) := by
  unfold OscillatorTaken takeOscillator
  refine ⟨fun hidle => ?_, fun hbusy => ?_⟩
  · simp [hidle, substituteSlow]
  · rw [if_pos hbusy]; rfl

theorem slowSpanOk_of_le {n : Nat} (hlow : 780469 ≤ n) (hhigh : n ≤ 782031) : slowSpanOk n = true := by
  simp [slowSpanOk, hlow, hhigh]

theorem execSlowCrystalRecheck_due {n : Nat} {s : State} (hsub : s.clk.substituted = true) (href : s.clk.refPresent = true)
    (hdue : dueBy s.now s.clk.nextSlowCheck = true) : execSlowCrystalRecheck n s =
      .next (if slowSpanOk n then takeCrystal s else { s with clk := { s.clk with nextSlowCheck := some (s.now + secT 10) } }) := by
  unfold execSlowCrystalRecheck
  rw [if_pos (by simp [hsub, href, hdue])]
  split <;> rfl

/-- A tile awake on its crystal, or not yet on it, takes the oscillator for each of the three causes (Table 5.4). -/
theorem execSlowClockFault_stopped {s : State} (haon : s.pwr.aonOn = true) (hawake : s.standby.asleep = false)
    (hsub : s.clk.substituted = false) (hxtal : s.clk.slowXtal = true) :
    execSlowClockFault .stopped s = .next (takeOscillator 1 s) := by
  simp [execSlowClockFault, haon, hawake, hsub, hxtal]

theorem execSlowClockFault_rate {n : Nat} {s : State} (haon : s.pwr.aonOn = true) (hawake : s.standby.asleep = false)
    (hsub : s.clk.substituted = false) (hxtal : s.clk.slowXtal = true) (hrun : s.clk.running = true)
    (hn : n < 32752 ∨ 32784 < n) : execSlowClockFault (.rate n) s = .next (takeOscillator 2 s) := by
  simp [execSlowClockFault, haon, hawake, hsub, hxtal, hrun, hn]

theorem execSlowClockFault_unconfirmed {s : State} (haon : s.pwr.aonOn = true) (hawake : s.standby.asleep = false)
    (hsub : s.clk.substituted = false) (hxtal : s.clk.slowXtal = false) (hlate : s.boot.ref + secT 3 ≤ s.now) :
    execSlowClockFault .unconfirmed s = .next (takeOscillator 0 s) := by
  simp [execSlowClockFault, haon, hawake, hsub, hxtal, hlate]

/-! ### A wake keeps the slow clock in use (R219, 04 R164) -/

@[simp] theorem startOscillator_substituted (now : Ticks) (c : Clk) : (startOscillator now c).substituted = c.substituted := by
  unfold startOscillator
  split <;> rfl

section
variable (kind : BootKind) (cause : Option FaultName) (banks : BankMv) (s : State)

@[simp] theorem flushQueue_clk : (flushQueue s).clk = s.clk := by
  have h : Only [.flt] s (flushQueue s) := by simp
  exact h .clk (by decide)

@[simp] theorem endActive_clk : (endActive s).clk = s.clk := by
  have h : Only [.flt] s (endActive s) := by simp
  exact h .clk (by decide)

@[simp] theorem forgetModules_clk_standby :
    (forgetModules kind s).clk = s.clk ∧ (forgetModules kind s).standby = s.standby := by
  have h : Only [.net] s (forgetModules kind s) := by simp
  exact ⟨h .clk (by decide), h .standby (by decide)⟩

/-- A bring-up keeps the selection of the slow clock. -/
theorem beginBringUp_substituted : (beginBringUp kind cause banks s).clk.substituted = s.clk.substituted := by
  refine (congrArg Clk.substituted (readBringUp_keeps _ banks _ .clk (by decide))).trans ?_
  simp [apply_ite State.clk, clearCore, leaveStandby]

/-- A bring-up leaves standby. -/
theorem beginBringUp_asleep : (beginBringUp kind cause banks s).standby.asleep = false := by
  refine (congrArg Standby.asleep (readBringUp_keeps _ banks _ .standby (by decide))).trans ?_
  simp [apply_ite State.standby, leaveStandby]

end

/-- Settles O7: a count of the reference, a slow clock taken at once or left to wait, and a bring-up of kind wake. -/
theorem referenceAndSlowClock : Obligations.ReferenceAndSlowClock := by
  unfold Obligations.ReferenceAndSlowClock
  refine ⟨?recheck, ?confirm, ?stopped, ?rate, ?unconfirmed, ?trim, ?found, ?standby⟩
  case recheck =>
    intro edges s hdue
    cases hok : refCountOk edges with
    | false =>
      have hbad : ¬(690 ≤ edges ∧ edges ≤ 840) := mt refCountOk_iff.2 (by simp [hok])
      exact ⟨refCounted edges s, execReferenceRecheck_failed hdue hok, fun _ => ⟨refCounted_failed s hok, rfl, rfl⟩,
        fun hlow hhigh => absurd ⟨hlow, hhigh⟩ hbad, fun hlow hhigh => absurd ⟨hlow, hhigh⟩ hbad⟩
    | true =>
      obtain ⟨hlow, hhigh⟩ := refCountOk_iff.1 hok
      refine ⟨_, execReferenceRecheck_due hdue, fun hbad => by omega, fun _ _ => ?_, fun _ _ hpassed hoff => ?_⟩
      · rw [← refCounted_refGoodSince s hok]
        split
        case isTrue => exact endXtalHold_refGoodSince _
        case isFalse => rfl
      · have hgood : passed s.now (refCounted edges s).clk.refGoodSince (msT 100) = true := by
          rw [refCounted_refGoodSince s hok, ← holdSince_eq]
          exact passed_holdSince hpassed
        rw [if_pos hgood]
        exact endXtalHold_holdoff (s := refCounted edges s) hoff
  case confirm =>
    intro n s haon href hxtal hsub hlow hhigh
    exact ⟨takeCrystal s, by simp [exec, execSlowCrystalConfirm, haon, href, hxtal, hsub, slowSpanOk_of_le hlow hhigh],
      takeCrystal_taken s⟩
  case stopped =>
    intro s haon hawake hsub hxtal
    exact ⟨_, execSlowClockFault_stopped haon hawake hsub hxtal, takeOscillator_taken 1 s⟩
  case rate =>
    intro n s haon hawake hsub hxtal hrun hn
    exact ⟨_, execSlowClockFault_rate haon hawake hsub hxtal hrun hn, takeOscillator_taken 2 s⟩
  case unconfirmed =>
    intro s haon hawake hsub hxtal hlate
    exact ⟨_, execSlowClockFault_unconfirmed haon hawake hsub hxtal hlate, takeOscillator_taken 0 s⟩
  case trim =>
    intro s hsub hrun hdue
    exact if_pos (by simp [hsub, hrun, hdue])
  case found =>
    intro n s hsub href hdue
    have hexec := execSlowCrystalRecheck_due (n := n) hsub href hdue
    cases hspan : slowSpanOk n with
    | true =>
      obtain ⟨hidle, hbusy⟩ := takeCrystal_taken s
      exact ⟨takeCrystal s, hexec.trans (by rw [if_pos hspan]), fun _ => hidle, fun _ => hbusy, nofun⟩
    | false =>
      exact ⟨_, hexec.trans (by rw [hspan]; rfl), nofun, nofun, fun _ => rfl⟩
  case standby =>
    intro banks s hasleep
    have hboot := beginBringUp_boot .wake none banks (substituteSlow s)
    exact ⟨beginBringUp .wake none banks (substituteSlow s), if_pos hasleep, by rw [hboot], by rw [hboot]; rfl, by rw [hboot],
      beginBringUp_asleep .wake none banks _, beginBringUp_substituted .wake none banks _⟩

end Sys2Proof.Machine
end

section
/-!
PROOFS. S3 faults (19 R902, R907 to R910, Table 19.2): the safe state, the hold-off or safe hold in its place, and the restart
at its end; with them the watchdog of the policy sequencer (06 R237).
-/
namespace Sys2Proof.Machine
open Sys2Proof Sys2Proof.Safety

/-! ### Safe state (R902, R914) -/

/-- The outputs are in safe state, no bring-up is in progress, and the ledger interface has stopped. -/
def S3Stopped (t : State) : Prop := t.flt.safe = true ∧ t.boot.started = false ∧ t.ldg.usable = false

theorem S3Stopped.of_only {s t : State} (hs : S3Stopped s)
    (h : Only [.pwr, .clk, .test, .status, .net, .sv, .disc, .aud, .bea] s t) : S3Stopped t := by
  have hflt : t.flt = s.flt := h .flt (by decide)
  have hboot : t.boot = s.boot := h .boot (by decide)
  have hldg : t.ldg = s.ldg := h .ldg (by decide)
  simpa only [S3Stopped, hflt, hboot, hldg] using hs

@[simp] theorem s3Safe_flt (s : State) : (s3Safe s).flt = { s.flt with safe := true } := by
  simp [s3Safe, ledgerStop]

theorem s3Safe_stopped (s : State) : S3Stopped (s3Safe s) := ⟨by simp, rfl, rfl⟩

/-- An S3 fault that is written and announced, with the outputs in safe state: what comes before its hold-off (Table 19.1). -/
def s3Announced (f : FaultName) (detail : BitVec 32) (s : State) : State :=
  modBea (fun z => { z with extra := [3, 0] }) (originFault f false (launchRecord 1
    (s3Safe (writeRing f false detail (noteRaise f (faultKey f detail) detail s)))))

theorem handleS3_eq (f : FaultName) (detail : BitVec 32) (s : State) :
    handleS3 f detail s = s3Action f (beginHold f (s3Announced f detail s)) := rfl

/-- The announcement leaves the state of `s3Safe` but for the record and the knots that carry it. -/
theorem s3Announced_only (f : FaultName) (detail : BitVec 32) (s : State) :
    Only [.status, .net, .sv, .disc, .bea] (s3Safe (writeRing f false detail (noteRaise f (faultKey f detail) detail s)))
      (s3Announced f detail s) := by
  simp [s3Announced]

theorem s3Announced_stopped (f : FaultName) (detail : BitVec 32) (s : State) : S3Stopped (s3Announced f detail s) :=
  (s3Safe_stopped _).of_only ((s3Announced_only f detail s).mono (by decide))

/-- Only the end of a hold-off adds a restart (R909). -/
theorem s3Announced_now_restarts (f : FaultName) (detail : BitVec 32) (s : State) :
    (s3Announced f detail s).now = s.now ∧ (s3Announced f detail s).flt.restarts = s.flt.restarts := by
  have hsafe := s3Announced_only f detail s .flt (by decide)
  have hnote : Only [.flt, .weft] s (writeRing f false detail (noteRaise f (faultKey f detail) detail s)) := by simp
  have hnow : Only [.boot, .test, .flt, .holds, .ldg, .status, .net, .sv, .disc, .weft, .aud, .bea] s (s3Announced f detail s) := by
    simp [s3Announced]
  obtain ⟨-, -, hrestarts, -⟩ := hnote .holds (by decide)
  exact ⟨hnow .now (by decide), (congrArg Flt.restarts hsafe).trans (by simpa using hrestarts)⟩

theorem restartsBefore_congr {s t : State} (h : t.flt.restarts = s.flt.restarts) (x : Ticks) :
    restartsBefore t x = restartsBefore s x := by
  simp only [restartsBefore, h]

/-! ### The hold-off, or safe hold in its place (R908 to R910) -/

@[simp] theorem stopClock_running (s : State) : (stopClock s).clk.running = false := by
  simp only [stopClock]
  split <;> rfl

@[simp] theorem stopClock_flt (s : State) : (stopClock s).flt = s.flt := by
  have h : Only [.pwr, .clk, .test, .status, .net, .aud] s (stopClock s) := by simp
  exact h .flt (by decide)

theorem holdCounted_of_ne {f : FaultName} (hf : f ≠ .pwrBrownout) : holdCounted f = true := by
  simp [holdCounted, hf]

section
variable {f : FaultName} {d : Ticks} {s : State} (hf : f ≠ .pwrBrownout) (hd : holdoffOf f = some d)
include hf hd

theorem beginHold_of_few_restarts (h : restartsBefore s (s.now + d) < 3) :
    beginHold f s = modFlt (fun z => { z with holdoff := some ⟨f, some (s.now + d), decide (f = .fmDouble)⟩ }) s := by
  simp [beginHold, hd, holdCounted_of_ne hf, not_le.2 h]

theorem beginHold_of_third_restart (h : 3 ≤ restartsBefore s (s.now + d)) : beginHold f s = enterSafeHold s := by
  simp [beginHold, hd, holdCounted_of_ne hf, h]

/-- The outputs stay in safe state, in a hold-off and in safe hold. -/
theorem beginHold_stopped (hs : S3Stopped s) : S3Stopped (beginHold f s) := by
  rcases lt_or_ge (restartsBefore s (s.now + d)) 3 with h | h
  · rw [beginHold_of_few_restarts hf hd h]
    exact hs
  · obtain ⟨-, hboot, hldg⟩ := hs
    rw [beginHold_of_third_restart hf hd h]
    exact S3Stopped.of_only (s := modFlt (fun z => { z with safeHold := true, safe := true, holdoff := none }) s)
      ⟨rfl, hboot, hldg⟩ (by simp [enterSafeHold])

end

/-- What a fault does to the clock leaves the fault manager, the bring-up and the ledger; a brown-out alone loses the core. -/
theorem s3Action_keeps {f : FaultName} (s : State) (hf : f ≠ .pwrBrownout) :
    Only [.pwr, .clk, .test, .status, .net, .aud] s (s3Action f s) := by
  unfold s3Action
  split
  case h_1 | h_2 | h_4 => simp
  case h_3 => exact absurd rfl hf

/-- A stopped clock stays so. -/
theorem s3Action_running (f : FaultName) {s : State} (h : s.clk.running = false) : (s3Action f s).clk.running = false := by
  unfold s3Action
  split
  case h_1 | h_2 => exact stopClock_running _
  case h_3 => rfl
  case h_4 => exact h

/-! ### An S3 fault is handled -/

section
variable {f : FaultName} (detail : BitVec 32) {d : Ticks} {s : State} (hf : f ≠ .pwrBrownout) (hd : holdoffOf f = some d)
include hf hd

theorem handleS3_stopped : S3Stopped (handleS3 f detail s) := by
  rw [handleS3_eq]
  exact (beginHold_stopped hf hd (s3Announced_stopped f detail s)).of_only ((s3Action_keeps _ hf).mono (by decide))

theorem handleS3_holdoff (h : restartsBefore s (s.now + d) < 3) :
    (handleS3 f detail s).flt.holdoff = some ⟨f, some (s.now + d), decide (f = .fmDouble)⟩ := by
  obtain ⟨hnow, hrestarts⟩ := s3Announced_now_restarts f detail s
  have hkeep : (handleS3 f detail s).flt = (beginHold f (s3Announced f detail s)).flt := s3Action_keeps _ hf .flt (by decide)
  rw [hkeep, beginHold_of_few_restarts hf hd (by rwa [hnow, restartsBefore_congr hrestarts]), hnow]
  rfl

theorem handleS3_safeHold (h : 3 ≤ restartsBefore s (s.now + d)) : (handleS3 f detail s).flt.safeHold = true ∧
    (handleS3 f detail s).flt.holdoff = none ∧ (handleS3 f detail s).clk.running = false := by
  obtain ⟨hnow, hrestarts⟩ := s3Announced_now_restarts f detail s
  have hkeep : (handleS3 f detail s).flt = (beginHold f (s3Announced f detail s)).flt := s3Action_keeps _ hf .flt (by decide)
  have hhold : beginHold f (s3Announced f detail s) = enterSafeHold (s3Announced f detail s) :=
    beginHold_of_third_restart hf hd (by rwa [hnow, restartsBefore_congr hrestarts])
  rw [hkeep, hhold]
  exact ⟨by simp [enterSafeHold], by simp [enterSafeHold],
    s3Action_running f ((congrArg (fun t => t.clk.running) hhold).trans (stopClock_running _))⟩

end

/-- Outside a hold-off, safe hold, standby and reset an S3 fault is handled at once (R907, R924). -/
theorem raise_eq_handleS3 {f : FaultName} {detail : BitVec 32} {s : State} (hsev : sevOf f = 3) (hnew : ¬Stands f detail s)
    (hring : s3RingOnly s = false) (hoff : s.flt.holdoff = none) : raise f detail s = handleS3 f detail s := by
  have hkey : activeKey s f (faultKey f detail) = false := Bool.eq_false_iff.2 hnew
  simp [raise, hkey, hsev, raiseS3, hring, hoff]

/-! ### The restart (R908, R909) and the watchdog (06 R237) -/

/-- A restart is counted, but for that of a brown-out. -/
theorem s3Restart_eq {f : FaultName} (banks : BankMv) (s : State) (hf : f ≠ .pwrBrownout) : s3Restart f banks s =
    beginBringUp .s3 (some f) banks (modFlt (fun z => { z with restarts := s.now :: z.restarts }) s) := by
  simp [s3Restart, holdCounted_of_ne hf]

/-- The end of a hold-off restarts the part, outside a brown-out and a fuse sequence and without a fourth counted restart. -/
theorem execS3HoldoffEnd_restarts {h : Holdoff} {u : Ticks} {s : State} (banks : BankMv) (hoff : s.flt.holdoff = some h)
    (huntil : h.until_ = some u) (hdue : u ≤ s.now) (hvin : s.pwr.vinLow = false) (hseq : s.keys.seq = none)
    (hfew : h.f = .pwrBrownout ∨ restartsBefore s s.now < 3) : execS3HoldoffEnd banks s = .next (s3Restart h.f banks s) := by
  have hnot : (holdCounted h.f && decide (3 ≤ restartsBefore s s.now)) = false := by
    rcases hfew with hf | hlt
    · simp [holdCounted, hf]
    · simp [hlt]
  simp [execS3HoldoffEnd, hoff, huntil, hdue, hvin, hseq, hnot]

/-- A sequencer that has not reported for 250 ms raises its fault, and the time to its next report starts afresh. -/
theorem execSeqWatchdogExpiry_silent {s : State} (hdom : domOn s 1 = true)
    (hsilent : passed s.now s.boot.reportAt (msT 250) = true) (hoff : s.flt.holdoff = none) (hhold : s.flt.safeHold = false) :
    execSeqWatchdogExpiry s = .next (raise .seqWatchdog 0 (reportProgress s)) := by
  simp [execSeqWatchdogExpiry, hdom, hsilent, hoff, hhold]

/-- Settles O14: a raise is `handleS3`, taken apart into the safe state, the hold-off and the clock; the watchdog is such a raise,
and the end of a hold-off a bring-up of kind 2. -/
theorem s3FaultHoldsOffAndRestarts : Obligations.S3FaultHoldsOffAndRestarts := by
  unfold Obligations.S3FaultHoldsOffAndRestarts
  refine ⟨fun f detail s => raise_eq_handleS3, ?handled, ⟨rfl, rfl, rfl, rfl, rfl⟩, ?ended, ?restart, ?watchdog⟩
  case handled =>
    intro f detail d s _ hf hd
    obtain ⟨hsafe, hstarted, husable⟩ := handleS3_stopped detail hf hd (s := s)
    exact ⟨hsafe, hstarted, husable, handleS3_holdoff detail hf hd, handleS3_safeHold detail hf hd⟩
  case ended =>
    intro banks h u s hoff huntil hdue hvin hseq hfew
    exact execS3HoldoffEnd_restarts banks hoff huntil hdue hvin hseq hfew
  case restart =>
    intro banks f s hf
    simp [s3Restart_eq banks s hf, beginBringUp_restarts]
  case watchdog =>
    intro s hdom hsilent hoff hhold hawake hreset hnew
    have hraise : raise .seqWatchdog 0 (reportProgress s) = handleS3 .seqWatchdog 0 (reportProgress s) :=
      raise_eq_handleS3 rfl (Bool.eq_false_iff.1 hnew) (by simp [s3RingOnly, reportProgress, hhold, hawake, hreset]) hoff
    obtain ⟨hsafe, hstarted, husable⟩ := handleS3_stopped (f := .seqWatchdog) 0 (by decide) rfl (s := reportProgress s)
    have hholdoff := handleS3_holdoff (f := .seqWatchdog) (d := msT 100) (s := reportProgress s) 0 (by decide) rfl
    exact ⟨_, (execSeqWatchdogExpiry_silent hdom hsilent hoff hhold).trans (congrArg _ hraise), hsafe, hstarted, husable,
      hholdoff⟩

end Sys2Proof.Machine
end

section
/-!
PROOFS. The boot check and the training of frame memory (06 R225, R227 to R230).
-/
namespace Sys2Proof.Machine
open Sys2Proof Sys2Proof.Safety

/-! ### The boot check (R227 to R230) -/

/-- The boot check is due: D1 has its clock, a bring-up has reached it, and the straps are decided. -/
def BootCheckDue (s : State) : Prop :=
  s.clk.running = true ∧ domOn s 1 = true ∧ s.boot.started = true ∧ s.boot.remap = false ∧ s.straps.decided = true

section
variable {romFlips : List (Nat × Byte)} (sramFlips : List (Nat × Byte)) (flash : Option Sfdp) (pf : Nat) {s : State}
  (hdue : BootCheckDue s)
include hdue

/-- A ROM that does not pass is all that is reported (log 75). -/
theorem execBootCheckDone_rom_fails (hrom : romPasses romFlips s = false) :
    execBootCheckDone romFlips sramFlips flash pf s = .next (raise .seqRom 0 s) := by
  obtain ⟨hclk, hdom, hstarted, hremap, hstraps⟩ := hdue
  simp [execBootCheckDone, hclk, hdom, hstarted, hremap, hstraps, hrom]

/-- Where the ROM passes, the first bad bank of SRAM decides. -/
theorem execBootCheckDone_rom_passes (hrom : romPasses romFlips s = true) :
    execBootCheckDone romFlips sramFlips flash pf s = .next ((sramFails sramFlips s).elim
      (reportProgress (startSequencer flash pf s)) fun b => raise .seqWatchdog (BitVec.ofNat 32 (1 + b)) s) := by
  obtain ⟨hclk, hdom, hstarted, hremap, hstraps⟩ := hdue
  cases hsram : sramFails sramFlips s <;> simp [execBootCheckDone, hclk, hdom, hstarted, hremap, hstraps, hrom, hsram]

end

/-- SRAM that holds zeros passes. -/
theorem sramFails_of_zeros {s : State} (h : s.sram.bytes = []) : sramFails [] s = none := by
  simp [sramFails, h]

/-- A location that reads back other than zero fails its bank of 256 KiB. -/
theorem sramFails_of_bad_byte {a : Nat} {b : Byte} (s : State) (ha : a < 0x100000) (hb : b ≠ 0) :
    sramFails [(a, b)] s = some (a / 0x40000) := by
  have hbad : (b != 0 && decide (a < 0x100000)) = true := by
    rw [bne_iff_ne.2 hb, decide_eq_true ha]
    rfl
  simp only [sramFails, List.singleton_append, List.find?_cons, hbad, Option.map_some]

/-! ### Training (R225) -/

/-- Training is due: D6 and D1 run, and frame memory is not trained yet. -/
def TrainingDue (s : State) : Prop :=
  runs s = true ∧ domOn s 6 = true ∧ s.boot.remap = true ∧ s.boot.dramTrained = false

/-- A trained frame memory is ready, and each of its lines is written with zero data. -/
def trained (s : State) : State :=
  modMem (fun m => { m with ready := true })
    (initMemory (reportProgress (modBoot (fun z => { z with dramTrained := true }) s)))

theorem execDramTrainingDone_done {s : State} (hdue : TrainingDue s) : execDramTrainingDone none s = .next (trained s) := by
  obtain ⟨hrun, hdom, hremap, htrained⟩ := hdue
  simp [execDramTrainingDone, hrun, hdom, hremap, htrained, trained]

theorem execDramTrainingDone_failed {s : State} (c : Fin 8) (hdue : TrainingDue s) :
    execDramTrainingDone (some c) s = .next (raise .memTrain (BitVec.ofNat 32 c.val) s) := by
  obtain ⟨hrun, hdom, hremap, htrained⟩ := hdue
  simp [execDramTrainingDone, hrun, hdom, hremap, htrained]

/-- Settles O8: the boot check by its ROM and its SRAM, and training by its outcome. -/
theorem bootCheckAndTraining : Obligations.BootCheckAndTraining := by
  unfold Obligations.BootCheckAndTraining
  refine ⟨?passes, ?fails, fun s => sramFails_of_zeros, fun a b s => sramFails_of_bad_byte s, ?trained, ?untrained⟩
  case passes =>
    intro romFlips sramFlips flash pf s hclk hdom hstarted hremap hstraps hrom
    refine (execBootCheckDone_rom_passes sramFlips flash pf ⟨hclk, hdom, hstarted, hremap, hstraps⟩ hrom).trans ?_
    cases sramFails sramFlips s <;> rfl
  case fails =>
    intro romFlips sramFlips flash pf s hclk hdom hstarted hremap hstraps
    exact execBootCheckDone_rom_fails sramFlips flash pf ⟨hclk, hdom, hstarted, hremap, hstraps⟩
  case trained =>
    intro s hrun hdom hremap htrained
    exact ⟨trained s, execDramTrainingDone_done ⟨hrun, hdom, hremap, htrained⟩, rfl, rfl, fun _ => rfl, rfl⟩
  case untrained =>
    intro c s hrun hdom hremap htrained
    exact execDramTrainingDone_failed c ⟨hrun, hdom, hremap, htrained⟩

end Sys2Proof.Machine
end

section
/-!
PROOFS. Self-tests on request (06 R246 to R248, R250 to R252, R257, Table 6.5): what a low period of `SELFTEST_N` starts, the
parts of the visible sequence, and the results of the suite.
-/
namespace Sys2Proof.Machine
open Sys2Proof Sys2Proof.Safety

/-! ### What a low period starts (R246, R257) -/

/-- Before the idle pattern the sequence is held. -/
theorem startVisible_held (force : Bool) {s : State} (h : s.boot.idleShown = false) : startVisible force s =
    { s with test := { s.test with held := some (.visible force) }, live := { s.live with acted := true } } := by
  simp [startVisible, h]

/-- Over content the sequence starts only by force. -/
theorem startVisible_started {force : Bool} {s : State} (h : s.boot.idleShown = true) (hfree : force = true ∨ anySource s = false) :
    startVisible force s = { s with test := { s.test with visibleDue := true }, live := { s.live with acted := true } } := by
  rcases hfree with hforce | hnone
  · simp [startVisible, h, hforce]
  · simp [startVisible, h, hnone]

theorem startVisible_refused {s : State} (h : s.boot.idleShown = true) (hsource : anySource s = true) : startVisible false s =
    addResult testVisible .refused { s with live := { s.live with refusedNow := true } } := by
  simp [startVisible, h, hsource, modLive]

theorem execSelftestHold2s_due {s : State} (hrun : runs s = true) (hlow : lowFor s (secT 2) = true)
    (hfirst : s.live.refusedNow = false) : execSelftestHold2s s = .next (startVisible false s) := by
  simp [execSelftestHold2s, hrun, hlow, hfirst]

theorem execSelftestHold10s_due {s : State} (hrun : runs s = true) (hlow : lowFor s (secT 10) = true) :
    execSelftestHold10s s = .next (startVisible true s) := by
  simp [execSelftestHold10s, hrun, hlow]

/-! ### The visible sequence (R248, R250 to R252) -/

theorem execVisibleStepAdvance_due {v : Visible} {s : State} (hv : s.test.visible = some v) (hbeat : atBeat s = true)
    (helapsed : partElapsed s v = true) (hmore : atLastPart s v = false) :
    execVisibleStepAdvance s = .next (modTest (fun z => { z with visible := some (nextPart s v) }) s) := by
  simp [execVisibleStepAdvance, hv, hbeat, helapsed, hmore]

theorem nextPart_since (s : State) (v : Visible) : (nextPart s v).since = s.now := by
  unfold nextPart
  split <;> rfl

theorem nextPart_of_lt {s : State} {v : Visible} (h : v.sub + 1 < (stepParts s v.step).1) :
    nextPart s v = { v with sub := v.sub + 1, since := s.now, reads := 0 } := if_pos h

theorem nextPart_of_le {s : State} {v : Visible} (h : (stepParts s v.step).1 ≤ v.sub + 1) :
    nextPart s v = { v with step := v.step + 1, sub := 0, since := s.now, reads := 0 } := if_neg (not_lt.2 h)

theorem execVisibleSequenceEnd_due {v : Visible} {s : State} (hv : s.test.visible = some v) (helapsed : partElapsed s v = true)
    (hlast : atLastPart s v = true) (hopen : s.test.endDue = none) : execVisibleSequenceEnd s =
      .next (launchRecord 4 (addResult testVisible (if v.failed then .fail else .pass)
        (modTest (fun z => { z with endDue := some false }) s))) := by
  simp [execVisibleSequenceEnd, hv, helapsed, hlast, hopen]

/-! ### The suite (R247, R251, R252) -/

theorem execInvisibleSuiteDone_due {q : Suite} {s : State} (hq : s.test.suite = some q) (hrun : runs s = true)
    (hdone : q.todo = []) (hgoes : q.ending = false) : execInvisibleSuiteDone s =
      .next (launchRecord 4 (addResult testSuite (if q.failed = [] then .pass else .fail)
        (modTest (fun z => { z with suite := none }) s))) := by
  simp [execInvisibleSuiteDone, hq, hrun, hdone, hgoes]

/-- The last item of a test that runs within a suite leaves the result of the test. -/
theorem noteTest_last_item {q : Suite} {i : SuiteItem} {s : State} (hq : s.test.suite = some q) (hi : i ∈ q.todo)
    (hlast : ∀ j ∈ q.todo, j ≠ i → itemTest j ≠ itemTest i) : noteTest i false s =
      addResult (testNo (itemTest i)) (if itemTest i ∈ q.failed then .fail else .pass)
        (modTest (fun z => { z with suite := some { q with todo := q.todo.filter (fun j => !decide (j = i)) } }) s) := by
  have hnone : (q.todo.filter (fun j => !decide (j = i))).any (fun j => decide (itemTest j = itemTest i)) = false := by
    simpa using hlast
  simp [noteTest, hq, hi, hnone]

/-- Settles O21: a low period is `startVisible`; the parts follow by `nextPart`, and an end is a result with a record at once. -/
theorem selfTestsStartRunAndEnd : Obligations.SelfTestsStartRunAndEnd := by
  unfold Obligations.SelfTestsStartRunAndEnd
  refine ⟨?starts, ?refused, ?forced, ?held, ?advance, ?next, fun _ => ⟨rfl, rfl, rfl, rfl⟩, ?ended, ?suite, ?item⟩
  case starts =>
    intro s hrun hlow hfirst hidle hnone
    exact (execSelftestHold2s_due hrun hlow hfirst).trans (congrArg _ (startVisible_started hidle (.inr hnone)))
  case refused =>
    intro s hrun hlow hfirst hidle hsource
    exact (execSelftestHold2s_due hrun hlow hfirst).trans (congrArg _ (startVisible_refused hidle hsource))
  case forced =>
    intro s hrun hlow hidle
    exact (execSelftestHold10s_due hrun hlow).trans (congrArg _ (startVisible_started hidle (.inl rfl)))
  case held =>
    intro s hrun hlow hfirst hidle
    exact (execSelftestHold2s_due hrun hlow hfirst).trans (congrArg _ (startVisible_held false hidle))
  case advance =>
    intro v s hv hbeat helapsed hmore
    exact execVisibleStepAdvance_due hv hbeat helapsed hmore
  case next =>
    intro v s
    exact ⟨nextPart_since s v, fun h => by rw [nextPart_of_lt h]; exact ⟨rfl, rfl⟩,
      fun h => by rw [nextPart_of_le h]; exact ⟨rfl, rfl⟩⟩
  case ended =>
    intro v s hv helapsed hlast hopen
    exact execVisibleSequenceEnd_due hv helapsed hlast hopen
  case suite =>
    intro q s hq hrun hdone hgoes
    exact execInvisibleSuiteDone_due hq hrun hdone hgoes
  case item =>
    intro q i s hq hi hlast
    exact noteTest_last_item hq hi hlast

end Sys2Proof.Machine
end

section
/-!
PROOFS. Background tests (06 R242 to R245, Table 6.4): what a test that has run leaves, and what each test does when it is due.
-/
namespace Sys2Proof.Machine
open Sys2Proof Sys2Proof.Safety

/-! ### A test that has run (R242, R251) -/

theorem noteTest_eq (i : SuiteItem) (failed : Bool) (s : State) :
    noteTest i failed s = { s with test := (noteTest i failed s).test } := by
  unfold noteTest
  dsimp only
  (repeat' split) <;> rfl

/-- A test that has run changes the suite and the results alone. -/
theorem noteTest_test (i : SuiteItem) (failed : Bool) (s : State) : (noteTest i failed s).test = { s.test with
    suite := (noteTest i failed s).test.suite, results := (noteTest i failed s).test.results } := by
  unfold noteTest
  dsimp only
  (repeat' split) <;> rfl

/-- In service a failure alone is recorded (R251). -/
theorem noteTest_in_service (i : SuiteItem) (failed : Bool) {s : State} (h : s.test.suite = none) : noteTest i failed s =
    if failed then addResult (testNo (itemTest i)) .fail s else s := by
  simp [noteTest, h]

theorem not_mem_ranAgain (x : TestKind) (s : State) : x ∉ (ranAgain x s).test.again := by
  simp [ranAgain]

/-! ### A slice that did not finish (R242) -/

/-- A test that is to be run again is listed once. -/
theorem execTestSliceAbandon_again (x : TestKind) (s : State) : execTestSliceAbandon x s =
    .next (modTest (fun z => { z with again := if x ∈ z.again then z.again else x :: z.again }) s) := by
  by_cases h : x ∈ s.test.again <;> simp [execTestSliceAbandon, h, modTest]

/-! ### Eye margins (Table 6.4) -/

/-- The margin of a lane is kept, and the next reading is set. -/
def eyeRecorded (lane : Fin 8) (margin : Nat) (s : State) : State :=
  modTest (fun z => { z with
    eye := updAt z.eye lane.val (fun _ => margin)
    eyeNext := updAt z.eyeNext lane.val (fun _ => some (s.now + secT 600)) }) (ranAgain .eye s)

theorem execEyeMarginRead_due {lane : Fin 8} {s : State} (margin : Nat) (hrun : runs s = true) (hup : laneUp s lane.val = true)
    (hdue : ∀ t : Ticks, s.test.eyeNext.getD lane.val none = some t → t ≤ s.now) :
    execEyeMarginRead lane margin s = .next (noteTest (.eye lane.val) false (eyeRecorded lane margin s)) := by
  cases hnext : s.test.eyeNext.getD lane.val none with
  | none => simp only [execEyeMarginRead, hrun, hup, hnext]; rfl
  | some t => simp only [execEyeMarginRead, hrun, hup, hnext, hdue t hnext]; rfl

/-! ### Current DACs (R243, R244) -/

theorem getElem?_updAt_const {α : Type} {l : List α} {i : Nat} {a : α} (b : α) (h : l[i]? = some a) :
    (updAt l i (fun _ => b))[i]? = some b := by
  simp [updAt_eq_modify, h]

section
variable {bank : Fin 5} {b : DacBank} {s : State} (hrun : runs s = true) (hb : s.test.dac[bank.val]? = some b)
  (hstopped : b.stopped = false) (hready : b.ready = false) (hdue : dacDue s bank.val b = true)
include hrun hb hstopped hready hdue

/-- A spare that is trimmed is loaded and waits for the beat. -/
theorem execDacSwapCalibrate_trimmed : execDacSwapCalibrate bank true s =
    .next (setBankDac bank.val { b with ready := true, loaded := outputSetting s bank.val b.next } (ranAgain .dac s)) := by
  simp [execDacSwapCalibrate, hb, hrun, hstopped, hready, hdue]

/-- A spare that cannot be trimmed is retired, and the fault of its bank is raised. -/
theorem execDacSwapCalibrate_untrimmed : execDacSwapCalibrate bank false s =
    .next (raise .ageMargin (BitVec.ofNat 32 (0x80 + bank.val)) (noteTest (.dac bank.val) true
      (setBankDac bank.val { b with retired := b.spare :: b.retired, stopped := true } (ranAgain .dac s)))) := by
  simp [execDacSwapCalibrate, hb, hrun, hstopped, hready, hdue]

end

/-! ### Hourly checks (Table 6.4, R245) -/

/-- The check of the ROM has run: its result, and when it is due again. -/
def romChecked (failed : Bool) (s : State) : State :=
  noteTest .rom failed (modTest (fun z => { z with romNext := some (s.now + secT 3600) }) (ranAgain .rom s))

theorem romChecked_eq (failed : Bool) (s : State) : romChecked failed s = { s with test := (romChecked failed s).test } :=
  noteTest_eq .rom failed _

theorem romChecked_romNext (failed : Bool) (s : State) : (romChecked failed s).test.romNext = some (s.now + secT 3600) :=
  congrArg Test.romNext (noteTest_test .rom failed _)

theorem romChecked_results {s : State} (failed : Bool) (h : s.test.suite = none) : (romChecked failed s).test.results =
    if failed then s.test.results ++ [⟨testNo .rom, .fail, BitVec.ofNat 32 s.time.sec.toNat⟩] else s.test.results := by
  rw [romChecked, noteTest_in_service .rom failed (by simpa [ranAgain] using h)]
  cases failed <;> rfl

theorem execRomCrcCheck_due {s : State} (romFlips : List (Nat × Byte)) (hrun : runs s = true) (hremap : s.boot.remap = true)
    (hdue : hourlyDue s .rom s.test.romNext = true) : execRomCrcCheck romFlips s =
      .next (if romPasses romFlips s then romChecked false s else raise .seqRom 0 (romChecked true s)) := by
  cases hrom : romPasses romFlips s <;> simp [execRomCrcCheck, hrun, hremap, hdue, hrom, romChecked]

/-- The check of the fuses has run: its result, and when it is due again. -/
def otpChecked (failed : Bool) (s : State) : State :=
  noteTest .otp failed (modTest (fun z => { z with otpNext := some (s.now + secT 3600) }) (ranAgain .otp s))

theorem otpChecked_otpNext (failed : Bool) (s : State) : (otpChecked failed s).test.otpNext = some (s.now + secT 3600) :=
  congrArg Test.otpNext (noteTest_test .otp failed _)

theorem otpChecked_otp (failed : Bool) (s : State) : (otpChecked failed s).otp = s.otp := by
  have h : Only [.test] s (otpChecked failed s) := by simp [otpChecked]
  exact h .otp (by decide)

theorem otpChecked_passed_results {s : State} (h : s.test.suite = none) :
    (otpChecked false s).test.results = s.test.results := by
  rw [otpChecked, noteTest_in_service .otp false (by simpa [ranAgain] using h)]
  rfl

theorem execOtpCheck_due {s : State} (flipped : List Nat) (hrun : runs s = true) (hseq : s.keys.seq = none)
    (hdue : hourlyDue s .otp s.test.otpNext = true) : execOtpCheck flipped s =
      .next ((pairsOff (fusesRead flipped s) s.otp.shadow).foldl (fun st p => verifyPair p st)
        (otpChecked (!(pairsOff (fusesRead flipped s) s.otp.shadow).isEmpty) s)) := by
  simp [execOtpCheck, hrun, hseq, hdue, otpChecked]

/-- Settles O22: each command that is due is the note of its test, with the fault of one that fails raised after it. -/
theorem backgroundTests : Obligations.BackgroundTests := by
  unfold Obligations.BackgroundTests
  refine ⟨?abandon, ?eye, ?trimmed, ?untrimmed, ?rom, ?otp⟩
  case abandon =>
    intro x s
    refine ⟨_, execTestSliceAbandon_again x s, ?_, fun y hy => ?_, rfl⟩
    · simp only [modTest_test]
      split
      case isTrue h => exact h
      case isFalse => exact List.mem_cons_self
    · simp only [modTest_test]
      split
      case isTrue => rfl
      case isFalse => simp [hy]
  case eye =>
    intro lane margin s hrun hup hdue
    have htest := noteTest_test (.eye lane.val) false (eyeRecorded lane margin s)
    refine ⟨_, execEyeMarginRead_due margin hrun hup hdue, congrArg Test.eye htest, congrArg Test.eyeNext htest, ?_,
      noteTest_eq (.eye lane.val) false (eyeRecorded lane margin s)⟩
    rw [congrArg Test.again htest]
    exact not_mem_ranAgain .eye s
  case trimmed =>
    intro bank b s hrun hb hstopped hready hdue
    exact ⟨_, execDacSwapCalibrate_trimmed hrun hb hstopped hready hdue, getElem?_updAt_const _ hb, rfl⟩
  case untrimmed =>
    intro bank b s hrun hb hstopped hready hdue
    refine ⟨_, execDacSwapCalibrate_untrimmed hrun hb hstopped hready hdue,
      stands_raise_self .ageMargin _ _ (by decide) (by decide), ?_⟩
    have hkeep (d : BitVec 32) (u : State) : (raise .ageMargin d u).test = u.test := by simp
    rw [hkeep, congrArg Test.dac (noteTest_test _ _ _)]
    exact getElem?_updAt_const _ hb
  case rom =>
    intro romFlips s hrun hremap hdue
    have hexec := execRomCrcCheck_due romFlips hrun hremap hdue
    refine ⟨fun hrom => ?_, fun hrom => ?_⟩
    · rw [hrom] at hexec
      exact ⟨_, hexec, romChecked_romNext false s, romChecked_results false, romChecked_eq false s⟩
    · rw [hrom] at hexec
      exact ⟨_, hexec, romChecked true s, rfl, romChecked_romNext true s,
        fun h => ⟨_, romChecked_results true h, rfl⟩, romChecked_eq true s⟩
  case otp =>
    intro flipped s hrun hseq hdue
    refine ⟨_, execOtpCheck_due flipped hrun hseq hdue, _, rfl, otpChecked_otpNext _ s, otpChecked_otp _ s, fun h hnone => ?_⟩
    rw [hnone]
    exact otpChecked_passed_results h

end Sys2Proof.Machine
end

section
/-!
PROOFS. One port of the network: what an update of it leaves of the others; and what a raise or a clear leaves of the network (07
R282): the record that it may launch changes the egress queues alone.
-/
namespace Sys2Proof.Machine
open Sys2Proof Sys2Proof.Safety

/-! ### One port of the list -/

theorem netPort_congr {s t : State} (h : t.net.port = s.net.port) (p : Port) : netPort t p = netPort s p := by
  simp only [netPort, h]

theorem netPort_setNetPort_self {s : State} {p : Port} (f : PortSt → PortSt) (h : p.val < s.net.port.length) :
    netPort (setNetPort s p f) p = f (netPort s p) := getD_updAt_self f {} h

theorem netPort_setNetPort_ne (s : State) {p q : Port} (f : PortSt → PortSt) (h : q ≠ p) :
    netPort (setNetPort s p f) q = netPort s q := getD_updAt_ne f {} (fun e => h (Fin.ext e))

theorem length_updAt {α : Type} (l : List α) (i : Nat) (f : α → α) : (updAt l i f).length = l.length := by
  simp [updAt_eq_modify]

/-! ### The queues alone -/

/-- Of the network, `t` differs from `s` in the egress queues at most. -/
def QueuesOnly (s t : State) : Prop := t.net = { s.net with queue := t.net.queue }

theorem QueuesOnly.of_net_eq {s t : State} (h : t.net = s.net) : QueuesOnly s t := by simp only [QueuesOnly, h]

theorem QueuesOnly.of_only {W : List Facet} {s t : State} (h : Only W s t) (hnet : Facet.net ∉ W) : QueuesOnly s t :=
  .of_net_eq (h .net hnet)

theorem QueuesOnly.trans {s t u : State} (h : QueuesOnly s t) (k : QueuesOnly t u) : QueuesOnly s u := by
  unfold QueuesOnly at *
  rw [k, h]

theorem QueuesOnly.ite {s a b : State} {c : Prop} [Decidable c] (ha : QueuesOnly s a) (hb : QueuesOnly s b) :
    QueuesOnly s (if c then a else b) := by
  split
  · exact ha
  · exact hb

theorem QueuesOnly.port {s t : State} (h : QueuesOnly s t) : t.net.port = s.net.port := by
  rw [QueuesOnly] at h
  rw [h]
theorem QueuesOnly.guard {s t : State} (h : QueuesOnly s t) : t.net.guard = s.net.guard := by
  rw [QueuesOnly] at h
  rw [h]
theorem QueuesOnly.mac {s t : State} (h : QueuesOnly s t) : t.net.mac = s.net.mac := by
  rw [QueuesOnly] at h
  rw [h]

theorem enqueueFrame_queuesOnly (s : State) (p : Port) (f : QFrame) : QueuesOnly s (enqueueFrame s p f).1 := by
  unfold enqueueFrame
  dsimp only
  split <;> rfl

theorem originFrame_queuesOnly (s : State) (p : Port) (k : Klass) (len : Nat) (launch : BitVec 32) (o : Orig) :
    QueuesOnly s (originFrame s p k len launch o) := enqueueFrame_queuesOnly s p _

theorem originOn_queuesOnly (s : State) (ps : List Port) (k : Klass) (len : Nat) (launch : BitVec 32) (o : Orig) :
    QueuesOnly s (originOn s ps k len launch o) :=
  foldl_holds (QueuesOnly s) _ (fun t p h => h.trans (originFrame_queuesOnly t p k len launch o)) ps s rfl

theorem launchRecord_queuesOnly (kind : BitVec 8) (s : State) : QueuesOnly s (launchRecord kind s) := by
  unfold launchRecord
  split
  · rfl
  · split
    · rfl
    · exact originOn_queuesOnly s _ _ _ _ _

theorem handle_queuesOnly (q : Queued) (s : State) : QueuesOnly s (handle q s) := by
  have hring : QueuesOnly s (writeQueued q s) := .of_only (W := [.flt]) (by simp) (by decide)
  have hrecord (t : State) : QueuesOnly t (if sevOf q.f = 0 then t else launchRecord 1 t) :=
    .ite rfl (launchRecord_queuesOnly 1 t)
  have hknot (t : State) : QueuesOnly t (if sevOf q.f = 2 then originFault q.f q.cleared t else t) :=
    .ite (.of_only (W := [.status, .sv, .disc]) (by simp) (by decide)) rfl
  have hbeacon (t : State) : QueuesOnly t (if sevOf q.f = 0 || q.cleared then t else modBea (fun z => { z with extra := [3, 0] }) t) :=
    .ite rfl rfl
  exact ((hring.trans (hrecord _)).trans (hknot _)).trans (hbeacon _)

theorem submit_queuesOnly (q : Queued) (s : State) : QueuesOnly s (submit q s) :=
  .ite (.of_only (W := [.flt]) (by simp) (by decide)) (.ite (handle_queuesOnly q _) (.ite rfl rfl))

theorem raise_queuesOnly (f : FaultName) (detail : BitVec 32) (s : State) (h3 : sevOf f ≠ 3) : QueuesOnly s (raise f detail s) := by
  have hnote : QueuesOnly s (noteRaise f (faultKey f detail) detail s) := .of_only (W := [.flt, .weft]) (by simp) (by decide)
  unfold raise
  dsimp only
  rw [if_neg h3]
  exact .ite rfl (hnote.trans (submit_queuesOnly _ _))

theorem clearKey_queuesOnly (f : FaultName) (key : Nat) (s : State) : QueuesOnly s (clearKey f key s) :=
  .ite (submit_queuesOnly _ (unsetActive f key s)) rfl

/-! ### A fault that is cleared -/

/-- A fault that is cleared does not stand (19 R905). -/
theorem not_stands_clearKey {f : FaultName} {d : BitVec 32} {key : Nat} (hkey : faultKey f d = key) (s : State) :
    ¬ Stands f d (clearKey f key s) := by
  unfold Stands clearKey
  rw [hkey]
  split
  case isTrue =>
    simp only [activeKey, submit_active, unsetActive, modFlt_flt, List.any_filter, Bool.not_eq_true, List.any_eq_false]
    intro a _
    cases decide (a.f = f) && a.key == key <;> simp
  case isFalse h => exact h

end Sys2Proof.Machine
end

section
/-!
PROOFS. The periodic status record (07 R282, R328; 19 R915): what a launch leaves, and what the command does when it is due.
-/
namespace Sys2Proof.Machine
open Sys2Proof Sys2Proof.Safety

/-! ### The launch of a record (R282) -/

theorem launchRecord_withheld {s : State} (kind : BitVec 8) (hrun : recordsRun s = true) (hmany : 10 ≤ sentLastSecond s) :
    launchRecord kind s = modStatus (fun z => { z with withheld := z.withheld + 1 }) s := by
  simp [launchRecord, hrun, hmany]

theorem launchRecord_status {s : State} (kind : BitVec 8) (hrun : recordsRun s = true) (hfew : sentLastSecond s < 10) :
    (launchRecord kind s).status = { s.status with
      seq := s.status.seq + 1
      sentAt := (s.now :: s.status.sentAt).filter (fun t => s.now < t + secT 1)
      triggeredAt := if kind.getLsbD 0 then some s.now else s.status.triggeredAt } := by
  have horigin (ps k len launch o) : (originOn s ps k len launch o).status = s.status := by
    have h : Only [.net] s (originOn s ps k len launch o) := by simp
    exact h .status (by decide)
  simp [launchRecord, hrun, Nat.not_le.2 hfew, horigin]

theorem launchRecord_now (kind : BitVec 8) (s : State) : (launchRecord kind s).now = s.now := by
  have h : Only [.status, .net] s (launchRecord kind s) := by simp
  exact h .now (by decide)

/-- A record that is launched is one more of the last second. -/
theorem sentLastSecond_launchRecord {s : State} (kind : BitVec 8) (hrun : recordsRun s = true) (hfew : sentLastSecond s < 10) :
    sentLastSecond (launchRecord kind s) = sentLastSecond s + 1 := by
  have hnow : s.now < s.now + secT 1 := by simp [secT]
  simp [sentLastSecond, launchRecord_status kind hrun hfew, launchRecord_now, hnow]

/-! ### The command (R282, R328) -/

theorem execStatusRecordLaunch_due {s : State} (hrun : recordsRun s = true) (hwindow : s.status.lastWindow ≠ s.time.sec.toNat + 1)
    (hoffset : launchOffset s * 1000000 ≤ s.time.ns.toNat) : execStatusRecordLaunch s =
      .next (resetIntervals (if replaced s then modStatus (fun z => { z with lastWindow := s.time.sec.toNat + 1 }) s
        else launchRecord 0 (modStatus (fun z => { z with lastWindow := s.time.sec.toNat + 1 }) s))) := by
  have hreplaced : replaced (modStatus (fun z => { z with lastWindow := s.time.sec.toNat + 1 }) s) = replaced s := rfl
  simp only [execStatusRecordLaunch, hrun, hwindow, Nat.not_lt.2 hoffset, hreplaced]
  cases replaced s <;> rfl

theorem execStatusRecordLaunch_sent {s : State} (hwindow : s.status.lastWindow = s.time.sec.toNat + 1) :
    execStatusRecordLaunch s = .next s := by
  simp [execStatusRecordLaunch, hwindow]

/-- Settles O29: the command that is due launches a record or, replaced, none, and begins the intervals afresh; a launch adds one
instant to those of the last second, of which ten withhold it. -/
theorem statusRecordOncePerSecond : Obligations.StatusRecordOncePerSecond := by
  unfold Obligations.StatusRecordOncePerSecond
  refine ⟨?due, ?replaced, ?sent, ?launched, ?withheld⟩
  case due =>
    intro s hrun hwindow hoffset hrep
    exact (execStatusRecordLaunch_due hrun hwindow hoffset).trans (by rw [hrep]; rfl)
  case replaced =>
    intro s hrun hwindow hoffset hrep
    exact (execStatusRecordLaunch_due hrun hwindow hoffset).trans (by rw [hrep]; rfl)
  case sent => exact fun s hwindow => execStatusRecordLaunch_sent hwindow
  case launched =>
    intro kind s hrun hfew
    exact ⟨congrArg StatusRec.seq (launchRecord_status kind hrun hfew), sentLastSecond_launchRecord kind hrun hfew,
      launchRecord_flt kind s⟩
  case withheld => exact fun kind s hrun hmany => launchRecord_withheld kind hrun hmany

end Sys2Proof.Machine
end

section
/-!
PROOFS. Modules (07 R267 to R271, R329, Table 7.9): what an identification and a removal leave of the port, and what each command
does when it is due.
-/
namespace Sys2Proof.Machine
open Sys2Proof Sys2Proof.Safety

/-! ### The mode of a module, and the key of its fault (R270) -/

theorem laneFor_eq_none_iff (s : State) (is25 : Bool) :
    laneFor s is25 = none ↔ (code s pinNetmode = 1 ∨ code s pinNetmode = 2 ∨ code s pinNetmode = 3) ∧ is25 = false := by
  unfold laneFor
  cases is25 <;> split <;> simp_all

/-- `f:NET_MODULE` stands per port (log 5). -/
theorem faultKey_moduleDetail_zero (p : Port) : faultKey .netModule (moduleDetail 0 p) = p.val := by
  fin_cases p <;> rfl

/-! ### Identification (R267 to R271) -/

/-- A port whose module is known: its mode, and the transmitter on. -/
def identifiedPort (is25 : Bool) (cls : ModClass) (m : LaneMode) (now : Ticks) (q : PortSt) : PortSt :=
  { q with module := .identified is25 cls, mode := some m, txDis := false, noLinkSince := some now }

theorem netPort_readModule (p : Port) (s : State) (q : Port) : netPort (readModule p s) q = netPort s q := rfl

theorem identify_known {s : State} {b : List Byte} {m : LaneMode} (p : Port) (hlane : laneFor s (idIs25 b) = some m) :
    identify p b s = clearKey .netModule p.val (setNetPort s p (identifiedPort (idIs25 b) (idClass b) m s.now)) := by
  simp only [identify, hlane, clearFault, faultKey_moduleDetail_zero]
  rfl

theorem identify_unsupported {s : State} {b : List Byte} (p : Port) (hlane : laneFor s (idIs25 b) = none) :
    identify p b s = raise .netModule (moduleDetail 1 p)
      (setNetPort s p (fun q => { q with module := .unsupported, mode := none, txDis := true })) := by
  simp only [identify, hlane]

section
variable {port : Port} {bytes : List Byte} {since readAt : Ticks} {tries : Nat} {s : State} (hrun : runs s = true)
  (hmod : (netPort s port).module = .waiting since tries readAt) (hdue : readAt ≤ s.now)
include hrun hmod hdue

theorem execModuleIdRead_sound (hid : idCheck bytes = true) :
    execModuleIdRead port bytes s = .next (identify port bytes (readModule port s)) := by
  simp [execModuleIdRead, hrun, hmod, Nat.not_lt.2 hdue, hid]

theorem execModuleIdRead_unsound (hid : idCheck bytes = false) : execModuleIdRead port bytes s =
    if tries + 1 < 3 then
      .next (setNetPort (readModule port s) port (fun q => { q with module := .waiting since (tries + 1) (s.now + secT 1) }))
    else .next (raise .netModule (moduleDetail 0 port)
      (setNetPort (readModule port s) port (fun q => { q with module := .failed, txDis := true }))) := by
  simp only [execModuleIdRead, hrun, hmod, Nat.not_lt.2 hdue, hid]
  rfl

end

/-! ### A link that goes down (R272) -/

/-- A port whose link is down. -/
def downPort (now : Ticks) (q : PortSt) : PortSt :=
  { q with linkUp := none, fault := .none, fwd := .down, noLinkSince := some now }

theorem dropLink_port {s : State} {p : Port} (h : portUp s p = true) :
    (dropLink p s).net.port = (setNetPort s p (downPort s.now)).net.port := by
  rw [dropLink, if_pos h]
  exact (raise_queuesOnly .netLink _ _ (by decide)).port

theorem dropLink_of_down {s : State} {p : Port} (h : portUp s p = false) : dropLink p s = s := by simp [dropLink, h]

theorem dropLink_stands {s : State} {p : Port} (h : portUp s p = true) :
    Stands .netLink (BitVec.ofNat 32 p.val) (dropLink p s) := by
  rw [dropLink, if_pos h]
  exact stands_raise_self .netLink _ _ (by decide) (by decide)

theorem dropLink_ports_length (p : Port) (s : State) : (dropLink p s).net.port.length = s.net.port.length := by
  cases h : portUp s p with
  | true => rw [dropLink_port h]; exact length_updAt _ _ _
  | false => rw [dropLink_of_down h]

theorem netPort_dropLink_linkUp {s : State} {p : Port} (hp : p.val < s.net.port.length) :
    (netPort (dropLink p s) p).linkUp = none := by
  cases h : portUp s p with
  | true => rw [netPort_congr (dropLink_port h), netPort_setNetPort_self _ hp]; rfl
  | false => rw [dropLink_of_down h]; simpa [portUp] using h

/-! ### A module that is removed (R271) -/

/-- A port whose cage is empty. -/
def emptyPort (q : PortSt) : PortSt :=
  { q with module := .absent, mode := none, txDis := true, carried := false, noLinkSince := none }

/-- What a removal leaves but for the fault of a module that carried a link. -/
def moduleGone (p : Port) (s : State) : State :=
  setLane p (!gating (dropLink p s) && domOn (dropLink p s) 4) (setNetPort (dropLink p s) p emptyPort)

theorem netPort_moduleGone {s : State} {p : Port} (hp : p.val < s.net.port.length) :
    netPort (moduleGone p s) p = emptyPort (netPort (dropLink p s) p) :=
  netPort_setNetPort_self emptyPort (by rwa [dropLink_ports_length])

/-- What a removal leaves. -/
def moduleRemoved (p : Port) (s : State) : State :=
  if (netPort s p).carried then raise .netModule (moduleDetail 2 p) (moduleGone p s) else moduleGone p s

theorem moduleRemoved_queuesOnly (p : Port) (s : State) : QueuesOnly (moduleGone p s) (moduleRemoved p s) :=
  .ite (raise_queuesOnly .netModule _ _ (by decide)) rfl

theorem moduleRemoved_stands {s : State} {p : Port} (h : (netPort s p).carried = true) :
    Stands .netModule (moduleDetail 2 p) (moduleRemoved p s) := by
  rw [moduleRemoved, if_pos h]
  exact stands_raise_self .netModule _ _ (by decide) (by decide)

theorem execModuleRemove_present {s : State} {p : Port} (haon : s.pwr.aonOn = true) (hawake : s.standby.asleep = false)
    (hreset : s.boot.inReset = false) (hmod : modulePresent s p = true) : execModuleRemove p s = .next (moduleRemoved p s) := by
  simp only [execModuleRemove, haon, hawake, hreset, hmod]
  rfl

/-- Settles O24: an identification is the read of the module, then of its outcome the port's new record; a removal empties the
port's record after its link has gone down; the faults change of the network the queues alone. -/
theorem modulesAreIdentified : Obligations.ModulesAreIdentified := by
  unfold Obligations.ModulesAreIdentified
  refine ⟨?insert, ?known, ?unsupported, ?unsound, ?read, ?lane, ?remove⟩
  case insert =>
    intro port s hrun hmod
    change execModuleInsert port s = _
    simp [execModuleInsert, hrun, hmod]
  case known =>
    intro port bytes since readAt tries m s hrun hmod hdue hp hid hlane
    refine ⟨_, (execModuleIdRead_sound hrun hmod hdue hid).trans (congrArg _ (identify_known port hlane)), ?_⟩
    have hport := (clearKey_queuesOnly .netModule port.val (setNetPort (readModule port s) port
      (identifiedPort (idIs25 bytes) (idClass bytes) m s.now))).port
    have hself := (netPort_congr hport port).trans (netPort_setNetPort_self _ hp)
    exact ⟨congrArg PortSt.module hself, congrArg PortSt.mode hself, congrArg PortSt.txDis hself,
      congrArg PortSt.noLinkSince hself, not_stands_clearKey (faultKey_moduleDetail_zero port) _,
      fun p hne => (netPort_congr hport p).trans (netPort_setNetPort_ne _ _ hne)⟩
  case unsupported =>
    intro port bytes since readAt tries s hrun hmod hdue hid hlane
    exact (execModuleIdRead_sound hrun hmod hdue hid).trans (congrArg _ (identify_unsupported port hlane))
  case unsound =>
    intro port bytes since readAt tries s hrun hmod hdue hid
    have hexec := execModuleIdRead_unsound hrun hmod hdue hid
    exact ⟨fun h => hexec.trans (if_pos (by omega)), fun h => hexec.trans (if_neg (by omega))⟩
  case read => exact fun port s => ⟨rfl, netPort_readModule port s⟩
  case lane => exact fun b s => laneFor_eq_none_iff s b
  case remove =>
    intro port s haon hawake hreset hmod hp
    have hself := (netPort_congr (moduleRemoved_queuesOnly port s).port port).trans (netPort_moduleGone hp)
    exact ⟨_, execModuleRemove_present haon hawake hreset hmod, congrArg PortSt.module hself, congrArg PortSt.mode hself,
      congrArg PortSt.txDis hself, (congrArg PortSt.linkUp hself).trans (netPort_dropLink_linkUp hp), moduleRemoved_stands⟩

end Sys2Proof.Machine
end

section
/-!
PROOFS. Links and the launch of frames (07 R272, R291, R303, R329): what a link that comes up leaves, and what leaves of a port
that serves its queues.
-/
namespace Sys2Proof.Machine
open Sys2Proof Sys2Proof.Safety

/-! ### A link that comes up (R272, R279) -/

/-- A port whose link has come up listens. -/
def listeningPort (fault : LinkFault) (now : Ticks) (q : PortSt) : PortSt :=
  { q with linkUp := some now, fault := fault, fwd := .listening now, carried := true, noLinkSince := none }

/-- What a link that comes up leaves but for the claims that begin with the first one. -/
def linkRaised (p : Port) (fault : LinkFault) (s : State) : State :=
  modTime (fun z => { z with firstLink := holdSince s.now z.firstLink }) (setNetPort s p (listeningPort fault s.now))

theorem startPositional_port (s : State) : (startPositional s).net.port = s.net.port := by
  unfold startPositional
  split <;> rfl

theorem startProvisional_port (s : State) : (startProvisional s).net.port = s.net.port := by
  unfold startProvisional
  split <;> rfl

theorem firstClaims_port (s : State) : (firstClaims s).net.port = s.net.port := by
  simp only [firstClaims, apply_ite State.net, apply_ite Net.port, startPositional_port, startProvisional_port, ite_self]

/-- What a link that comes up leaves. -/
def linkCameUp (p : Port) (fault : LinkFault) (s : State) : State :=
  if !ports.any (portUp s) then firstClaims (linkRaised p fault s) else linkRaised p fault s

theorem linkCameUp_port (p : Port) (fault : LinkFault) (s : State) :
    (linkCameUp p fault s).net.port = (setNetPort s p (listeningPort fault s.now)).net.port := by
  unfold linkCameUp
  split
  · exact firstClaims_port _
  · rfl

section
variable {port : Port} {fault : LinkFault} {m : LaneMode} {s : State} (hrun : netRuns s = true)
  (hlaser : (netPort s port).txDis = false) (hmode : (netPort s port).mode = some m) (hflush : pastFlush s = false)
include hrun hlaser hmode hflush

theorem execLinkUp_new (hdown : (netPort s port).linkUp = none) : execLinkUp port fault s = .next (linkCameUp port fault s) := by
  simp only [execLinkUp, hrun, hlaser, hmode, hflush, hdown]
  rfl

theorem execLinkUp_again {t : Ticks} (hup : (netPort s port).linkUp = some t) :
    execLinkUp port fault s = .next (setNetPort s port (fun q => { q with fault := fault })) := by
  simp only [execLinkUp, hrun, hlaser, hmode, hflush, hup]
  rfl

end

/-! ### The end of the listening time (R291) -/

theorem execPortListenEnd_listening {port : Port} {t : Ticks} {s : State} (hfwd : (netPort s port).fwd = .listening t) :
    execPortListenEnd port s = if netRuns s && t + msT 30 ≤ s.now then
      .next (setNetPort s port (fun q => { q with fwd := .forwarding })) else .next s := by
  simp only [execPortListenEnd, hfwd]

/-! ### A frame that leaves (R299, R303) -/

theorem pickVideo_queue {p : Port} {ready : List Nat} {s : State} {r : Nat × State} (h : pickVideo p ready s = some r) :
    r.2.net.queue = s.net.queue := by
  unfold pickVideo at h
  dsimp only at h
  split at h
  case h_1 r' hgo =>
    cases h
    split at hgo
    · split at hgo
      · cases hgo
        rfl
      · cases hgo
    · cases hgo
  case h_2 =>
    split at h
    · cases h
    · obtain ⟨q, -, rfl⟩ := Option.map_eq_some_iff.1 h
      rfl

/-- The choice of a frame leaves the queues. -/
theorem pickFrame_queue {p : Port} {s : State} {r : Nat × State} (h : pickFrame s p = some r) : r.2.net.queue = s.net.queue := by
  unfold pickFrame at h
  split at h
  · cases h
  · exact pickVideo_queue h
  · obtain ⟨i, -, rfl⟩ := Option.map_eq_some_iff.1 h
    rfl

theorem dropHeld_queue_length (s : State) (p : Port) : (dropHeld s p).net.queue.length = s.net.queue.length := by
  unfold dropHeld
  split
  · rfl
  · exact length_updAt _ _ _

theorem portQueue_setPortQueue_self {s : State} {p : Port} (l : List QFrame) (h : p.val < s.net.queue.length) :
    portQueue (setPortQueue s p l) p = l := getD_updAt_self _ [] h

/-- A relayed frame that is no PTP message leaves as it came (R274). -/
theorem leavePayload_relayed {p : Port} {f : QFrame} {g : Frame} (s : State) (hf : f.payload = .relayed g)
    (hptp : ∀ m : PtpRelay, g.body ≠ .ptp m) : leavePayload p f s = (s, .relayed g) := by
  unfold leavePayload
  rw [hf]
  dsimp only
  split
  · rfl
  · split
    case h_1 m hm => exact absurd hm (hptp m)
    case h_2 => rfl

/-- What a frame leaves of its port that leaves it as it came. -/
def frameLeft (s : State) (p : Port) (i : Nat) (f : QFrame) : State :=
  emit (chargeShaper (setPortQueue s p ((portQueue s p).eraseIdx i)) p f) (.frame p f.payload)

theorem leaveFrame_relayed {s : State} {p : Port} {i : Nat} {f : QFrame} {g : Frame} (hi : (portQueue s p)[i]? = some f)
    (hf : f.payload = .relayed g) (hptp : ∀ m : PtpRelay, g.body ≠ .ptp m) : leaveFrame s p i = frameLeft s p i f := by
  simp only [leaveFrame, hi, leavePayload_relayed _ hf hptp, frameLeft, hf]

theorem servePort_picked {s : State} {p : Port} {r : Nat × State} (hsends : portSends s p = true)
    (hpick : pickFrame (dropHeld s p) p = some r) : servePort s p = leaveFrame r.2 p r.1 := by
  simp [servePort, hsends, hpick]

/-- Settles O25: the commands are taken apart by their conditions; a link that comes up or goes down rewrites its port's record; a
frame leaves from the queue that the choice of a frame has left. -/
theorem linksListenThenForward : Obligations.LinksListenThenForward := by
  unfold Obligations.LinksListenThenForward
  refine ⟨?up, ?again, ?forwards, ?early, ?down, ?timeout, ?launch, ?served⟩
  case up =>
    intro port fault m s hrun hlaser hmode hdown hflush hp
    have hexec : exec (.linkUp port fault) s = _ := execLinkUp_new hrun hlaser hmode hflush hdown
    have hports := linkCameUp_port port fault s
    have honly := execLinkUp_only port fault s _ hexec
    have hself := (netPort_congr hports port).trans (netPort_setNetPort_self _ hp)
    refine ⟨_, hexec, congrArg PortSt.linkUp hself, congrArg PortSt.fwd hself, congrArg PortSt.fault hself, congrArg PortSt.carried hself,
      ?_, fun p hne => (netPort_congr hports p).trans (netPort_setNetPort_ne _ _ hne), honly .flt (by decide),
      honly .mem (by decide)⟩
    simp [portForwards, hself, listeningPort]
  case again =>
    intro port fault m t0 s hrun hlaser hmode hup hflush
    exact execLinkUp_again hrun hlaser hmode hflush hup
  case forwards =>
    intro port t0 s hrun hfwd hdue
    exact (execPortListenEnd_listening hfwd).trans (by simp [hrun, hdue])
  case early =>
    intro port t0 s hfwd hearly
    exact (execPortListenEnd_listening hfwd).trans (by simp [Nat.not_le.2 hearly])
  case down =>
    intro port s hup hp _
    have hports := dropLink_port hup
    have hself := (netPort_congr hports port).trans (netPort_setNetPort_self _ hp)
    refine ⟨_, rfl, ?_, congrArg PortSt.fwd hself, dropLink_stands hup,
      fun p hne => (netPort_congr hports p).trans (netPort_setNetPort_ne _ _ hne)⟩
    simp [portUp, netPort_dropLink_linkUp hp]
  case timeout =>
    intro port r c s hrun hmod hdown hdue
    change execNetLinkTimeout port s = _
    simp [execNetLinkTimeout, hrun, hmod, hdown, hdue]
  case launch =>
    intro port s hrun hdue
    change execLaunchTime port s = _
    simp [execLaunchTime, hrun, hdue]
  case served =>
    intro port r f g s hsends hpick hr hf hptp hp
    rw [servePort_picked hsends hpick, leaveFrame_relayed hr hf hptp]
    have hlength : port.val < r.2.net.queue.length := by rwa [pickFrame_queue hpick, dropHeld_queue_length]
    have hsent : r.2.sent = s.sent := by
      have hdrop : Only [.net] s (dropHeld s port) := by simp
      exact (hdrop.trans (pickFrame_only hpick)) .sent (by decide)
    refine ⟨portQueue_setPortQueue_self _ hlength, ?_⟩
    have hleft : (frameLeft r.2 port r.1 f).sent = .frame port f.payload :: r.2.sent := rfl
    rw [hleft, hsent, hf]

end Sys2Proof.Machine
end

section
/-!
PROOFS. Reception, learning and forwarding of frames, and the tables whose entries end with their time (07 R273, R283 to R286,
R291, R300, R306, R307, R309).
-/
namespace Sys2Proof.Machine
open Sys2Proof Sys2Proof.Safety

/-! ### Checks and reception (R273, R291) -/

theorem frameCheck_eq_none_iff (f : Frame) : frameCheck f = none ↔ 64 ≤ f.len ∧ f.len ≤ 2000 ∧ f.fcsOk = true := by
  unfold frameCheck
  cases f.fcsOk <;> grind

section
variable {port : Port} {f : Frame} {s : State} (hrun : netRuns s = true) (hup : portUp s port = true)
  (hline : (netPort s port).fault ≠ .localFault)
include hrun hup hline

theorem execFrameReceive_discarded {c : Nat} (hcheck : frameCheck f = some c) :
    execFrameReceive port f s = .next (countUp c 1 s) := by
  simp [execFrameReceive, hrun, hup, hline, hcheck]

theorem execFrameReceive_taken (hcheck : frameCheck f = none) (hfwd : portForwards s port = true) :
    execFrameReceive port f s = .next (localIn port f (forwardFrame port f (learnMac port f.src s))) := by
  simp [execFrameReceive, hrun, hup, hline, hcheck, hfwd]

end

/-- A port that does not forward acts on no frame. -/
theorem execFrameReceive_held {port : Port} {f : Frame} {s : State} (hfwd : portForwards s port = false)
    (hcheck : frameCheck f = none) : execFrameReceive port f s = .next s := by
  simp [execFrameReceive, hcheck, hfwd]

/-! ### Learning and forwarding (R283, R284) -/

theorem learnMac_of_room {p : Port} {m : Mac} {s : State} (h : s.net.mac.length < 4096) :
    (learnMac p m s).net.mac = ⟨m, p, s.now⟩ :: s.net.mac.filter (fun e => e.mac != m) := by
  have hrest : (s.net.mac.filter (fun e => e.mac != m)).length < 4096 := (List.length_filter_le _ _).trans_lt h
  simp [learnMac, hrest]

/-- A table with room holds the address learnt, and of the others what it held. -/
theorem mem_learnMac_iff {p : Port} {m : Mac} {s : State} {e : MacEntry} (h : s.net.mac.length < 4096) (he : e.mac ≠ m) :
    e ∈ (learnMac p m s).net.mac ↔ e ∈ s.net.mac := by
  have hne : e ≠ ⟨m, p, s.now⟩ := fun h => he (congrArg MacEntry.mac h)
  simp [learnMac_of_room h, hne, he]

theorem forwardFrame_of_own {p : Port} {f : Frame} {s : State} (h : f.dst = ownMac s) : forwardFrame p f s = s := by
  simp [forwardFrame, egressOf, h]

/-- A frame for a learnt address goes to its port at most, and not back. -/
theorem mem_egressOf_learnt {p q : Port} {f : Frame} {e : MacEntry} {s : State} (hown : f.dst ≠ ownMac s)
    (hgroup : groupAddress f.dst = false) (he : s.net.mac.find? (fun x => x.mac == f.dst) = some e)
    (hq : q ∈ (egressOf p f s).1) : q = e.port ∧ q ≠ p := by
  simp only [egressOf, beq_eq_false_iff_ne.2 hown, hgroup, he, Bool.not_false, if_true, Bool.false_eq_true, if_false,
    List.mem_filter, bne_iff_ne, beq_iff_eq] at hq
  obtain ⟨⟨-, hp⟩, heq⟩ := hq
  exact ⟨heq, hp⟩

/-! ### Entries that end (R283, R300, R306, R307, R309) -/

theorem execSdpExpiry_due {group : Ip4} {udp : Nat} {e : SdpEntry} {s : State} (he : e ∈ s.net.sdp) (hgroup : e.sdp.group = group)
    (hport : e.sdp.port = udp) (hdue : e.announced + secT 3600 ≤ s.now) :
    execSdpExpiry group udp s = .next (dropSdp group udp s) := by
  have hany : s.net.sdp.any (fun x => isKey x group udp && x.announced + secT 3600 ≤ s.now) = true :=
    List.any_eq_true.2 ⟨e, he, by simp [isKey, hgroup, hport, hdue]⟩
  rw [execSdpExpiry, if_pos hany]

theorem mem_dropSdp_sdp_iff {group : Ip4} {udp : Nat} {s : State} {x : SdpEntry} :
    x ∈ (dropSdp group udp s).net.sdp ↔ x ∈ s.net.sdp ∧ ¬ (x.sdp.group = group ∧ x.sdp.port = udp) := by
  simp [dropSdp, isKey, imp_iff_not_or]

/-- No flow stays bound to an SDP that is dropped. -/
theorem dropSdp_unbinds {group : Ip4} {udp : Nat} {s : State} {f : Flow} {d : Sdp} (hf : f ∈ (dropSdp group udp s).net.flows)
    (hd : f.sdp = some d) : ¬ (d.group = group ∧ d.port = udp) := by
  obtain ⟨g, -, rfl⟩ := List.mem_map.1 hf
  split at hd
  case h_1 x hx =>
    split at hd
    case isTrue => cases hd
    case isFalse hkey =>
      obtain rfl : x = d := Option.some.inj (hx.symm.trans hd)
      simpa using hkey
  case h_2 hx => exact absurd hd (by simp [hx])

theorem execNetSdpTimeout_due {slot : Fin 256} {f : Flow} {s : State} (hrun : netRuns s = true) (hf : f ∈ s.net.flows)
    (hslot : f.slot = slot.val) (hsdp : f.sdp = none) (hdue : passed s.now f.rtpSince (secT 10) = true) :
    execNetSdpTimeout slot s = .next (raise .netSdp (BitVec.ofNat 32 slot.val) s) := by
  have hany : s.net.flows.any (fun x => x.slot == slot.val && x.sdp.isNone && passed s.now x.rtpSince (secT 10)) = true :=
    List.any_eq_true.2 ⟨f, hf, by simp [hslot, hsdp, hdue]⟩
  simp only [execNetSdpTimeout, hrun, hany]
  rfl

/-- The flow is the video flow of a slot whose sender is unheard for 100 ms. -/
def senderLost (slot : Nat) (now : Ticks) (f : Flow) : Bool :=
  decide (f.kind = .video) && f.slot == slot && (match f.sender with | none => false | some d => d.heard + msT 100 ≤ now)

/-- A sender that is lost is forgotten. -/
def dropSender (slot : Nat) (now : Ticks) (f : Flow) : Flow := if senderLost slot now f then { f with sender := none } else f

theorem dropSender_heard {slot : Nat} {now : Ticks} {f : Flow} {d : Sender} (hkind : (dropSender slot now f).kind = .video)
    (hslot : (dropSender slot now f).slot = slot) (hd : (dropSender slot now f).sender = some d) : now < d.heard + msT 100 := by
  cases hlost : senderLost slot now f with
  | true => simp [dropSender, hlost] at hd
  | false =>
    have hkeep : dropSender slot now f = f := by simp [dropSender, hlost]
    rw [hkeep] at hkind hslot hd
    simpa [senderLost, hkind, hslot, hd] using hlost

theorem execSenderTimeout_eq (slot : Fin 256) (s : State) : execSenderTimeout slot s =
    .next { s with net := { s.net with flows := s.net.flows.map (dropSender slot.val s.now) } } := rfl

/-- Settles O26: a frame is discarded, held or taken as its check and its port have it; a command that ends entries of a table is
a filter or a map of it. -/
theorem framesAreCheckedLearnedAndForwarded : Obligations.FramesAreCheckedLearnedAndForwarded := by
  unfold Obligations.FramesAreCheckedLearnedAndForwarded
  refine ⟨?discarded, ?held, ?taken, ?check, ?learnt, ?own, ?egress, ?mac, ?media, ?sdp, ?noSdp, ?sender, ?router, ?flood⟩
  case discarded => exact fun port f c s hrun hup hline hcheck => execFrameReceive_discarded hrun hup hline hcheck
  case held => exact fun port f s hfwd hcheck => execFrameReceive_held hfwd hcheck
  case taken => exact fun port f s hrun hup hline hcheck hfwd => execFrameReceive_taken hrun hup hline hcheck hfwd
  case check => exact frameCheck_eq_none_iff
  case learnt =>
    intro p m s h
    exact ⟨by rw [learnMac_of_room h]; exact List.mem_cons_self, fun e he => mem_learnMac_iff h he⟩
  case own => exact fun p f s h => forwardFrame_of_own h
  case egress => exact fun p q f e s hown hgroup he hq => mem_egressOf_learnt hown hgroup he hq
  case mac =>
    intro mac s
    refine ⟨_, rfl, fun e => ?_, rfl⟩
    simp [modNet, imp_iff_not_or]
  case media =>
    intro port group s
    refine ⟨_, rfl, fun m => ?_, rfl⟩
    simp [modNet, imp_iff_not_or, or_assoc]
  case sdp =>
    intro group udp e s he hgroup hport hdue
    exact ⟨_, execSdpExpiry_due he hgroup hport hdue, fun x hx => (mem_dropSdp_sdp_iff.1 hx).2,
      fun x hx hkey => mem_dropSdp_sdp_iff.2 ⟨hx, hkey⟩, fun f hf d hd => dropSdp_unbinds hf hd⟩
  case noSdp => exact fun slot f s hrun hf hslot hsdp hdue => execNetSdpTimeout_due hrun hf hslot hsdp hdue
  case sender =>
    intro slot s
    refine ⟨_, execSenderTimeout_eq slot s, List.length_map _, fun f hf hkind hslot d hd => ?_, rfl⟩
    obtain ⟨g, -, rfl⟩ := List.mem_map.1 hf
    exact dropSender_heard hkind hslot hd
  case router => exact fun port s hdue => if_pos hdue
  case flood => exact fun s hdue => if_pos hdue

end Sys2Proof.Machine
end

section
/-!
PROOFS. The ring guard (07 R283, R292 to R296, R298): what learning, sending and blocking leave of its record, and what each of its
commands does.
-/
namespace Sys2Proof.Machine
open Sys2Proof Sys2Proof.Safety

/-! ### What learning and sending leave of the guard (R283, R285) -/

theorem learnMac_guard (p : Port) (m : Mac) (s : State) : (learnMac p m s).net.guard = s.net.guard := by
  unfold learnMac
  dsimp only
  split <;> rfl

theorem learnMac_keeps (p : Port) (m : Mac) (s : State) : Only [.net] s (learnMac p m s) := by simp

@[simp] theorem learnMac_now (p : Port) (m : Mac) (s : State) : (learnMac p m s).now = s.now := learnMac_keeps p m s .now (by decide)

@[simp] theorem learnMac_wallId (p : Port) (m : Mac) (s : State) : wallId (learnMac p m s) = wallId s := by
  have hstraps : (learnMac p m s).straps = s.straps := learnMac_keeps p m s .straps (by decide)
  simp only [wallId, code, hstraps]

@[simp] theorem learnMac_serialOf (p : Port) (m : Mac) (s : State) : serialOf (learnMac p m s) = serialOf s := by
  have hotp : (learnMac p m s).otp = s.otp := learnMac_keeps p m s .otp (by decide)
  simp only [serialOf, hotp]

@[simp] theorem learnMac_actingLead (p : Port) (m : Mac) (s : State) : actingLead (learnMac p m s) = actingLead s := by
  have hdisc : (learnMac p m s).disc = s.disc := learnMac_keeps p m s .disc (by decide)
  simp only [actingLead, hdisc]

@[simp] theorem learnMac_silenced (p : Port) (m : Mac) (s : State) : silenced (learnMac p m s) = silenced s := by
  simp only [silenced, learnMac_guard, learnMac_now]

/-- The guard's record and the MAC table of `t` are those of `s`. -/
def SameGuardAndMac (s t : State) : Prop := t.net.guard = s.net.guard ∧ t.net.mac = s.net.mac

theorem SameGuardAndMac.trans {s t u : State} (h : SameGuardAndMac s t) (k : SameGuardAndMac t u) : SameGuardAndMac s u :=
  ⟨k.1.trans h.1, k.2.trans h.2⟩

theorem QueuesOnly.sameGuardAndMac {s t : State} (h : QueuesOnly s t) : SameGuardAndMac s t := ⟨h.guard, h.mac⟩

theorem stormPass_sameGuardAndMac (p : Port) (s : State) : SameGuardAndMac s (stormPass p s).2 := by
  unfold stormPass
  dsimp only
  (repeat' split) <;> exact ⟨rfl, rfl⟩

theorem limitedBy_sameGuardAndMac (p : Port) {f : State → State} (hf : ∀ t, QueuesOnly t (f t)) (s : State) :
    SameGuardAndMac s (limitedBy p f s) := by
  have hpass := stormPass_sameGuardAndMac p s
  unfold limitedBy
  generalize stormPass p s = r at *
  obtain ⟨passes, t⟩ := r
  cases passes with
  | true => exact hpass.trans (hf t).sameGuardAndMac
  | false => exact hpass

/-- Sending changes of the guard's record the sequence number alone, and nothing of the MAC table. -/
theorem sendGuard_sameGuardAndMac (flush : Bool) (s : State) :
    SameGuardAndMac (modGuard (fun x => { x with seq := (x.seq + 1) % 65536 }) s) (sendGuard flush s) := by
  refine foldl_holds (SameGuardAndMac _) _ (fun t p h => ?_) _ _ ⟨rfl, rfl⟩
  exact h.trans (limitedBy_sameGuardAndMac p (fun u => originFrame_queuesOnly u p _ _ _ _) t)

/-! ### Blocking (R294) -/

/-- A port that is blocked keeps the instant since which it is. -/
def blockPort (p : Port) (s : State) : State := setNetPort s p (fun q => { q with blocked := holdSince s.now q.blocked })

/-- The ports but the lowest-numbered one are blocked, and a third of them raises its fault. -/
theorem blockLoop_cons {p : Port} {rest : List Port} {s : State} (h : returnPorts s = p :: rest) : blockLoop s =
    if 2 ≤ rest.length then raise .netRing 1 (rest.foldl (fun st q => blockPort q st) s)
    else rest.foldl (fun st q => blockPort q st) s := by
  simp only [blockLoop, h]
  rfl

theorem blockLoop_pair {p q : Port} {s : State} (h : returnPorts s = [p, q]) : blockLoop s = blockPort q s := blockLoop_cons h

theorem foldl_blockPort_guard (l : List Port) (s : State) :
    (l.foldl (fun st q => blockPort q st) s).net.guard = s.net.guard :=
  foldl_holds (fun t => t.net.guard = s.net.guard) (fun st q => blockPort q st) (fun _ _ h => h) l s rfl

theorem blockLoop_guard (s : State) : (blockLoop s).net.guard = s.net.guard := by
  cases h : returnPorts s with
  | nil => simp only [blockLoop, h]
  | cons p rest =>
    rw [blockLoop_cons h]
    split
    · exact (raise_queuesOnly .netRing 1 _ (by decide)).guard.trans (foldl_blockPort_guard rest s)
    · exact foldl_blockPort_guard rest s

theorem blockLoop_now (s : State) : (blockLoop s).now = s.now := by
  have h : Only [.flt, .status, .net, .sv, .disc, .weft, .bea] s (blockLoop s) := by simp
  exact h .now (by decide)

/-! ### A guard frame that arrives (R292 to R294) -/

/-- The record with a return of an own frame noted. -/
def returnNoted (p : Port) (g : Guard) (now : Ticks) (x : RingGuard) : RingGuard :=
  { x with returned := (g.port, p, now) :: x.returned.filter (fun r => !(r.1 == g.port && r.2.1 == p) && now < r.2.2 + msT 30) }

theorem guardReturned_heard {p : Port} {g : Guard} {s : State} (h : silenced s = false) : guardReturned p g s =
    clearKey .netRing 0 (blockLoop (modGuard (returnNoted p g s.now) s)) := if_neg (by simp [h])

theorem guardReturned_guard {p : Port} {g : Guard} {s : State} (h : silenced s = false) :
    (guardReturned p g s).net.guard = returnNoted p g s.now s.net.guard := by
  rw [guardReturned_heard h, (clearKey_queuesOnly _ _ _).guard, blockLoop_guard]
  rfl

theorem guardReturned_now {p : Port} {g : Guard} {s : State} (h : silenced s = false) : (guardReturned p g s).now = s.now := by
  simp [guardReturned_heard h, blockLoop_now, modGuard]

/-- An own frame that has just returned closes a loop. -/
theorem looped_of_returned {s : State} {p q : Port} (h : (p, q, s.now) ∈ s.net.guard.returned) : looped s = true := by
  have hrecent : (p, q, s.now) ∈ recentReturns s := List.mem_filter.2 ⟨h, by simp [msT]⟩
  simpa [looped] using List.ne_nil_of_mem hrecent

theorem guardHeard_of_no_flags {g : Guard} (s : State) (hlead : g.lead = false) (hlooped : g.looped = false)
    (hflush : g.flush = false) : guardHeard g s = s := by
  simp [guardHeard, hlead, hlooped, hflush]

theorem execGuardFrame_heard {port : Port} {g : Guard} {s : State} (hrun : netRuns s = true) (hup : portUp s port = true) :
    execGuardFrame port g s = .next (takeGuard port g (learnMac port (guardMac g) s)) := by
  simp [execGuardFrame, hrun, hup]

theorem takeGuard_other_wall {p : Port} {g : Guard} {s : State} (h : g.wallId ≠ wallId s) : takeGuard p g s = s := by
  simp [takeGuard, h]

theorem takeGuard_own {p : Port} {g : Guard} {s : State} (hwall : g.wallId = wallId s) (hserial : g.serial = serialOf s) :
    takeGuard p g s = guardReturned p g s := by
  simp [takeGuard, hwall, hserial]

theorem takeGuard_last_hop {p : Port} {g : Guard} {s : State} (hwall : g.wallId = wallId s) (hserial : g.serial ≠ serialOf s)
    (hhops : g.hops ≤ 1) (hheard : guardHeard g s = s) (hlead : actingLead s = false) : takeGuard p g s = raise .netRing 2 s := by
  simp [takeGuard, hwall, hserial, hheard, hhops, hlead]

/-! ### Sending and lifting (R293, R295, R296) -/

theorem execGuardSend_due {s : State} (hrun : netRuns s = true) (hheard : silenced s = false)
    (hdue : ∀ t : Ticks, s.net.guard.lastSend = some t → t + guardPeriod s ≤ s.now) :
    execGuardSend s = .next (sendGuard false (modGuard (fun x => { x with lastSend := some s.now }) s)) := by
  cases hlast : s.net.guard.lastSend with
  | none => simp [execGuardSend, hrun, hheard, hlast]
  | some t => simp [execGuardSend, hrun, hheard, hlast, hdue t hlast]

theorem execGuardLift_no_return {port : Port} {t : Ticks} {s : State} (hrun : netRuns s = true)
    (hblocked : (netPort s port).blocked = some t) (hlong : silencedLong s = false) (hno : noReturn s port = true) :
    execGuardLift port s = .next (startFlushFrames (raise .netRing 0 (unblock port s))) := by
  simp [execGuardLift, hrun, hblocked, hlong, hno]

/-- Settles O27: a guard frame teaches its address and is then taken, by its wall, its serial number and its hops; neither a block,
a raise nor a FLUSH frame changes the part of the guard's record that the statement names. -/
theorem ringGuardBlocksAndLifts : Obligations.RingGuardBlocksAndLifts := by
  unfold Obligations.RingGuardBlocksAndLifts
  refine ⟨?otherWall, ?lastHop, ?own, ?block, ?send, ?silent, ?lift, ?flush⟩
  case otherWall =>
    intro port g s hrun hup hwall
    exact (execGuardFrame_heard hrun hup).trans (congrArg _ (takeGuard_other_wall (by simpa using hwall)))
  case lastHop =>
    intro port g s hrun hup hwall hserial hhops hlead hlooped hflush hacting
    exact (execGuardFrame_heard hrun hup).trans (congrArg _ (takeGuard_last_hop (by simpa using hwall) (by simpa using hserial)
      hhops (guardHeard_of_no_flags _ hlead hlooped hflush) (by simpa using hacting)))
  case own =>
    intro port g s hrun hup hwall hserial hheard
    generalize hlearnt : learnMac port (guardMac g) s = u
    have hsil : silenced u = false := by rw [← hlearnt, learnMac_silenced, hheard]
    have hnow : u.now = s.now := by rw [← hlearnt, learnMac_now]
    have htake : takeGuard port g u = guardReturned port g u :=
      takeGuard_own (by rw [hwall, ← hlearnt, learnMac_wallId]) (by rw [hserial, ← hlearnt, learnMac_serialOf])
    have hmem : (g.port, port, s.now) ∈ (guardReturned port g u).net.guard.returned := by
      rw [guardReturned_guard hsil, ← hnow]
      exact List.mem_cons_self
    refine ⟨guardReturned port g u, (execGuardFrame_heard hrun hup).trans (by rw [hlearnt, htake]), ?_, ⟨_, hmem, rfl⟩, ?_⟩
    · rw [← hnow, ← guardReturned_now (p := port) (g := g) hsil] at hmem
      exact looped_of_returned hmem
    · rw [guardReturned_heard hsil]
      exact not_stands_clearKey rfl _
  case block =>
    intro p q s hret hq hopen
    rw [blockLoop_pair hret]
    have hself : (netPort (blockPort q s) q).blocked = some s.now := by
      rw [blockPort, netPort_setNetPort_self _ hq]
      simp [hopen, holdSince]
    exact ⟨hself, by simp [portForwards, hself], rfl⟩
  case send => exact fun s hrun hheard hdue => execGuardSend_due hrun hheard hdue
  case silent =>
    intro s hsilenced
    change execGuardSend s = _
    simp [execGuardSend, hsilenced]
  case lift => exact fun port t0 s hrun hblocked hlong hno => execGuardLift_no_return hrun hblocked hlong hno
  case flush =>
    intro s
    obtain ⟨hguard, hmac⟩ := sendGuard_sameGuardAndMac true
      (modGuard (fun x => { x with flushLeft := 2, flushAt := s.now + msT 1 }) (flushTables s))
    exact ⟨congrArg RingGuard.flushLeft hguard, congrArg RingGuard.flushAt hguard, hmac, congrArg RingGuard.floodUntil hguard⟩

end Sys2Proof.Machine
end

section
/-!
PROOFS. The states of the servo and `SYNCED` (08 R350, R351, Table 8.5).
-/
namespace Sys2Proof.Machine
open Sys2Proof

theorem raise_time {f : FaultName} (d : BitVec 32) (s : State) (h : sevOf f ≠ 3) : (raise f d s).time = s.time := by
  simp [h]

theorem enterServo_time (v : Servo) (s : State) : (enterServo v s).time =
    { freshRuns s.time with
      servo := v, run200 := if s.time.servo = .holdover ∧ v = .track then s.time.run200 else 0
      synced := s.time.synced && decide (v = .track) } := by
  simp [enterServo, apply_ite State.time]

/-! ### `SYNCED` by the counts of Syncs (R350) -/

theorem judgeSynced_of_not_track {t : TimeSt} (h : t.servo ≠ .track) : judgeSynced t = t := if_pos h

theorem judgeSynced_synced_of_low {t : TimeSt} (htrack : t.servo = .track) (hlow : t.synced = false) :
    (judgeSynced t).synced = decide (8 ≤ t.run200) := by
  by_cases hrun : 8 ≤ t.run200 <;> simp [judgeSynced, setSynced, htrack, hlow, hrun]

theorem judgeSynced_synced_of_high {t : TimeSt} (htrack : t.servo = .track) (hhigh : t.synced = true) :
    (judgeSynced t).synced = !decide (3 ≤ t.runMicro) := by
  by_cases hrun : 3 ≤ t.runMicro <;> simp [judgeSynced, setSynced, htrack, hhigh, hrun]

/-- The judgement moves `SYNCED` and what it leaves behind of it alone. -/
@[simp] theorem judgeSynced_keeps (t : TimeSt) : (judgeSynced t).servo = t.servo ∧ (judgeSynced t).theta = t.theta ∧
    (judgeSynced t).runMilli = t.runMilli ∧ (judgeSynced t).stepNeed = t.stepNeed ∧ (judgeSynced t).lastTms = t.lastTms := by
  unfold judgeSynced
  (repeat' split) <;> simp [setSynced]

theorem countSync_run200_reaches {theta : Int} {t : TimeSt} :
    8 ≤ (countSync theta t).run200 ↔ |theta| < nsF 200 ∧ 7 ≤ t.run200 := by
  by_cases h : |theta| < nsF 200 <;> simp [countSync, h]

theorem countSync_runMicro_reaches {theta : Int} {t : TimeSt} :
    3 ≤ (countSync theta t).runMicro ↔ nsF 1000 ≤ |theta| ∧ 2 ≤ t.runMicro := by
  by_cases h : nsF 1000 ≤ |theta| <;> simp [countSync, h]

theorem countSync_runMilli_of_large {theta : Int} {t : TimeSt} (h : nsF 1000000 < |theta|) :
    (countSync theta t).runMilli = t.runMilli + 1 := if_pos h

/-! ### A Sync in TRACK (R350, R351) -/

/-- The state once the Sync is counted and judged. -/
def syncCounted (theta : Int) (s : State) : State := modTime (fun t => judgeSynced (countSync theta t)) s

@[simp] theorem syncCounted_time (theta : Int) (s : State) :
    (syncCounted theta s).time = judgeSynced (countSync theta s.time) := rfl

theorem trackSync_eq (theta tau : Int) (s : State) : trackSync theta tau s =
    if (syncCounted theta s).time.stepNeed.isNone && 16 ≤ (syncCounted theta s).time.runMilli then needStep theta (syncCounted theta s)
    else if (syncCounted theta s).time.stepNeed.isSome then modTime (fun t => { t with y := t.yInt }) (syncCounted theta s)
    else loopUpdate theta tau (timeProfile (syncCounted theta s)).kp (timeProfile (syncCounted theta s)).ki (syncCounted theta s) := rfl

theorem trackSync_of_sixteenth {theta tau : Int} {s : State} (hneed : s.time.stepNeed = none) (hbig : nsF 1000000 < |theta|)
    (hrun : s.time.runMilli = 15) : trackSync theta tau s = needStep theta (syncCounted theta s) := by
  have hnone : (countSync theta s.time).stepNeed = none := hneed
  simp [trackSync_eq, hnone, countSync_runMilli_of_large hbig, hrun]

/-- Settles O33: the counts after a Sync decide `SYNCED` in TRACK, and the sixteenth large offset asks for a step. -/
theorem syncedOnlyInTrack : Obligations.SyncedOnlyInTrack := by
  unfold Obligations.SyncedOnlyInTrack
  refine ⟨?leaves, ?outside, ?rises, ?falls, ?step⟩
  case leaves =>
    intro v s hv
    simp [enterServo_time, hv]
  case outside => exact fun t h => judgeSynced_of_not_track h
  case rises =>
    intro theta t htrack hlow
    rw [judgeSynced_synced_of_low (t := countSync theta t) htrack hlow, decide_eq_true_iff, countSync_run200_reaches]
  case falls =>
    intro theta t htrack hhigh
    rw [judgeSynced_synced_of_high (t := countSync theta t) htrack hhigh, Bool.not_eq_false', decide_eq_true_iff,
      countSync_runMicro_reaches]
  case step => exact fun theta tau s _ hneed hbig hrun => ⟨_, trackSync_of_sixteenth hneed hbig hrun⟩

end Sys2Proof.Machine
end

section
/-!
PROOFS. Beats, refreshes and picks (08 R366 to R368, 13 R635, R639).
-/
namespace Sys2Proof.Machine
open Sys2Proof

/-! ### The units of a code over the refreshes (13 R639) -/

theorem bitAt_eq_testBit (v i : Nat) : bitAt v i = v.testBit i := by
  simp [bitAt, Nat.testBit_eq_decide_div_mod_eq, beq_eq_decide]

theorem foldl_add_if_eq_sum (l : List Nat) (p : Nat → Bool) (w : Nat → Nat) (a : Nat) :
    l.foldl (fun a i => if p i then a + w i else a) a = a + (l.map (fun i => if p i then w i else 0)).sum := by
  induction l generalizing a with
  | nil => rfl
  | cons x l ih =>
    rw [List.foldl_cons, ih, List.map_cons, List.sum_cons]
    split <;> omega

theorem revBits_eq_sum (k v : Nat) :
    revBits k v = ((List.range k).map (fun i => if v.testBit i then 2 ^ (k - 1 - i) else 0)).sum := by
  simp only [revBits, bitAt_eq_testBit, foldl_add_if_eq_sum, Nat.zero_add]

/-- One bit more at the top becomes the lowest bit of the reversal. -/
theorem revBits_succ (k v : Nat) : revBits (k + 1) v = 2 * revBits k v + if v.testBit k then 1 else 0 := by
  have hdouble : ∀ i ∈ List.range k,
      (if v.testBit i then 2 ^ (k + 1 - 1 - i) else 0) = 2 * if v.testBit i then 2 ^ (k - 1 - i) else 0 := by
    intro i hi
    have hexp : k + 1 - 1 - i = k - 1 - i + 1 := by have := List.mem_range.1 hi; omega
    rw [hexp, Nat.pow_succ]
    split <;> omega
  rw [revBits_eq_sum, revBits_eq_sum, List.range_succ, List.map_append, List.sum_append, List.map_congr_left hdouble,
    List.sum_map_mul_left]
  simp

theorem revBits_congr {k v w : Nat} (h : ∀ i < k, v.testBit i = w.testBit i) : revBits k v = revBits k w := by
  rw [revBits_eq_sum, revBits_eq_sum]
  refine congrArg _ (List.map_congr_left fun i hi => ?_)
  rw [h i (List.mem_range.1 hi)]

theorem revBits_succ_of_lt {k v : Nat} (h : v < 2 ^ k) : revBits (k + 1) v = 2 * revBits k v := by
  simp [revBits_succ, Nat.testBit_lt_two_pow h]

theorem revBits_succ_two_pow_add {k v : Nat} (h : v < 2 ^ k) : revBits (k + 1) (2 ^ k + v) = 2 * revBits k v + 1 := by
  rw [revBits_succ, Nat.testBit_two_pow_add_eq, Nat.testBit_lt_two_pow h,
    revBits_congr (fun i hi => Nat.testBit_two_pow_add_gt hi v)]
  rfl

/-- The reversal takes each value below 2^k once: m of the refreshes have a reversed number below m. -/
theorem sum_revBits_lt (k m : Nat) (hm : m ≤ 2 ^ k) :
    ((List.range (2 ^ k)).map (fun r => if revBits k r < m then 1 else 0)).sum = m := by
  induction k generalizing m with
  | zero =>
    have h0 : revBits 0 0 = 0 := rfl
    simp only [Nat.pow_zero, List.range_one, List.map_cons, List.map_nil, h0, List.sum_singleton]
    split <;> omega
  | succ k ih =>
    have hlow : ∀ r ∈ List.range (2 ^ k),
        (if revBits (k + 1) r < m then 1 else 0) = if revBits k r < (m + 1) / 2 then 1 else 0 := by
      intro r hr
      rw [revBits_succ_of_lt (List.mem_range.1 hr)]
      exact if_congr (by omega) rfl rfl
    have hhigh : ∀ r ∈ List.range (2 ^ k),
        (if revBits (k + 1) (2 ^ k + r) < m then 1 else 0) = if revBits k r < m / 2 then 1 else 0 := by
      intro r hr
      rw [revBits_succ_two_pow_add (List.mem_range.1 hr)]
      exact if_congr (by omega) rfl rfl
    rw [Nat.pow_succ] at hm
    rw [Nat.pow_succ, Nat.mul_two, List.range_add, List.map_append, List.sum_append, List.map_map,
      List.map_congr_left hlow, Function.comp_def, List.map_congr_left hhigh, ih _ (by omega), ih _ (by omega)]
    omega

/-- Over the refreshes of its low part a code has its units, each once. -/
theorem sum_litUnits (n kp v : Nat) :
    ((List.range (2 ^ kp)).map (fun r => litUnits false n kp r v)).sum = v / 2 ^ (16 - (n + kp)) := by
  generalize hu : v / 2 ^ (16 - (n + kp)) = u
  have hunits : ∀ r ∈ List.range (2 ^ kp),
      litUnits false n kp r v = u / 2 ^ kp + if revBits kp r < u % 2 ^ kp then 1 else 0 := by
    intro r hr
    simp [litUnits, hu, Nat.mod_eq_of_lt (List.mem_range.1 hr)]
  rw [List.map_congr_left hunits, List.sum_map_add, sum_revBits_lt _ _ (Nat.mod_lt _ (by positivity)).le]
  simpa using Nat.div_add_mod u (2 ^ kp)

/-! ### The beat's number stands through what follows it (08 R366, R367) -/

theorem restartAudio_time (s : State) : (restartAudio s).time = s.time := rfl

theorem playAll_time (n : Nat) (s : State) : (playAll n s).time = s.time := by
  have h : Only [.aud] s (playAll n s) := by simp
  exact h .time (by decide)

theorem playDue_beat (s : State) : (playDue s).time.beat = s.time.beat := by
  simp [playDue, apply_ite State.time, apply_ite TimeSt.beat, restartAudio_time, playAll_time]

theorem applyStep_beat (a : Int) (s : State) : (applyStep a s).time.beat = s.time.beat := by
  unfold applyStep
  dsimp only
  split
  · exact (congrArg TimeSt.beat (raise_time (f := .timeStep) _ _ (by decide))).trans rfl
  · rfl

theorem stepAtBeat_beat (k : Nat) (s : State) : (stepAtBeat k s).time.beat = s.time.beat := by
  unfold stepAtBeat
  (repeat' split) <;> simp [applyStep_beat, dropAnn]

theorem timeAtBeat_beat (k : Nat) (s : State) : (timeAtBeat k s).time.beat = s.time.beat :=
  (playDue_beat _).trans (stepAtBeat_beat k s)

theorem announceStep_beat (k : Nat) (s : State) : (announceStep k s).time.beat = s.time.beat := by
  unfold announceStep
  split <;> rfl

theorem sendBeat_beat (k : Nat) (s : State) : (sendBeat k s).time.beat = s.time.beat := by
  have h : Only [.status, .sv, .disc] (announceStep k s) (sendBeat k s) := by simp [sendBeat]
  exact (congrArg TimeSt.beat (h .time (by decide))).trans (announceStep_beat k s)

theorem leadBeat_beat (k : Nat) (s : State) : (leadBeat k s).time.beat = s.time.beat := by
  simp [leadBeat, apply_ite State.time, apply_ite TimeSt.beat, sendBeat_beat]

/-! ### What was due at the beat is done with it (01 R38, R39) -/

theorem handScene_sceneDue (s : State) : (handScene s).live.sceneDue = none := by
  cases h : s.live.sceneDue <;> simp [handScene, h]

theorem ownBright_live (b : Bool) (s : State) : (ownBright b s).live = s.live := rfl

theorem moveTarget_live (s : State) : (moveTarget s).live = s.live := by
  have h : Only [.status, .sv, .disc, .bri] s (moveTarget s) := by simp
  exact h .live (by decide)

theorem brightAtBeat_sceneDue (s : State) : (brightAtBeat s).live.sceneDue = s.live.sceneDue := by
  unfold brightAtBeat
  split
  · rfl
  · simp [apply_ite State.live, moveTarget_live, ownBright_live]

theorem targetsAtBeat_live (k : Nat) (s : State) : (targetsAtBeat k s).live = s.live := by
  have h : Only [.bri] s (targetsAtBeat k s) := by simp
  exact h .live (by decide)

/-- The straps and pins taken up at beat k. -/
def pinsOfBeat (k : Nat) (s : State) : State := pinsAtBeat (targetsAtBeat k (brightAtBeat (handScene s)))

theorem pinsOfBeat_dues (k : Nat) (s : State) :
    (pinsOfBeat k s).live.sceneDue = none ∧ (pinsOfBeat k s).live.identDue = none :=
  ⟨by simp [pinsOfBeat, pinsAtBeat, targetsAtBeat_live, brightAtBeat_sceneDue, handScene_sceneDue], rfl⟩

theorem dutiesAtBeat_live (k : Nat) (s : State) : (dutiesAtBeat k s).live = (pinsOfBeat k s).live := by
  have h : Only [.standby, .test, .keys, .flt, .ldg, .status, .net, .sv, .disc, .scene, .mem, .adm, .weft, .aud, .bea]
      (pinsOfBeat k s) (dutiesAtBeat k s) := by simp [dutiesAtBeat, pinsOfBeat]
  exact h .live (by decide)

theorem swapKeys_swapDue (s : State) : (swapKeys s).keys.swapDue = none := by
  unfold swapKeys
  split
  case h_1 h => exact h
  case h_2 h =>
    generalize hu : rederive (modKeys (fun z => { z with swapDue := none }) s) = u
    have hdue : u.keys.swapDue = none := by rw [← hu]; rfl
    dsimp only
    split
    · have h : Only [.ldg] u (takeLogKey u) := by simp
      exact (congrArg Keys.swapDue (h .keys (by decide))).trans hdue
    · have h : Only [.flt, .ldg, .status, .net, .sv, .disc, .mem, .weft, .aud, .bea] u
          (newLog (reloadWear (emptyRings (startInit u)))) := by simp
      exact (congrArg Keys.swapDue (h .keys (by decide))).trans hdue

theorem joinAll_keys (l : List Ip4) (s : State) : (joinAll l s).keys = s.keys := by
  have h : Only [.net] s (joinAll l s) := by simp
  exact h .keys (by decide)

theorem leaveAll_keys (l : List Ip4) (s : State) : (leaveAll l s).keys = s.keys := by
  have h : Only [.net] s (leaveAll l s) := by simp
  exact h .keys (by decide)

theorem syncMarkKeys_swapDue (s : State) : (syncMarkKeys s).keys.swapDue = s.keys.swapDue := rfl

theorem syncGroups_swapDue (s : State) : (syncGroups s).keys.swapDue = s.keys.swapDue := by
  simp [syncGroups, syncMarkKeys_swapDue, joinAll_keys, leaveAll_keys]

theorem overloadFaults_keys (own agreed : List (WState × Reason)) (wins : List Win) (s : State) :
    (overloadFaults own agreed wins s).keys = s.keys := by
  have h : Only [.flt, .status, .net, .sv, .disc, .weft, .bea] s (overloadFaults own agreed wins s) := by simp
  exact h .keys (by decide)

theorem noteFormats_keys (wins : List Win) (s : State) : (noteFormats wins s).keys = s.keys := by
  have h : Only [.flt, .status, .net, .sv, .disc, .weft, .bea] s (noteFormats wins s) := by simp
  exact h .keys (by decide)

theorem applyCommit_swapDue (k : Nat) (p : Prepared) (beat : BitVec 32) (agreed : List (WState × Reason)) (s : State) :
    (applyCommit k p beat agreed s).keys.swapDue = s.keys.swapDue := by
  simp [applyCommit, overloadFaults_keys, noteFormats_keys, syncGroups_swapDue]

theorem commitAtBeat_swapDue (k : Nat) (s : State) : (commitAtBeat k s).keys.swapDue = s.keys.swapDue := by
  unfold commitAtBeat
  split
  case h_2 => rfl
  case h_1 p _ =>
    split
    case h_2 => rfl
    case h_1 beat l _ =>
      simp only [apply_ite State.keys, apply_ite Keys.swapDue, applyCommit_swapDue, ite_self]

theorem changePasses_keys (k : Nat) (s : State) : (changePasses k s).keys = s.keys := by
  have h : Only [.scene] s (changePasses k s) := by simp
  exact h .keys (by decide)

theorem swapShown_keys (w : Option Swap) (s : State) : (swapShown w s).keys = s.keys := by
  have h : Only [.scene] s (swapShown w s) := by simp
  exact h .keys (by decide)

theorem dutiesAtBeat_swapDue (k : Nat) (s : State) : (dutiesAtBeat k s).keys.swapDue = none := by
  simp [dutiesAtBeat, swapShown_keys, changePasses_keys, commitAtBeat_swapDue, swapKeys_swapDue]

theorem dutiesAtBeat_time (k : Nat) (s : State) : (dutiesAtBeat k s).time = s.time := by
  have h : Only [.live, .standby, .test, .keys, .flt, .ldg, .status, .net, .sv, .disc, .scene, .mem, .adm, .weft, .bri, .aud, .bea]
      s (dutiesAtBeat k s) := by simp
  exact h .time (by decide)

theorem startSuite_live (s : State) : (startSuite s).live = s.live := by
  have h : Only [.test] s (startSuite s) := by simp
  exact h .live (by decide)

theorem releaseHeld_dues (s : State) : (releaseHeld s).live.sceneDue = s.live.sceneDue ∧
    (releaseHeld s).live.identDue = s.live.identDue := by
  unfold releaseHeld
  dsimp only
  (repeat' split) <;> simp [startSuite_live, addResult]

theorem noteIdle_dues (s : State) : (noteIdle s).live.sceneDue = s.live.sceneDue ∧
    (noteIdle s).live.identDue = s.live.identDue := by
  unfold noteIdle
  split
  · exact releaseHeld_dues _
  · exact ⟨rfl, rfl⟩

theorem pictureAtBeat_live (prev : Option Nat) (k : Nat) (s : State) : (pictureAtBeat prev k s).live = (noteIdle s).live := by
  have h : Only [.sent, .flt, .status, .net, .sv, .disc, .scene, .mem, .adm, .weft, .bea] (noteIdle s)
      (pictureAtBeat prev k s) := by simp [pictureAtBeat]
  exact h .live (by decide)

/-! ### The beat, the refreshes and the picks (08 R366 to R368, 13 R635) -/

theorem trackNight_live (s : State) : (trackNight s).live = s.live := rfl

theorem admissionAtBeat_keeps (s : State) : Only [.adm] s (admissionAtBeat s) := by simp

/-- The state once the beat's number, its steps and its knot are done. -/
def beatCalled (flags : List LedFlag) (s : State) : State :=
  leadBeat s.time.nextBeat (timeAtBeat s.time.nextBeat (takeRead flags (emitBeat s.time.nextBeat (playDue s))))

theorem beatCalled_beat (flags : List LedFlag) (s : State) : (beatCalled flags s).time.beat = some s.time.nextBeat := by
  have h : ∀ u, (takeRead flags u).time = u.time := fun u =>
    have h : Only [.test, .flt, .status, .net, .sv, .disc, .weft, .bea] u (takeRead flags u) := by simp
    h .time (by decide)
  rw [beatCalled, leadBeat_beat, timeAtBeat_beat, h]
  rfl

/-- What the beat does with the state in which it was called. -/
def beatDone (prev : Option Nat) (k : Nat) (s : State) : State :=
  trackNight (pictureAtBeat prev k (admissionAtBeat (dutiesAtBeat k s)))

theorem beatDone_dues (prev : Option Nat) (k : Nat) (s : State) : (beatDone prev k s).live.sceneDue = none ∧
    (beatDone prev k s).live.identDue = none := by
  obtain ⟨hscene, hident⟩ := noteIdle_dues (admissionAtBeat (dutiesAtBeat k s))
  have hlive : (beatDone prev k s).live = (noteIdle (admissionAtBeat (dutiesAtBeat k s))).live :=
    (trackNight_live _).trans (pictureAtBeat_live _ _ _)
  have hadm : (admissionAtBeat (dutiesAtBeat k s)).live = (pinsOfBeat k s).live :=
    (admissionAtBeat_keeps _ .live (by decide)).trans (dutiesAtBeat_live k s)
  rw [hlive, hscene, hident, hadm]
  exact pinsOfBeat_dues k s

theorem beatDone_keeps (prev : Option Nat) (k : Nat) (s : State) :
    Only [.sent, .live, .standby, .boot, .test, .flt, .status, .net, .sv, .disc, .scene, .mem, .adm, .weft, .bea]
      (dutiesAtBeat k s) (beatDone prev k s) := by
  simp [beatDone]

theorem execReedBeat_due {flags : List LedFlag} {s : State} (h : beatDue s = true) :
    execReedBeat flags s = .next (beatDone s.time.beat s.time.nextBeat (beatCalled flags s)) :=
  if_neg (by simp [h])

/-- Settles O34: nothing that follows the beat's number moves it, each due entry is emptied where it is taken up and not filled again,
and the reversed low part takes each value once. -/
theorem beatsRefreshesAndPicks : Obligations.BeatsRefreshesAndPicks := by
  unfold Obligations.BeatsRefreshesAndPicks
  refine ⟨?early, ?beat, ?refresh, ?pick, ?units⟩
  case early =>
    intro flags s h
    change execReedBeat flags s = _
    simp [execReedBeat, h]
  case beat =>
    intro flags s h
    have hkeeps := beatDone_keeps s.time.beat s.time.nextBeat (beatCalled flags s)
    obtain ⟨hscene, hident⟩ := beatDone_dues s.time.beat s.time.nextBeat (beatCalled flags s)
    refine ⟨_, execReedBeat_due h, ?_, hscene, hident, ?_⟩
    · exact (congrArg TimeSt.beat ((hkeeps .time (by decide)).trans (dutiesAtBeat_time _ _))).trans (beatCalled_beat flags s)
    · exact (congrArg Keys.swapDue (hkeeps .keys (by decide))).trans (dutiesAtBeat_swapDue _ _)
  case refresh =>
    intro k s hbeat hrun hdom hnext htime
    change execRefreshStart s = _
    simp [execRefreshStart, hbeat, hrun, hdom, hnext, htime, modWeft, modTime]
  case pick =>
    intro k r g s hbeat hrefresh hgeom hrun hcensus hnext htime
    change execPickStart s = _
    simp [execPickStart, hbeat, hrefresh, hgeom, hrun, hcensus, hnext, htime, modWeft]
  case units => exact fun n kp v _ _ => sum_litUnits n kp v

end Sys2Proof.Machine
end

section
/-!
PROOFS. How a master is selected and lost, and the ends of the states of the servo (08 R339 to R341, R379, R383 to R385, R390,
R397, R401, Table 8.9).
-/
namespace Sys2Proof.Machine
open Sys2Proof Sys2Proof.Safety

/-! ### The best of the foreign masters (R341) -/

/-- The better of the best so far and one more. -/
def betterOf (b : Option Foreign) (f : Foreign) : Option Foreign :=
  match b with
  | none => some f
  | some x => if betterMaster f x then some f else some x

theorem betterOf_mem {b : Option Foreign} {f g : Foreign} (h : betterOf b f = some g) : g = f ∨ b = some g := by
  unfold betterOf at h
  (repeat' split at h) <;> simp_all

theorem bestMaster_eq (s : State) : bestMaster s = (s.time.masters.filter (qualified s)).foldl betterOf none := rfl

theorem foldl_betterOf_mem {l : List Foreign} {b : Option Foreign} {g : Foreign} (h : l.foldl betterOf b = some g) :
    g ∈ l ∨ b = some g := by
  induction l generalizing b with
  | nil => exact .inr h
  | cons f l ih =>
    rcases ih h with hmem | hbest
    · exact .inl (List.mem_cons_of_mem _ hmem)
    · rcases betterOf_mem hbest with rfl | hb
      · exact .inl List.mem_cons_self
      · exact .inr hb

theorem mem_masters_of_bestMaster {s : State} {b : Foreign} (h : bestMaster s = some b) : b ∈ s.time.masters :=
  (foldl_betterOf_mem h).elim List.mem_of_mem_filter nofun

theorem selectMaster_of_no_masters {s : State} (h : s.time.masters = []) : selectMaster s = s := by
  simp [selectMaster, bestMaster_eq, h]

/-! ### A master is taken (Table 8.5, R382) -/

theorem enterServo_acquire (s : State) : enterServo .acquire s =
    modTime (fun t => { freshRuns t with servo := .acquire, run200 := 0, synced := false }) s := by
  simp [enterServo, modTime]

/-- A master noted as the one measured, its first Delay_Req armed. -/
def masterNoted (f : Foreign) (s : State) : State :=
  armDelayReq (modTime (fun t => { freshMaster t with master := some ⟨f.id, f.set_, s.now, s.now⟩ }) s)

theorem takeMaster_eq (f : Foreign) (s : State) :
    takeMaster f s = if s.time.servo = .holdover then masterNoted f s else enterServo .acquire (masterNoted f s) := rfl

theorem takeMaster_keeps (f : Foreign) (s : State) : Only [.fresh, .time] s (takeMaster f s) := by
  simp [takeMaster, enterServo_acquire]

theorem takeMaster_time (f : Foreign) (s : State) : (takeMaster f s).time.masters = s.time.masters ∧
    (takeMaster f s).time.master = some ⟨f.id, f.set_, s.now, s.now⟩ := by
  rw [takeMaster_eq, enterServo_acquire]
  split <;> exact ⟨rfl, rfl⟩

theorem takeMaster_acquires {f : Foreign} {s : State} (h : s.time.servo ≠ .holdover) :
    (takeMaster f s).time.servo = .acquire ∧ (takeMaster f s).time.slavePort = none ∧
    (takeMaster f s).time.synced = false ∧ (takeMaster f s).time.acq = [] := by
  rw [takeMaster_eq, if_neg h, enterServo_acquire]
  exact ⟨rfl, rfl, rfl, rfl⟩

theorem selectMaster_of_none {s : State} (h : bestMaster s = none) : selectMaster s = s := by
  simp [selectMaster, h]

theorem selectMaster_of_new {b : Foreign} {s : State} (h : bestMaster s = some b) (hfree : s.time.master = none) :
    selectMaster s = takeMaster b s := by
  simp [selectMaster, h, hfree]

theorem selectMaster_cases (s : State) :
    selectMaster s = s ∨ ∃ b ∈ s.time.masters, selectMaster s = takeMaster b s := by
  cases hbest : bestMaster s with
  | none => exact .inl (selectMaster_of_none hbest)
  | some b =>
    have hmem := mem_masters_of_bestMaster hbest
    cases hmaster : s.time.master with
    | none => exact .inr ⟨b, hmem, selectMaster_of_new hbest hmaster⟩
    | some m =>
      by_cases hid : m.id = b.id
      · exact .inl (by simp [selectMaster, hbest, hmaster, hid])
      · exact .inr ⟨b, hmem, by simp [selectMaster, hbest, hmaster, hid]⟩

/-! ### An Announce (R341) -/

/-- The instants of the last Announces of a sender. -/
def heardBefore (id : BitVec 80) (s : State) : List Ticks :=
  match s.time.masters.find? (fun f => f.id == id) with | some f => f.heard | none => []

/-- The sender of an Announce as it is known from now on. -/
def sender (port : Port) (h : PtpHeader) (a : AnnounceSet) (s : State) : Foreign :=
  ⟨h.source, a, (s.now :: heardBefore h.source s).take 2, port⟩

/-- The state that knows the sender of an Announce. -/
def announced (port : Port) (h : PtpHeader) (a : AnnounceSet) (s : State) : State :=
  modTime (fun t => { t with
    masters := sender port h a s :: t.masters.filter (fun f => f.id != h.source)
    master := t.master.map (fun m => if m.id = h.source then { m with set_ := a, lastAnnounce := s.now } else m) }) s

theorem execAnnounce_refused {port : Port} {h : PtpHeader} {a : AnnounceSet} {s : State} (hsteps : 255 ≤ a.stepsRemoved) :
    execAnnounce port h a s = .next s := by
  simp [execAnnounce, hsteps]

theorem eq_sender_of_mem {port : Port} {h : PtpHeader} {a : AnnounceSet} {s : State} {f : Foreign}
    (hf : f ∈ (announced port h a s).time.masters) (hid : f.id = h.source) : f = sender port h a s := by
  rcases List.mem_cons.1 hf with rfl | hrest
  · rfl
  · simp [hid] at hrest

theorem master_announced {port : Port} {h : PtpHeader} {a : AnnounceSet} {s : State} {m : Master_}
    (hm : (announced port h a s).time.master = some m) (hid : m.id = h.source) : m.set_ = a ∧ m.lastAnnounce = s.now := by
  obtain ⟨m0, -, hm⟩ := Option.map_eq_some_iff.1 hm
  split at hm
  · subst hm
    exact ⟨rfl, rfl⟩
  case isFalse hne =>
    subst hm
    exact absurd hid hne

section Selected
variable {port : Port} {h : PtpHeader} {a : AnnounceSet} {s : State}

theorem masters_selected : (selectMaster (announced port h a s)).time.masters = (announced port h a s).time.masters := by
  rcases selectMaster_cases (announced port h a s) with heq | ⟨b, -, heq⟩
  · rw [heq]
  · rw [heq, (takeMaster_time b _).1]

theorem master_selected {m : Master_} (hm : (selectMaster (announced port h a s)).time.master = some m)
    (hid : m.id = h.source) : m.set_ = a ∧ m.lastAnnounce = s.now := by
  rcases selectMaster_cases (announced port h a s) with heq | ⟨b, hb, heq⟩
  · exact master_announced (heq ▸ hm) hid
  · rw [heq, (takeMaster_time b _).2] at hm
    cases hm
    exact ⟨congrArg Foreign.set_ (eq_sender_of_mem hb hid), rfl⟩

theorem selected_keeps : Only [.fresh, .time] s (selectMaster (announced port h a s)) := by
  have hann : Only [.fresh, .time] s (announced port h a s) := by simp [announced]
  rcases selectMaster_cases (announced port h a s) with heq | ⟨b, -, heq⟩
  · rwa [heq]
  · rw [heq]
    exact hann.trans (takeMaster_keeps b _)

variable (hok : ptpOk s 320 h = true) (hforward : portForwards s port = true) (hsteps : a.stepsRemoved < 255)
  (hannLo : (timeProfile s).annLo ≤ a.logAnnounce) (hannHi : a.logAnnounce ≤ (timeProfile s).annHi)
  (hsyncLo : (timeProfile s).syncLo ≤ a.logSync) (hsyncHi : a.logSync ≤ (timeProfile s).syncHi)
include hok hforward hsteps hannLo hannHi hsyncLo hsyncHi

theorem execAnnounce_taken : execAnnounce port h a s = .next (selectMaster (announced port h a s)) := by
  have hin : (255 ≤ a.stepsRemoved || a.logAnnounce < (timeProfile s).annLo || (timeProfile s).annHi < a.logAnnounce ||
      a.logSync < (timeProfile s).syncLo || (timeProfile s).syncHi < a.logSync) = false := by
    simp only [Bool.or_eq_false_iff, decide_eq_false_iff_not]
    omega
  simp only [execAnnounce, hok, hforward, hin]
  rfl

end Selected

/-- The first Announce of a sender makes it known and selects nothing. -/
theorem selectMaster_of_first {port : Port} {h : PtpHeader} {a : AnnounceSet} {s : State} (hnone : s.time.masters = [])
    (hfree : s.time.master = none) : selectMaster (announced port h a s) =
      modTime (fun t => { t with masters := [⟨h.source, a, [s.now], port⟩], master := none }) s := by
  have hann : announced port h a s =
      modTime (fun t => { t with masters := [⟨h.source, a, [s.now], port⟩], master := none }) s := by
    simp [announced, sender, heardBefore, modTime, hnone, hfree]
  rw [hann]
  refine selectMaster_of_none ?_
  simp [bestMaster_eq, qualified, modTime]

/-- The second Announce within four intervals qualifies its sender. -/
theorem bestMaster_of_second {port p0 : Port} {h : PtpHeader} {a a0 : AnnounceSet} {t0 : Ticks} {s : State}
    (hone : s.time.masters = [⟨h.source, a0, [t0], p0⟩]) (hin : s.now ≤ t0 + 4 * logTicks a.logAnnounce) :
    bestMaster (announced port h a s) = some (sender port h a s) := by
  have hmasters : (announced port h a s).time.masters = [sender port h a s] := by simp [announced, hone]
  have hheard : (sender port h a s).heard = [s.now, t0] := by simp [sender, heardBefore, hone]
  have hqual : qualified (announced port h a s) (sender port h a s) = true := by
    have hset : (sender port h a s).set_ = a := rfl
    have hnow : (announced port h a s).now = s.now := rfl
    simp [qualified, hheard, hset, hnow, hin]
  simp [bestMaster_eq, hmasters, hqual, betterOf]

/-! ### A master is lost (R385, R390) -/

/-- The state that has forgotten a master. -/
def masterForgotten (m : Master_) (s : State) : State :=
  modTime (fun t => { freshMaster t with master := none, masters := t.masters.filter (fun f => f.id != m.id) }) s

theorem loseMaster_of_track {m : Master_} {s : State} (hm : s.time.master = some m) (htrack : s.time.servo = .track) :
    loseMaster s = selectMaster (withoutMaster (masterForgotten m s)) := by
  have hservo : (masterForgotten m s).time.servo = .track := htrack
  unfold loseMaster
  rw [hm]
  exact congrArg selectMaster (if_pos (.inr hservo))

theorem withoutMaster_of_acting {s : State} (hacting : s.disc.role = .acting) (horigin : s.time.ptpOrigin = true) :
    withoutMaster s = enterFreerun s := by
  simp [withoutMaster, follower, actingLead, hacting, horigin]

/-- A tile that measures no master stays in FREERUN. -/
theorem enterFreerun_time {s : State} (hfree : s.time.master = none) : (enterFreerun s).time =
    { freshRuns s.time with y := s.time.yInt, leadHold := none, servo := .freerun, run200 := 0, synced := false } := by
  have hservo : (raise .timeNomaster 0 (enterServo .freerun (modTime (fun t => { t with y := t.yInt, leadHold := none }) s))).time =
      { freshRuns s.time with y := s.time.yInt, leadHold := none, servo := .freerun, run200 := 0, synced := false } := by
    rw [raise_time (f := .timeNomaster) _ _ (by decide), enterServo_time]
    simp [freshRuns]
  have hnone : (raise .timeNomaster 0 (enterServo .freerun
      (modTime (fun t => { t with y := t.yInt, leadHold := none }) s))).time.master.isSome = false := by
    rw [hservo]
    simp [freshRuns, hfree]
  rw [enterFreerun, hnone]
  exact hservo

theorem loseMaster_of_lone_acting {m : Master_} {s : State} (hm : s.time.master = some m) (hnone : s.time.masters = [])
    (htrack : s.time.servo = .track) (horigin : s.time.ptpOrigin = true) (hacting : s.disc.role = .acting) :
    loseMaster s = enterFreerun (masterForgotten m s) := by
  have hwithout : withoutMaster (masterForgotten m s) = enterFreerun (masterForgotten m s) :=
    withoutMaster_of_acting hacting horigin
  rw [loseMaster_of_track hm htrack, hwithout]
  refine selectMaster_of_no_masters ?_
  rw [enterFreerun_time rfl]
  exact congrArg (List.filter _) hnone

theorem execMasterLoss_unheard {m : Master_} {s : State} (hm : s.time.master = some m)
    (hold : m.lastAnnounce + 3 * logTicks m.set_.logAnnounce ≤ s.now ∨ m.lastSync + 16 * logTicks m.set_.logSync ≤ s.now) :
    execMasterLoss s = .next (loseMaster s) := by
  rcases hold with h | h <;> simp [execMasterLoss, hm, h]

/-- Settles O31: the sender of an Announce heads the known masters and is alone under its identity, whatever is selected of them. -/
theorem mastersAreSelectedAndLost : Obligations.MastersAreSelectedAndLost := by
  unfold Obligations.MastersAreSelectedAndLost
  refine ⟨?removed, ?known, ?first, ?second, ?announces, ?syncs, ?freerun, ?range, ?nomaster, ?own, ?inconsistent, ?hold⟩
  case removed => exact fun port h a s hsteps => execAnnounce_refused hsteps
  case known =>
    intro port h a s hok hforward hsteps hannLo hannHi hsyncLo hsyncHi
    refine ⟨_, execAnnounce_taken hok hforward hsteps hannLo hannHi hsyncLo hsyncHi, ⟨sender port h a s, ?_, rfl, rfl, rfl, rfl⟩,
      fun m hm hid => master_selected hm hid, selected_keeps .flt (by decide), selected_keeps .mem (by decide)⟩
    rw [masters_selected]
    exact List.mem_cons_self
  case first =>
    intro port h a s hok hforward hsteps hannLo hannHi hsyncLo hsyncHi hnone hfree
    exact (execAnnounce_taken hok hforward hsteps hannLo hannHi hsyncLo hsyncHi).trans
      (congrArg _ (selectMaster_of_first hnone hfree))
  case second =>
    intro port p0 h a a0 t0 s hok hforward hsteps hannLo hannHi hsyncLo hsyncHi hone hfree hin hlisten
    have hselect : selectMaster (announced port h a s) = takeMaster (sender port h a s) (announced port h a s) :=
      selectMaster_of_new (bestMaster_of_second hone hin) (by simp [announced, hfree])
    have hservo : (announced port h a s).time.servo ≠ .holdover := by simp [announced, hlisten]
    refine ⟨_, execAnnounce_taken hok hforward hsteps hannLo hannHi hsyncLo hsyncHi, ?_⟩
    rw [hselect]
    exact ⟨(takeMaster_time _ _).2, takeMaster_acquires hservo⟩
  case announces => exact fun m s hm h => execMasterLoss_unheard hm (.inl h)
  case syncs => exact fun m s hm h => execMasterLoss_unheard hm (.inr h)
  case freerun =>
    intro m s hm hnone htrack horigin hacting
    rw [loseMaster_of_lone_acting hm hnone htrack horigin hacting, enterFreerun_time rfl]
    exact ⟨rfl, rfl, rfl, rfl⟩
  case range => exact fun s htrack hlimit => if_pos ⟨htrack, hlimit⟩
  case nomaster =>
    intro s hrun hlisten hfree hlink
    change execTimeNomasterTimeout s = _
    simp [execTimeNomasterTimeout, listenFault, hrun, hlisten, hfree, hlink]
  case own =>
    intro theta t0 s hneed hfollower hann hlate
    change execFollowerStepTimeout s = _
    simp [execFollowerStepTimeout, hneed, hfollower, hann, hlate, modTime]
  case inconsistent => exact fun s hhold hlate hleft => if_pos ⟨hhold, hlate, by simp [hleft]⟩
  case hold => exact fun s hhold hlate => if_pos ⟨hhold, hlate⟩

end Sys2Proof.Machine
end

section
/-!
PROOFS. The offset of the Syncs and the path delay (08 R342 to R347, R385).
-/
namespace Sys2Proof.Machine
open Sys2Proof

/-! ### A Sync of the master (R342, R343) -/

/-- The state whose slave port has heard a Sync now. -/
def syncHeard (port : Port) (s : State) : State := modTime (fun t => { t with slavePort := some port, slaveHeard := s.now }) s

theorem slaveTakes_own {port : Port} {s : State} (m : Master_)
    (hport : s.time.slavePort = none ∨ s.time.slavePort = some port) : slaveTakes port m s = some (syncHeard port s) := by
  rcases hport with hport | hport <;> simp [slaveTakes, syncHeard, modTime, hport]

theorem slaveTakes_other {port q : Port} {m : Master_} {s : State} (hport : s.time.slavePort = some q) (hne : port ≠ q)
    (hsoon : s.now < s.time.slaveHeard + logTicks m.set_.logSync) : slaveTakes port m s = none := by
  simp [slaveTakes, hport, hne, hsoon]

section Master
variable {port : Port} {h : PtpHeader} {origin : PtpTime} {m : Master_} {s : State}
  (hm : s.time.master = some m) (hid : m.id = h.source)
include hm hid

theorem execSync_uncounted {two : Bool} (hok : ptpOk s 319 h = true) (hforward : portForwards s port = true)
    (htakes : slaveTakes port m s = none) : execSync port h two origin s = .next (countUp ctOffPort 1 s) := by
  simp [execSync, hm, hid, hok, hforward, htakes]

theorem execSync_twoStep {u : State} (hok : ptpOk s 319 h = true) (hforward : portForwards s port = true)
    (htakes : slaveTakes port m s = some u) : execSync port h true origin s = .next (modTime (fun t => { t with
      pend := ⟨h.seq, counterOf u - rxLatencyF u port, h.correction, u.now⟩ :: t.pend.filter (fun p => p.seq != h.seq) }) u) := by
  simp [execSync, hm, hid, hok, hforward, htakes]

theorem execSync_oneStep {u : State} (hok : ptpOk s 319 h = true) (hforward : portForwards s port = true)
    (htakes : slaveTakes port m s = some u) : execSync port h false origin s =
      .next (usableSync (ptpF origin) (counterOf u - rxLatencyF u port) (corrF h.correction) u) := by
  simp [execSync, hm, hid, hok, hforward, htakes]

theorem execFollowUp_found {p : PendSync} (hok : ptpOk s 320 h = true)
    (hfind : s.time.pend.find? (fun x => x.seq == h.seq && decide (s.now ≤ x.at_ + 2 * logTicks m.set_.logSync)) = some p) :
    execFollowUp h origin s = .next (usableSync (ptpF origin) p.t2 (corrF (p.corr + h.correction))
      (modTime (fun t => { t with pend := t.pend.filter (fun x => x.seq != h.seq) }) s)) := by
  simp [execFollowUp, hm, hid, hok, hfind]

theorem execDelayResp_found {requester : BitVec 80} {received : PtpTime} {logInterval : Int} {q : Nat} {t3 v : Int}
    (hok : ptpOk s 320 h = true) (hreq : requester = Config.portIdentity (serialOf s).toNat)
    (hfind : s.time.delayOut.find? (fun x => x.1 == h.seq) = some (q, some t3, some v)) :
    execDelayResp h requester received logInterval s =
      .next (takeDelay ((v + (ptpF received - t3 - corrF h.correction)) / 2) (modTime (fun t => { t with
        unanswered := 0, delayLog := some logInterval, delayOut := t.delayOut.filter (fun x => x.1 != q) }) s)) := by
  simp [execDelayResp, hm, hid, hok, hreq, hfind]

end Master

/-! ### A usable Sync in TRACK (R345, R347) -/

/-- The state that has noted the measurement of a Sync. -/
def syncMeasured (tms t2 : Int) (s : State) : State :=
  modTime (fun t => { t with
    lastTms := some tms, lastT2 := some t2, master := t.master.map (fun m => { m with lastSync := s.now }) }) s

theorem usableSync_of_track {t1 t2 c : Int} {s : State} (htrack : s.time.servo = .track) (hhold : s.time.portHold = none)
    (hset : s.time.delayMeanSet = true) : ∃ tau, usableSync t1 t2 c s =
      trackSync (t2 - t1 - c - s.time.delayMean) tau (syncMeasured (t2 - t1 - c) t2 s) := by
  simp only [usableSync, modTime_time, htrack, hhold, hset]
  exact ⟨_, rfl⟩

theorem loopUpdate_keeps (off tau : Int) (kp ki : Rat) (s : State) :
    (loopUpdate off tau kp ki s).time.theta = s.time.theta ∧ (loopUpdate off tau kp ki s).time.lastTms = s.time.lastTms := by
  unfold loopUpdate
  split <;> exact ⟨rfl, rfl⟩

/-- Short of the sixteenth large offset a Sync in TRACK notes its offset and steers. -/
theorem trackSync_time {theta : Int} (tau : Int) {s : State} (hrun : s.time.runMilli < 15) :
    (trackSync theta tau s).time.theta = theta ∧ (trackSync theta tau s).time.lastTms = s.time.lastTms := by
  have hfew : ¬16 ≤ (countSync theta s.time).runMilli := by
    unfold countSync
    dsimp only
    split <;> omega
  have hkeep : (syncCounted theta s).time.theta = theta ∧ (syncCounted theta s).time.lastTms = s.time.lastTms := by
    simp [countSync]
  rw [trackSync_eq, if_neg (by simp [hfew])]
  split
  · exact hkeep
  · rw [(loopUpdate_keeps ..).1, (loopUpdate_keeps ..).2]
    exact hkeep

/-! ### Delay_Req and the filter of the path delay (R343 to R346) -/

theorem originFrame_time (s : State) (p : Port) (k : Klass) (len : Nat) (launch : BitVec 32) (o : Orig) :
    (originFrame s p k len launch o).time = s.time := by
  have h : Only [.net] s (originFrame s p k len launch o) := by simp
  exact h .time (by decide)

theorem sendDelayReq_time (p : Port) (s : State) : (sendDelayReq p s).time = { s.time with
    delaySeq := (s.time.delaySeq + 1) % 65536, unanswered := s.time.unanswered + 1
    delayOut := (((s.time.delaySeq + 1) % 65536, none, s.time.lastTms) :: s.time.delayOut).take 16 } :=
  originFrame_time ..

section Due
variable {m : Master_} {s : State} (hrun : netRuns s = true) (hm : s.time.master = some m)
  (hdue : dueBy s.now s.time.nextDelayReq = true)
include hrun hm hdue

theorem execDelayReq_sent {p : Port} (hfew : s.time.unanswered < 16) (hport : s.time.slavePort = some p)
    (hup : portUp s p = true) : execDelayReq s = .next (armDelayReq (sendDelayReq p s)) := by
  simp [execDelayReq, hrun, hm, hdue, Nat.not_le.2 hfew, hport, hup]

theorem execDelayReq_unanswered (hmany : 16 ≤ s.time.unanswered) : execDelayReq s = .next (loseMaster s) := by
  simp [execDelayReq, hrun, hm, hdue, hmany]

end Due

theorem timeProfile_filter_pos (s : State) : 0 < (timeProfile s).filter := by
  unfold timeProfile
  split <;> decide

theorem tryAcquire_of_not_acquire {s : State} (h : s.time.servo ≠ .acquire) : tryAcquire s = s := if_neg fun hq => h hq.1

theorem takeDelay_first {d : Int} {s : State} (hempty : s.time.dFilter = []) (hservo : s.time.servo ≠ .acquire) :
    (takeDelay d s).time.delayMeanSet = true ∧ (takeDelay d s).time.delayMean = d ∧ (takeDelay d s).time.dFilter = [d] := by
  obtain ⟨n, hn⟩ := Nat.exists_eq_succ_of_ne_zero (timeProfile_filter_pos s).ne'
  unfold takeDelay
  rw [if_neg (by simp [hempty])]
  dsimp only
  rw [tryAcquire_of_not_acquire]
  · simp [hempty, hn, sumInt]
  · exact hservo

/-- Settles O32: a Sync of the master is used once the slave port takes it, and short of the sixteenth large offset TRACK keeps what it
gave. -/
theorem offsetAndDelayAreMeasured : Obligations.OffsetAndDelayAreMeasured := by
  unfold Obligations.OffsetAndDelayAreMeasured
  refine ⟨?twoStep, ?oneStep, ?other, ?followUp, ?measured, ?timeout, ?send, ?lose, ?sent, ?response, ?filter⟩
  case twoStep =>
    intro port h origin m s hm hid hok hforward hport
    exact execSync_twoStep hm hid hok hforward (slaveTakes_own m hport)
  case oneStep =>
    intro port h origin m s hm hid hok hforward hport
    exact execSync_oneStep hm hid hok hforward (slaveTakes_own m hport)
  case other =>
    intro port q h two origin m s hm hid hok hforward hport hne hsoon
    exact execSync_uncounted hm hid hok hforward (slaveTakes_other hport hne hsoon)
  case followUp => exact fun h origin m p s hm hid hok hfind => execFollowUp_found hm hid hok hfind
  case measured =>
    intro t1 t2 c s htrack hhold hset hrun
    obtain ⟨tau, hsync⟩ := usableSync_of_track (t1 := t1) (t2 := t2) (c := c) htrack hhold hset
    have hrun : (syncMeasured (t2 - t1 - c) t2 s).time.runMilli < 15 := hrun
    obtain ⟨htheta, htms⟩ := trackSync_time (theta := t2 - t1 - c - s.time.delayMean) tau hrun
    rw [hsync]
    exact ⟨htms, htheta⟩
  case timeout =>
    intro m s hm
    change execFollowUpTimeout s = _
    simp [execFollowUpTimeout, hm]
  case send => exact fun p m s hrun hm hdue hfew hport hup => execDelayReq_sent hrun hm hdue hfew hport hup
  case lose => exact fun m s hrun hm hdue hmany => execDelayReq_unanswered hrun hm hdue hmany
  case sent =>
    intro p s
    rw [sendDelayReq_time]
    exact ⟨rfl, rfl⟩
  case response =>
    intro h requester received logInterval m q t3 v s hm hok hid hreq hfind
    exact execDelayResp_found hm hid hok hreq hfind
  case filter => exact fun d s hempty hservo => takeDelay_first hempty hservo

end Sys2Proof.Machine
end

section
/-!
PROOFS. Numbers as bytes in network order (00 R7): what a field reads of bytes that were built from fields.
-/
namespace Sys2Proof.Machine
open Sys2Proof

/-! ### A number and its bytes -/

@[simp] theorem beBytes_length (n v : Nat) : (beBytes n v).length = n := by
  induction n with
  | zero => rfl
  | succ n ih => simp [beBytes, ih]

@[simp] theorem beInt_length (n : Nat) (v : Int) : (beInt n v).length = n := beBytes_length n _

theorem foldl_beNat (l : List Byte) (a : Nat) :
    l.foldl (fun x b => x * 256 + b.toNat) a = a * 256 ^ l.length + beNat l := by
  induction l generalizing a with
  | nil => simp [beNat]
  | cons b l ih =>
    have hb : beNat (b :: l) = b.toNat * 256 ^ l.length + beNat l := by simp [beNat, ih b.toNat]
    rw [List.foldl_cons, ih, hb, List.length_cons, pow_succ]
    ring

theorem beNat_cons (b : Byte) (l : List Byte) : beNat (b :: l) = b.toNat * 256 ^ l.length + beNat l := by
  simp [beNat, foldl_beNat l b.toNat]

theorem beNat_beBytes (n v : Nat) : beNat (beBytes n v) = v % 256 ^ n := by
  induction n with
  | zero => simp [beBytes, beNat, Nat.mod_one]
  | succ n ih =>
    rw [beBytes, beNat_cons, ih, beBytes_length, BitVec.toNat_ofNat, Nat.mod_pow_succ (b := 256), add_comm, mul_comm]

theorem beNat_beBytes_of_lt {n v : Nat} (h : v < 256 ^ n) : beNat (beBytes n v) = v := by
  rw [beNat_beBytes, Nat.mod_eq_of_lt h]

theorem ofNat_toNat_mod {w n : Nat} (v : BitVec w) (h : n = 2 ^ w) : BitVec.ofNat w (v.toNat % n) = v := by
  rw [h, Nat.mod_eq_of_lt v.isLt, BitVec.ofNat_toNat, BitVec.setWidth_eq]

/-- Two's complement reads back what it holds. -/
theorem beSigned_beInt {n : Nat} {v : Int} (hlow : -(256 ^ n : Nat) ≤ 2 * v) (hhigh : 2 * v < (256 ^ n : Nat)) :
    beSigned (beInt n v) = v := by
  have hpos : 0 < 256 ^ n := by positivity
  have hread : beNat (beInt n v) = (v % (256 ^ n : Nat)).toNat :=
    beNat_beBytes_of_lt (by have := Int.emod_lt_of_pos v (b := (256 ^ n : Nat)) (by omega); omega)
  unfold beSigned
  dsimp only
  rw [hread, beInt_length]
  generalize 256 ^ n = m at *
  by_cases hv : 0 ≤ v
  · have hmod : v % m = v := Int.emod_eq_of_lt hv (by omega)
    rw [hmod, if_pos (by omega)]
    omega
  · have hmod : v % m = v + m := by
      rw [← Int.add_emod_right, Int.emod_eq_of_lt (by omega) (by omega)]
    rw [hmod, if_neg (by omega)]
    omega

/-! ### Fields of bytes put together -/

theorem byteAt_eq_fieldAt (l : List Byte) (o : Nat) : byteAt l o = fieldAt l o 1 := by
  unfold byteAt fieldAt slice
  by_cases h : o < l.length
  · rw [List.drop_eq_getElem_cons h, List.take_succ_cons, List.take_zero, beNat_cons]
    simp [beNat, List.getD_eq_getElem?_getD, List.getElem?_eq_getElem h]
  · simp [List.drop_eq_nil_of_le (not_lt.1 h), beNat, List.getD_eq_getElem?_getD, List.getElem?_eq_none (not_lt.1 h)]

theorem slice_append_right {l m : List Byte} {o n : Nat} (h : l.length ≤ o) :
    slice (l ++ m) o n = slice m (o - l.length) n := by
  simp [slice, List.drop_append, List.drop_eq_nil_of_le h]

theorem slice_append_left {l m : List Byte} {o n : Nat} (h : o + n ≤ l.length) : slice (l ++ m) o n = slice l o n := by
  unfold slice
  rw [List.drop_append_of_le_length (by omega), List.take_append_of_le_length (by simp; omega)]

theorem slice_self {l : List Byte} {n : Nat} (h : l.length = n) : slice l 0 n = l := by simp [slice, ← h]

/-- A field beyond the first number is one of the bytes after it. -/
@[simp] theorem slice_beBytes_append_right {k v : Nat} {m : List Byte} {o n : Nat} (h : k ≤ o) :
    slice (beBytes k v ++ m) o n = slice m (o - k) n := by
  rw [slice_append_right (by simpa using h), beBytes_length]

@[simp] theorem slice_beBytes_append_self (n v : Nat) (m : List Byte) : slice (beBytes n v ++ m) 0 n = beBytes n v := by
  rw [slice_append_left (by simp), slice_self (by simp)]

@[simp] theorem slice_beBytes_self (n v : Nat) : slice (beBytes n v) 0 n = beBytes n v := slice_self (by simp)

@[simp] theorem slice_beInt_append_right {k : Nat} {v : Int} {m : List Byte} {o n : Nat} (h : k ≤ o) :
    slice (beInt k v ++ m) o n = slice m (o - k) n := slice_beBytes_append_right h

@[simp] theorem slice_beInt_append_self (n : Nat) (v : Int) (m : List Byte) : slice (beInt n v ++ m) 0 n = beInt n v :=
  slice_beBytes_append_self n _ m

@[simp] theorem slice_beInt_self (n : Nat) (v : Int) : slice (beInt n v) 0 n = beInt n v := slice_beBytes_self n _

/-- A field within the i-th of pieces of one length. -/
theorem slice_flatMap {α : Type} {f : α → List Byte} {k : Nat} (hf : ∀ x, (f x).length = k) {l : List α} {i : Nat}
    (hi : i < l.length) {o n : Nat} (ho : o + n ≤ k) : slice (l.flatMap f) (k * i + o) n = slice (f l[i]) o n := by
  induction l generalizing i with
  | nil => simp at hi
  | cons x l ih =>
    rw [List.flatMap_cons]
    cases i with
    | zero => rw [mul_zero, zero_add, slice_append_left (by rw [hf]; exact ho)]; rfl
    | succ i =>
      rw [slice_append_right (by rw [hf, Nat.mul_succ]; omega), hf, Nat.mul_succ,
        show k * i + k + o - k = k * i + o by omega, ih (by simpa using hi)]
      rfl

end Sys2Proof.Machine
end

section
/-!
PROOFS. Knots and guard frames as bytes (09 R416, R419, R420, R422, Tables 9.2 to 9.4; 07 Table 7.4): the header, the CRC and the body of
a knot that was built, then each type's body and the statement.
-/
namespace Sys2Proof.Machine
open Sys2Proof

/-! ### The frame of a knot (Table 9.2) -/

/-- The target of `k:BRIGHT` alone decides a route. -/
theorem knotRoute_of_ne_bright {t : KnotType} (ht : t ≠ .bright) (a b : Bool) : knotRoute t a = knotRoute t b := by
  cases t <;> simp_all [knotRoute]


/-- The 20 bytes before the body, with the body's length. -/
def headBytes (t : KnotType) (target : Bool) (h : Head) (n : Nat) : List Byte :=
  beBytes 1 (knotCode t) ++ (beBytes 1 1 ++ (beBytes 2 (24 + n) ++ (beBytes 1 h.wall ++ (beBytes 1 (64 * knotRoute t target) ++
    (beBytes 1 h.hops ++ (beBytes 1 0 ++ (beBytes 8 h.orig.toNat ++ beBytes 4 h.seqNo.toNat)))))))

theorem headBytes_length (t : KnotType) (target : Bool) (h : Head) (n : Nat) : (headBytes t target h n).length = 20 := by
  simp [headBytes]

theorem encodeKnot_eq (t : KnotType) (target : Bool) (h : Head) (body : List Byte) :
    encodeKnot t target h body = withCrc (headBytes t target h body.length ++ body) := by
  simp only [encodeKnot, withCrc, headBytes, List.append_assoc]

section Frame
variable (t : KnotType) (target : Bool) (h : Head) (body : List Byte)

@[simp] theorem encodeKnot_length : (encodeKnot t target h body).length = 24 + body.length := by
  simp [encodeKnot_eq, withCrc, headBytes_length]
  omega

theorem slice_encodeKnot_head {o n : Nat} (ho : o + n ≤ 20) :
    slice (encodeKnot t target h body) o n = slice (headBytes t target h body.length) o n := by
  rw [encodeKnot_eq, withCrc, List.append_assoc, slice_append_left (by rw [headBytes_length]; exact ho)]

theorem slice_encodeKnot_body {o n : Nat} (hlow : 20 ≤ o) (hhigh : o - 20 + n ≤ body.length) :
    slice (encodeKnot t target h body) o n = slice body (o - 20) n := by
  rw [encodeKnot_eq, withCrc, List.append_assoc, slice_append_right (by rw [headBytes_length]; exact hlow), headBytes_length,
    slice_append_left hhigh]

theorem byteAt_encodeKnot_body {o : Nat} (hlow : 20 ≤ o) (hhigh : o - 20 < body.length) :
    byteAt (encodeKnot t target h body) o = byteAt body (o - 20) := by
  rw [byteAt_eq_fieldAt, byteAt_eq_fieldAt, fieldAt, fieldAt, slice_encodeKnot_body t target h body hlow (by omega)]

/-- A field of the header reads the number put there. -/
theorem encodeKnot_header :
    byteAt (encodeKnot t target h body) 0 = knotCode t ∧ byteAt (encodeKnot t target h body) 1 = 1 ∧
    fieldAt (encodeKnot t target h body) 2 2 = (24 + body.length) % 65536 ∧
    byteAt (encodeKnot t target h body) 4 = h.wall % 256 ∧
    byteAt (encodeKnot t target h body) 5 = 64 * knotRoute t target ∧ byteAt (encodeKnot t target h body) 6 = h.hops % 256 ∧
    fieldAt (encodeKnot t target h body) 8 8 = h.orig.toNat ∧ fieldAt (encodeKnot t target h body) 16 4 = h.seqNo.toNat := by
  have hcode : knotCode t < 256 := by cases t <;> decide
  have hroute : 64 * knotRoute t target < 256 := by cases t <;> cases target <;> decide
  simp [byteAt_eq_fieldAt, fieldAt, slice_encodeKnot_head, headBytes, beNat_beBytes, Nat.mod_eq_of_lt hcode,
    Nat.mod_eq_of_lt hroute, Nat.mod_eq_of_lt h.orig.isLt, Nat.mod_eq_of_lt h.seqNo.isLt]

theorem crcOk_encodeKnot : crcOk (encodeKnot t target h body) = true := by
  rw [encodeKnot_eq]
  generalize headBytes t target h body.length ++ body = front
  simp only [crcOk, withCrc, List.length_append, beBytes_length, Nat.add_sub_cancel, List.take_left', fieldAt,
    slice_append_right (le_refl _), Nat.sub_self, slice_beBytes_self, beq_iff_eq]
  rw [beNat_beBytes_of_lt (crc32 front).isLt]

variable {t target h body}

theorem headOf_encodeKnot (hwall : h.wall < 256) (hhops : h.hops < 256) : headOf (encodeKnot t target h body) = h := by
  obtain ⟨-, -, -, h4, -, h6, h8, h16⟩ := encodeKnot_header t target h body
  simp only [headOf, h4, h6, h8, h16, Nat.mod_eq_of_lt hwall, Nat.mod_eq_of_lt hhops, BitVec.ofNat_toNat, BitVec.setWidth_eq]

/-- A knot whose body has the length of its type, and of `k:BRIGHT` the kind of its route, passes (R416, R420). -/
theorem knotFormOk_encodeKnot (hmax : body.length ≤ 488) (hlen : knotLength t (encodeKnot t target h body) = 24 + body.length)
    (hroute : knotRoute t (byteAt (encodeKnot t target h body) 20 == 1) = knotRoute t target) :
    knotFormOk t (encodeKnot t target h body) = true := by
  obtain ⟨h0, -, h2, -, h5, -, -, -⟩ := encodeKnot_header t target h body
  have hfield : (24 + body.length) % 65536 = 24 + body.length := Nat.mod_eq_of_lt (by omega)
  simp only [knotFormOk, knotSized, crcOk_encodeKnot, hlen, hroute, h0, h2, h5, hfield, encodeKnot_length]
  simp
  omega

/-- Such a knot is taken with its header, unless a field of its body holds a reserved value. -/
theorem readKnot_encodeKnot (hwall : h.wall < 256) (hhops : h.hops < 256) (hmax : body.length ≤ 488)
    (hlen : knotLength t (encodeKnot t target h body) = 24 + body.length)
    (hroute : knotRoute t (byteAt (encodeKnot t target h body) 20 == 1) = knotRoute t target) :
    readKnot t (encodeKnot t target h body) = if bodyOk t (encodeKnot t target h body) then some h else none := by
  simp only [readKnot, knotOk, knotFormOk_encodeKnot hmax hlen hroute, Bool.true_and, headOf_encodeKnot hwall hhops]

theorem version_encodeKnot : byteAt (encodeKnot t target h body) 1 = 1 := (encodeKnot_header t target h body).2.1

end Frame

/-! ### The bodies (Table 9.4) -/

theorem bitAt_flag_mod (b : Bool) : bitAt (flag b 7 % 256) 7 = b := by cases b <;> rfl

section Bodies
variable (t : KnotType) (target : Bool) (h : Head)

theorem posBytes_length (b : PosBody) : (posBytes b).length = 16 := by simp [posBytes]
theorem beatBytes_length (b : BeatBody) : (beatBytes b).length = 44 := by simp [beatBytes]
theorem prepareBytes_length (b : PrepareBody) : (prepareBytes b).length = 12 := by simp [prepareBytes]
theorem brightBytes_length (b : BrightBody) : (brightBytes b).length = 12 := by simp [brightBytes]
theorem faultBytes_length (b : FaultBody) : (faultBytes b).length = 12 := by simp [faultBytes]
theorem censusBytes_length (b : CensusBody) : (censusBytes b).length = 12 := by simp [censusBytes]

theorem readPos_encodeKnot {b : PosBody} (hhops : b.hops < 65536) (hrow : -32768 ≤ b.row ∧ b.row < 32768)
    (hcol : -32768 ≤ b.col ∧ b.col < 32768) : readPos (encodeKnot t target h (posBytes b)) = b := by
  have hr : beSigned (beInt 2 b.row) = b.row := beSigned_beInt (by norm_num; omega) (by norm_num; omega)
  have hc : beSigned (beInt 2 b.col) = b.col := beSigned_beInt (by norm_num; omega) (by norm_num; omega)
  simp [readPos, byteAt_eq_fieldAt, fieldAt, signedAt, slice_encodeKnot_body,
    posBytes, ofNat_toNat_mod, beNat_beBytes, hr, hc, bitAt_flag_mod, Nat.mod_eq_of_lt hhops]

theorem readBeat_encodeKnot {b : BeatBody} (hservo : b.servo < 8) (hrefresh : b.refresh < 256) (hsec : b.sec < 2 ^ 48)
    (hns : b.ns < 2 ^ 32) (hfrac : b.frac < 65536) (hdelay : -(2 ^ 63) ≤ b.delay ∧ b.delay < 2 ^ 63)
    (hstep : -(2 ^ 63) ≤ b.stepNs ∧ b.stepNs < 2 ^ 63) : readBeat (encodeKnot t target h (beatBytes b)) = b := by
  have hd : beSigned (beInt 8 b.delay) = b.delay := beSigned_beInt (by norm_num; omega) (by norm_num; omega)
  have hs : beSigned (beInt 8 b.stepNs) = b.stepNs := beSigned_beInt (by norm_num; omega) (by norm_num; omega)
  have hptp : bitAt ((flag b.ptp 7 + b.servo) % 256) 7 = b.ptp := by
    cases b.ptp <;> simp [bitAt, flag] <;> omega
  have hserv : (flag b.ptp 7 + b.servo) % 8 = b.servo := by
    cases b.ptp <;> simp [flag] <;> omega
  simp [readBeat, byteAt_eq_fieldAt, fieldAt, signedAt, slice_encodeKnot_body,
    beatBytes, ofNat_toNat_mod, beNat_beBytes_of_lt (n := 6) hsec, beNat_beBytes_of_lt (n := 4) hns,
    beNat_beBytes, hd, hs, hptp, hserv, bitAt_flag_mod, Nat.mod_eq_of_lt hrefresh, Nat.mod_eq_of_lt hfrac]

theorem readPrepare_encodeKnot {b : PrepareBody} (hscene : b.scene < 256) (htable : b.table < 256) (hofs : b.ofs < 256) :
    readPrepare (encodeKnot t target h (prepareBytes b)) = b := by
  simp [readPrepare, byteAt_eq_fieldAt, fieldAt, slice_encodeKnot_body,
    prepareBytes, ofNat_toNat_mod, beNat_beBytes, Nat.mod_eq_of_lt hscene, Nat.mod_eq_of_lt htable, Nat.mod_eq_of_lt hofs]

theorem readBright_encodeKnot {b : BrightBody} (hvalue : b.value < 2 ^ 32) :
    byteAt (encodeKnot t target h (brightBytes b)) 20 = b2n b.target ∧
    readBright (encodeKnot t target h (brightBytes b)) = b := by
  have hkind : byteAt (encodeKnot t target h (brightBytes b)) 20 = b2n b.target := by
    simp [byteAt_eq_fieldAt, fieldAt, slice_encodeKnot_body, brightBytes_length]
    cases ht : b.target <;> simp [brightBytes, ht, beNat_beBytes, b2n]
  refine ⟨hkind, ?_⟩
  have htarget : (b2n b.target == 1) = b.target := by cases b.target <;> rfl
  simp [readBright, hkind, htarget]
  simp [byteAt_eq_fieldAt, fieldAt, slice_encodeKnot_body,
    brightBytes, ofNat_toNat_mod, beNat_beBytes_of_lt (n := 4) hvalue, beNat_beBytes, bitAt_flag_mod]

theorem readFault_encodeKnot {b : FaultBody} (hcode : b.code < 65536) (hsev : b.sev < 256) (hrow : b.row < 65536)
    (hcol : b.col < 65536) : readFault (encodeKnot t target h (faultBytes b)) = b := by
  simp [readFault, byteAt_eq_fieldAt, fieldAt, slice_encodeKnot_body,
    faultBytes, ofNat_toNat_mod, beNat_beBytes, bitAt_flag_mod, Nat.mod_eq_of_lt hcode, Nat.mod_eq_of_lt hsev, Nat.mod_eq_of_lt hrow,
    Nat.mod_eq_of_lt hcol]

theorem readCensus_encodeKnot {b : CensusBody} (hrow : -32768 ≤ b.row ∧ b.row < 32768) (hcol : -32768 ≤ b.col ∧ b.col < 32768)
    (hw : b.tileW < 65536) (hh : b.tileH < 65536) (hports : b.ports < 256) (hrole : b.role < 256) (hdrv : b.drv < 256) :
    readCensus (encodeKnot t target h (censusBytes b)) = b := by
  have hr : beSigned (beInt 2 b.row) = b.row := beSigned_beInt (by norm_num; omega) (by norm_num; omega)
  have hc : beSigned (beInt 2 b.col) = b.col := beSigned_beInt (by norm_num; omega) (by norm_num; omega)
  have hfixed : bitAt ((flag b.fixed 7 + flag b.candidate 6) % 256) 7 = b.fixed := by
    cases b.fixed <;> cases b.candidate <;> rfl
  have hcandidate : bitAt ((flag b.fixed 7 + flag b.candidate 6) % 256) 6 = b.candidate := by
    cases b.fixed <;> cases b.candidate <;> rfl
  simp [readCensus, byteAt_eq_fieldAt, fieldAt, signedAt, slice_encodeKnot_body,
    censusBytes, beNat_beBytes, hr, hc, hfixed, hcandidate, Nat.mod_eq_of_lt hw, Nat.mod_eq_of_lt hh,
    Nat.mod_eq_of_lt hports, Nat.mod_eq_of_lt hrole, Nat.mod_eq_of_lt hdrv]

/-! ### The windows of `k:COMMIT` (R422) -/

theorem statesBytes_length (l : List (Nat × Nat)) : (statesBytes l).length = 18 := by simp [statesBytes]

theorem commitBytes_length (b : CommitBody) : (commitBytes b).length = 30 := by simp [commitBytes, statesBytes_length]

theorem byteAt_statesBytes {l : List (Nat × Nat)} {i : Nat} (hi : i < 9) :
    byteAt (statesBytes l) (2 * i) = (l.getD i (0, 0)).1 % 256 ∧ byteAt (statesBytes l) (2 * i + 1) = (l.getD i (0, 0)).2 % 256 := by
  have hpiece (o : Nat) (ho : o + 1 ≤ 2) := slice_flatMap (k := 2) (l := List.range 9) (i := i) (n := 1)
    (f := fun i => beBytes 1 (l.getD i (0, 0)).1 ++ beBytes 1 (l.getD i (0, 0)).2) (fun _ => by simp) (by simpa using hi) ho
  have h0 := hpiece 0 (by decide)
  have h1 := hpiece 1 (by decide)
  simp only [byteAt_eq_fieldAt, fieldAt, statesBytes]
  rw [add_zero] at h0
  rw [h0, h1]
  simp [beNat_beBytes]

theorem byteAt_commit_states {b : CommitBody} {i j : Nat} (hi : i < 9) (hj : j < 2) :
    byteAt (encodeKnot t target h (commitBytes b)) (32 + 2 * i + j) = byteAt (statesBytes b.states) (2 * i + j) := by
  rw [byteAt_encodeKnot_body _ _ _ _ (by omega) (by rw [commitBytes_length]; omega)]
  simp only [byteAt_eq_fieldAt, fieldAt, commitBytes]
  rw [slice_append_right (by simp; omega)]
  congr 2
  simp
  omega

theorem readCommit_encodeKnot {b : CommitBody} (hn : b.n < 256) (hlen : b.states.length = 9)
    (hstates : ∀ x ∈ b.states, x.1 < 256 ∧ x.2 < 256) : readCommit (encodeKnot t target h (commitBytes b)) = b := by
  have hread : readStates (encodeKnot t target h (commitBytes b)) 32 = b.states := by
    refine List.ext_getElem (by simp [readStates, hlen]) fun i hi hi' => ?_
    have h9 : i < 9 := hlen ▸ hi'
    obtain ⟨h0, h1⟩ := byteAt_statesBytes (l := b.states) h9
    obtain ⟨hlt0, hlt1⟩ := hstates _ (List.getElem_mem hi')
    have hstate := byteAt_commit_states t target h (b := b) (j := 0) h9 (by decide)
    have hreason := byteAt_commit_states t target h (b := b) (j := 1) h9 (by decide)
    simp only [List.getD_eq_getElem _ _ hi', Nat.mod_eq_of_lt hlt0, Nat.mod_eq_of_lt hlt1] at h0 h1
    simp only [Nat.add_zero] at hstate
    simp only [readStates, List.getElem_map, List.getElem_range, Nat.add_right_comm 32 1]
    rw [hstate, hreason, h0, h1]
  simp only [readCommit, hread]
  simp [byteAt_eq_fieldAt, fieldAt, slice_encodeKnot_body,
    commitBytes, statesBytes_length, ofNat_toNat_mod, beNat_beBytes, Nat.mod_eq_of_lt hn]

end Bodies

/-! ### Bytes that a body reads, of which `bodyOk` judges (00 R13) -/

section Judged
variable {l : List Byte}

theorem bytes_of_readBeat {b : BeatBody} (hread : readBeat l = b) : byteAt l 20 % 8 = b.servo ∧ byteAt l 21 = b.refresh := by
  subst hread
  exact ⟨rfl, rfl⟩

theorem bytes_of_readPrepare {b : PrepareBody} (hread : readPrepare l = b) :
    byteAt l 24 = b.scene ∧ byteAt l 25 = b.table ∧ byteAt l 26 = b.ofs := by
  subst hread
  exact ⟨rfl, rfl, rfl⟩

theorem bytes_of_readFault {b : FaultBody} (hread : readFault l = b) : fieldAt l 20 2 = b.code ∧ byteAt l 22 = b.sev := by
  subst hread
  exact ⟨rfl, rfl⟩

theorem bytes_of_readCensus {b : CensusBody} (hread : readCensus l = b) : byteAt l 30 = b.role ∧ byteAt l 31 = b.drv := by
  subst hread
  exact ⟨rfl, rfl⟩

theorem bytes_of_readCommit {b : CommitBody} (hread : readCommit l = b) : byteAt l 28 = b.n ∧
    ∀ i < 9, (byteAt l (32 + 2 * i), byteAt l (32 + 1 + 2 * i)) ∈ b.states := by
  subst hread
  exact ⟨rfl, fun i hi => List.mem_map_of_mem (List.mem_range.2 hi)⟩

end Judged

/-! ### Guard frames (07 Table 7.4) -/

theorem bitAt_guardFlags (g : Guard) : bitAt (guardFlags g % 256) 7 = g.lead ∧ bitAt (guardFlags g % 256) 6 = g.looped ∧
    bitAt (guardFlags g % 256) 5 = g.flush := by
  unfold guardFlags
  cases g.lead <;> cases g.looped <;> cases g.flush <;> exact ⟨rfl, rfl, rfl⟩

theorem readGuard_guardBytes {src : Mac} {g : Guard} (hhops : g.hops < 65536) (hwall : g.wallId < 256) (hseq : g.seq < 65536) :
    readGuard (guardBytes src g) = some g := by
  obtain ⟨hlead, hlooped, hflush⟩ := bitAt_guardFlags g
  have hversion : ([1] : List Byte) = beBytes 1 1 := rfl
  have hdest : guardDest.toNat < 281474976710656 := by decide
  have htype : guardEtherType < 65536 := by decide
  have hport : Fin.ofNat 4 (g.port.val % 256) = g.port := by ext; simp
  simp only [readGuard, guardBytes, hversion, List.append_assoc, byteAt_eq_fieldAt, fieldAt]
  simp [-Fin.ofNat_eq_cast, beNat_beBytes, ofNat_toNat_mod, hdest, htype, hport, hlead, hlooped, hflush,
    Nat.mod_eq_of_lt hhops, Nat.mod_eq_of_lt hwall, Nat.mod_eq_of_lt hseq]

/-- Settles O39: a knot passes in its form, reads its header, and each body reads back its fields, of which `bodyOk` judges those that
may be reserved. -/
theorem knotsReadBack : Obligations.KnotsReadBack := by
  unfold Obligations.KnotsReadBack
  refine ⟨?pos, ?beat, ?prepare, ?commit, ?bright, ?fault, ?census, ?guard⟩
  case pos =>
    intro h b hwall hhops hb hrow hrow' hcol hcol'
    rw [readKnot_encodeKnot hwall hhops (by simp [posBytes_length]) (by simp [posBytes_length, knotLength])
      (knotRoute_of_ne_bright (by decide) _ _)]
    exact ⟨if_pos (by simp [bodyOk, version_encodeKnot]), readPos_encodeKnot _ _ _ hb ⟨hrow, hrow'⟩ ⟨hcol, hcol'⟩⟩
  case beat =>
    intro h b hwall hhops hservo hrefresh hsec hns hfrac hdelay hdelay' hstep hstep'
    have hread := readBeat_encodeKnot .beat true h hservo hrefresh hsec hns hfrac ⟨hdelay, hdelay'⟩ ⟨hstep, hstep'⟩
    obtain ⟨hs, hr⟩ := bytes_of_readBeat hread
    rw [readKnot_encodeKnot hwall hhops (by simp [beatBytes_length]) (by simp [beatBytes_length, knotLength])
      (knotRoute_of_ne_bright (by decide) _ _)]
    refine ⟨fun hserv hlisted => if_pos ?_, hread⟩
    simp [bodyOk, version_encodeKnot, hs, hr, hserv, hlisted]
  case prepare =>
    intro h b hwall hhops hscene htable hofs
    have hread := readPrepare_encodeKnot .prepare true h hscene htable hofs
    obtain ⟨hs, ht, ho⟩ := bytes_of_readPrepare hread
    rw [readKnot_encodeKnot hwall hhops (by simp [prepareBytes_length]) (by simp [prepareBytes_length, knotLength])
      (knotRoute_of_ne_bright (by decide) _ _)]
    refine ⟨fun hs' ht' ho' hlt hlo => if_pos ?_, fun hs' => if_neg ?_, hread⟩
    · simp [bodyOk, version_encodeKnot, hs, ht, ho, hs', ht', ho', hlt, hlo]
    · simp [bodyOk, hs, hs']
  case commit =>
    intro h b hwall hhops hn hlen hstates
    have hread := readCommit_encodeKnot .commit true h hn hlen hstates
    obtain ⟨hn', hmem⟩ := bytes_of_readCommit hread
    rw [readKnot_encodeKnot hwall hhops (by simp [commitBytes_length]) (by simp [commitBytes_length, knotLength])
      (knotRoute_of_ne_bright (by decide) _ _)]
    refine ⟨fun hlow hhigh hok => if_pos ?_, hread⟩
    have hall : ∀ i < b.n, stateByteOk true (byteAt (encodeKnot .commit true h (commitBytes b)) (32 + 2 * i)) = true ∧
        byteAt (encodeKnot .commit true h (commitBytes b)) (32 + 1 + 2 * i) ≤ 4 := fun i hi =>
      hok _ (hmem i (by omega))
    simpa [bodyOk, version_encodeKnot, hn', statesOk, hlow, hhigh] using hall
  case bright =>
    intro h b hwall hhops hvalue
    obtain ⟨hkind, hread⟩ := readBright_encodeKnot .bright b.target h hvalue
    have htarget : (b2n b.target == 1) = b.target := by cases b.target <;> rfl
    have hle : b2n b.target ≤ 1 := by cases b.target <;> decide
    rw [readKnot_encodeKnot hwall hhops (by simp [brightBytes_length]) (by simp [brightBytes_length, knotLength])
      (by rw [hkind, htarget])]
    exact ⟨if_pos (by simp [bodyOk, version_encodeKnot, hkind, hle]), hread⟩
  case fault =>
    intro h b hwall hhops hcode hsev hrow hcol
    have hread := readFault_encodeKnot .fault true h hcode hsev hrow hcol
    obtain ⟨hc, hs⟩ := bytes_of_readFault hread
    rw [readKnot_encodeKnot hwall hhops (by simp [faultBytes_length]) (by simp [faultBytes_length, knotLength])
      (knotRoute_of_ne_bright (by decide) _ _)]
    refine ⟨fun hsev' hmem => if_pos ?_, hread⟩
    simp [bodyOk, version_encodeKnot, hc, hs, hsev', hmem]
  case census =>
    intro h b hwall hhops hrow hrow' hcol hcol' hw hh hports hrole hdrv
    have hread := readCensus_encodeKnot .census false h ⟨hrow, hrow'⟩ ⟨hcol, hcol'⟩ hw hh hports hrole hdrv
    obtain ⟨hr, hd⟩ := bytes_of_readCensus hread
    rw [readKnot_encodeKnot hwall hhops (by simp [censusBytes_length]) (by simp [censusBytes_length, knotLength])
      (knotRoute_of_ne_bright (by decide) _ _)]
    refine ⟨fun hlr hld => if_pos ?_, hread⟩
    simp [bodyOk, version_encodeKnot, hr, hd, hlr, hld]
  case guard => exact fun src g hhops hwall hseq => readGuard_guardBytes hhops hwall hseq

end Sys2Proof.Machine
end

section
/-!
PROOFS. The choice among claims (09 R437, R438): the order of their keys, and a claim of least key.
-/
namespace Sys2Proof.Machine
open Sys2Proof

theorem lexLt_iff_lt (a b : List Nat) : lexLt a b = true ↔ a < b := by
  induction a generalizing b with
  | nil => cases b <;> simp [lexLt]
  | cons x a ih =>
    cases b with
    | nil => simp [lexLt]
    | cons y b =>
      rw [lexLt, List.cons_lt_cons_iff, ← ih b]
      split
      case isTrue h => simp [h]
      case isFalse h =>
        split
        case isTrue h' => simp [h, h'.ne']
        case isFalse h' => simp [show x = y by omega]

/-- A claim does not rank above another whose key is the same or less. -/
theorem betterChoice_eq_false_iff (c b : Choice) : betterChoice c b = false ↔ choiceKey b ≤ choiceKey c := by
  rw [betterChoice, ← Bool.not_eq_true, lexLt_iff_lt, not_lt]

/-- The better of the best so far and one more claim. -/
def betterOfClaims (b : Option Choice) (c : Choice) : Option Choice :=
  match b with
  | none => some c
  | some x => if betterChoice c x then some c else some x

theorem bestChoice_eq (s : State) : bestChoice s =
    if fixedPos s then ownClaim s else ((ownClaim s).toList ++ receivedChoices s).foldl betterOfClaims none := rfl

theorem foldl_betterOfClaims_least (l : List Choice) (x : Choice) : ∃ b, l.foldl betterOfClaims (some x) = some b ∧
    b ∈ x :: l ∧ ∀ c ∈ x :: l, choiceKey b ≤ choiceKey c := by
  induction l generalizing x with
  | nil => exact ⟨x, by simp⟩
  | cons y l ih =>
    by_cases hy : betterChoice y x = true
    · obtain ⟨b, hfold, hmem, hleast⟩ := ih y
      have hlt : choiceKey y < choiceKey x := (lexLt_iff_lt _ _).1 hy
      refine ⟨b, by simpa [betterOfClaims, hy] using hfold, List.mem_cons_of_mem _ hmem, fun c hc => ?_⟩
      rcases List.mem_cons.1 hc with rfl | hc
      · exact (hleast y (by simp)).trans hlt.le
      · exact hleast c hc
    · obtain ⟨b, hfold, hmem, hleast⟩ := ih x
      have hle : choiceKey x ≤ choiceKey y := (betterChoice_eq_false_iff y x).1 (by simpa using hy)
      refine ⟨b, by simpa [betterOfClaims, hy] using hfold, by simp only [List.mem_cons] at hmem ⊢; tauto, fun c hc => ?_⟩
      rcases List.mem_cons.1 hc with rfl | hc
      · exact hleast c (by simp)
      · rcases List.mem_cons.1 hc with rfl | hc
        · exact (hleast x (by simp)).trans hle
        · exact hleast c (List.mem_cons_of_mem _ hc)

/-- Settles O36: the fold over the held claims ends in one of least key. -/
theorem bestClaimIsChosen : Obligations.BestClaimIsChosen := by
  unfold Obligations.BestClaimIsChosen
  refine ⟨?fixed, ?least⟩
  case fixed =>
    intro s h
    simp [bestChoice_eq, ownClaim, h]
  case least =>
    intro c s hfixed hc
    rw [bestChoice_eq, if_neg (by simp [hfixed])]
    generalize (ownClaim s).toList ++ receivedChoices s = l at hc ⊢
    cases l with
    | nil => simp at hc
    | cons x l =>
      obtain ⟨b, hfold, hmem, hleast⟩ := foldl_betterOfClaims_least l x
      exact ⟨b, hfold, hmem, (betterChoice_eq_false_iff c b).2 (hleast c hc)⟩

end Sys2Proof.Machine
end

section
/-!
PROOFS. Links by direction, and what reports, floods and a decision of the position leave of the links and of discovery (09 R424, R426,
R428, R438, R444, R445).
-/
namespace Sys2Proof.Machine
open Sys2Proof

/-! ### One link (09 R403) -/

theorem linkOf_congr {s t : State} (h : t.sv = s.sv) (d : Dir) : linkOf t d = linkOf s d := by simp only [linkOf, h]

@[simp] theorem linkOf_modDisc (f : Disc → Disc) (s : State) (d : Dir) : linkOf (modDisc f s) d = linkOf s d := linkOf_congr rfl d

theorem linkOf_setLink (s : State) (d q : Dir) (l : Link) : linkOf (setLink s d l) q = if q = d then l else linkOf s q := by
  cases d <;> cases q <;> rfl

@[simp] theorem linkOf_modLink_self (s : State) (d : Dir) (f : Link → Link) : linkOf (modLink s d f) d = f (linkOf s d) := by
  simp [modLink, linkOf_setLink]

theorem linkOf_modLink_ne (s : State) {d q : Dir} (f : Link → Link) (h : q ≠ d) : linkOf (modLink s d f) q = linkOf s q := by
  simp [modLink, linkOf_setLink, h]

theorem modLink_modLink (s : State) (d : Dir) (f g : Link → Link) :
    modLink (modLink s d f) d g = modLink s d (fun l => g (f l)) := by
  cases d <;> rfl

/-! ### What a flood changes -/

/-- A link without its queue of knots and its neighbour's difference. -/
def Link.unqueued (l : Link) : Link := { l with queue := [], diffSince := none }

/-- Discovery without sequence numbers, the pairs seen, the fault events and the position. -/
def Disc.unflooded (x : Disc) : Disc :=
  { x with seqOut := [], seen := [], faultHeld := [], faultSent := [], wallFaults := [], position := none }

/-- Of the links, `t` differs from `s` in queues and differences at most. -/
def SameLinks (s t : State) : Prop := ∀ d, (linkOf t d).unqueued = (linkOf s d).unqueued

/-- Of links and discovery, `t` differs from `s` in what floods, reports and a decision of the position change at most. -/
def FloodsOnly (s t : State) : Prop := SameLinks s t ∧ t.disc.unflooded = s.disc.unflooded

theorem SameLinks.trans {s t u : State} (h : SameLinks s t) (k : SameLinks t u) : SameLinks s u := fun d => (k d).trans (h d)

theorem SameLinks.of_sv_eq {s t : State} (h : t.sv = s.sv) : SameLinks s t := fun d => by rw [linkOf_congr h]

theorem SameLinks.ite {s a b : State} {c : Prop} [Decidable c] (ha : SameLinks s a) (hb : SameLinks s b) :
    SameLinks s (if c then a else b) := by
  split
  · exact ha
  · exact hb

/-- An update of one link in its queue and difference alone. -/
theorem modLink_sameLinks (s : State) (d : Dir) {f : Link → Link} (hf : ∀ l, (f l).unqueued = l.unqueued) :
    SameLinks s (modLink s d f) := fun q => by
  by_cases hq : q = d
  · subst hq
    rw [linkOf_modLink_self, hf]
  · rw [linkOf_modLink_ne s f hq]

theorem SameLinks.joined {s t : State} (h : SameLinks s t) (d : Dir) : (linkOf t d).joined = (linkOf s d).joined :=
  (congrArg Link.joined (h d) :)
theorem SameLinks.claim {s t : State} (h : SameLinks s t) (d : Dir) : (linkOf t d).claim = (linkOf s d).claim :=
  (congrArg Link.claim (h d) :)
theorem SameLinks.hellos {s t : State} (h : SameLinks s t) (d : Dir) : (linkOf t d).hellos = (linkOf s d).hellos :=
  (congrArg Link.hellos (h d) :)
theorem SameLinks.locked {s t : State} (h : SameLinks s t) (d : Dir) : (linkOf t d).locked = (linkOf s d).locked :=
  (congrArg Link.locked (h d) :)
theorem SameLinks.crossed {s t : State} (h : SameLinks s t) (d : Dir) : (linkOf t d).crossed = (linkOf s d).crossed :=
  (congrArg Link.crossed (h d) :)
theorem SameLinks.unjoinedSince {s t : State} (h : SameLinks s t) (d : Dir) :
    (linkOf t d).unjoinedSince = (linkOf s d).unjoinedSince := (congrArg Link.unjoinedSince (h d) :)

theorem FloodsOnly.trans {s t u : State} (h : FloodsOnly s t) (k : FloodsOnly t u) : FloodsOnly s u :=
  ⟨h.1.trans k.1, k.2.trans h.2⟩

theorem FloodsOnly.refl (s : State) : FloodsOnly s s := ⟨fun _ => rfl, rfl⟩

theorem FloodsOnly.of_only {W : List Facet} {s t : State} (h : Only W s t) (hsv : Facet.sv ∉ W) (hdisc : Facet.disc ∉ W) :
    FloodsOnly s t := ⟨.of_sv_eq (h .sv hsv), congrArg Disc.unflooded (h .disc hdisc)⟩

theorem FloodsOnly.ite {s a b : State} {c : Prop} [Decidable c] (ha : FloodsOnly s a) (hb : FloodsOnly s b) :
    FloodsOnly s (if c then a else b) := by
  split
  · exact ha
  · exact hb

theorem FloodsOnly.role {s t : State} (h : FloodsOnly s t) : t.disc.role = s.disc.role := (congrArg Disc.role h.2 :)
theorem FloodsOnly.lead {s t : State} (h : FloodsOnly s t) : t.disc.lead = s.disc.lead := (congrArg Disc.lead h.2 :)
theorem FloodsOnly.leadHops {s t : State} (h : FloodsOnly s t) : t.disc.leadHops = s.disc.leadHops := (congrArg Disc.leadHops h.2 :)
theorem FloodsOnly.parent {s t : State} (h : FloodsOnly s t) : t.disc.parent = s.disc.parent := (congrArg Disc.parent h.2 :)
theorem FloodsOnly.results {s t : State} (h : FloodsOnly s t) : t.disc.results = s.disc.results := (congrArg Disc.results h.2 :)
theorem FloodsOnly.table {s t : State} (h : FloodsOnly s t) : t.disc.table = s.disc.table := (congrArg Disc.table h.2 :)
theorem FloodsOnly.verdict {s t : State} (h : FloodsOnly s t) : t.disc.verdict = s.disc.verdict := (congrArg Disc.verdict h.2 :)

/-! ### Floods -/

theorem modDisc_floodsOnly {f : Disc → Disc} (s : State) (hf : (f s.disc).unflooded = s.disc.unflooded) : FloodsOnly s (modDisc f s) :=
  ⟨.of_sv_eq rfl, hf⟩

theorem countUp_floodsOnly (i n : Nat) (s : State) : FloodsOnly s (countUp i n s) :=
  .of_only (W := [.status]) (by simp [countUp]) (by decide) (by decide)

theorem modLink_floodsOnly (s : State) (d : Dir) {f : Link → Link} (hf : ∀ l, (f l).unqueued = l.unqueued) :
    FloodsOnly s (modLink s d f) := ⟨modLink_sameLinks s d hf, by simp⟩

theorem queueOn_floodsOnly (s : State) (d : Dir) (q : QKnot) : FloodsOnly s (queueOn s d q) :=
  have h := modLink_floodsOnly s d (f := fun l => { l with queue := (enqueueKnot (linkOf s d).queue q).1 }) fun _ => rfl
  .ite (h.trans (countUp_floodsOnly _ _ _)) h

theorem floodKnot_floodsOnly (s : State) (except : Option Dir) (q : QKnot) : FloodsOnly s (floodKnot s except q) :=
  foldl_holds (FloodsOnly s) _ (fun t d h => h.trans (queueOn_floodsOnly t d q)) _ s (.refl s)

theorem bumpSeq_floodsOnly (s : State) (t : KnotType) : FloodsOnly s (bumpSeq s t) := modDisc_floodsOnly s rfl

theorem originFlood_floodsOnly (s : State) (t : KnotType) (body : List Byte) : FloodsOnly s (originFlood s t body) :=
  .ite ((floodKnot_floodsOnly s none _).trans (bumpSeq_floodsOnly _ t)) (.refl s)

theorem sendFaultBody_floodsOnly (s : State) (body : List Byte) : FloodsOnly s (sendFaultBody s body) :=
  ((modDisc_floodsOnly s (by simp only [Disc.unflooded])).trans (floodKnot_floodsOnly _ none _)).trans (bumpSeq_floodsOnly _ .fault)

/-! ### Reports -/

theorem originFault_floodsOnly (f : FaultName) (cleared : Bool) (s : State) : FloodsOnly s (originFault f cleared s) := by
  have hnote (w : WallFault) : FloodsOnly s (noteWallFault s w) := modDisc_floodsOnly s rfl
  unfold originFault
  exact .ite (.refl s) (.ite ((hnote _).trans (sendFaultBody_floodsOnly _ _))
    (.ite ((hnote _).trans (modDisc_floodsOnly _ rfl))
      (((hnote _).trans (modDisc_floodsOnly _ rfl)).trans (countUp_floodsOnly _ _ _))))

theorem handle_floodsOnly (q : Queued) (s : State) : FloodsOnly s (handle q s) := by
  have hring : FloodsOnly s (writeQueued q s) := .of_only (W := [.flt]) (by simp) (by decide) (by decide)
  have hrecord (t : State) : FloodsOnly t (if sevOf q.f = 0 then t else launchRecord 1 t) :=
    .ite (.refl t) (.of_only (W := [.status, .net]) (by simp) (by decide) (by decide))
  have hknot (t : State) : FloodsOnly t (if sevOf q.f = 2 then originFault q.f q.cleared t else t) :=
    .ite (originFault_floodsOnly _ _ t) (.refl t)
  have hbeacon (t : State) : FloodsOnly t (if sevOf q.f = 0 || q.cleared then t else modBea (fun z => { z with extra := [3, 0] }) t) :=
    .ite (.refl t) (.of_only (W := [.bea]) (by simp) (by decide) (by decide))
  exact ((hring.trans (hrecord _)).trans (hknot _)).trans (hbeacon _)

theorem modFlt_floodsOnly (f : Flt → Flt) (s : State) : FloodsOnly s (modFlt f s) := ⟨.of_sv_eq rfl, rfl⟩

theorem submit_floodsOnly (q : Queued) (s : State) : FloodsOnly s (submit q s) :=
  .ite (.of_only (W := [.flt]) (by simp) (by decide) (by decide))
    (.ite ((modFlt_floodsOnly _ s).trans (handle_floodsOnly q _)) (.ite (modFlt_floodsOnly _ s) (modFlt_floodsOnly _ s)))

theorem raise_floodsOnly (f : FaultName) (detail : BitVec 32) (s : State) (h3 : sevOf f ≠ 3) : FloodsOnly s (raise f detail s) := by
  have hnote : FloodsOnly s (noteRaise f (faultKey f detail) detail s) :=
    .of_only (W := [.flt, .weft]) (by simp) (by decide) (by decide)
  unfold raise
  dsimp only
  rw [if_neg h3]
  exact .ite (.refl s) (hnote.trans (submit_floodsOnly _ _))

theorem clearKey_floodsOnly (f : FaultName) (key : Nat) (s : State) : FloodsOnly s (clearKey f key s) :=
  .ite ((modFlt_floodsOnly _ s).trans (submit_floodsOnly _ _)) (.refl s)

theorem clearAll_floodsOnly (f : FaultName) (s : State) : FloodsOnly s (clearAll f s) :=
  foldl_holds (FloodsOnly s) _ (fun t k h => h.trans (clearKey_floodsOnly f k t)) _ s (.refl s)

/-! ### A decision of the position (R444, R445) and of the choice (R438) -/

theorem newPosition_floodsOnly (p : Nat × Nat) (s : State) : FloodsOnly s (newPosition p s) := by
  have hclaim (t : State) : FloodsOnly t (startPositional t) := .of_only (W := [.net]) (by simp) (by decide) (by decide)
  exact .ite (.refl s) ((modDisc_floodsOnly s rfl).trans (hclaim _))

theorem settlePosition_floodsOnly (s : State) : FloodsOnly s (settlePosition s) := by
  have hnone : FloodsOnly s (modDisc (fun d => { d with position := none }) s) := modDisc_floodsOnly s rfl
  unfold settlePosition
  split
  · exact newPosition_floodsOnly _ s
  · exact hnone.trans (raise_floodsOnly _ _ _ (by decide))
  · exact hnone

theorem compareNeighbour_floodsOnly (d : Dir) (s : State) : FloodsOnly s (compareNeighbour d s) :=
  modLink_floodsOnly s d fun _ => rfl

theorem compareAll_floodsOnly (s : State) : FloodsOnly s (compareAll s) :=
  foldl_holds (FloodsOnly s) _ (fun t d h => h.trans (compareNeighbour_floodsOnly d t)) _ s (.refl s)

theorem rechoose_sameLinks (s : State) : SameLinks s (rechoose s) := by
  have hframe : SameLinks s (if seedOf (bestChoice s) = seedOf s.disc.choice then s else dropFrame s) :=
    .ite (.of_sv_eq rfl) (.of_sv_eq rfl)
  have hchoice (f : Disc → Disc) (t : State) : SameLinks t (modDisc f t) := .of_sv_eq rfl
  exact .ite (.of_sv_eq rfl) (((hframe.trans (hchoice _ _)).trans (compareAll_floodsOnly _).1).trans (settlePosition_floodsOnly _).1)

end Sys2Proof.Machine
end

section
/-!
PROOFS. Links that lock, join, measure their delay and carry marks (09 R411, R412, R415, R430 to R435, R455, Table 9.7).
-/
namespace Sys2Proof.Machine
open Sys2Proof Sys2Proof.Safety

/-! ### Periods -/

/-- What was done last, if ever, at least `d` ago is due. -/
theorem due_of_forall {now d : Ticks} {o : Option Ticks} (h : ∀ t, o = some t → t + d ≤ now) :
    (o.isNone || passed now o d) = true := by
  cases o with
  | none => rfl
  | some t => simpa [passed] using h t rfl

/-! ### Block lock (R411, R412) -/

theorem huntHeader_last {l : Link} {h : BitVec 2} (hlocked : l.locked = false) (hvalid : validHeader h = true) (hunt : l.hunt = 63) :
    (huntHeader l h).locked = true := by simp [huntHeader, hlocked, hvalid, hunt]

theorem huntHeader_counted {l : Link} {h : BitVec 2} (hlocked : l.locked = false) (hvalid : validHeader h = true)
    (hunt : l.hunt < 63) : huntHeader l h = { l with hunt := l.hunt + 1 } := by
  simp [huntHeader, hlocked, hvalid, hunt]

theorem huntHeader_invalid {l : Link} {h : BitVec 2} (hlocked : l.locked = false) (hvalid : validHeader h = false) :
    huntHeader l h = { l with hunt := 0, offset := (l.offset + 1) % 66 } := by
  simp [huntHeader, hlocked, hvalid]

/-! ### Joining and unjoining (R430 to R432) -/

section OneLink
variable {d : Dir} {s : State}

theorem unjoinLink_of_joined {t0 : Ticks} (h : (linkOf s d).joined = some t0) :
    (linkOf (unjoinLink d s) d).joined = none ∧ (linkOf (unjoinLink d s) d).claim = none ∧
    (linkOf (unjoinLink d s) d).unjoinedSince = some s.now := by
  unfold unjoinLink
  rw [if_neg (by simp [h])]
  dsimp only
  have hsame := rechoose_sameLinks (modDisc (fun x => { x with parent := if x.parent = some d then none else x.parent, censusDue := true })
    (modLink s d (fun l => { freshLink l with joined := none, hellos := [], queue := [], unjoinedSince := some s.now })))
  exact ⟨(hsame.joined d).trans (by simp), (hsame.claim d).trans (by simp [freshLink]), (hsame.unjoinedSince d).trans (by simp)⟩

theorem unjoinLink_joined (d : Dir) (s : State) : (linkOf (unjoinLink d s) d).joined = none := by
  cases h : (linkOf s d).joined with
  | none => simp [unjoinLink, h]
  | some t0 => exact (unjoinLink_of_joined h).1

theorem joinLink_joined (d : Dir) (s : State) : (linkOf (joinLink d s) d).joined = some s.now :=
  ((rechoose_sameLinks _).joined d).trans (by simp)

/-- Lock that drops unjoins the link and raises `f:SV_ALIGN`. -/
theorem loseLock_spec (d : Dir) (s : State) : (linkOf (loseLock d s) d).locked = false ∧ (linkOf (loseLock d s) d).joined = none ∧
    (linkOf (loseLock d s) d).hellos = [] ∧ ∃ u, loseLock d s = raise .svAlign (BitVec.ofNat 32 (dirNo d)) u := by
  unfold loseLock
  dsimp only
  generalize (if (linkOf s d).rx.isSome then countUp ctKnot 1 s else s) = u
  have hsame := (raise_floodsOnly .svAlign (BitVec.ofNat 32 (dirNo d))
    (modLink (unjoinLink d u) d (fun l => { l with locked := false, hunt := 0, window := [], rx := none, hellos := [] })) (by decide)).1
  exact ⟨(hsame.locked d).trans (by simp), (hsame.joined d).trans (by simp [unjoinLink_joined]), (hsame.hellos d).trans (by simp),
    _, rfl⟩

/-! ### `k:HELLO` (R430, R434, R445) -/

/-- A matching `k:HELLO` entered on its link. -/
def helloNoted (d : Dir) (h : Hello) (s : State) : State := modLink s d (fun l => { l with
  crossed := false, partner := some h, lastHello := some s.now, hellos := (s.now :: l.hellos).take 3 })

/-- The third within 30 ms on a link not joined joins it. -/
def joinIfThird (d : Dir) (s : State) : State :=
  if (linkOf s d).joined.isNone && (linkOf s d).hellos.length == 3 && (linkOf s d).hellos.all (fun t => s.now ≤ t + msT 30)
  then joinLink d s else s

theorem takeLinkDelay_joined (x : Int) (l : Link) : (takeLinkDelay x l).joined = l.joined := by
  unfold takeLinkDelay
  split
  · split <;> rfl
  · rfl

theorem useTurnaround_joined (h : Hello) (l : Link) : (useTurnaround h l).joined = l.joined := by
  unfold useTurnaround
  split
  · split
    · exact takeLinkDelay_joined _ _
    · rfl
  · rfl

/-- What follows the join in a `k:HELLO` leaves the link as joined as it was. -/
theorem takeHello_joined (d : Dir) (h : Hello) (s : State) :
    (linkOf (takeHello d h s) d).joined = (linkOf (joinIfThird d (helloNoted d h s)) d).joined := by
  have hdelay (u : State) : (linkOf (if (linkOf u d).joined.isSome then modLink u d (useTurnaround h) else u) d).joined =
      (linkOf u d).joined := by
    split
    · rw [linkOf_modLink_self, useTurnaround_joined]
    · rfl
  have hsettle (u : State) : SameLinks u (if inconsistent u || u.disc.position.isNone then settlePosition u else u) :=
    .ite (settlePosition_floodsOnly u).1 fun _ => rfl
  exact (((hsettle _).joined d).trans ((compareNeighbour_floodsOnly d _).1.joined d)).trans (hdelay _)

theorem takeHello_third {h : Hello} {a b : Ticks} (hjoined : (linkOf s d).joined = none) (hhellos : (linkOf s d).hellos = [a, b])
    (ha : s.now ≤ a + msT 30) (hb : s.now ≤ b + msT 30) : (linkOf (takeHello d h s) d).joined = some s.now := by
  rw [takeHello_joined, joinIfThird, if_pos (by simp [helloNoted, hjoined, hhellos, ha, hb]), joinLink_joined]
  simp [helloNoted]

theorem takeHello_first {h : Hello} (hjoined : (linkOf s d).joined = none) (hhellos : (linkOf s d).hellos = []) :
    (linkOf (takeHello d h s) d).joined = none := by
  rw [takeHello_joined, joinIfThird, if_neg (by simp [helloNoted, hhellos])]
  simp [helloNoted, hjoined]

section Arrived
variable {bytes : List Byte} {x : Head} (halone : standalone s = false)
include halone

theorem helloIn_taken (hread : readKnot .hello bytes = some x) (hport : (readHello bytes).port = dirNo (opposite d))
    (hwall : (readHello bytes).wallId = wallId s) (hother : (readHello bytes).standalone = false) :
    helloIn d bytes s = takeHello d (readHello bytes) s := by
  simp [helloIn, halone, hread, hport, hwall, hother]

theorem helloIn_crossed (hread : readKnot .hello bytes = some x) (hport : (readHello bytes).port ≠ dirNo (opposite d)) :
    helloIn d bytes s = raise .svLink (svDetail 1 d)
      (modLink (unjoinLink d s) d (fun l => { l with crossed := true, hellos := [], partner := some (readHello bytes) })) := by
  simp [helloIn, halone, hread, hport]

theorem helloIn_discarded (hread : readKnot .hello bytes = none) : helloIn d bytes s = discardKnot d .hello bytes s := by
  simp [helloIn, halone, hread]

end Arrived

end OneLink

/-! ### Link delay (R435) -/

theorem takeLinkDelay_far {d : Int} {l : Link} (hne : l.delays ≠ []) (hfar : nsF 5 < |d - linkDelay l|) : takeLinkDelay d l =
    if 3 ≤ l.rejects then { l with delays := [], rejects := 0 } else { l with rejects := l.rejects + 1 } := by
  simp [takeLinkDelay, hne, hfar]

theorem takeLinkDelay_near {d : Int} {l : Link} (h : l.delays = [] ∨ |d - linkDelay l| ≤ nsF 5) : takeLinkDelay d l =
    { l with delays := (d :: l.delays).take 16, accepted := l.accepted + 1, rejects := 0 } := by
  refine if_neg ?_
  rcases h with h | h
  · simp [h]
  · simp [not_lt.2 h]

/-! ### Marks (R434, R454, R455) -/

theorem putBeats_marks (value : BitVec 16) (l : List Dir) (s : State) (d : Dir) : (linkOf (putBeats value l s) d).marks =
    (linkOf s d).marks ++ List.replicate (l.count d) ⟨.beat, value, 0⟩ := by
  induction l generalizing s with
  | nil => simp [putBeats]
  | cons q l ih =>
    have hcons : putBeats value (q :: l) s = putBeats value l (putMark ⟨.beat, value, 0⟩ q s) := rfl
    rw [hcons, ih]
    by_cases hq : d = q
    · subst hq
      simp [putMark, List.replicate_succ]
    · simp [putMark, linkOf_modLink_ne s _ hq, List.count_cons_of_ne (Ne.symm hq)]

theorem joinedDirs_nodup (s : State) : (joinedDirs s).Nodup := List.Nodup.filter _ (by decide)

/-- The value of a MARK BEAT, stamped with its link and its arrival. -/
def markStamped (link : Dir) (value : BitVec 16) (s : State) : State := modDisc (fun x => { x with
  markSeen := some ⟨value, link, counterOf s⟩
  markPast := ((x.markSeen.map MarkSeen.value).toList ++ x.markPast).take 16 }) s

theorem execMarkBeat_first {link : Dir} {value : BitVec 16} {t0 : Ticks} {s : State} (hrun : svRuns s = true)
    (hlead : actingLead s = false) (hjoined : (linkOf s link).joined = some t0) (hvalid : delayValid (linkOf s link) = true)
    (hheard : markHeard value s = false) : execMarkBeat link value s =
      .next (putBeats value ((joinedDirs s).filter (fun d => !decide (d = link))) (markStamped link value s)) :=
  if_pos (by simp [hrun, hlead, hjoined, hvalid, hheard])

/-- Settles O35: each command under its conditions; what follows a change of a link leaves whether it is joined. -/
theorem linksJoinAndMeasureDelay : Obligations.LinksJoinAndMeasureDelay := by
  unfold Obligations.LinksJoinAndMeasureDelay
  refine ⟨?hunt, ?header, ?watch, ?hello, ?crossed, ?discarded, ?third, ?first, ?timeout, ?helloSend, ?unjoined, ?reqSend, ?req, ?rsp,
    ?beat, ?departed, ?rejected, ?fourth, ?accepted⟩
  case hunt => exact fun link headers s hrun => if_pos hrun
  case header =>
    exact fun l hlocked => ⟨fun _ => huntHeader_last hlocked, fun _ => huntHeader_counted hlocked, fun _ => huntHeader_invalid hlocked⟩
  case watch =>
    intro link headers s hrun hlocked
    have hexec : execBlockLockLoss link headers s = .next (if lockFails (watchHeaders headers (linkOf s link))
        then loseLock link (modLink s link (watchHeaders headers)) else modLink s link (watchHeaders headers)) := by
      simp [execBlockLockLoss, hrun, hlocked]
    refine ⟨fun hfails => ⟨_, hexec, ?_⟩, fun hholds => hexec.trans (by simp [hholds])⟩
    rw [if_pos hfails]
    exact loseLock_spec link _
  case hello =>
    intro link run bytes x s u harrive halone hread hport hwall hother
    exact (onKnot_of_arrive _ harrive).trans (by rw [helloIn_taken halone hread hport hwall hother])
  case crossed =>
    intro link run bytes x s u harrive halone hread hport
    refine ⟨_, onKnot_of_arrive _ harrive, ?_⟩
    rw [helloIn_crossed halone hread hport]
    have hsame := (raise_floodsOnly .svLink (svDetail 1 link) (modLink (unjoinLink link u) link
      (fun l => { l with crossed := true, hellos := [], partner := some (readHello bytes) })) (by decide)).1
    exact ⟨(hsame.crossed link).trans (by simp), (hsame.joined link).trans (by simp [unjoinLink_joined]),
      stands_raise_self _ _ _ (by decide) (by decide)⟩
  case discarded =>
    intro link run bytes s u harrive halone hread
    exact (onKnot_of_arrive _ harrive).trans (by rw [helloIn_discarded halone hread])
  case third => exact fun link h a b s hjoined hhellos ha hb => takeHello_third hjoined hhellos ha hb
  case first => exact fun link h s hjoined hhellos => takeHello_first hjoined hhellos
  case timeout =>
    intro link t0 s hjoined hpassed
    have hexec : execHelloTimeout link s = .next (unjoinLink link s) := if_pos (by simp [hjoined, hpassed])
    exact ⟨_, hexec, unjoinLink_of_joined hjoined⟩
  case helloSend =>
    intro s hrun hdue
    exact if_pos (by rw [hrun, due_of_forall hdue]; rfl)
  case unjoined =>
    intro link s hrun halone hcrossed hjoined hever hpassed
    change execSvLinkTimeout link s = _
    simp [execSvLinkTimeout, hrun, halone, hcrossed, hjoined, hever, hpassed]
  case reqSend =>
    intro link t0 s hrun hjoined hdue
    refine (if_pos (by rw [hrun, hjoined, due_of_forall hdue]; rfl)).trans ?_
    rw [putMark, modLink_modLink]
    rfl
  case req =>
    intro link value t0 s hrun hjoined
    exact if_pos (by simp [hrun, hjoined])
  case rsp =>
    intro link value t0 t1 s hrun hjoined hreq
    change execMarkRsp link value s = _
    simp [execMarkRsp, hreq, hrun, hjoined]
  case beat =>
    intro link value t0 s hrun hlead hjoined hvalid hheard
    have honly : Only [.sv] (markStamped link value s) (putBeats value ((joinedDirs s).filter (fun d => !decide (d = link)))
        (markStamped link value s)) := by simp
    refine ⟨_, execMarkBeat_first hrun hlead hjoined hvalid hheard, ?_, ?_, fun d => ?_⟩
    · exact congrArg Disc.markSeen (honly .disc (by decide))
    · exact honly .sent (by decide)
    · rw [putBeats_marks, ((joinedDirs_nodup s).filter _).count]
      by_cases hd : d ∈ joinedDirs s ∧ d ≠ link
      · simp [hd, markStamped]
      · simp [hd, markStamped]
  case departed =>
    intro m t l
    refine ⟨fun h => ?_, fun h => ?_, fun h => ?_⟩ <;> simp [departed, h]
  case rejected =>
    intro d l hne hfar hfew
    rw [takeLinkDelay_far hne hfar, if_neg (by omega)]
    exact ⟨rfl, rfl⟩
  case fourth =>
    intro d l hne hfar hmany
    rw [takeLinkDelay_far hne hfar, if_pos hmany]
  case accepted =>
    intro d l h
    rw [takeLinkDelay_near h]
    exact ⟨rfl, rfl⟩

end Sys2Proof.Machine
end

section
/-!
PROOFS. Claims, the census, the beat relay and `k:FAULT` among tiles (09 R424, R428, R438 to R441, R445, R455, R456, R465).
-/
namespace Sys2Proof.Machine
open Sys2Proof Sys2Proof.Safety

/-! ### Knots that are taken -/

section Taken
variable {d : Dir} {bytes : List Byte} {h : Head} {r u : State}

theorem posIn_taken (htaken : receiveLocal r d .pos bytes = .taken u h) (hseed : (readPos bytes).seed ≠ serialOf u)
    (hhops : (readPos bytes).hops < 0xFFFE) : posIn d bytes r =
      let b := readPos bytes
      rechoose (modLink u d (fun l => { l with claim := some ⟨b.seed, b.fixed, b.hops, b.row, b.col, u.now⟩ })) := by
  simp [posIn, htaken, hseed, hhops]

theorem censusIn_taken (htaken : receiveLocal r d .census bytes = .taken u h) : censusIn d bytes r =
    if actingLead u then takeCensus h.orig (readCensus bytes) u else relayUp u .census bytes := by
  simp [censusIn, htaken]

theorem faultIn_taken (htaken : receiveFlood r d .fault bytes = .taken u h) : faultIn d bytes r =
    noteWallFault u ⟨BitVec.ofNat 16 (readFault bytes).code, (readFault bytes).sev, (readFault bytes).cleared, (readFault bytes).row,
      (readFault bytes).col, (readFault bytes).sec⟩ := by
  simp [faultIn, htaken]

/-- A `k:BEAT` on the link of its MARK is relayed, and used by a follower. -/
theorem beatIn_taken {x : Head} {m : MarkSeen} (hread : readKnot .beat bytes = some x) (hmark : r.disc.markSeen = some m)
    (hvalid : delayValid (linkOf r d) = true) (hlink : m.link = d) (hvalue : m.value = (readBeat bytes).beat.setWidth 16)
    (htaken : acceptFlood r d .beat bytes = .taken u h) : beatIn d bytes r =
      if actingLead (relayBeat d m bytes u) then relayBeat d m bytes u
      else useBeat (linkOf (relayBeat d m bytes u) d) h (readBeat bytes) m (relayBeat d m bytes u) := by
  simp [beatIn, hread, hmark, hvalid, hlink, hvalue, htaken]

theorem relayBeat_of_hops {m : MarkSeen} (hhops : byteAt bytes 6 ≠ 255) : relayBeat d m bytes u =
    floodKnot u (some d) ⟨.beat, hopped .beat bytes, .residence (m.arrival - linkDelay (linkOf u d))⟩ := by
  simp [relayBeat, hhops]

end Taken

/-! ### Claims (R438, R439) -/

theorem execPosClaimExpiry_due {link : Dir} {c : Claim} {s : State} (hclaim : (linkOf s link).claim = some c)
    (hdue : c.at_ + msT 300 ≤ s.now) :
    execPosClaimExpiry link s = .next (rechoose (modLink s link (fun l => { l with claim := none }))) := by
  simp [execPosClaimExpiry, hclaim, hdue]

theorem execPosSend_due {c : Choice} {s : State} (hrun : svRuns s = true) (hchoice : s.disc.choice = some c)
    (hdue : ∀ t : Ticks, s.disc.lastPos = some t → t + msT 100 ≤ s.now) : execPosSend s =
      .next (bumpSeq (floodBut (modDisc (fun d => { d with lastPos := some s.now }) s) none .pos
        (ownKnot s .pos false (posBytes ⟨c.seed, c.fixed, c.hops, c.row, c.col⟩))) .pos) := by
  simp only [execPosSend, hchoice, hrun, due_of_forall hdue]
  rfl

/-! ### The census (R440, R441) -/

theorem execCensusSend_due {c : Choice} {s : State} (hrun : svRuns s = true) (halone : standalone s = false)
    (hchoice : s.disc.choice = some c)
    (hdue : s.disc.censusDue = true ∨ ∀ t : Ticks, s.disc.lastCensus = some t → t + secT 5 ≤ s.now) : execCensusSend s =
      let u := modDisc (fun d => { d with censusDue := false, lastCensus := some s.now }) s
      .next (if actingLead s then takeCensus (serialOf s) (ownCensus c s) u else originUp u .census (censusBytes (ownCensus c s))) := by
  have hcond : (s.disc.censusDue || s.disc.lastCensus.isNone || passed s.now s.disc.lastCensus (secT 5)) = true := by
    rcases hdue with hdue | hdue
    · simp [hdue]
    · rw [Bool.or_assoc, due_of_forall hdue, Bool.or_true]
  simp only [execCensusSend, hchoice, hrun, halone, hcond]
  rfl

theorem updateResults_table (tableChanged : Bool) (s : State) : (updateResults tableChanged s).disc.table = s.disc.table := by
  unfold updateResults
  dsimp only
  split
  · rfl
  · split <;> rfl

/-- The entry that a census leaves at the lead. -/
def censusEntry (o : Serial) (b : CensusBody) (now : Ticks) : CensusEntry :=
  ⟨o, b.row, b.col, b.tileW, b.tileH, b.fixed, b.ports, b.role, b.drv, now, false⟩

theorem takeCensus_table (o : Serial) (b : CensusBody) (s : State) : (takeCensus o b s).disc.table =
    s.disc.table.filter (fun x => x.serial != o) ++ [censusEntry o b s.now] := by
  refine (updateResults_table _ _).trans ?_
  split <;> split <;> rfl

/-- An entry of a serial number, lapsed if it has not been heard for 15 s. -/
def lapseOf (serial : Serial) (now : Ticks) (e : CensusEntry) : CensusEntry :=
  if e.serial == serial && decide (e.heard + secT 15 ≤ now) then { e with lapsed := true } else e

theorem lapseOf_other {serial : Serial} {e : CensusEntry} (now : Ticks) (h : e.serial ≠ serial) : lapseOf serial now e = e := by
  simp [lapseOf, h]

theorem lapseOf_unheard {serial : Serial} {now : Ticks} {e : CensusEntry} (hserial : (lapseOf serial now e).serial = serial)
    (hheard : (lapseOf serial now e).heard + secT 15 ≤ now) : (lapseOf serial now e).lapsed = true := by
  unfold lapseOf at *
  split
  case isTrue => rfl
  case isFalse hnot =>
    rw [if_neg hnot] at hserial hheard
    simp [hserial, hheard] at hnot

theorem execCensusLapse_acting {serial : Serial} {s : State} (hrole : s.disc.role = .acting) : execCensusLapse serial s =
    .next (modDisc (fun d => { d with table := d.table.map (lapseOf serial s.now) }) s) :=
  if_pos (by simp [actingLead, hrole])

/-! ### `k:FAULT` (R428) -/

theorem execFaultKnotSend_due {q : QKnot} {rest : List QKnot} {s : State} (hheld : s.disc.faultHeld = q :: rest) (hrun : svRuns s = true)
    (hfew : faultSentRecently s < 4) (hflood : mayFlood s = true) : execFaultKnotSend s =
      .next (sendFaultBody (modDisc (fun d => { d with faultHeld := rest }) s) q.bytes) := by
  simp [execFaultKnotSend, hheld, hrun, hfew, hflood]

/-- Settles O37: each command that is due, and each knot that is taken, by its own operation. -/
theorem claimsCensusAndFloodsCirculate : Obligations.ClaimsCensusAndFloodsCirculate := by
  unfold Obligations.ClaimsCensusAndFloodsCirculate
  refine ⟨?pos, ?expiry, ?posSend, ?census, ?censusSend, ?entry, ?lapse, ?inconsistent, ?beat, ?relay, ?fault, ?faultSend, ?pairs⟩
  case pos =>
    intro link run bytes h s r u harrive htaken hseed hhops
    exact (onKnot_of_arrive _ harrive).trans (by rw [posIn_taken htaken hseed hhops])
  case expiry =>
    intro link c s hclaim hdue
    exact ⟨_, execPosClaimExpiry_due hclaim hdue, ((rechoose_sameLinks _).claim link).trans (by simp)⟩
  case posSend => exact fun c s hrun hchoice hdue => execPosSend_due hrun hchoice hdue
  case census =>
    intro link run bytes h s r u harrive htaken
    refine ⟨fun hlead => ?_, fun hlead => ?_⟩
    all_goals exact (onKnot_of_arrive _ harrive).trans (by rw [censusIn_taken htaken]; simp [hlead])
  case censusSend => exact fun c s hrun halone hchoice hdue => execCensusSend_due hrun halone hchoice hdue
  case entry =>
    intro o b s
    exact ⟨censusEntry o b s.now, by simp [takeCensus_table], rfl, rfl, rfl, rfl, rfl⟩
  case lapse =>
    intro serial s hrole
    refine ⟨_, execCensusLapse_acting hrole, by simp, fun e he hserial hheard => ?_, fun e he hserial => ?_⟩
    · obtain ⟨e, -, rfl⟩ := List.mem_map.1 he
      exact lapseOf_unheard hserial hheard
    · exact List.mem_map.2 ⟨e, he, lapseOf_other _ hserial⟩
  case inconsistent =>
    intro link t0 s hrun hjoined hpassed
    exact if_pos (by simp [hrun, hjoined, hpassed])
  case beat =>
    intro link run bytes h x m s r u harrive hread hmark hvalid hlink hvalue htaken
    exact ⟨_, onKnot_of_arrive _ harrive, _, rfl, beatIn_taken hread hmark hvalid hlink hvalue htaken⟩
  case relay => exact fun link m bytes s hhops => relayBeat_of_hops hhops
  case fault =>
    intro link run bytes h s r u harrive htaken
    exact (onKnot_of_arrive _ harrive).trans (by rw [faultIn_taken htaken])
  case faultSend => exact fun q rest s hheld hrun hfew hflood => execFaultKnotSend_due hheld hrun hfew hflood
  case pairs =>
    intro orig t s
    refine ⟨_, rfl, fun e => List.mem_filter.trans (and_congr_right fun _ => ?_), rfl⟩
    simp
    tauto

end Sys2Proof.Machine
end

section
/-!
PROOFS. The election of a lead (09 R443, R447 to R452, Table 9.7): a claim, the office, a better lead, its loss, and settled results.
-/
namespace Sys2Proof.Machine
open Sys2Proof Sys2Proof.Safety

/-! ### Faults that are cleared or stand apart (19 R905, R906) -/

theorem clearKey_active (f : FaultName) (key : Nat) (s : State) : (clearKey f key s).flt.active =
    s.flt.active.filter (fun a => !(decide (a.f = f) && a.key == key)) := by
  unfold clearKey
  split
  case isTrue => simp [unsetActive]
  case isFalse h =>
    refine (List.filter_eq_self.2 fun a ha => ?_).symm
    have hother : ¬ (decide (a.f = f) && a.key == key) = true := fun hq => h (List.any_eq_true.2 ⟨a, ha, hq⟩)
    rw [Bool.not_eq_true] at hother
    rw [hother]
    rfl

theorem foldl_clearKey_active_sublist (f : FaultName) (keys : List Nat) (s : State) :
    (keys.foldl (fun st k => clearKey f k st) s).flt.active.Sublist s.flt.active := by
  induction keys generalizing s with
  | nil => exact List.Sublist.refl _
  | cons k keys ih => exact (ih _).trans (clearKey_active f k s ▸ List.filter_sublist)

/-- No entry of a fault stands whose keys are cleared one by one. -/
theorem not_mem_foldl_clearKey {f : FaultName} {keys : List Nat} {s : State} {a : Active} (hf : a.f = f) (hkey : a.key ∈ keys) :
    a ∉ (keys.foldl (fun st k => clearKey f k st) s).flt.active := by
  induction keys generalizing s with
  | nil => simp at hkey
  | cons k keys ih =>
    rcases List.mem_cons.1 hkey with rfl | hkey
    · intro ha
      have ha := (foldl_clearKey_active_sublist f keys _).subset ha
      simp [clearKey_active, hf] at ha
    · exact ih hkey

theorem isActive_clearAll_self (f : FaultName) (s : State) : isActive (clearAll f s) f = false := by
  refine Bool.eq_false_iff.2 fun h => ?_
  obtain ⟨a, ha, hf⟩ := List.any_eq_true.1 h
  have hf : a.f = f := by simpa using hf
  have hmem := (foldl_clearKey_active_sublist f _ s).subset ha
  exact not_mem_foldl_clearKey hf (List.mem_map_of_mem (List.mem_filter.2 ⟨hmem, by simp [hf]⟩)) ha

/-- A raise of another fault leaves whether this one is active. -/
theorem isActive_raise_other {f g : FaultName} (detail : BitVec 32) (s : State) (h0 : sevOf f ≠ 0) (h3 : sevOf f ≠ 3) (hne : f ≠ g) :
    isActive (raise f detail s) g = isActive s g := by
  unfold isActive
  rw [raise_active f detail s h0 h3]
  split
  · rfl
  · simp [hne]

theorem settlePosition_isActive (s : State) {f : FaultName} (hf : FaultName.svPosition ≠ f) :
    isActive (settlePosition s) f = isActive s f := by
  unfold settlePosition
  split
  · have hflt (p : Nat × Nat) : (newPosition p s).flt = s.flt := by
      have h : Only [.net, .disc] s (newPosition p s) := by simp [newPosition]
      exact h .flt (by decide)
    exact isActive_congr (by rw [hflt]) f
  · exact isActive_raise_other _ _ (by decide) (by decide) hf
  · rfl

/-! ### Claiming (R447, R448) -/

theorem startClaiming_of_mayClaim {s : State} (h : mayClaim s = true) :
    startClaiming s = modDisc (fun d => { d with role := .claiming s.now, lastLeadSent := none }) s := if_pos h

/-- Whether a tile claims or not, discovery is otherwise as it was. -/
theorem startClaiming_disc (s : State) : ∃ role sent, (startClaiming s).disc = { s.disc with role := role, lastLeadSent := sent } := by
  unfold startClaiming
  split
  · exact ⟨_, _, rfl⟩
  · exact ⟨_, _, rfl⟩

theorem mayClaim_runs {s : State} (h : mayClaim s = true) : svRuns s = true ∧ s.disc.role = .idle := by
  simp only [mayClaim, Bool.and_eq_true, decide_eq_true_eq] at h
  tauto

/-- The claims that lapse were held no more. -/
theorem mayClaim_recent (s : State) : mayClaim (modDisc (fun d => { d with heardLeads := recentLeads s }) s) = mayClaim s := by
  have hrecent : recentLeads (modDisc (fun d => { d with heardLeads := recentLeads s }) s) = recentLeads s := by
    simp [recentLeads]
  have hrank (l : List (Nat × Serial × Ticks)) : ownRank (modDisc (fun d => { d with heardLeads := l }) s) = ownRank s := rfl
  have hruns (f : Disc → Disc) : svRuns (modDisc f s) = svRuns s := rfl
  have heligible (f : Disc → Disc) : eligible (modDisc f s) = eligible s := rfl
  have hentering (f : Disc → Disc) : enteringStandby (modDisc f s) = enteringStandby s := rfl
  simp only [mayClaim, betterHeard, hrecent, hrank, hruns, heligible, hentering, modDisc_disc]
  rfl

theorem originFlood_keeps (s : State) (t : KnotType) (body : List Byte) :
    Only [.status, .sv, .disc] s (originFlood s t body) := by simp

theorem sentLead_spec (s : State) : (sentLead s).disc.role = s.disc.role ∧ (sentLead s).disc.lastLeadSent = some s.now ∧
    (sentLead s).flt = s.flt := ⟨rfl, rfl, rfl⟩

/-- A `k:LEAD` sent from a state. -/
theorem sentLead_originFlood (s : State) (body : List Byte) : (sentLead (originFlood s .lead body)).disc.role = s.disc.role ∧
    (sentLead (originFlood s .lead body)).disc.lastLeadSent = some s.now ∧ (sentLead (originFlood s .lead body)).flt = s.flt := by
  obtain ⟨hrole, hsent, hflt⟩ := sentLead_spec (originFlood s .lead body)
  have hnow : (originFlood s .lead body).now = s.now := originFlood_keeps s .lead body .now (by decide)
  rw [hrole, hsent, hflt, hnow]
  exact ⟨(originFlood_floodsOnly s .lead body).role, rfl, originFlood_keeps s .lead body .flt (by decide)⟩

theorem execLeadSend_claims {s : State} (hmay : mayClaim s = true) (hlead : s.disc.lead = none) (hflood : mayFlood s = true) :
    execLeadSend s = .next (sentLead (originFlood (startClaiming s) .lead (leadBytes (leadBody true false (startClaiming s))))) := by
  obtain ⟨hrun, hrole⟩ := mayClaim_runs hmay
  simp [execLeadSend, hrun, hflood, hrole, hmay, hlead]

theorem execLeadSend_acting {s : State} (hrun : svRuns s = true) (hflood : mayFlood s = true) (hrole : s.disc.role = .acting)
    (hresign : s.disc.resign = 0) (hdue : ∀ t : Ticks, s.disc.lastLeadSent = some t → t + msT 100 ≤ s.now) :
    execLeadSend s = .next (sendLead s) := by
  simp only [execLeadSend, hrun, hflood, hrole, hresign, due_of_forall hdue]
  rfl

/-! ### The old lead's scene (R461) -/

theorem abandon_change (s : State) : (abandon s).scene.change = s.scene.change := by
  have h : Only [.keys, .net] { modScene (fun x => { x with prepared := none, prepWin := [] }) s with
      aud := { s.aud with switchTo := none } } (abandon s) := by simp [abandon]
  have hscene : (abandon s).scene = _ := h .scene (by decide)
  rw [hscene]
  rfl

theorem dropOldScene_change (s : State) : (dropOldScene s).scene.change = none := by
  unfold dropOldScene
  dsimp only
  split
  · split
    · rfl
    · exact abandon_change _
  · rfl

theorem dropOldScene_keeps (s : State) : Only [.keys, .net, .scene, .aud] s (dropOldScene s) := by simp

/-! ### Taking up the office (R450) -/

theorem enterServo_floodsOnly (v : Servo) (s : State) : FloodsOnly s (enterServo v s) := by
  have htime (f : TimeSt → TimeSt) (t : State) : FloodsOnly t (modTime f t) := ⟨.of_sv_eq rfl, rfl⟩
  have hclear (c : Prop) [Decidable c] (f : FaultName) (t : State) : FloodsOnly t (if c then clearAll f t else t) :=
    .ite (clearAll_floodsOnly f t) (.refl t)
  exact ((htime _ s).trans (hclear _ _ _)).trans (hclear _ _ _)

theorem enterFreerun_floodsOnly (s : State) : FloodsOnly s (enterFreerun s) := by
  have htime (f : TimeSt → TimeSt) (t : State) : FloodsOnly t (modTime f t) := ⟨.of_sv_eq rfl, rfl⟩
  have hraised : FloodsOnly s (raise .timeNomaster 0
      (enterServo .freerun (modTime (fun t => { t with y := t.yInt, leadHold := none }) s))) :=
    ((htime _ s).trans (enterServo_floodsOnly .freerun _)).trans (raise_floodsOnly .timeNomaster 0 _ (by decide))
  exact .ite ((hraised.trans (htime _ _)).trans (enterServo_floodsOnly .acquire _)) hraised

theorem becameLead_floodsOnly (s : State) : FloodsOnly s (becameLead s) := by
  have htime (f : TimeSt → TimeSt) (t : State) : FloodsOnly t (modTime f t) := ⟨.of_sv_eq rfl, rfl⟩
  exact .ite ((htime _ s).trans (enterFreerun_floodsOnly _)) (htime _ s)

/-- The office taken up: the old scene dropped, and the table empty. -/
def leadBegun (s : State) : State := dropOldScene (modDisc (fun d => { d with
  role := .acting, lead := none, leadHops := some 0, parent := none, parentLead := none, table := [], page := 0
  results := { changedAt := s.now }, censusDue := true, lastLeadSent := none }) s)

/-- The brightness ramp and the roll-call afresh. -/
def dutiesBegun (s : State) : State := { s with
  bri := { s.bri with reports := [], ramp := none, nextCompute := some (s.now + secT 1) }
  standby := { s.standby with nightSince := none }
  bob := { s.bob with rollNext := some (s.now + secT 10), answered := [], flagged := [] } }

theorem leadBegun_spec (s : State) : (leadBegun s).disc.role = .acting ∧ (leadBegun s).disc.leadHops = some 0 ∧
    (leadBegun s).disc.table = [] ∧ (leadBegun s).disc.lead = none ∧ (leadBegun s).scene.change = none ∧
    (leadBegun s).now = s.now := by
  unfold leadBegun
  generalize hu : modDisc _ s = u
  have hkeeps := dropOldScene_keeps u
  have hdisc : (dropOldScene u).disc = u.disc := hkeeps .disc (by decide)
  have hnow : (dropOldScene u).now = u.now := hkeeps .now (by decide)
  rw [hdisc, hnow, dropOldScene_change, ← hu]
  exact ⟨rfl, rfl, rfl, rfl, rfl, rfl⟩

theorem becameLead_keeps (s : State) : Only [.flt, .status, .net, .time, .sv, .disc, .weft, .bea] s (becameLead s) := by simp

theorem execBecomeActingLead_due {t0 : Ticks} {s : State} (hrole : s.disc.role = .claiming t0) (hrun : svRuns s = true)
    (hbetter : betterHeard s = false) (hdue : t0 + msT 300 ≤ s.now) :
    execBecomeActingLead s = .next (becameLead (dutiesBegun (leadBegun s))) := by
  simp only [execBecomeActingLead, hrole, hrun, hbetter]
  exact if_pos (by simp [hdue])

theorem execBecomeActingLead_early {t0 : Ticks} {s : State} (hrole : s.disc.role = .claiming t0) (hearly : s.now < t0 + msT 300) :
    execBecomeActingLead s = .next s := by
  simp [execBecomeActingLead, hrole, hearly]

/-! ### A better lead (R448, R451) -/

theorem noteHeard_rank (cls : Nat) (o : Serial) (s : State) : ownRank (noteHeard cls o s) = ownRank s := rfl

theorem yieldTo_acting {rank : Nat × Serial} {s : State} (hrole : s.disc.role = .acting) (hranks : ranksBefore rank (ownRank s) = true) :
    yieldTo rank s = endLeading s := by
  simp [yieldTo, hranks, hrole]

/-- A tile that does not lead, and directs no scene change. -/
def SteppedDown (t : State) : Prop := t.disc.role = .idle ∧ t.scene.change = none

theorem endLeading_steppedDown (s : State) : SteppedDown (endLeading s) := ⟨rfl, rfl⟩

theorem SteppedDown.ite {a b : State} {c : Prop} [Decidable c] (ha : SteppedDown a) (hb : SteppedDown b) :
    SteppedDown (if c then a else b) := by
  split
  · exact ha
  · exact hb

section Down
variable {s : State} (hs : SteppedDown s)
include hs

theorem SteppedDown.of_floodsOnly {t : State} (h : FloodsOnly s t) (hscene : t.scene = s.scene) : SteppedDown t :=
  ⟨h.role.trans hs.1, (congrArg Scene.change hscene).trans hs.2⟩

theorem SteppedDown.modDisc {f : Disc → Disc} (hf : ∀ d, (f d).role = d.role) : SteppedDown (modDisc f s) :=
  ⟨(hf _).trans hs.1, hs.2⟩

theorem takePage_steppedDown (b : LeadBody) : SteppedDown (takePage b s) :=
  hs.modDisc fun d => by simp only [apply_ite Disc.role, ite_self]

theorem takeLeadView_steppedDown (d : Dir) (h : Head) (b : LeadBody) : SteppedDown (takeLeadView d h b s) := by
  have hdropped : SteppedDown (dropOldScene (leadChanged s)) :=
    ⟨(congrArg Disc.role (dropOldScene_keeps (leadChanged s) .disc (by decide)) :).trans hs.1, dropOldScene_change _⟩
  exact SteppedDown.modDisc (.ite hdropped hs) fun _ => rfl

theorem takeSettled_steppedDown (b : LeadBody) : SteppedDown (takeSettled b s) := by
  unfold takeSettled
  split
  · refine SteppedDown.of_floodsOnly ?_ (clearAll_floodsOnly _ _) (by simp)
    exact hs.modDisc fun _ => rfl
  · exact hs

theorem settlePosition_steppedDown : SteppedDown (settlePosition s) := by
  have h : Only [.flt, .status, .net, .sv, .disc, .weft, .bea] s (settlePosition s) := by simp
  exact hs.of_floodsOnly (settlePosition_floodsOnly s) (h .scene (by decide))

theorem followLead_steppedDown (d : Dir) (h : Head) (b : LeadBody) : SteppedDown (followLead d h b s) := by
  have hsettled := takeSettled_steppedDown (takeLeadView_steppedDown hs d h b) b
  exact .ite (settlePosition_steppedDown (takePage_steppedDown hsettled b)) hs

end Down

/-- An acting lead steps down before a `k:LEAD` that ranks above it. -/
theorem takeLead_steppedDown (d : Dir) {h : Head} {b : LeadBody} {s : State} (hrole : s.disc.role = .acting) (hresign : b.resign = false)
    (hranks : ranksBefore (b.cls, h.orig) (ownRank s) = true) : SteppedDown (takeLead d h b s) := by
  have hdown : SteppedDown (yieldTo (b.cls, h.orig) (noteHeard b.cls h.orig s)) := by
    rw [yieldTo_acting (s := noteHeard b.cls h.orig s) hrole (by rw [noteHeard_rank]; exact hranks)]
    exact endLeading_steppedDown _
  unfold takeLead
  rw [if_neg (by simp [hresign])]
  dsimp only
  split
  · exact hdown
  · exact followLead_steppedDown hdown d h b

theorem leadIn_taken {d : Dir} {bytes : List Byte} {h : Head} {r u : State} (htaken : acceptFlood r d .lead bytes = .taken u h) :
    leadIn d bytes r = takeLead d h (readLead bytes) (relayClaim d (readLead bytes) h bytes u) := by
  simp [leadIn, htaken]

/-! ### The loss of a lead (R452, Table 9.7) -/

theorem execLeadLost_due {v : LeadView} {s : State} (hlead : s.disc.lead = some v) (hrole : s.disc.role = .idle)
    (hdue : v.heard + msT 500 ≤ s.now) : execLeadLost s = .next (leadLost 0 s) := by
  simp [execLeadLost, hlead, actingLead, hrole, hdue]

/-- The lead forgotten, and its loss reported. -/
def leadForgotten (detail : Nat) (s : State) : State := raise .svNolead (BitVec.ofNat 32 detail)
  (leadChanged (modDisc (fun d => { d with lead := none, leadHops := none, parent := none }) s))

theorem leadLost_eq (detail : Nat) (s : State) : leadLost detail s = startClaiming (leadForgotten detail s) := rfl

theorem leadForgotten_spec (detail : Nat) (s : State) : (leadForgotten detail s).disc.lead = none ∧
    (leadForgotten detail s).disc.leadHops = none ∧ (leadForgotten detail s).disc.parent = none ∧
    Stands .svNolead (BitVec.ofNat 32 detail) (leadForgotten detail s) := by
  have hfloods := raise_floodsOnly .svNolead (BitVec.ofNat 32 detail)
    (leadChanged (modDisc (fun d => { d with lead := none, leadHops := none, parent := none }) s)) (by decide)
  exact ⟨hfloods.lead, hfloods.leadHops, hfloods.parent, stands_raise_self _ _ _ (by decide) (by decide)⟩

theorem leadLost_spec (detail : Nat) (s : State) : (leadLost detail s).disc.lead = none ∧ (leadLost detail s).disc.leadHops = none ∧
    (leadLost detail s).disc.parent = none ∧ Stands .svNolead (BitVec.ofNat 32 detail) (leadLost detail s) := by
  have hforgotten := leadForgotten_spec detail s
  rw [leadLost_eq]
  generalize leadForgotten detail s = u at hforgotten ⊢
  have hkeeps : Only [.disc] u (startClaiming u) := by simp
  have hflt : (startClaiming u).flt = u.flt := hkeeps .flt (by decide)
  obtain ⟨role, sent, hdisc⟩ := startClaiming_disc u
  simpa only [hdisc, Stands, activeKey, hflt] using hforgotten

theorem execNoLeadTimeout_due {s : State} (hrun : svRuns s = true) (halone : standalone s = false) (hrole : s.disc.role = .idle)
    (hlead : s.disc.lead = none) (hpassed : passed s.now s.disc.firstJoin (secT 2) = true) :
    execNoLeadTimeout s = .next (raise .svNolead 1 s) := by
  have hjoin : s.disc.firstJoin.isSome = true := by
    cases h : s.disc.firstJoin with
    | none => simp [h, passed] at hpassed
    | some t => rfl
  simp [execNoLeadTimeout, hrun, halone, actingLead, hrole, hlead, hjoin, hpassed]

/-! ### Settled results (R443) -/

/-- The results of the census settled, and the lead's own verdict with them. -/
def resultsSettled (s : State) : State := modDisc (fun d => { d with
  results := { s.disc.results with settled := true }
  settled := some ⟨s.disc.results.rows, s.disc.results.cols, (ownTile s).1, (ownTile s).2, s.disc.results.rowOff, s.disc.results.colOff,
    s.disc.results.fixed, code s pinRefresh, code s pinLatency⟩
  verdict := some (s.disc.results.dups.contains (serialOf s)) }) s

theorem execLeadSettle_due {e : CensusEntry} {l : List CensusEntry} {s : State} (hrole : s.disc.role = .acting)
    (hsettled : s.disc.results.settled = false) (htable : s.disc.table = e :: l) (hdue : s.disc.results.changedAt + msT 500 ≤ s.now) :
    execLeadSettle s = .next (settlePosition (clearAll .svNolead (resultsSettled s))) :=
  if_pos (by simp [actingLead, hrole, hsettled, htable, hdue])

/-- Settles O38: each command under its conditions; what follows the change of an office leaves it as it is. -/
theorem leadIsElected : Obligations.LeadIsElected := by
  unfold Obligations.LeadIsElected
  refine ⟨?claims, ?sends, ?leads, ?early, ?yields, ?lead, ?lost, ?noLead, ?settles, ?lapse⟩
  case claims =>
    intro s hmay hlead hflood _
    obtain ⟨hrole, hsent, hflt⟩ := sentLead_originFlood (startClaiming s) (leadBytes (leadBody true false (startClaiming s)))
    rw [startClaiming_of_mayClaim hmay] at hrole hsent hflt
    refine ⟨_, execLeadSend_claims hmay hlead hflood, ?_⟩
    rw [startClaiming_of_mayClaim hmay]
    exact ⟨hrole, hsent, hflt⟩
  case sends => exact fun s hrun hflood hrole hresign hdue => execLeadSend_acting hrun hflood hrole hresign hdue
  case leads =>
    intro t0 s hrole hrun hbetter hdue
    refine ⟨_, execBecomeActingLead_due hrole hrun hbetter hdue, ?_⟩
    obtain ⟨hacting, hhops, htable, hlead, hchange, hnow⟩ := leadBegun_spec s
    have hfloods := becameLead_floodsOnly (dutiesBegun (leadBegun s))
    have hkeeps := becameLead_keeps (dutiesBegun (leadBegun s))
    have hscene := congrArg Scene.change (hkeeps .scene (by decide))
    have hramp := congrArg Bri.ramp (hkeeps .bri (by decide))
    have hroll := congrArg Bob.rollNext (hkeeps .bob (by decide))
    exact ⟨hfloods.role.trans hacting, hfloods.leadHops.trans hhops, hfloods.table.trans htable, hfloods.lead.trans hlead,
      hscene.trans hchange, hramp, hroll.trans (congrArg (fun t => some (t + secT 10)) hnow)⟩
  case early => exact fun t0 s hrole hearly => execBecomeActingLead_early hrole hearly
  case yields => exact fun d h b s hrole hresign hranks => takeLead_steppedDown d hrole hresign hranks
  case lead =>
    intro link run bytes h s r u harrive htaken
    exact (onKnot_of_arrive _ harrive).trans (by rw [leadIn_taken htaken])
  case lost => exact fun v s hlead hrole hdue => ⟨_, execLeadLost_due hlead hrole hdue, leadLost_spec 0 s⟩
  case noLead => exact fun s hrun halone hrole hlead hpassed => execNoLeadTimeout_due hrun halone hrole hlead hpassed
  case settles =>
    intro e l s hrole hsettled htable hdue
    have hfloods := (clearAll_floodsOnly .svNolead (resultsSettled s)).trans (settlePosition_floodsOnly _)
    refine ⟨_, execLeadSettle_due hrole hsettled htable hdue, ?_, ?_, ?_⟩
    · rw [hfloods.results]; rfl
    · rw [settlePosition_isActive _ (by decide), isActive_clearAll_self]
    · rw [hfloods.verdict]; rfl
  case lapse =>
    intro s
    obtain ⟨role, sent, hdisc⟩ := startClaiming_disc (modDisc (fun d => { d with heardLeads := recentLeads s }) s)
    refine ⟨_, rfl, by rw [hdisc]; rfl, fun hmay => ?_, ?_⟩
    · rw [startClaiming_of_mayClaim ((mayClaim_recent s).trans hmay)]
      rfl
    · have hkeeps : Only [.disc] s (startClaiming (modDisc (fun d => { d with heardLeads := recentLeads s }) s)) := by simp
      exact hkeeps .flt (by decide)

end Sys2Proof.Machine
end

section
/-!
PROOFS. A scene change and its answers (10 R484 to R490, R495): the start, `k:PREPARE` and its repeats, `k:READY`.
-/
namespace Sys2Proof.Machine
open Sys2Proof

/-! ### What leaves the scenes, frame memory and the fuses as they are -/

@[simp] theorem floodPrepare_scene (c : Change) (s : State) : (floodPrepare c s).scene = s.scene := by
  have h : Only [.status, .sv, .disc] s (floodPrepare c s) := by simp
  exact h .scene (by decide)

@[simp] theorem syncGroups_frame (s : State) :
    (syncGroups s).scene = s.scene ∧ (syncGroups s).mem = s.mem ∧ (syncGroups s).otp = s.otp := by
  have h : Only [.keys, .net] s (syncGroups s) := by simp
  exact ⟨h .scene (by decide), h .mem (by decide), h .otp (by decide)⟩

@[simp] theorem noteFormats_frame (wins : List Win) (s : State) : (noteFormats wins s).scene = s.scene ∧
    (noteFormats wins s).mem = s.mem ∧ (noteFormats wins s).otp = s.otp := by
  have h : Only [.flt, .status, .net, .sv, .disc, .weft, .bea] s (noteFormats wins s) := by simp
  exact ⟨h .scene (by decide), h .mem (by decide), h .otp (by decide)⟩

/-! ### Preparation (R489) -/

/-- What the scene memory holds of a scene whose preparation begins now. -/
def preparedNow (ident : BitVec 32) (k : SceneKey) (lead : Serial) (deadline : BitVec 32) (echo : Bool) (s : State) : Prepared :=
  { ident := ident, key := k, lead := lead, deadline := deadline, first := s.now, echo := echo
    own := admitScene s k (!s.mem.deckleB) (freshWindows s k (!s.mem.deckleB)) }

theorem prepareScene_scene (ident : BitVec 32) (k : SceneKey) (lead : Serial) (deadline : BitVec 32) (echo : Bool) (s : State) :
    (prepareScene ident k lead deadline echo s).scene = { s.scene with
      prepared := some (preparedNow ident k lead deadline echo s), prepWin := freshWindows s k (!s.mem.deckleB) } := by
  simp [prepareScene, preparedNow]

/-- A tile that takes scenes and holds none prepares the one of the `k:PREPARE`. -/
theorem takePrepare_of_empty {h : Head} {b : PrepareBody} {s : State} (htakes : takesScenes s = true)
    (hprepared : s.scene.prepared = none) (hcommitted : s.scene.committed = none) : takePrepare h b s =
      prepareScene b.ident (keyOfPrepare b) h.orig b.deadline false
        (modScene (fun x => { x with heardKey := some (b.ident, keyOfPrepare b) }) s) := by
  have htakes' : takesScenes (modScene (fun x => { x with heardKey := some (b.ident, keyOfPrepare b) }) s) = true := htakes
  simp [takePrepare, htakes', hprepared, hcommitted]

theorem prepareIn_taken {d : Dir} {bytes : List Byte} {h : Head} {r u : State}
    (htaken : receiveFlood r d .prepare bytes = .taken u h) (hlead : actingLead u = false) (hfrom : fromLead u h = true) :
    prepareIn d bytes r = takePrepare h (readPrepare bytes) u := by
  simp [prepareIn, htaken, hlead, hfrom]

/-! ### The lead's side (R484 to R488) -/

theorem nextCount_ne_zero (c : BitVec 16) : nextCount c ≠ 0 := by
  unfold nextCount
  split
  case isTrue => decide
  case isFalse hne => exact hne

/-- The change that starts at this beat. -/
def changeNow (s : State) : Change :=
  { ident := changeIdent s (nextCount s.scene.counter), key := keyToPrepare s, p0 := s.now
    deadline := beatNo (beatAtOrAfter (refreshND s) (beatF s (beatNow s) + nsF 2000000000))
    awaited := awaitedTiles s, readies := [], nextRepeat := s.now + msT 250 }

/-- The change is noted, and asked of every tile at P0. -/
def changeAsked (s : State) : State :=
  floodPrepare (changeNow s) (modScene (fun x => { x with
    counter := nextCount s.scene.counter, change := some (changeNow s), wanted := false, readmit := false, handed := false }) s)

theorem changeAsked_scene (s : State) : (changeAsked s).scene = { s.scene with
    counter := nextCount s.scene.counter, change := some (changeNow s), wanted := false, readmit := false, handed := false } := by
  simp [changeAsked]

/-- The lead prepares the scene as any other tile does. -/
def changeBegun (s : State) : State :=
  if takesScenes (changeAsked s) then
    prepareScene (changeNow s).ident (changeNow s).key (serialOf (changeAsked s)) (changeNow s).deadline false (changeAsked s)
  else changeAsked s

theorem execSceneChangeStart_may {s : State} (hmay : mayStart s = true) : execSceneChangeStart s = .next (changeBegun s) :=
  if_neg (by simp [hmay])

theorem execSceneChangeStart_mayNot {s : State} (hmay : mayStart s = false) : execSceneChangeStart s = .next s :=
  if_pos (by simp [hmay])

/-- The lead's own preparation leaves the change that it asks for. -/
theorem changeBegun_scene (s : State) : ∃ prepared prepWin, (changeBegun s).scene = { s.scene with
    counter := nextCount s.scene.counter, change := some (changeNow s), wanted := false, readmit := false, handed := false
    prepared := prepared, prepWin := prepWin } := by
  unfold changeBegun
  split
  case isTrue =>
    rw [prepareScene_scene, changeAsked_scene]
    exact ⟨_, _, rfl⟩
  case isFalse => exact ⟨_, _, changeAsked_scene s⟩

theorem execPrepareRepeat_due {c : Change} {s : State} (hchange : s.scene.change = some c) (hrun : runs s = true)
    (hopen : c.decided = none) (hdue : c.nextRepeat ≤ s.now) : execPrepareRepeat s = .next (floodPrepare c
      (modScene (fun x => { x with change := some { c with nextRepeat := s.now + msT 250 } }) s)) := by
  simp [execPrepareRepeat, hchange, hrun, hopen, hdue]

/-! ### `k:READY` (R489, R490) -/

theorem execReadySend_due {p : Prepared} {s : State} (hprepared : s.scene.prepared = some p) (hrun : runs s = true)
    (hnew : p.answered = false) (hecho : p.echo = false) (hcommit : p.commit = none) (hends : preparationEnds s p = true) :
    execReadySend s = .next (sendReady p.ident (countOf p.key) p.own (modAdm (fun z => { z with lastReady := p.own })
      (modScene (fun x => { x with prepared := some { p with answered := true } }) s))) := by
  simp [execReadySend, hprepared, hrun, hnew, hecho, hcommit, hends]

theorem readyIn_taken {d : Dir} {bytes : List Byte} {h : Head} {r u : State}
    (htaken : receiveLocal r d .ready bytes = .taken u h) (hlead : actingLead u = true) : readyIn d bytes r =
      takeReady h.orig (readReady bytes).ident (pairStates (readReady bytes).n (readReady bytes).states) u := by
  simp [readyIn, htaken, hlead]

/-- The latest answer of a tile replaces its earlier one. -/
theorem takeReady_change {o : Serial} {l : List (WState × Reason)} {c : Change} {s : State} (hchange : s.scene.change = some c)
    (hopen : c.decided = none) : (takeReady o c.ident l s).scene.change =
      some { c with readies := (o, l) :: c.readies.filter (fun e => e.1 != o) } := by
  simp [takeReady, hchange, hopen, noteReady]

/-- Settles O44: each command under its conditions; the lead's own preparation leaves the change that it starts. -/
theorem scenesArePreparedAndAnswered : Obligations.ScenesArePreparedAndAnswered := by
  unfold Obligations.ScenesArePreparedAndAnswered
  refine ⟨?start, ?early, nextCount_ne_zero, ?again, ?prepare, ?fresh, ?send, ?ready, ?latest⟩
  case start =>
    intro s hmay
    obtain ⟨prepared, prepWin, hscene⟩ := changeBegun_scene s
    refine ⟨changeBegun s, execSceneChangeStart_may hmay, ?_⟩
    dsimp only
    rw [hscene]
    exact ⟨rfl, rfl, rfl, changeNow s, rfl, rfl, rfl, rfl, rfl, rfl, rfl⟩
  case early => exact fun s hmay => execSceneChangeStart_mayNot hmay
  case again => exact fun c s hchange hrun hopen hdue => execPrepareRepeat_due hchange hrun hopen hdue
  case prepare =>
    intro link run bytes h s r u harrive htaken hlead hfrom
    exact (onKnot_of_arrive _ harrive).trans (by rw [prepareIn_taken htaken hlead hfrom])
  case fresh =>
    intro h b s htakes hprepared hcommitted
    rw [takePrepare_of_empty htakes hprepared hcommitted, prepareScene_scene]
    exact ⟨_, rfl, rfl, rfl, rfl, rfl, rfl, rfl, rfl⟩
  case send =>
    intro p s hprepared hrun hnew hecho hcommit hends
    refine execReadySend_due hprepared hrun hnew hecho hcommit ?_
    rcases hends with hlate | hends
    · simp [preparationEnds, hlate]
    · exact hends
  case ready =>
    intro link run bytes h s r u harrive htaken hlead
    exact (onKnot_of_arrive _ harrive).trans (by rw [readyIn_taken htaken hlead])
  case latest => exact fun o l c s hchange hopen => ⟨_, takeReady_change hchange hopen, rfl⟩

end Sys2Proof.Machine
end

section
/-!
PROOFS. The decision on a scene and its commit (10 R489 to R493, R512, 11 R555, 12 R584, R604 to R608).
-/
namespace Sys2Proof.Machine
open Sys2Proof

/-! ### The decision and its `k:COMMIT` (R490, R491, R493) -/

/-- The decision falls when every awaited tile has answered, or after 1.5 s. -/
theorem decisionDue_iff (c : Change) (s : State) : decisionDue s c = true ↔ c.decided = none ∧
    (c.p0 + msT 1500 ≤ s.now ∨ ∀ o ∈ c.awaited, ∃ r ∈ c.readies, r.1 = o) := by
  simp only [decisionDue, Bool.and_eq_true, Bool.or_eq_true, Option.isNone_iff_eq_none, decide_eq_true_eq, List.all_eq_true,
    List.any_eq_true, beq_iff_eq]

theorem execSceneDecision_due {c : Change} {s : State} (hchange : s.scene.change = some c) (hleads : leads s = true)
    (hdue : decisionDue s c = true) : execSceneDecision s =
      .next (takeCommit (serialOf s) c.ident (commitBeatOf s) (agreedOf c)
        (floodCommit c.ident (commitBeatOf s) (agreedOf c) (modScene (fun x => { x with
          change := some { c with decided := some (s.now, commitBeatOf s, 0), agreed := agreedOf c }
          latest := some (c.ident, commitBeatOf s, agreedOf c) }) s))) := by
  simp only [execSceneDecision, hchange, hleads, hdue]
  rfl

theorem execCommitRepeat_due {c : Change} {d : Ticks} {beat : BitVec 32} {n : Nat} {s : State} (hchange : s.scene.change = some c)
    (hdecided : c.decided = some (d, beat, n)) (hleads : leads s = true) (hfew : n < 2) (hdue : d + msT (20 * (n + 1)) ≤ s.now) :
    execCommitRepeat s = .next (floodCommit c.ident beat c.agreed
      (modScene (fun x => { x with change := some { c with decided := some (d, beat, n + 1) } }) s)) := by
  simp [execCommitRepeat, hchange, hdecided, hleads, hfew, hdue]

theorem execCommitEcho_due {i b : BitVec 32} {l : List (WState × Reason)} {s : State} (hleads : leads s = true)
    (hchange : s.scene.change = none) (hdue : ∀ t : Ticks, s.scene.echoAt = some t → t ≤ s.now)
    (hlatest : s.scene.latest = some (i, b, l)) : execCommitEcho s =
      .next (floodCommit i b l (modScene (fun x => { x with echoAt := some (s.now + secT 1) }) s)) := by
  have hecho : echoOf s = some (i, b, l) := by simp [echoOf, hlatest]
  cases hat : s.scene.echoAt with
  | none => simp [execCommitEcho, hleads, hchange, hecho, hat]
  | some t => simp [execCommitEcho, hleads, hchange, hecho, hat, hdue t hat]

/-! ### A commit that is taken, or that never comes (R491, Table 10.5) -/

theorem commitIn_taken {d : Dir} {bytes : List Byte} {h : Head} {r u : State}
    (htaken : receiveFlood r d .commit bytes = .taken u h) (hlead : actingLead u = false) (hfrom : fromLead u h = true) :
    commitIn d bytes r = takeCommit h.orig (readCommit bytes).ident (readCommit bytes).beat
      (pairStates (readCommit bytes).n (readCommit bytes).states) u := by
  simp [commitIn, htaken, hlead, hfrom]

/-- A tile acts once per identifier. -/
theorem takeCommit_of_committed (lead : Serial) (beat : BitVec 32) (l : List (WState × Reason)) {c : Committed} {s : State}
    (hcommitted : s.scene.committed = some c) : takeCommit lead c.ident beat l s = s :=
  if_pos (by simp [hcommitted])

theorem execCommitDeadlineMiss_due {p : Prepared} {s : State} (hprepared : s.scene.prepared = some p) (hrun : runs s = true)
    (hcommit : p.commit = none) (hecho : p.echo = false) (hpast : beatPast p.deadline (beatNow s) = true) :
    execCommitDeadlineMiss s = .next (raise .svNolead 2 (abandon s)) := by
  simp [execCommitDeadlineMiss, hprepared, hrun, hcommit, hecho, hpast]

/-! ### The commit beat (R492, R493, R512, 12 R584) -/

@[simp] theorem overloadFaults_frame (own agreed : List (WState × Reason)) (wins : List Win) (s : State) :
    (overloadFaults own agreed wins s).scene = s.scene ∧ (overloadFaults own agreed wins s).mem = s.mem ∧
      (overloadFaults own agreed wins s).otp = s.otp := by
  have h : Only [.flt, .status, .net, .sv, .disc, .weft, .bea] s (overloadFaults own agreed wins s) := by simp
  exact ⟨h .scene (by decide), h .mem (by decide), h .otp (by decide)⟩

section Applied
variable (k : Nat) (p : Prepared) (beat : BitVec 32) (l : List (WState × Reason)) (s : State)

theorem applyCommit_committed :
    (applyCommit k p beat l s).scene.committed = some ⟨p.ident, p.key, l, beat, s.now⟩ := by simp [applyCommit]

theorem applyCommit_prepared : (applyCommit k p beat l s).scene.prepared = none := by simp [applyCommit]

theorem applyCommit_win_length : (applyCommit k p beat l s).scene.win.length = 9 := by simp [applyCommit]

/-- The pool that the windows come from is the other one; no byte of frame memory changes. -/
theorem applyCommit_pool : (applyCommit k p beat l s).mem = { s.mem with deckleB := !s.mem.deckleB } := by simp [applyCommit]

theorem applyCommit_otp : (applyCommit k p beat l s).otp = s.otp := by simp [applyCommit]

end Applied

section Due
variable {p : Prepared} {beat : BitVec 32} {l : List (WState × Reason)} {s : State}

theorem commitAtBeat_of_planned (k : Nat) (hprepared : s.scene.prepared = some p) (hcommit : p.commit = some (beat, l))
    (hecho : p.echo = false) : commitAtBeat k s = if beatPast beat k then applyCommit k p beat l s else s := by
  simp [commitAtBeat, hprepared, hcommit, hecho]

theorem commitAtBeat_of_echoed (k : Nat) {d : BitVec 32} (hprepared : s.scene.prepared = some p)
    (hcommit : p.commit = some (beat, l)) (hecho : p.echo = true) (hdue : p.due = some d) :
    commitAtBeat k s = if beatPast d k then applyCommit k p beat l s else s := by
  simp [commitAtBeat, hprepared, hcommit, hecho, hdue]

/-- An echoed scene is planned for the first beat after its preparation. -/
theorem execEchoPreparedCommit_due (hprepared : s.scene.prepared = some p) (hcommit : p.commit = some (beat, l))
    (hrun : runs s = true) (hecho : p.echo = true) (hdue : p.due = none) (hends : preparationEnds s p = true) :
    execEchoPreparedCommit s = .next (planRoute p.key (beatF s s.time.nextBeat)
      (modScene (fun x => { x with prepared := some { p with due := some (beatNo s.time.nextBeat) } }) s)) := by
  simp [execEchoPreparedCommit, hprepared, hcommit, hrun, hecho, hdue, hends]

end Due

/-! ### After the commit (12 R606, R608, 11 R555) -/

theorem execUnsolicitedReady_due {c : Committed} {s : State} (hcommitted : s.scene.committed = some c) (hrun : runs s = true)
    (hpassed : passed s.now s.adm.diffSince (secT 2) = true) (hdiffers : sameStates (reportOf s) s.adm.lastReady = false) :
    execUnsolicitedReady s = .next (sendReady c.ident (countOf c.key) (reportOf s)
      (modAdm (fun z => { z with lastReady := reportOf s, diffSince := none }) s)) := by
  simp [execUnsolicitedReady, hcommitted, hrun, hpassed, hdiffers]

/-- A window without its stream shows its fallback. -/
def streamLost (x : Win) : Win :=
  { x with noStream := true, completeSince := none, showing := .fallback, out := none, held := false }

def streamLostAt (w : Fin 9) (s : State) : State :=
  modScene (fun y => { y with win := updAt y.win w.val streamLost }) s

/-- A window that never had a complete frame loses its stream 1 s after the commit. -/
theorem execStreamLossTimeout_due {w : Fin 9} {c : Committed} {x : Win} {n : Nat} {s : State}
    (hcommitted : s.scene.committed = some c) (hrun : runs s = true) (hwin : s.scene.win[w.val]? = some x)
    (htouches : x.touches = true) (hslot : x.slot = some n) (hstream : x.noStream = false) (hnever : x.lastComplete = none)
    (hadmitted : (c.agreed.getD w.val (.served, .none)).1 ≠ .refused) (hlate : c.at_ + secT 1 ≤ s.now) :
    execStreamLossTimeout w s = .next (raise .fpNostream (BitVec.ofNat 32 w.val) (streamLostAt w s)) := by
  have hx : s.scene.win.getD w.val {} = x := by simp [List.getD_eq_getElem?_getD, hwin]
  simp only [execStreamLossTimeout, hcommitted, hx, hnever]
  refine if_pos ?_
  simp only [hrun, htouches, hslot, hstream, hlate, decide_eq_false hadmitted]
  rfl

theorem streamLostAt_win {w : Fin 9} {x : Win} {s : State} (hwin : s.scene.win[w.val]? = some x) :
    (streamLostAt w s).scene.win[w.val]? = some (streamLost x) := by
  simp [streamLostAt, updAt_eq_modify, hwin]

theorem raise_fpNostream_scene (d : BitVec 32) (s : State) : (raise .fpNostream d s).scene = s.scene := by
  have h : Only [.flt, .status, .net, .sv, .disc, .weft, .bea] s (raise .fpNostream d s) := by
    simp [show sevOf .fpNostream ≠ 3 by decide]
  exact h .scene (by decide)

/-- Settles O45: each command under its conditions; what follows a commit leaves the scene that it puts in force. -/
theorem scenesAreDecidedAndCommitted : Obligations.ScenesAreDecidedAndCommitted := by
  unfold Obligations.ScenesAreDecidedAndCommitted
  refine ⟨?decision, decisionDue_iff, ?again, ?commit, ?once, ?echo, ?miss, ?applied, ?planned, ?plan, ?echoed, ?report, ?loss⟩
  case decision => exact fun c s hchange hleads hdue => execSceneDecision_due hchange hleads hdue
  case again => exact fun c d beat n s hchange hdecided hleads hfew hdue => execCommitRepeat_due hchange hdecided hleads hfew hdue
  case commit =>
    intro link run bytes h s r u harrive htaken hlead hfrom
    exact (onKnot_of_arrive _ harrive).trans (by rw [commitIn_taken htaken hlead hfrom])
  case once =>
    rintro lead _ beat l c s hcommitted rfl
    exact takeCommit_of_committed lead beat l hcommitted
  case echo => exact fun i b l s hleads hchange hdue hlatest => execCommitEcho_due hleads hchange hdue hlatest
  case miss => exact fun p s hprepared hrun hcommit hecho hpast => execCommitDeadlineMiss_due hprepared hrun hcommit hecho hpast
  case applied =>
    intro k p beat l s
    exact ⟨applyCommit_committed k p beat l s, applyCommit_prepared k p beat l s, by rw [applyCommit_pool], by rw [applyCommit_pool],
      applyCommit_win_length k p beat l s, applyCommit_otp k p beat l s⟩
  case planned => exact fun k p beat l s hprepared hcommit hecho => commitAtBeat_of_planned k hprepared hcommit hecho
  case plan =>
    exact fun p beat l s hprepared hcommit hrun hecho hdue hends => execEchoPreparedCommit_due hprepared hcommit hrun hecho hdue hends
  case echoed => exact fun k p d beat l s hprepared hcommit hecho hdue => commitAtBeat_of_echoed k hprepared hcommit hecho hdue
  case report => exact fun c s hcommitted hrun hpassed hdiffers => execUnsolicitedReady_due hcommitted hrun hpassed hdiffers
  case loss =>
    intro w c x n s hcommitted hrun hwin htouches hslot hstream hnever hadmitted hlate
    refine ⟨_, execStreamLossTimeout_due hcommitted hrun hwin htouches hslot hstream hnever hadmitted hlate, ?_, ?_⟩
    · exact stands_raise_self _ _ _ (by decide) (by decide)
    · rw [raise_fpNostream_scene]
      exact streamLostAt_win hwin

end Sys2Proof.Machine
end

section
/-!
PROOFS. Frame memory in its canonical form (12 R576; log 14): addresses rise and no byte that reads zero is listed. Each command
that may write frame memory keeps the form by its `_mem` lemma, and no other command changes it.
-/
namespace Sys2Proof.Machine
open Sys2Proof Sys2Proof.Safety

/-- The commands that may change frame memory, and then those whose facets leave it out. -/
theorem exec_keeps_memoryCanonical {c : Instr} {s t : State} (hm : MemoryCanonical s) (h : exec c s = .next t) :
    MemoryCanonical t := by
  cases c with
  -- accesses of frame memory, and frames that are stored in it
  | memRead => exact execMemRead_mem (h := h) (hm := hm)
  | memWriteWhole => exact execMemWriteWhole_mem (h := h) (hm := hm)
  | memWritePartial => exact execMemWritePartial_mem (h := h) (hm := hm)
  | scrubLine => exact execScrubLine_mem (h := h) (hm := hm)
  | frameReceive => exact execFrameReceive_mem (h := h) (hm := hm)
  | reedBeat => exact execReedBeat_mem (h := h) (hm := hm)
  -- an initialisation
  | tapInstructionLoad => exact execTapInstructionLoad_mem (h := h) (hm := hm)
  | memoryInitComplete => exact execMemoryInitComplete_mem (h := h) (hm := hm)
  -- the beginning, the end and the restart of the core's life, standby among them
  | aonOn => exact execAonOn_mem (h := h) (hm := hm)
  | aonOff => exact execAonOff_mem (h := h) (hm := hm)
  | d1d2SwitchOn => exact execD1d2SwitchOn_mem (h := h) (hm := hm)
  | vinBrownout => exact execVinBrownout_mem (h := h) (hm := hm)
  | railBrownout => exact execRailBrownout_mem (h := h) (hm := hm)
  | brownoutRestart => exact execBrownoutRestart_mem (h := h) (hm := hm)
  | standbyBrownout => exact execStandbyBrownout_mem (h := h) (hm := hm)
  | resetNAssert => exact execResetNAssert_mem (h := h) (hm := hm)
  | resetNRelease => exact execResetNRelease_mem (h := h) (hm := hm)
  | bootCheckDone => exact execBootCheckDone_mem (h := h) (hm := hm)
  | dramTrainingDone => exact execDramTrainingDone_mem (h := h) (hm := hm)
  | standbySlowCrystalStop => exact execStandbySlowCrystalStop_mem (h := h) (hm := hm)
  | standbyPowerDown => exact execStandbyPowerDown_mem (h := h) (hm := hm)
  | livePinSample => exact execLivePinSample_mem (h := h) (hm := hm)
  | timedWake => exact execTimedWake_mem (h := h) (hm := hm)
  | wakeCheck => exact execWakeCheck_mem (h := h) (hm := hm)
  -- faults of S3
  | mdllLossOfLock => exact execMdllLossOfLock_mem (h := h) (hm := hm)
  | mdllLockTimeout => exact execMdllLockTimeout_mem (h := h) (hm := hm)
  | referenceEdgeMissing => exact execReferenceEdgeMissing_mem (h := h) (hm := hm)
  | seqWatchdogExpiry => exact execSeqWatchdogExpiry_mem (h := h) (hm := hm)
  | romCrcCheck => exact execRomCrcCheck_mem (h := h) (hm := hm)
  | xbHang => exact execXbHang_mem (h := h) (hm := hm)
  | faultRaise => exact execFaultRaise_mem (h := h) (hm := hm)
  | handlerTimeout => exact execHandlerTimeout_mem (h := h) (hm := hm)
  | s3HoldoffEnd => exact execS3HoldoffEnd_mem (h := h) (hm := hm)
  | _ => exact (exec_only h).memOk (of_decide_eq_true rfl) hm

/-- Settles O43: a step is the front command or one system clock, and the queue is no part of frame memory. -/
theorem stepKeepsMemoryCanonical : Obligations.StepKeepsMemoryCanonical := by
  unfold Obligations.StepKeepsMemoryCanonical
  intro s t hm h
  cases hp : s.pending with
  | nil =>
    obtain rfl : tick s = t := Host.Outcome.next.inj ((step_of_nil hp).symm.trans h)
    exact tick_mem s hm
  | cons c rest => exact exec_keeps_memoryCanonical (s := { s with pending := rest }) hm ((step_of_cons hp).symm.trans h)

end Sys2Proof.Machine
end

section
/-!
PROOFS. The bytes of frame memory, read back after they are written, and the marks of its lines (12 R573, R576, R577; log 14). From
them what a write of a line and a read of a valid one do (12 R578, R579, R580).
-/
namespace Sys2Proof.Machine
open Sys2Proof Sys2Proof.Safety

/-! ### Bytes -/

theorem Memory.get_of_unlisted {l : List Host.Cell} {a : Nat} (h : ∀ c ∈ l, c.1 ≠ a) : Memory.get l a = 0 := by
  induction l with
  | nil => rfl
  | cons c l ih =>
    rw [List.forall_mem_cons] at h
    simpa [Memory.get, h.1] using ih h.2

/-- Offsets rise, so that the write finds its byte where the offsets pass it. -/
theorem Memory.get_set {l : List Host.Cell} (h : Memory.wf l = true) (a x : Nat) (b : Byte) :
    Memory.get (Memory.set l a b) x = if x = a then b else Memory.get l x := by
  induction l with
  | nil =>
    unfold Memory.set
    split
    case isTrue hb => simp [hb, Memory.get]
    case isFalse => simp [Memory.get, eq_comm (a := a)]
  | cons c l ih =>
    obtain ⟨-, habove, hl⟩ := (Memory.wf_cons c l).1 h
    unfold Memory.set
    rcases Nat.lt_trichotomy a c.1 with hlt | rfl | hgt
    case inl =>
      have hunlisted : Memory.get (c :: l) a = 0 := by
        refine Memory.get_of_unlisted (List.forall_mem_cons.2 ⟨by omega, fun d hd => ?_⟩)
        have := habove d hd
        omega
      rw [if_pos hlt]
      split
      case isTrue hb => split <;> simp_all
      case isFalse => simp [Memory.get, eq_comm (a := a)]
    case inr.inl =>
      have hunlisted : Memory.get l c.1 = 0 := Memory.get_of_unlisted fun d hd => (habove d hd).ne'
      rw [if_neg (Nat.lt_irrefl _), if_pos rfl]
      by_cases hx : x = c.1
      · rw [if_pos hx]
        split
        case isTrue hb => rw [hx, hunlisted, hb]
        case isFalse => simp [hx, Memory.get]
      · rw [if_neg hx]
        split <;> simp [Memory.get, Ne.symm hx]
    case inr.inr =>
      rw [if_neg (by omega), if_neg (by omega)]
      by_cases hx : c.1 = x
      · simp [Memory.get, hx, show x ≠ a by omega]
      · simp [Memory.get, hx, ih hl]

theorem Memory.get_setAll {l : List Host.Cell} (h : Memory.wf l = true) (a x : Nat) (bs : List Byte) :
    Memory.get (Memory.setAll l a bs) x = if a ≤ x ∧ x < a + bs.length then bs.getD (x - a) 0 else Memory.get l x := by
  induction bs generalizing l a with
  | nil => simp [Memory.setAll, show ¬ (a ≤ x ∧ x < a) by omega]
  | cons b bs ih =>
    rw [Memory.setAll, ih (Memory.wf_set l a b h), Memory.get_set h]
    rcases Nat.lt_trichotomy x a with hlt | rfl | hgt
    · simp [show ¬ a ≤ x by omega, show ¬ a + 1 ≤ x by omega, show x ≠ a by omega]
    · simp
    · obtain ⟨k, rfl⟩ : ∃ k, x = a + 1 + k := ⟨x - (a + 1), by omega⟩
      simp [show a + 1 + k - a = k + 1 by omega, show a + 1 + k ≠ a by omega, show a ≤ a + 1 + k by omega,
        show a + 1 + k < a + (bs.length + 1) ↔ k < bs.length by omega]

/-- The 64 bytes of a line are written, and no other. -/
theorem Memory.get_setAll_line {l : List Host.Cell} (h : Memory.wf l = true) (line x : Nat) {data : List Byte} (hlen : data.length = 64) :
    Memory.get (Memory.setAll l (64 * line) data) x = if x / 64 = line then data.getD (x % 64) 0 else Memory.get l x := by
  rw [Memory.get_setAll h, hlen]
  by_cases hx : x / 64 = line
  · rw [if_pos (by omega), if_pos hx, show x - 64 * line = x % 64 by omega]
  · rw [if_neg (by omega), if_neg hx]

@[simp] theorem lineBytes_length (s : State) (line : Nat) : (lineBytes s line).length = 64 := by simp [lineBytes]

theorem getD_lineBytes (s : State) {x line : Nat} (h : x / 64 = line) :
    (lineBytes s line).getD (x % 64) 0 = Memory.get s.mem.bytes x := by
  have hx : 64 * line + x % 64 = x := by omega
  simp [lineBytes, List.getD_eq_getElem?_getD, Nat.mod_lt x (show 64 > 0 by decide), hx]

/-- A line reads as the data of which each of its bytes is. -/
theorem lineBytes_eq {s : State} {line : Nat} {data : List Byte} (hlen : data.length = 64)
    (h : ∀ x, x / 64 = line → Memory.get s.mem.bytes x = data.getD (x % 64) 0) : lineBytes s line = data := by
  refine List.ext_getElem (by simp [hlen]) fun i hi hd => ?_
  have hx : (64 * line + i) / 64 = line ∧ (64 * line + i) % 64 = i := by simp at hi; omega
  simp [lineBytes, h _ hx.1, hx.2, List.getD_eq_getElem?_getD, hd]

/-! ### Marks of lines -/

theorem find?_insertBy_other {α : Type} {le : α → α → Bool} {p : α → Bool} {x : α} (h : p x = false) (l : List α) :
    (insertBy le x l).find? p = l.find? p := by
  induction l with
  | nil => simp [insertBy, h]
  | cons y l ih =>
    unfold insertBy
    split
    · simp [h]
    · simp [List.find?_cons, ih]

theorem find?_insertBy_self {α : Type} {le : α → α → Bool} {p : α → Bool} {x : α} (h : p x = true) {l : List α}
    (hl : ∀ y ∈ l, p y = false) : (insertBy le x l).find? p = some x := by
  induction l with
  | nil => simp [insertBy, h]
  | cons y l ih =>
    obtain ⟨hy, hl⟩ := List.forall_mem_cons.1 hl
    unfold insertBy
    split
    · simp [h]
    · simp [hy, ih hl]

/-- A mark that is set or cleared is that of its line alone. -/
theorem lineBad_setBad (line l : Nat) (b : Option LineBad) (s : State) :
    lineBad (setBad line b s) l = if l = line then b else lineBad s l := by
  by_cases hl : l = line
  · subst hl
    have hnone : ∀ e ∈ s.mem.bad.filter (fun e => e.1 != l), (e.1 == l) = false := by
      intro e he
      simpa using (List.mem_filter.1 he).2
    cases b with
    | none => simp [lineBad, setBad, List.find?_eq_none]
    | some x => simp [lineBad, setBad, find?_insertBy_self (x := (l, x)) (p := fun e => e.1 == l) (by simp) hnone]
  · have hrest : (s.mem.bad.filter (fun e => e.1 != line)).find? (fun e => e.1 == l) = s.mem.bad.find? (fun e => e.1 == l) := by
      rw [List.find?_filter]
      congr 1
      funext e
      by_cases he : e.1 = l
      · simp [he, hl]
      · simp [he]
    cases b with
    | none => simp [lineBad, setBad, hrest, hl]
    | some x =>
      simp [lineBad, setBad, hl, hrest,
        find?_insertBy_other (x := (line, x)) (p := fun e => e.1 == l) (by simpa using Ne.symm hl)]

@[simp] theorem setBad_bytes (line : Nat) (b : Option LineBad) (s : State) : (setBad line b s).mem.bytes = s.mem.bytes := rfl

theorem lineBad_congr {s t : State} (h : t.mem.bad = s.mem.bad) (l : Nat) : lineBad t l = lineBad s l := by
  simp only [lineBad, h]

theorem lineBytes_congr {s t : State} (h : t.mem.bytes = s.mem.bytes) (l : Nat) : lineBytes t l = lineBytes s l := by
  simp only [lineBytes, h]

/-! ### A line that is written -/

section Line
variable {s : State} (line : Nat) {data : List Byte}

theorem lineBad_writeLine (s : State) (data : List Byte) (l : Nat) :
    lineBad (writeLine line data s) l = if l = line then none else lineBad s l :=
  lineBad_setBad line l none _

theorem get_writeLine (hm : MemoryCanonical s) (hlen : data.length = 64) (x : Nat) :
    Memory.get (writeLine line data s).mem.bytes x = if x / 64 = line then data.getD (x % 64) 0 else Memory.get s.mem.bytes x := by
  have h := Memory.get_setAll_line hm line x hlen
  simpa [writeLine, ← hlen] using h

theorem lineBytes_writeLine (hm : MemoryCanonical s) (hlen : data.length = 64) : lineBytes (writeLine line data s) line = data :=
  lineBytes_eq hlen fun x hx => (get_writeLine line hm hlen x).trans (if_pos hx)

end Line

/-! ### A partial write that is merged (R580) -/

/-- The bytes from `n` on are replaced. -/
def splice {α : Type} (old : List α) (n : Nat) (data : List α) : List α := old.take n ++ data ++ old.drop (n + data.length)

theorem length_splice {α : Type} {old data : List α} {n : Nat} (h : n + data.length ≤ old.length) :
    (splice old n data).length = old.length := by
  simp [splice]
  omega

theorem getD_splice {α : Type} {old data : List α} {n : Nat} (h : n + data.length ≤ old.length) (i : Nat) (d : α) :
    (splice old n data).getD i d = if n ≤ i ∧ i < n + data.length then data.getD (i - n) d else old.getD i d := by
  have hn : (old.take n).length = n := by simp; omega
  have hleft : (old.take n ++ data).length = n + data.length := by simp; omega
  simp only [List.getD_eq_getElem?_getD, splice]
  rcases Nat.lt_or_ge i n with hlt | hge
  · rw [if_neg (by omega), List.getElem?_append_left (by omega), List.getElem?_append_left (by omega), List.getElem?_take_of_lt hlt]
  · rcases Nat.lt_or_ge i (n + data.length) with hlt | hout
    · rw [if_pos ⟨hge, hlt⟩, List.getElem?_append_left (by omega), List.getElem?_append_right (by omega), hn]
    · rw [if_neg (by omega), List.getElem?_append_right (by omega), hleft, List.getElem?_drop,
        show n + data.length + (i - (n + data.length)) = i by omega]

/-- A line that reads without error takes the data at its place. -/
theorem mergeMem_of_valid {offset : Nat} {s : State} (hbad : lineBad s (lineOf offset) = none) (m : Master) (data : List Byte) :
    mergeMem m offset data s =
      writeLine (lineOf offset) (splice (lineBytes s (lineOf offset)) (offset % 64) data) s := by
  simp [mergeMem, hbad, untrusted, splice]

theorem get_mergeMem_of_valid {offset : Nat} {s : State} {data : List Byte} (hm : MemoryCanonical s)
    (hbad : lineBad s (lineOf offset) = none) (hfits : offset % 64 + data.length ≤ 64) (m : Master) (x : Nat) :
    Memory.get (mergeMem m offset data s).mem.bytes x =
      if offset ≤ x ∧ x < offset + data.length then data.getD (x - offset) 0 else Memory.get s.mem.bytes x := by
  have hline : offset % 64 + data.length ≤ (lineBytes s (lineOf offset)).length := by simpa using hfits
  rw [mergeMem_of_valid hbad, get_writeLine _ hm ((length_splice hline).trans (lineBytes_length _ _)), getD_splice hline]
  unfold lineOf
  by_cases hx : x / 64 = offset / 64
  · rw [if_pos hx, getD_lineBytes s hx]
    by_cases hin : offset ≤ x ∧ x < offset + data.length
    · rw [if_pos (by omega), if_pos hin, show x % 64 - offset % 64 = x - offset by omega]
    · rw [if_neg (by omega), if_neg hin]
  · rw [if_neg hx, if_neg (by omega)]

/-! ### The accesses of a master that frame memory answers, where none finds a new error (R578 to R580) -/

section Access
variable {m : Master} {offset : Nat} {s : State} (hrun : runs s = true) (haccess : mayAccess s m = true)
include hrun haccess

theorem execMemRead_answered (hanswers : memAnswers s m false offset = true) :
    exec (.memRead m offset .none) s = .next (readMem m offset s) := by
  simp [exec, execMemRead, hrun, haccess, hanswers, noteUpset]

theorem execMemWriteWhole_answered (hanswers : memAnswers s m true offset = true) (data : List Byte) :
    exec (.memWriteWhole m offset data) s = .next (writeLine (lineOf offset) data s) := by
  simp [exec, execMemWriteWhole, hrun, haccess, hanswers]

theorem execMemWritePartial_answered (hanswers : memAnswers s m true offset = true) (data : List Byte) :
    exec (.memWritePartial m offset data .none) s = .next (mergeMem m offset data s) := by
  simp [exec, execMemWritePartial, hrun, haccess, hanswers, noteUpset]

end Access

theorem readMem_of_valid {offset : Nat} {s : State} (hbad : lineBad s (lineOf offset) = none) (m : Master) :
    readMem m offset s = modMem (fun x => { x with lastRead := some (m, offset, lineBytes s (lineOf offset), false) }) s := by
  simp [readMem, hbad]

/-- Settles O40: a byte written and read back, then a line, of which each write is the bytes of its offsets and one mark. -/
theorem memoryReadsBackWhatWasWritten : Obligations.MemoryReadsBackWhatWasWritten := by
  unfold Obligations.MemoryReadsBackWhatWasWritten
  refine ⟨fun l a x b hwf => Memory.get_set hwf a x b, ?whole, ?part, ?read⟩
  case whole =>
    intro m offset data s hrun haccess hanswers hlen hm
    refine ⟨_, execMemWriteWhole_answered hrun haccess hanswers data, lineBytes_writeLine _ hm hlen, ?_, fun x hx => ?_, fun l hl => ?_,
      writeLine_mem _ _ s hm, rfl⟩
    · exact (lineBad_writeLine _ s data _).trans (if_pos rfl)
    · exact (get_writeLine _ hm hlen x).trans (if_neg hx)
    · exact (lineBad_writeLine _ s data l).trans (if_neg hl)
  case part =>
    intro m offset data s hrun haccess hanswers hfits hbad hm
    have hget := get_mergeMem_of_valid hm hbad hfits m
    refine ⟨_, execMemWritePartial_answered hrun haccess hanswers data, fun i hi => ?_, fun x hx => ?_, ?_⟩
    · exact (hget _).trans (by simp [hi])
    · exact (hget x).trans (if_neg (by omega))
    · rw [mergeMem_of_valid hbad]
      exact ⟨(lineBad_writeLine _ s _ _).trans (if_pos rfl), rfl⟩
  case read =>
    intro m offset s hrun haccess hanswers hbad
    rw [execMemRead_answered hrun haccess hanswers, readMem_of_valid hbad]
    rfl

end Sys2Proof.Machine
end

section
/-!
PROOFS. Lines of frame memory that cannot be trusted (12 R577, R578, R580, R583): the reads that flag them, and the partial writes and
scrubs that poison them. The faults that tell of them leave frame memory as it is, those of S3 among them.
-/
namespace Sys2Proof.Machine
open Sys2Proof Sys2Proof.Safety

/-! ### A fault leaves frame memory (19 R907; 04 R142) -/

/-- The facets of an S3 fault that does not lose the core. -/
def s3Facets : List Facet := [.pwr, .clk, .boot, .test, .flt, .holds, .ldg, .status, .net, .sv, .disc, .weft, .aud, .bea]

theorem s3Announced_s3Facets (f : FaultName) (detail : BitVec 32) (s : State) : Only s3Facets s (s3Announced f detail s) := by
  simp [s3Announced, s3Facets]

theorem handleS3_s3Facets {f : FaultName} (hf : f ≠ .pwrBrownout) (detail : BitVec 32) (s : State) :
    Only s3Facets s (handleS3 f detail s) := by
  rw [handleS3_eq]
  have hhold : Only s3Facets s (beginHold f (s3Announced f detail s)) := by
    simpa [s3Facets] using s3Announced_s3Facets f detail s
  exact hhold.trans ((s3Action_keeps _ hf).mono (by decide))

theorem raiseS3_s3Facets {f : FaultName} (hf : f ≠ .pwrBrownout) (detail : BitVec 32) (s : State) :
    Only s3Facets s (raiseS3 f detail s) := by
  have hring (u : State) : Only s3Facets u (writeRing f false detail u) := by simp [s3Facets]
  have hnote : Only s3Facets s (writeRing f false detail (noteRaise f (faultKey f detail) detail s)) := by simp [s3Facets]
  unfold raiseS3
  split
  · exact hnote
  · split
    · exact handleS3_s3Facets hf detail s
    · split
      · exact hring s
      · split
        · exact handleS3_s3Facets (by decide) detail s
        · exact (hnote.trans ((s3Action_keeps _ hf).mono (by decide))).trans (handleS3_s3Facets (by decide) 0 _)

/-- Only a brown-out loses frame memory. -/
theorem raise_mem_eq {f : FaultName} (hf : f ≠ .pwrBrownout) (detail : BitVec 32) (s : State) : (raise f detail s).mem = s.mem := by
  by_cases h3 : sevOf f = 3
  · have hkeeps : Only s3Facets s (raise f detail s) := by
      simp only [raise, h3, if_true]
      split
      · simp
      · exact raiseS3_s3Facets hf detail s
    exact hkeeps .mem (by decide)
  · simp [h3]

@[simp] theorem countUp_mem_eq (i n : Nat) (s : State) : (countUp i n s).mem = s.mem := rfl

@[simp] theorem corrected_mem_eq (offset : Nat) (s : State) : (corrected offset s).mem = s.mem := by simp [corrected]

@[simp] theorem poisoned_mem_eq (m : Master) (s : State) : (poisoned m s).mem = s.mem := by simp [poisoned]

@[simp] theorem treatPoison_mem_eq (m : Master) (line : Nat) (s : State) : (treatPoison m line s).mem = s.mem := by
  have h : Only [.weft] s (treatPoison m line s) := by simp
  exact h .mem (by decide)

/-- A poisoning is counted among the events of the last second (Table 12.8); lines and the record of the writer stand. -/
theorem poisonEvent_lines (m : Master) (offset : Nat) (s : State) : (poisonEvent m offset s).mem.bytes = s.mem.bytes ∧
    (poisonEvent m offset s).mem.bad = s.mem.bad ∧ (poisonEvent m offset s).mem.lastMergeFail = s.mem.lastMergeFail := by
  have htrain (detail : BitVec 32) (u : State) : (raise .memTrain detail u).mem = u.mem := raise_mem_eq (by decide) detail u
  simp only [poisonEvent]
  split <;> simp [htrain]

/-! ### A line that is poisoned (R577) -/

section Poison
variable {s : State} (line : Nat)

theorem lineBad_poisonLine (s : State) : lineBad (poisonLine line s) line = some .poison :=
  (lineBad_setBad line line (some .poison) _).trans (if_pos rfl)

theorem get_poisonLine (hm : MemoryCanonical s) (x : Nat) :
    Memory.get (poisonLine line s).mem.bytes x = if x / 64 = line then 0 else Memory.get s.mem.bytes x := by
  simp only [poisonLine, setBad_bytes, mem_of_modMem]
  rw [Memory.get_setAll_line hm line x List.length_replicate, List.getD_replicate _ (Nat.mod_lt x (show 64 > 0 by decide))]

theorem poisonLine_lastMergeFail (s : State) : (poisonLine line s).mem.lastMergeFail = s.mem.lastMergeFail := by
  simp only [poisonLine, setBad, mem_of_modMem]

/-- A line reads as poison: zeros under the mark. -/
def Poisoned (t : State) : Prop := lineBad t line = some .poison ∧ lineBytes t line = List.replicate 64 0

theorem poisonLine_poisoned (hm : MemoryCanonical s) : Poisoned line (poisonLine line s) :=
  ⟨lineBad_poisonLine line s, lineBytes_eq List.length_replicate fun x hx =>
    ((get_poisonLine line hm x).trans (if_pos hx)).trans (List.getD_replicate _ (Nat.mod_lt x (show 64 > 0 by decide))).symm⟩

/-- The poison stands while no byte and no mark changes. -/
theorem Poisoned.congr {line : Nat} {t : State} (h : Poisoned line s) (hbytes : t.mem.bytes = s.mem.bytes) (hbad : t.mem.bad = s.mem.bad) :
    Poisoned line t :=
  ⟨(lineBad_congr hbad line).trans h.1, (lineBytes_congr hbytes line).trans h.2⟩

end Poison

/-! ### Reads (R578, Table 12.1) -/

section Read
variable {offset : Nat} {s : State} (m : Master)

theorem readMem_of_poison (h : lineBad s (lineOf offset) = some .poison) :
    (readMem m offset s).mem = { s.mem with lastRead := some (m, offset, List.replicate 64 0, true) } := by
  simp only [readMem, h, treatPoison_mem_eq, countUp_mem_eq, poisoned_mem_eq, mem_of_modMem]

theorem readMem_of_uncorrectable (h : lineBad s (lineOf offset) = some .uncorrectable) :
    (readMem m offset s).mem = { s.mem with lastRead := some (m, offset, lineBytes s (lineOf offset), true) } := by
  simp [readMem, h]

theorem readMem_of_oneSymbol (h : lineBad s (lineOf offset) = some .oneSymbol) :
    (readMem m offset s).mem = { s.mem with lastRead := some (m, offset, lineBytes s (lineOf offset), false) } := by
  simp [readMem, h]

end Read

/-! ### A partial write to a line that cannot be trusted (R580) -/

/-- The writer of a partial write that is not merged is recorded. -/
def noteMergeFail (m : Master) (offset : Nat) (s : State) : State := modMem (fun x => { x with lastMergeFail := some (m, offset) }) s

theorem mergeMem_of_untrusted {offset : Nat} {s : State} (h : untrusted (lineBad s (lineOf offset)) = true) (m : Master)
    (data : List Byte) : mergeMem m offset data s = poisonEvent m offset (poisonLine (lineOf offset) (noteMergeFail m offset s)) := by
  simp only [mergeMem, h, if_true, noteMergeFail]

/-! ### The scrubber (R583) -/

theorem execScrubLine_due {s : State} (hrun : runs s = true) (hdom : domOn s 6 = true) (hready : s.mem.ready = true) (upset : Upset) :
    exec (.scrubLine upset) s = .next (scrubNext (scrubOne (noteScrub (noteUpset (lineOf s.mem.scrubAt) upset s)))) := by
  simp [exec, execScrubLine, hrun, hdom, hready]

theorem scrubOne_noteScrub_of_valid {s : State} (h : lineBad s (lineOf s.mem.scrubAt) = none) : scrubOne (noteScrub s) = s := by
  simp [scrubOne, noteScrub, h]

/-- A scrubbed line whose data cannot be trusted is poisoned, counted and noted as a failure in service. -/
theorem scrubOne_noteScrub_of_uncorrectable {s : State} (h : lineBad s (lineOf s.mem.scrubAt) = some .uncorrectable) :
    scrubOne (noteScrub s) = poisonEvent 21 s.mem.scrubAt (modMem (fun m => { m with runPoison := m.runPoison + 1 })
      (poisonLine (lineOf s.mem.scrubAt) (addResult (testNo .scrub) .fail s))) := by
  have hkeep : (addResult (testNo .scrub) .fail s).mem = s.mem := rfl
  have hbad := (lineBad_congr (congrArg Mem.bad hkeep) (lineOf s.mem.scrubAt)).trans h
  simp [scrubOne, noteScrub, h, hkeep, hbad]

@[simp] theorem scrubNext_lines (s : State) : (scrubNext s).mem.bytes = s.mem.bytes ∧ (scrubNext s).mem.bad = s.mem.bad := by
  unfold scrubNext
  rw [mem_of_modMem]
  split <;> exact ⟨rfl, rfl⟩

theorem scrub_of_uncorrectable_poisoned {s : State} (hm : MemoryCanonical s)
    (h : lineBad s (lineOf s.mem.scrubAt) = some .uncorrectable) :
    Poisoned (lineOf s.mem.scrubAt) (scrubNext (scrubOne (noteScrub s))) := by
  have hnoted : MemoryCanonical (addResult (testNo .scrub) .fail s) := hm
  rw [scrubOne_noteScrub_of_uncorrectable h]
  refine (poisonLine_poisoned _ hnoted).congr ?_ ?_ <;> simp only [scrubNext_lines, poisonEvent_lines, mem_of_modMem]

/-- Settles O41: each access ends in the operation of the line's mark, and the faults that follow leave the line. -/
theorem untrustedLinesArePoisoned : Obligations.UntrustedLinesArePoisoned := by
  unfold Obligations.UntrustedLinesArePoisoned
  refine ⟨?poison, ?uncorrectable, ?oneSymbol, ?part, ?valid, ?scrub⟩
  case poison =>
    intro m offset s hrun haccess hanswers hbad
    have hmem := readMem_of_poison m hbad
    exact ⟨_, execMemRead_answered hrun haccess hanswers, by rw [hmem], by rw [hmem], by rw [hmem]⟩
  case uncorrectable =>
    intro m offset s hrun haccess hanswers hbad
    have hmem := readMem_of_uncorrectable m hbad
    exact ⟨_, execMemRead_answered hrun haccess hanswers, by rw [hmem], by rw [hmem]⟩
  case oneSymbol =>
    intro m offset s hrun haccess hanswers hbad
    have hmem := readMem_of_oneSymbol m hbad
    exact ⟨_, execMemRead_answered hrun haccess hanswers, by rw [hmem], by rw [hmem]⟩
  case part =>
    intro m offset data s hrun haccess hanswers hbad hm
    have hnoted : MemoryCanonical (noteMergeFail m offset s) := hm
    refine ⟨_, execMemWritePartial_answered hrun haccess hanswers data, ?_⟩
    rw [mergeMem_of_untrusted hbad]
    obtain ⟨hbytes, hmarks, hwriter⟩ := poisonEvent_lines m offset (poisonLine (lineOf offset) (noteMergeFail m offset s))
    obtain ⟨hpoison, hzero⟩ := (poisonLine_poisoned (lineOf offset) hnoted).congr hbytes hmarks
    refine ⟨hpoison, hzero, hwriter.trans (poisonLine_lastMergeFail _ _), fun x hx => ?_⟩
    rw [hbytes]
    exact (get_poisonLine _ hnoted x).trans (if_neg hx)
  case valid =>
    intro s hrun hdom hready hbad
    rw [execScrubLine_due hrun hdom hready, noteUpset, scrubOne_noteScrub_of_valid hbad]
    rfl
  case scrub =>
    intro s hrun hdom hready hbad hm
    have hupset : lineBad (noteUpset (lineOf s.mem.scrubAt) .uncorrectable s) (lineOf s.mem.scrubAt) = some .uncorrectable := by
      simp [noteUpset, lineBad_setBad, hbad, worse]
    have hcanon : MemoryCanonical (noteUpset (lineOf s.mem.scrubAt) .uncorrectable s) := hm
    exact ⟨_, execScrubLine_due hrun hdom hready .uncorrectable, scrub_of_uncorrectable_poisoned hcanon hupset⟩

end Sys2Proof.Machine
end

section
/-!
PROOFS. Requests on the crossbar (12 R588 to R594, R614, R620): the pieces of a request, what becomes of a piece that is issued, and
the hang of a master.
-/
namespace Sys2Proof.Machine
open Sys2Proof Sys2Proof.Safety

/-! ### The pieces of a request (R590) -/

/-- A piece that lies within one block of 256 bytes and within the request. -/
def PieceOf (a len : Nat) (p : Nat × Nat) : Prop := p.1 / 256 = (p.1 + p.2 - 1) / 256 ∧ 0 < p.2 ∧ a ≤ p.1 ∧ p.1 + p.2 ≤ a + len

/-- `n` blocks of 256 bytes are enough for the request: its pieces cover it. -/
theorem splitPieces_covers (n : Nat) {a len : Nat} (hpos : 0 < len) (hfits : a % 256 + len ≤ 256 * n) :
    ((splitPieces n a len).map Prod.snd).sum = len ∧ ∀ p ∈ splitPieces n a len, PieceOf a len p := by
  induction n generalizing a len with
  | zero => omega
  | succ n ih =>
    unfold splitPieces
    dsimp only
    split
    case isTrue hlast => simp [PieceOf]; omega
    case isFalse hmore =>
      have hhere : min len (256 - a % 256) = 256 - a % 256 := by omega
      rw [hhere] at hmore ⊢
      obtain ⟨hsum, hpieces⟩ := ih (a := a + (256 - a % 256)) (len := len - (256 - a % 256)) (by omega) (by omega)
      refine ⟨?_, List.forall_mem_cons.2 ⟨?_, fun p hp => ?_⟩⟩
      · rw [List.map_cons, List.sum_cons, hsum]
        omega
      · simp only [PieceOf]
        omega
      · obtain ⟨hblock, hp0, hlow, hhigh⟩ := hpieces p hp
        exact ⟨hblock, hp0, by omega, by omega⟩

/-! ### A piece that is issued (R588, R591 to R593) -/

section Piece
variable {m : Master} {write pooled : Bool} {a : Nat} (len : Nat) {s : State} (hmay : mayIssue s m = some pooled)
include hmay

/-- A piece whose target answers and is free is granted at once. -/
theorem issuePiece_granted (hanswers : answers s (targetOf s m write a) = true) (hfree : targetBusy s (targetOf s m write a) = false) :
    issuePiece m write a len s = grantTo (targetOf s m write a) m write a len
      (modXb (fun x => { x with nextId := (x.nextId + 1) % 16384 }) s) := by
  simp only [issuePiece, hmay]
  exact if_pos (Bool.and_eq_true_iff.2 ⟨hanswers, congrArg not hfree⟩)

/-- The piece that is left pending. -/
def pendingPiece (m : Master) (write pooled : Bool) (a len : Nat) (s : State) : Piece :=
  ⟨m, (s.xb.nextId + 1) % 16384, pooled, targetOf s m write a, a, len, write, s.clk.count⟩

theorem issuePiece_pend_of_unanswered (hanswers : answers s (targetOf s m write a) = false) :
    (issuePiece m write a len s).xb.pend = s.xb.pend ++ [pendingPiece m write pooled a len s] := by
  simp only [issuePiece, hmay]
  rw [if_neg]
  · rfl
  · intro h
    exact absurd ((Bool.and_eq_true_iff.1 h).1.symm.trans hanswers) (by decide)

end Piece

/-! ### The hang of a master (R594, R595, R620) -/

/-- The master's requests are gone, and the hang is recorded and counted. -/
def hangNoted (m : Master) (p : Piece) (s : State) : State :=
  countUp ctHang 1 (modXb (fun x => { x with
    pend := x.pend.filter (fun q => q.master != m), held := x.held.filter (fun q => q.master != m)
    lastHang := some (m, p.address, qosOf m) }) s)

theorem hangNoted_pend (m : Master) (p : Piece) (s : State) : ∀ q ∈ (hangNoted m p s).xb.pend, q.master ≠ m := by
  intro q hq
  simpa using (List.mem_filter.1 hq).2

/-- The hang is among those of the last 10 min. -/
def hangListed (m : Master) (s : State) : State :=
  modFlt (fun z => { z with hangs := (m, s.now) :: z.hangs.filter (fun h => s.now < h.2 + secT 600) }) s

/-- The master is reset, and its fault is raised. -/
def hangReset (m : Master) (p : Piece) (s : State) : State :=
  raise .xbHang (BitVec.ofNat 32 m.val) (resetMaster m (hangListed m (hangNoted m p s)))

theorem hangReset_keeps (m : Master) (p : Piece) (s : State) :
    Only [.flt, .status, .net, .sv, .disc, .adm, .weft, .aud, .bea] (hangListed m (hangNoted m p s)) (hangReset m p s) := by
  simp [hangReset]

theorem hangReset_hangs (m : Master) (p : Piece) (s : State) : (hangReset m p s).flt.hangs =
    (m, s.now) :: s.flt.hangs.filter (fun h => s.now < h.2 + secT 600) := by
  obtain ⟨-, -, -, -, -, -, hhangs⟩ := hangReset_keeps m p s .holds (by decide)
  exact hhangs

/-- One hang in 10 min is fewer than three. -/
theorem hangsOf_hangReset_first {m : Master} {s : State} (hfirst : s.flt.hangs = []) (p : Piece) : hangsOf (hangReset m p s) m < 3 := by
  have hlist : (hangReset m p s).flt.hangs = [(m, s.now)] := by simp [hangReset_hangs, hfirst]
  have hle : hangsOf (hangReset m p s) m ≤ (hangReset m p s).flt.hangs.length := List.length_filter_le _ _
  rw [hlist] at hle
  exact hle.trans_lt (show 1 < 3 by decide)

section Hang
variable {m : Master} {p : Piece} {s : State} (hold : oldestPiece s m = some p) (hrun : runs s = true)
  (hlate : p.issued + hangClocks ≤ s.clk.count)
include hold hrun hlate

/-- Master 16 is the sequencer. -/
theorem execXbHang_sequencer (hm : m.val = 16) : exec (.xbHang m) s = .next (raise .seqWatchdog 0 (hangNoted m p s)) := by
  simp [exec, execXbHang, hold, hrun, Nat.not_lt.2 hlate, hm, hangNoted]

/-- The hang of another master resets it; the third in 10 min raises `f:FM_DOUBLE` besides (R620). -/
theorem execXbHang_other (hm : m.val ≠ 16) : exec (.xbHang m) s = .next (if 3 ≤ hangsOf (hangReset m p s) m then
    raise .fmDouble 4 (hangReset m p s) else hangReset m p s) := by
  simp only [exec, execXbHang, hold, hrun, Nat.not_lt.2 hlate, hm]
  rfl

end Hang

/-- Settles O42: a request by its pieces, a piece by whether its target answers, and the hang of a master by what it lists. -/
theorem crossbarAnswersOrHangs : Obligations.CrossbarAnswersOrHangs := by
  unfold Obligations.CrossbarAnswersOrHangs
  refine ⟨?request, ?split, ?granted, ?unmapped, ?sequencer, ?hang, ?access⟩
  case request =>
    intro m write a len s hrun haccess
    simp [exec, execXbTransaction, hrun, haccess]
  case split =>
    intro a len hpos hmax
    exact splitPieces_covers 17 hpos (by omega)
  case granted =>
    intro m write pooled a len s hmay hanswers hfree
    rw [issuePiece_granted len hmay hanswers hfree]
    rfl
  case unmapped =>
    intro m write pooled a len s hmay htarget
    exact ⟨_, issuePiece_pend_of_unanswered len hmay (by rw [htarget]; rfl), rfl, rfl, htarget, rfl⟩
  case sequencer =>
    intro m p s hold hrun hlate hm
    exact ⟨_, execXbHang_sequencer hold hrun hlate hm, _, rfl, rfl, hangNoted_pend m p s, rfl⟩
  case hang =>
    intro m p s hold hrun hlate hm hfirst
    have hxb : (hangReset m p s).xb = (hangNoted m p s).xb := hangReset_keeps m p s .xb (by decide)
    have hexec := execXbHang_other hold hrun hlate hm
    rw [if_neg (Nat.not_le.2 (hangsOf_hangReset_first hfirst p))] at hexec
    refine ⟨_, hexec, stands_raise_self _ _ _ (by decide) (by decide),
      ?_, by rw [hxb]; rfl, by simp [hangReset_hangs, hfirst]⟩
    rw [hxb]
    exact hangNoted_pend m p s
  case access =>
    intro m s hm
    simp [mayAccess, hm]

end Sys2Proof.Machine
end

section
/-!
PROOFS. The dialogue with a card, step by step (18 R867, R871, R879 to R881, Tables 18.2 and 18.7), and the TAP (17 R850, R851, R856;
02 R74; log 79). A step whose characters bring a status word sends its command and goes on by that word; one that asks for a character
too often ends the session (16 R803; log 91).
-/
namespace Sys2Proof.Machine
open Sys2Proof Sys2Proof.Safety

/-! ### A step of the dialogue (R867) -/

section Step
variable {chars : List (BitVec 9)} {bytes : List Byte} {errors : Nat} {n : Nat} {cmd data : List Byte} {le : Nat} {sw : BitVec 16}
  {s : State} {next : List Byte → BitVec 16 → State → State}

theorem apduStep_of_status (htake : takeChars s.card.direct 0 chars = some (bytes, errors))
    (hsw : (t0Run cmd data le bytes).sw = some sw) : apduStep n cmd data le chars next s =
      some (next (t0Run cmd data le bytes).got sw (sendStep n cmd data (t0Run cmd data le bytes).out sw (signalErrors errors s))) := by
  simp [apduStep, htake, hsw]

theorem apduStep_of_unreadable (htake : takeChars s.card.direct 0 chars = none) :
    apduStep n cmd data le chars next s = some (cardFail 5 s) := by
  simp [apduStep, htake]

end Step

section Sent
variable (n : Nat) (cmd data out : List Byte) (sw : BitVec 16) (errors : Nat) (s : State)

theorem sendStep_signalErrors_keeps : Only [.sent, .card, .dlg] s (sendStep n cmd data out sw (signalErrors errors s)) := by simp

theorem sendStep_sent : (sendStep n cmd data out sw s).sent = .apdu cmd data :: s.sent := rfl

theorem sendStep_signalErrors_dlg :
    (sendStep n cmd data out sw (signalErrors errors s)).dlg = { s.dlg with recStep := n, recSw := sw } := by
  have h : Only [.sent] s (signalErrors errors s) := by simp
  exact congrArg (fun d : Dlg => { d with recStep := n, recSw := sw }) (h .dlg (by decide))

/-- The step is complete: its command has left, and its status word was accepted. -/
def stepDone : State := modDlg (fun d => { d with step := n }) (sendStep n cmd data out sw (signalErrors errors s))

theorem stepDone_keeps : Only [.sent, .card, .dlg] s (stepDone n cmd data out sw errors s) := by simp [stepDone]

theorem stepDone_sent : (stepDone n cmd data out sw errors s).sent.head? = some (.apdu cmd data) := rfl

theorem stepDone_dlg : (stepDone n cmd data out sw errors s).dlg = { s.dlg with step := n, recStep := n, recSw := sw } := by
  rw [stepDone, modDlg_dlg, sendStep_signalErrors_dlg]

end Sent

theorem endStep_accepted {n : Nat} {cmd data out : List Byte} {sw : BitVec 16} {errors : Nat} {s : State} :
    endStep n sw sw (sendStep n cmd data out sw (signalErrors errors s)) = stepDone n cmd data out sw errors s := if_pos rfl

theorem takeReply_whole {got : List Byte} (hlen : got.length = 148) (s : State) :
    takeReply got 0x9000 s = modDlg (fun d => { d with step := 4, reply := some (readReply got) }) s := by
  simp [takeReply, hlen]

theorem endOrder_whole {got : List Byte} {r : CardReply} {s : State} (hreply : s.dlg.reply = some r) (hlen : got.length = 201) :
    endOrder got 0x9000 s = takeOrder r (readOrder got) s := by
  simp [endOrder, hreply, hlen]

/-- The end of a card ends its dialogue and keeps what `t:card` shows (16 R805, 18 R898). -/
theorem endCard_dlg (s : State) :
    (endCard s).dlg = { s.dlg with step := 0, nT := [], reply := none, order := none, outcome := none } := by
  have h : Only [.keys, .lifecycle] s (abandonOrder s) := by simp
  exact congrArg (fun d : Dlg => { d with step := 0, nT := [], reply := none, order := none, outcome := none }) (h .dlg (by decide))

theorem endCard_stage (s : State) : (endCard s).card.stage = .ended := rfl

/-! ### The commands of the steps (Table 18.2) -/

theorem execSelect_at {s : State} (h : atStep 1 s = true) (chars : List (BitVec 9)) : exec (.select chars) s =
    .next ((apduStep 1 cmdSelect cardAid 0 chars (fun _ sw => endStep 1 0x9000 sw) s).getD s) := if_pos h

theorem execHelloCertificate_at {s : State} (h : atStep 2 s = true) (chars : List (BitVec 9)) : exec (.helloCertificate chars) s =
    .next ((apduStep 2 cmdCertificate (deviceCertificate s.otp.shadow) 0 chars (fun _ sw => endStep 2 0x9000 sw) s).getD s) := if_pos h

theorem execHelloState_at {s : State} (h : atStep 3 s = true) (chars : List (BitVec 9)) : exec (.helloState chars) s =
    .next ((apduStep 3 cmdState (helloState (drawNonce s)) 0 chars (fun _ sw => endStep 3 0x6194 sw) (drawNonce s)).getD s) := if_pos h

theorem execGetResponse_at {s : State} (h : atStep 4 s = true) (chars : List (BitVec 9)) : exec (.getResponse chars) s =
    .next ((apduStep 4 cmdResponse [] 148 chars takeReply s).getD s) := if_pos h

theorem execOrder_at {s : State} (h : atStep 5 s = true) (chars : List (BitVec 9)) : exec (.order chars) s =
    .next ((apduStep 5 cmdOrder [] 201 chars endOrder s).getD s) := if_pos h

/-- The receipt of an order's outcome, under a nonce that is drawn for it (R880). -/
def receiptOf (n : Nat) (r : CardReply) (s : State) : List Byte :=
  signReceipt (drawBytes s 32).2 (receiptBody (drawBytes s 32).2 n r.nC) (drawBytes s 32).1

theorem execResult_at {n : Nat} {r : CardReply} {s : State} (houtcome : s.dlg.outcome = some n) (hreply : s.dlg.reply = some r)
    (h : atStep 6 s = true) (chars : List (BitVec 9)) : exec (.result chars) s =
      .next ((apduStep 6 cmdResult (receiptOf n r s) 0 chars (fun _ _ u => endCard (noteReceipt n (activeCheck s) u))
        (drawBytes s 32).2).getD s) := by
  simp only [exec, execResult, houtcome, hreply, h]
  rfl

/-! ### An order (R871, Tables 18.6 and 18.7) -/

/-- A fetched order is the order of the dialogue. -/
def orderNoted (o : CardOrder) (s : State) : State := modDlg (fun d => { d with
  step := 5, order := some o, recAction := if 1 ≤ o.action.toNat && o.action.toNat ≤ 5 then o.action.toNat else 0 }) s

/-- Of the dialogue the checks look at the nonce alone. -/
theorem refusal_modDlg {f : Dlg → Dlg} {s : State} (hnonce : (f s.dlg).nT = s.dlg.nT) (r : CardReply) (o : CardOrder) :
    refusal (modDlg f s) r o = refusal s r o := by
  have hformat : formatOk (modDlg f s) r o = formatOk s r o := rfl
  have hepoch : wantedEpoch (modDlg f s) o.action.toNat = wantedEpoch s o.action.toNat := rfl
  have hsigner : signerOk (modDlg f s) r o = signerOk s r o := rfl
  have hserial : serialOf (modDlg f s) = serialOf s := rfl
  simp only [refusal, hformat, hepoch, hsigner, hserial, modDlg_dlg, modDlg_frame, hnonce]

theorem takeOrder_eq (r : CardReply) (o : CardOrder) (s : State) : takeOrder r o s =
    match refusal (orderNoted o s) r o with
    | some n => refuseOrder n (orderNoted o s)
    | none => carryOut r o (orderNoted o s) := by
  unfold takeOrder orderNoted
  rfl

theorem takeOrder_of_refusal {o : CardOrder} {r : CardReply} {n : Nat} {s : State} (h : refusal s r o = some n) :
    takeOrder r o s = refuseOrder n (orderNoted o s) := by
  have hnoted : refusal (orderNoted o s) r o = refusal s r o := by
    rw [orderNoted, refusal_modDlg]
    rfl
  rw [takeOrder_eq, hnoted, h]

theorem refuseOrder_orderNoted (n : Nat) (o : CardOrder) (s : State) : (refuseOrder n (orderNoted o s)).otp = s.otp ∧
    (refuseOrder n (orderNoted o s)).keys = s.keys ∧ (refuseOrder n (orderNoted o s)).dlg.outcome = some n := by
  have hdecided : decideOutcome n (orderNoted o s) = modDlg (fun z => { z with outcome := some n }) (orderNoted o s) := if_pos rfl
  rw [refuseOrder, hdecided]
  simp [orderNoted]

/-- One check more before others that refuse. -/
theorem exists_refusal_of_ite {c : Prop} [Decidable c] (n : Nat) {x : Option Nat} (h : ∃ k, x = some k) :
    ∃ k, (if c then some n else x) = some k := by
  split
  · exact ⟨n, rfl⟩
  · exact h

/-- The ninth check refuses an order that needs `ARM_N` while it is high, if none before it does. -/
theorem exists_refusal_of_arm_high {o : CardOrder} {s : State} (harm : s.live.arm.level = true) (haction : o.action ≠ 2) (r : CardReply) :
    ∃ n, refusal s r o = some n := by
  unfold refusal
  refine exists_refusal_of_ite 10 (exists_refusal_of_ite 9 (exists_refusal_of_ite 5 (exists_refusal_of_ite 6 ?_)))
  split
  · exact ⟨1, rfl⟩
  · refine exists_refusal_of_ite 2 (exists_refusal_of_ite 8 (exists_refusal_of_ite 3 ⟨4, if_pos ?_⟩))
    simpa [needsArm, harm] using haction

/-- The third check refuses every order while debug is enabled. -/
theorem refusal_of_debug {s : State} (hdebug : s.keys.debug = true) (o : CardOrder) (r : CardReply) :
    ∃ n, refusal s r o = some n ∧ (n = 10 ∨ n = 9 ∨ n = 5) := by
  unfold refusal
  dsimp only
  rw [if_pos hdebug]
  split
  · exact ⟨10, rfl, .inl rfl⟩
  · split
    · exact ⟨9, rfl, .inr (.inl rfl)⟩
    · exact ⟨5, rfl, .inr (.inr rfl)⟩

/-! ### The TAP (17 R850, R851; 02 R74) -/

section Tap
variable {ir : TapIr} {s : State} (haon : s.pwr.aonOn = true) (hreset : s.boot.inReset = false) (hasleep : s.standby.asleep = false)
include haon hreset hasleep

theorem execTapInstructionLoad_reset (ir : TapIr) : exec (.tapInstructionLoad false ir) s = .next (resetTap s) := by
  simp [exec, execTapInstructionLoad, haon, hreset, hasleep]

theorem execTapInstructionLoad_forbidden (h : tapForbidden ir s = true) :
    exec (.tapInstructionLoad true ir) s = .next (raise .lcRefused 5 (loadIr .bypass s)) := by
  simp [exec, execTapInstructionLoad, haon, hreset, hasleep, h]

theorem execTapInstructionLoad_allowed (h : tapForbidden ir s = false) : exec (.tapInstructionLoad true ir) s =
    .next (if debugIr ir && !s.keys.debug then enableDebug (loadIr ir s) else loadIr ir s) := by
  simp [exec, execTapInstructionLoad, haon, hreset, hasleep, h]
  rfl

end Tap

/-- What is not a debug access takes no pin. -/
theorem takesPins_of_not_debugIr {ir : TapIr} (h : debugIr ir = false) : takesPins ir = false := by
  cases ir with
  | extest | taking => exact absurd h (by decide)
  | _ => rfl

theorem tapForbidden_of_not_debugIr {ir : TapIr} (h : debugIr ir = false) (s : State) : tapForbidden ir s = false := by
  simp [tapForbidden, h]

/-- An order before step 3 and the card's dialogue end; then debug is enabled and reported (R856, R851). -/
def debugNoted (s : State) : State := raise .dbgActive 1 (modKeys (fun z => { z with debug := true })
  (if cardBusy (debugAbandons s) then endCard (debugAbandons s) else debugAbandons s))

/-- Where the tile runs, frame memory is initialised under the keys of the test root, and rings and windows are emptied (R849, R851). -/
def debugCleared (s : State) : State :=
  if s.boot.remap && runs s then swapWindows (emptyRings (startInit (rederive s))) else s

theorem enableDebug_eq (s : State) : enableDebug s = debugCleared (ledgerHalt (debugNoted s)) := rfl

theorem enableDebug_keeps (s : State) : Only [.keys, .ldg, .scene, .mem, .weft, .aud] (debugNoted s) (enableDebug s) := by
  rw [enableDebug_eq]
  simp [debugCleared]

theorem debugNoted_debug (s : State) : (debugNoted s).keys.debug = true := by
  simp [debugNoted]

theorem debugNoted_stands (s : State) : Stands .dbgActive 1 (debugNoted s) := stands_raise_self _ _ _ (by decide) (by decide)

/-- The first debug access enables debug and reports it; the fuses stand (R851). -/
theorem enableDebug_spec (s : State) : (enableDebug s).keys.debug = true ∧ (enableDebug s).pins = s.pins ∧
    Stands .dbgActive 1 (enableDebug s) ∧ (enableDebug s).otp.fuse = s.otp.fuse := by
  have hafter := enableDebug_keeps s
  have hall : Only [.keys, .lifecycle, .flt, .ldg, .status, .net, .sv, .disc, .scene, .mem, .weft, .aud, .bea, .card, .dlg] s
      (enableDebug s) := by simp
  obtain ⟨-, -, hdebug⟩ := hafter .lifecycle (by decide)
  refine ⟨hdebug.trans (debugNoted_debug s), hall .pins (by decide), ?_, hall .fuse (by decide)⟩
  have hflt : (enableDebug s).flt = (debugNoted s).flt := hafter .flt (by decide)
  simpa only [Stands, activeKey, hflt] using debugNoted_stands s

/-- Settles O53: a step of the dialogue is what its characters bring, an order is its first failed check, and the TAP is reset, refused,
or loaded. -/
theorem dialogueFollowsItsSteps : Obligations.DialogueFollowsItsSteps := by
  unfold Obligations.DialogueFollowsItsSteps
  refine ⟨?select, ?selectEnds, ?certificate, ?state, ?response, ?order, ?refused, ?arm, ?debug, ?result, ?unreadable, ?forbidden,
    ?harmless, ?first, ?reset, ?init⟩
  case select =>
    rintro chars bytes errors sw s hat htake hsw rfl
    have hkeep := stepDone_keeps 1 cmdSelect cardAid (t0Run cmdSelect cardAid 0 bytes).out 0x9000 errors s
    refine ⟨_, ?_, stepDone_dlg .., stepDone_sent .., hkeep .flt (by decide), hkeep .otp (by decide), hkeep .keys (by decide)⟩
    rw [execSelect_at hat, apduStep_of_status htake hsw]
    exact congrArg Host.Outcome.next endStep_accepted
  case selectEnds =>
    intro chars bytes errors sw s hat htake hsw hne _
    refine ⟨endCard (sendStep 1 cmdSelect cardAid (t0Run cmdSelect cardAid 0 bytes).out sw (signalErrors errors s)), ?_, endCard_stage _,
      by rw [endCard_dlg], by rw [endCard_dlg]; rfl⟩
    rw [execSelect_at hat, apduStep_of_status htake hsw]
    exact congrArg Host.Outcome.next (if_neg hne)
  case certificate =>
    rintro chars bytes errors sw s hat htake hsw rfl
    have hkeep := stepDone_keeps 2 cmdCertificate (deviceCertificate s.otp.shadow)
      (t0Run cmdCertificate (deviceCertificate s.otp.shadow) 0 bytes).out 0x9000 errors s
    refine ⟨_, ?_, by rw [stepDone_dlg], by rw [stepDone_dlg], stepDone_sent .., hkeep .flt (by decide), hkeep .otp (by decide)⟩
    rw [execHelloCertificate_at hat, apduStep_of_status htake hsw]
    exact congrArg Host.Outcome.next endStep_accepted
  case state =>
    rintro chars bytes errors sw s hat htake hsw rfl
    have hkeep := stepDone_keeps 3 cmdState (helloState (drawNonce s)) (t0Run cmdState (helloState (drawNonce s)) 0 bytes).out 0x6194
      errors (drawNonce s)
    refine ⟨_, ?_, by rw [stepDone_dlg], by rw [stepDone_dlg]; rfl, stepDone_sent .., hkeep .flt (by decide), hkeep .otp (by decide)⟩
    rw [execHelloState_at hat, apduStep_of_status (s := drawNonce s) htake hsw]
    exact congrArg Host.Outcome.next endStep_accepted
  case response =>
    rintro chars bytes errors sw s hat htake hsw rfl hlen
    have hkeep := sendStep_signalErrors_keeps 4 cmdResponse [] (t0Run cmdResponse [] 148 bytes).out 0x9000 errors s
    refine ⟨modDlg (fun d => { d with step := 4, reply := some (readReply (t0Run cmdResponse [] 148 bytes).got) })
      (sendStep 4 cmdResponse [] (t0Run cmdResponse [] 148 bytes).out 0x9000 (signalErrors errors s)), ?_, rfl, rfl,
      hkeep .flt (by decide)⟩
    rw [execGetResponse_at hat, apduStep_of_status htake hsw]
    exact congrArg Host.Outcome.next (takeReply_whole hlen _)
  case order =>
    intro chars bytes errors r s hat hreply htake hsw hlen
    rw [execOrder_at hat, apduStep_of_status htake hsw]
    refine congrArg Host.Outcome.next (endOrder_whole ?_ hlen)
    rw [sendStep_signalErrors_dlg]
    exact hreply
  case refused =>
    intro o r n s h
    rw [takeOrder_of_refusal h]
    exact refuseOrder_orderNoted n o s
  case arm => exact fun o r s harm haction => exists_refusal_of_arm_high harm haction r
  case debug => exact fun o r s hdebug => refusal_of_debug hdebug o r
  case result =>
    intro chars bytes errors sw n r s houtcome hreply hat _ htake hsw
    refine ⟨endCard (noteReceipt n (activeCheck s) (sendStep 6 cmdResult (receiptOf n r s) (t0Run cmdResult (receiptOf n r s) 0 bytes).out
      sw (signalErrors errors (drawBytes s 32).2))), ?_, endCard_stage _, by rw [endCard_dlg]; rfl, by rw [endCard_dlg]; rfl,
      by rw [endCard_dlg]; rfl⟩
    rw [execResult_at houtcome hreply hat, apduStep_of_status (s := (drawBytes s 32).2) (data := receiptOf n r s) htake hsw]
    rfl
  case unreadable =>
    intro chars s htake
    refine ⟨fun hat => ?_, fun hat => ?_, fun hat => ?_, fun hat => ?_⟩
    · rw [execSelect_at hat, apduStep_of_unreadable htake, Option.getD_some]
    · rw [execHelloCertificate_at hat, apduStep_of_unreadable htake, Option.getD_some]
    · rw [execGetResponse_at hat, apduStep_of_unreadable htake, Option.getD_some]
    · rw [execOrder_at hat, apduStep_of_unreadable htake, Option.getD_some]
  case forbidden =>
    intro ir s haon hreset hasleep hforbidden
    refine ⟨_, execTapInstructionLoad_forbidden haon hreset hasleep hforbidden, ?_, ?_, stands_raise_self _ _ _ (by decide) (by decide)⟩
    · simp [loadIr]
    · simp [loadIr]
  case harmless =>
    intro ir s haon hreset hasleep hdebug
    rw [execTapInstructionLoad_allowed haon hreset hasleep (tapForbidden_of_not_debugIr hdebug s)]
    simp [hdebug, loadIr, modPins, takesPins_of_not_debugIr hdebug]
  case first =>
    intro ir s haon hreset hasleep hdebug hallowed hoff
    have hexec := execTapInstructionLoad_allowed haon hreset hasleep hallowed
    obtain ⟨henabled, hpins, hstands, hfuse⟩ := enableDebug_spec (loadIr ir s)
    refine ⟨_, hexec.trans (by rw [hdebug, hoff]; rfl), henabled, by rw [hpins]; rfl, hstands, hfuse⟩
  case reset => exact fun ir s haon hreset hasleep => execTapInstructionLoad_reset haon hreset hasleep ir
  case init =>
    intro s hrun hinit
    simp only [exec, execMemoryInitComplete, hrun, hinit]
    rfl

end Sys2Proof.Machine
end

section
/-!
PROOFS. The fault ring, the handlers and the queue (19 R903 to R907, R913, R914, Table 19.1): what a new entry, a raise and a
clear leave of the fault manager, and from it what the commands of the fault manager do.
-/
namespace Sys2Proof.Machine
open Sys2Proof Sys2Proof.Safety

/-! ### The ring (R913, R914) -/

theorem addEntry_below {e : RingEntry} {s : State} (h : s.flt.ring.length < 256) :
    addEntry e s = modFlt (fun z => { z with ring := z.ring ++ [e] }) s := by
  unfold addEntry
  split
  case h_1 hring => simp [modFlt, hring]
  case h_2 => rw [if_pos h]

theorem addEntry_full {e old : RingEntry} {rest : List RingEntry} {s : State} (h : s.flt.ring = old :: rest) (hfull : 255 ≤ rest.length) :
    addEntry e s = modFlt (fun z => { z with
      ring := rest ++ [e], ringLost := if old.mirrored || z.ringLost == 255 then z.ringLost else z.ringLost + 1 }) s := by
  have hlen : ¬ s.flt.ring.length < 256 := by simp [h]; omega
  unfold addEntry
  split
  case h_1 hring => simp [hring] at h
  case h_2 o r hring =>
    obtain ⟨rfl, rfl⟩ := List.cons.inj (hring.symm.trans h)
    rw [if_neg hlen]

/-- A new entry changes the ring and the count of its losses alone, and is the newest of the ring. -/
theorem addEntry_spec (e : RingEntry) (s : State) : ∃ older lost,
    addEntry e s = modFlt (fun z => { z with ring := older ++ [e], ringLost := lost }) s := by
  by_cases h : s.flt.ring.length < 256
  · exact ⟨s.flt.ring, s.flt.ringLost, addEntry_below h⟩
  · obtain ⟨old, rest, hring⟩ := List.exists_cons_of_ne_nil (l := s.flt.ring) fun hnil => h (by simp [hnil])
    exact ⟨rest, _, addEntry_full hring (by simp [hring] at h; omega)⟩

theorem addEntry_newest (e : RingEntry) (s : State) : (addEntry e s).flt.ring.getLast? = some e := by
  obtain ⟨older, lost, h⟩ := addEntry_spec e s
  simp [h]

/-- Settles O12: below 256 entries a new one is appended, at 256 it takes the place of the oldest. -/
theorem ringKeeps256 : Obligations.RingKeeps256 := by
  unfold Obligations.RingKeeps256
  intro e s hlen
  refine ⟨addEntry_newest e s, ?_, fun h => ?_, fun old rest hring hrest => ?_⟩
  · by_cases h : s.flt.ring.length < 256
    · rw [addEntry_below h]
      simp; omega
    · obtain ⟨old, rest, hring⟩ := List.exists_cons_of_ne_nil (l := s.flt.ring) fun hnil => h (by simp [hnil])
      rw [addEntry_full hring (by simp [hring] at h; omega)]
      simp [hring] at hlen ⊢; omega
  · rw [addEntry_below h]
    exact ⟨rfl, rfl⟩
  · rw [addEntry_full hring (by omega)]
    refine ⟨rfl, fun hm => by simp [hm], fun hm hl => by simpa [hm] using hl⟩

/-! ### A raise or clear that arrives (R904, R905) -/

/-- What a handler does leaves the fault manager as its ring entry leaves it. -/
theorem handle_flt (q : Queued) (s : State) : (handle q s).flt = (writeQueued q s).flt := by
  simp only [handle, apply_ite State.flt, modBea_frame, originFault_flt, launchRecord_flt, ite_self]

/-- The ring entry of a raise or clear that has arrived. -/
def queuedEntry (q : Queued) (s : State) : RingEntry :=
  { f := q.f, cleared := q.cleared, ptp := q.ptp, bringUp := s.flt.bringUp, sec := q.sec, ns := q.ns, detail := q.detail }

theorem handle_spec (q : Queued) (s : State) : ∃ older lost,
    (handle q s).flt = { s.flt with ring := older ++ [queuedEntry q s], ringLost := lost } := by
  obtain ⟨older, lost, h⟩ := addEntry_spec (queuedEntry q s) s
  exact ⟨older, lost, (handle_flt q s).trans (congrArg State.flt h)⟩

theorem preempts_congr {s t : State} (h : t.flt.handlers = s.flt.handlers) (p : Sev) : preempts p t = preempts p s := by
  simp only [preempts, h]

section Arrives
variable {q : Queued} {s : State} (hrun : s.clk.running = true)
include hrun

theorem submit_handled (hpre : preempts (prioOf q) s = true) (hs3 : s3Runs s = false) : submit q s =
    handle q (modFlt (fun z => { z with handlers := ⟨q, prioOf q, s.now⟩ :: z.handlers }) s) := by
  simp [submit, hrun, hpre, hs3]

theorem submit_queued (hpre : preempts (prioOf q) s = false) (hroom : s.flt.queue.length < 16) : submit q s =
    modFlt (fun z => { z with queue := z.queue ++ [q], peak := max z.peak (z.queue.length + 1) }) s := by
  simp [submit, hrun, hpre, hroom]

theorem submit_lost (hpre : preempts (prioOf q) s = false) (hroom : 16 ≤ s.flt.queue.length) : submit q s =
    modFlt (fun z => { z with lost := if z.lost == 255 then 255 else z.lost + 1, lostSince := z.lostSince + 1 }) s := by
  simp [submit, hrun, hpre, Nat.not_lt.2 hroom]

end Arrives

theorem submit_counts (q : Queued) (s : State) : (submit q s).flt.counts = s.flt.counts := by
  have hwrite (t : State) : (writeQueued q t).flt.counts = t.flt.counts := by
    obtain ⟨_, _, h⟩ := addEntry_spec (queuedEntry q t) t
    exact congrArg (fun u => u.flt.counts) h
  simp only [submit, apply_ite State.flt, apply_ite Flt.counts, handle_flt, hwrite, modFlt_flt, ite_self]

theorem noteRaise_keeps (f : FaultName) (key : Nat) (detail : BitVec 32) (s : State) :
    Only [.flt, .weft] s (noteRaise f key detail s) := by simp

/-- A raise is noted in the list of active faults and the counts alone. -/
theorem noteRaise_flt (f : FaultName) (key : Nat) (detail : BitVec 32) (s : State) : ∃ active,
    (noteRaise f key detail s).flt = { s.flt with
      active := active, counts := updAt s.flt.counts (sevOf f).val (fun c => if c == 0xFFFF#16 then c else c + 1) } := by
  have hcount : (noteRaise f key detail s).flt = (countRaise f (setActive f key detail s)).flt := by
    unfold noteRaise
    dsimp only
    split <;> rfl
  rw [hcount, setActive]
  split
  · exact ⟨s.flt.active, rfl⟩
  · exact ⟨s.flt.active ++ [⟨f, key, detail, s.now⟩], rfl⟩

/-! ### A raise (R904 to R906) -/

theorem raise_of_stands {f : FaultName} {detail : BitVec 32} {s : State} (h : Stands f detail s) : raise f detail s = s := if_pos h

theorem raise_new {f : FaultName} {detail : BitVec 32} {s : State} (h3 : sevOf f ≠ 3) (hnew : ¬ Stands f detail s) :
    raise f detail s = submit (arrival f (faultKey f detail) detail false s) (noteRaise f (faultKey f detail) detail s) :=
  (if_neg hnew).trans (if_neg h3)

@[simp] theorem prioOf_arrival_raise (f : FaultName) (key : Nat) (detail : BitVec 32) (s : State) :
    prioOf (arrival f key detail false s) = sevOf f := rfl

theorem raise_counts {f : FaultName} {detail : BitVec 32} {s : State} (h3 : sevOf f ≠ 3) (hnew : ¬ Stands f detail s) :
    (raise f detail s).flt.counts =
      updAt s.flt.counts (sevOf f).val (fun c => if c == 0xFFFF#16 then c else c + 1) := by
  obtain ⟨active, hnote⟩ := noteRaise_flt f (faultKey f detail) detail s
  rw [raise_new h3 hnew, submit_counts, hnote]

section Raised
variable {f : FaultName} {detail : BitVec 32} {s : State} (h3 : sevOf f ≠ 3) (hnew : ¬ Stands f detail s)
  (hrun : s.clk.running = true)
include h3 hnew hrun

/-- A raise that finds no handler of its priority or above is handled at once. -/
theorem raise_handled (hpre : preempts (sevOf f) s = true) (hhold : s.flt.holdoff = none) : ∃ active older lost,
    (raise f detail s).flt = { s.flt with
      active := active, counts := updAt s.flt.counts (sevOf f).val (fun c => if c == 0xFFFF#16 then c else c + 1)
      ring := older ++ [entryNow f false detail s], ringLost := lost
      handlers := ⟨arrival f (faultKey f detail) detail false s, sevOf f, s.now⟩ :: s.flt.handlers } := by
  obtain ⟨active, hnote⟩ := noteRaise_flt f (faultKey f detail) detail s
  have hkeeps := noteRaise_keeps f (faultKey f detail) detail s
  have hclk := hkeeps .clk (by decide)
  have hnow := hkeeps .now (by decide)
  obtain ⟨older, lost, hhandle⟩ := handle_spec (arrival f (faultKey f detail) detail false s) (modFlt (fun z => { z with
    handlers := ⟨arrival f (faultKey f detail) detail false s, sevOf f, s.now⟩ :: z.handlers })
    (noteRaise f (faultKey f detail) detail s))
  refine ⟨active, older, lost, ?_⟩
  rw [raise_new h3 hnew, submit_handled (q := arrival f _ detail false s) (hclk ▸ hrun)
    ((preempts_congr (by simp [hnote]) _).trans hpre) (by simp [s3Runs, hnote, hhold])]
  simp only [sameFacet] at hnow
  rw [hnow]
  exact hhandle.trans (by simp [hnote, queuedEntry, entryNow, arrival])

/-- A raise behind a handler of its priority or above waits while the queue has room (R905). -/
theorem raise_queued (hpre : preempts (sevOf f) s = false) (hroom : s.flt.queue.length < 16) : ∃ active peak,
    (raise f detail s).flt = { s.flt with
      active := active, counts := updAt s.flt.counts (sevOf f).val (fun c => if c == 0xFFFF#16 then c else c + 1)
      queue := s.flt.queue ++ [arrival f (faultKey f detail) detail false s], peak := peak } := by
  obtain ⟨active, hnote⟩ := noteRaise_flt f (faultKey f detail) detail s
  have hclk := noteRaise_keeps f (faultKey f detail) detail s .clk (by decide)
  refine ⟨active, max s.flt.peak (s.flt.queue.length + 1), ?_⟩
  rw [raise_new h3 hnew, submit_queued (q := arrival f _ detail false s) (hclk ▸ hrun)
    ((preempts_congr (by simp [hnote]) _).trans hpre) (by simpa [hnote] using hroom)]
  simp only [modFlt_flt, hnote]

/-- A raise that finds the queue full is counted as lost (R905). -/
theorem raise_lost (hpre : preempts (sevOf f) s = false) (hfull : 16 ≤ s.flt.queue.length) : ∃ active,
    (raise f detail s).flt = { s.flt with
      active := active, counts := updAt s.flt.counts (sevOf f).val (fun c => if c == 0xFFFF#16 then c else c + 1)
      lost := if s.flt.lost == 255 then 255 else s.flt.lost + 1, lostSince := s.flt.lostSince + 1 } := by
  obtain ⟨active, hnote⟩ := noteRaise_flt f (faultKey f detail) detail s
  have hclk := noteRaise_keeps f (faultKey f detail) detail s .clk (by decide)
  refine ⟨active, ?_⟩
  rw [raise_new h3 hnew, submit_lost (q := arrival f _ detail false s) (hclk ▸ hrun)
    ((preempts_congr (by simp [hnote]) _).trans hpre) (by simpa [hnote] using hfull)]
  simp only [modFlt_flt, hnote]

end Raised

/-! ### The commands `FAULT_RAISE` and `FAULT_CLEAR` -/

/-- Below S3 the command is the raise that every block uses. -/
theorem execFaultRaise_below {f : FaultName} {detail : BitVec 32} {s : State} (h3 : sevOf f ≠ 3) (haon : s.pwr.aonOn = true) :
    exec (.faultRaise f detail) s = .next (raise f detail s) := by
  show execFaultRaise f detail s = _
  unfold execFaultRaise
  rw [if_neg (by simp [haon])]
  split
  · exact absurd rfl h3
  · exact absurd rfl h3
  · exact absurd rfl h3
  · rfl

/-- Settles O11: a raise below S3 that is new is `submit` of its arrival after it is noted, in the three cases of `submit`. -/
theorem raisedFaultIsHandledQueuedOrLost : Obligations.RaisedFaultIsHandledQueuedOrLost := by
  unfold Obligations.RaisedFaultIsHandledQueuedOrLost
  refine ⟨fun f detail s haon hsev hnew => ?_, fun f detail s haon h3 hnew hrun hpre hhold => ?_,
    fun f detail s haon h3 hnew hrun hpre hroom => ?_, fun f detail s haon h3 hnew hrun hpre hfull hlost => ?_,
    fun f detail s hst => ?_⟩
  · have h0 : sevOf f ≠ 0 := by rcases hsev with h | h <;> simp [h]
    have h3 : sevOf f ≠ 3 := by rcases hsev with h | h <;> simp [h]
    exact ⟨_, execFaultRaise_below h3 haon, stands_raise_self f detail s h0 h3, raise_counts h3 hnew, by simp [h3], by simp [h3],
      by simp [h3]⟩
  · obtain ⟨active, older, lost, hflt⟩ := raise_handled h3 hnew hrun hpre hhold
    exact ⟨_, execFaultRaise_below h3 haon, by simp [hflt], by simp [hflt], by simp [hflt], by simp [hflt]⟩
  · obtain ⟨active, peak, hflt⟩ := raise_queued h3 hnew hrun hpre hroom
    exact ⟨_, execFaultRaise_below h3 haon, by simp [hflt], by simp [hflt], by simp [hflt]⟩
  · obtain ⟨active, hflt⟩ := raise_lost h3 hnew hrun hpre hfull
    have hne : s.flt.lost ≠ 255#8 := fun h => by simp [h] at hlost
    exact ⟨_, execFaultRaise_below h3 haon, by simp [hflt], by simp [hflt], by simp [hflt, hne]⟩
  · have hcounts : (clearFault f detail s).flt.counts = s.flt.counts := by
      have hclear : clearFault f detail s = submit _ (unsetActive f (faultKey f detail) s) := if_pos hst
      rw [hclear, submit_counts]
      rfl
    exact ⟨_, rfl, not_stands_clearKey rfl s, hcounts, by simp, by simp⟩

/-- The loss of the core leaves the ring and the queue, which stand in D0 (04 R142). -/
theorem loseCore_ring_queue (s : State) : (loseCore s).flt.ring = s.flt.ring ∧ (loseCore s).flt.queue = s.flt.queue := ⟨rfl, rfl⟩

@[simp] theorem abortFuse_flt (firstFuse : Bool) (s : State) : (abortFuse firstFuse s).flt = s.flt := by
  have h : Only [.otp, .fuse, .keys, .lifecycle] s (abortFuse firstFuse s) := by simp
  exact h .flt (by decide)

/-- Settles O10: `raise` returns the state of a fault that stands as it is; the clock faults and the brown-out change other parts
of the state beside it. -/
theorem activeFaultIsNotRaisedAgain : Obligations.ActiveFaultIsNotRaisedAgain := by
  unfold Obligations.ActiveFaultIsNotRaisedAgain
  refine ⟨fun f detail s hst => by simp [raise_of_stands hst], fun f detail s hst => ?_⟩
  show Goes (execFaultRaise f detail s) _
  unfold execFaultRaise
  split
  · exact ⟨s, rfl, rfl, rfl⟩
  · split
    case h_1 => exact ⟨_, rfl, by simp [xtalFault, raise_of_stands hst]⟩
    case h_2 =>
      have hraise (g : Clk → Clk) : raise .clkUnlock detail (modClk g s) = modClk g s := raise_of_stands hst
      exact ⟨_, rfl, by simp [unlockFault, hraise]⟩
    case h_3 =>
      have habort : Stands .pwrBrownout detail (abortFuse false (modPwr (fun z => { z with vinLow := true }) s)) := by
        simpa [Stands, activeKey] using hst
      split
      · exact ⟨_, rfl, by simp [raise_of_stands hst]⟩
      · refine ⟨_, rfl, ?_⟩
        rw [brownout, raise_of_stands habort]
        simp [loseCore_ring_queue]
    case h_4 => exact ⟨_, rfl, by simp [raise_of_stands hst]⟩

/-! ### Handlers (R903 to R905, R907) -/

theorem execFaultHandlerEnd_acting {h : Handler} {rest : List Handler} {s : State} (hh : s.flt.handlers = h :: rest) :
    exec (.faultHandlerEnd h.prio) s = .next (serveQueue (modFlt (fun z => { z with handlers := rest }) s)) := by
  show execFaultHandlerEnd h.prio s = _
  simp [execFaultHandlerEnd, hh]

theorem serveQueue_nil {s : State} (h : s.flt.queue = []) : serveQueue s = s := by
  have hbest : bestQueued s.flt.queue = none := by rw [h]; rfl
  unfold serveQueue
  rw [hbest]

/-- With nothing lost, the one queued item is handled once no handler of its priority or above runs. -/
theorem serveQueue_one {q : Queued} {s : State} (h : s.flt.queue = [q]) (hpre : preempts (prioOf q) s = true)
    (hhold : s.flt.holdoff = none) (hlost : s.flt.lostSince = 0) : serveQueue s = handle q (modFlt (fun z => { z with
      queue := [], lostSince := 0, handlers := ⟨q, prioOf q, s.now⟩ :: z.handlers }) s) := by
  have hbest : bestQueued s.flt.queue = some 0 := by rw [h]; rfl
  have hfirst : s.flt.queue[0]? = some q := by rw [h]; rfl
  unfold serveQueue
  rw [hbest]
  dsimp only
  rw [hfirst]
  simp [h, hpre, s3Runs, hhold, hlost, modFlt]

theorem execHandlerTimeout_late {h : Handler} {rest : List Handler} {s : State} (hh : s.flt.handlers = h :: rest)
    (hlate : h.started + msT 10 ≤ s.now) :
    exec (.handlerTimeout h.prio) s = .next (raise .fmDouble 1 (modFlt (fun z => { z with handlers := rest }) s)) := by
  show execHandlerTimeout h.prio s = _
  simp [execHandlerTimeout, hh, hlate]

/-! ### Mirrors (R914) -/

/-- An idle ledger that may be written starts to mirror what the ring has for it. -/
theorem startMirror_idle {n : Nat} {s : State} (hn : 0 < n) (hmay : mayWrite s .faultLog = true) (hbusy : s.ldg.busy = none) :
    startMirror n s = { s with ldg := { s.ldg with mirroring := max n s.ldg.mirroring, busy := some .faultLog } } := by
  have hmay' : mayWrite (modLdg (fun z => { z with mirroring := max n z.mirroring }) s) .faultLog = true := hmay
  simp only [startMirror, startLedger, hmay, hmay', modLdg_ldg, hbusy, Nat.pos_iff_ne_zero.1 hn]
  rfl

/-- Settles O13: the queue is served from the state in which the acting handler has ended, the raise of `f:FM_DOUBLE` made on
it, and a mirror is the start of an operation of an idle ledger. -/
theorem handlersEndAndTimeOut : Obligations.HandlersEndAndTimeOut := by
  unfold Obligations.HandlersEndAndTimeOut
  refine ⟨fun sev h rest s hh hsev hq => ?_, fun sev h rest q s hh hsev hq hpre hhold hlost => ?_,
    fun sev h rest s hh hsev hlate => ?_, fun s husable hbank hdebug hphase hstopped hbusy hcount => ?_⟩
  · subst hsev
    rw [execFaultHandlerEnd_acting hh, serveQueue_nil (by simpa using hq)]
    rfl
  · subst hsev
    obtain ⟨older, lost, hflt⟩ := handle_spec q (modFlt (fun z => { z with
      queue := [], lostSince := 0, handlers := ⟨q, prioOf q, s.now⟩ :: z.handlers }) (modFlt (fun z => { z with handlers := rest }) s))
    refine ⟨_, (execFaultHandlerEnd_acting hh).trans (congrArg Host.Outcome.next (serveQueue_one hq hpre hhold hlost)), ?_, ?_, ?_⟩
    · exact (congrArg Flt.queue hflt).trans rfl
    · exact (congrArg Flt.handlers hflt).trans rfl
    · exact ⟨_, (congrArg (fun z => z.ring.getLast?) hflt).trans List.getLast?_concat, rfl, rfl, rfl⟩
  · subst hsev
    exact execHandlerTimeout_late hh hlate
  · have hmay : mayWrite s .faultLog = true := by simp [mayWrite, husable, hbank, hdebug, hphase, hstopped]
    show Goes (.next (startMirror (mirrorCount false s) s)) _
    rw [startMirror_idle hcount hmay hbusy]
    exact ⟨_, rfl, rfl, Nat.le_max_left _ _, rfl⟩

end Sys2Proof.Machine
end

section
/-!
PROOFS. The fuses (17 R818, R827, R831 to R833, R847, R944): what a pair adds, that no command removes one, the active site
root, and the sequences pair by pair and stage by stage.
-/
namespace Sys2Proof.Machine
open Sys2Proof Sys2Proof.Safety

/-! ### The list of programmed fuses (R818, R833) -/

@[simp] theorem mem_insFuse {x y : Nat} {l : List Nat} : x ∈ insFuse y l ↔ x = y ∨ x ∈ l := by
  induction l with
  | nil => simp [insFuse]
  | cons z l ih =>
    unfold insFuse
    split
    · simp
    · split
      case isTrue hyz => simp [hyz]
      case isFalse => simp [ih, or_left_comm]

@[simp] theorem mem_programPair {x p : Nat} {l : List Nat} : x ∈ programPair l p ↔ x = 2 * p ∨ x = 2 * p + 1 ∨ x ∈ l := by
  simp [programPair, or_left_comm]

/-! ### What keeps the fuses (R818) -/

theorem fusesKept_of_eq {s t : State} (h : t.otp.fuse = s.otp.fuse) : FusesKept s t := fun _ hf => h ▸ hf

theorem fusesKept_trans {s t u : State} (h : FusesKept s t) (k : FusesKept t u) : FusesKept s u := fun f hf => k f (h f hf)

theorem fusesKept_of_only {W : List Facet} {s t : State} (h : Only W s t) (hfuse : Facet.fuse ∉ W) : FusesKept s t :=
  fusesKept_of_eq (h .fuse hfuse)

theorem burnPair_fusesKept (p : Nat) (took : Bool) (s : State) : FusesKept s (burnPair p took s) := by
  intro f hf
  cases took <;> simp [burnPair, hf]

theorem abortFuse_fusesKept (firstFuse : Bool) (s : State) : FusesKept s (abortFuse firstFuse s) := by
  unfold abortFuse
  split
  · exact fusesKept_of_eq rfl
  · dsimp only
    split
    · exact fusesKept_of_eq rfl
    · split
      · intro f hf
        simp [hf]
      · exact fusesKept_of_eq rfl

/-- A brown-out whose pulse had not programmed the first fuse of a pair adds none (R142). -/
theorem abortFuse_false_fuse (s : State) : (abortFuse false s).otp.fuse = s.otp.fuse := by
  unfold abortFuse
  (repeat' split) <;> simp_all

theorem completePair_fusesKept (s : State) : FusesKept s (completePair s) := by
  unfold completePair
  split
  · exact fusesKept_of_eq rfl
  · dsimp only
    split
    · exact fusesKept_of_eq rfl
    · split
      · exact fusesKept_of_eq rfl
      · intro f hf
        simp [hf]

/-- The facets that a brown-out changes once the pair being programmed is cut off. -/
theorem brownout_after_abort (detail : BitVec 32) (firstFuse : Bool) (s : State) :
    (brownout detail firstFuse s).otp.fuse = (abortFuse firstFuse (modPwr (fun z => { z with vinLow := true }) s)).otp.fuse := by
  have h (u : State) : Only [.pwr, .clk, .boot, .test, .keys, .flt, .holds, .ldg, .status, .sens, .net, .time, .sv, .disc,
      .scene, .mem, .xb, .adm, .weft, .amb, .bri, .mark, .aud, .bob, .bea, .card, .dlg] u
      (loseCore (raise .pwrBrownout detail u)) := by simp
  exact h _ .fuse (by decide)

theorem brownout_fusesKept (detail : BitVec 32) (firstFuse : Bool) (s : State) : FusesKept s (brownout detail firstFuse s) := by
  have hcut : FusesKept s (abortFuse firstFuse (modPwr (fun z => { z with vinLow := true }) s)) :=
    abortFuse_fusesKept firstFuse (modPwr (fun z => { z with vinLow := true }) s)
  exact fusesKept_trans hcut (fusesKept_of_eq (brownout_after_abort detail firstFuse s))

theorem brownout_false_fuse (detail : BitVec 32) (s : State) : (brownout detail false s).otp.fuse = s.otp.fuse :=
  (brownout_after_abort detail false s).trans (abortFuse_false_fuse _)

/-! ### The commands that may program a fuse -/

theorem execFusePairDone_fusesKept {took : Bool} {tj : Int} {s t : State} (h : execFusePairDone took tj s = .next t) : FusesKept s t := by
  unfold execFusePairDone at h
  split at h
  · cases h
    exact fusesKept_of_eq rfl
  · split at h
    · cases h
      exact fusesKept_of_eq rfl
    case h_2 q _ p rest _ =>
      split at h
      · cases h
        exact fusesKept_of_eq rfl
      · cases h
        refine fusesKept_trans (burnPair_fusesKept p took s) (fusesKept_of_only (W := [.clk, .keys, .lifecycle, .flt, .ldg, .status, .net, .sv, .disc,
          .weft, .bea, .dlg]) ?_ (by decide))
        simp

theorem execVinBrownout_fusesKept {b : Bool} {s t : State} (h : execVinBrownout b s = .next t) :
    FusesKept s t ∧ (b = false → t.otp.fuse = s.otp.fuse) := by
  unfold execVinBrownout at h
  split at h <;> cases h
  · exact ⟨fusesKept_of_eq rfl, fun _ => rfl⟩
  · exact ⟨brownout_fusesKept 0 b s, fun hb => hb ▸ brownout_false_fuse 0 s⟩

theorem execRailBrownout_fusesKept {rail : Rail} {b : Bool} {s t : State} (h : execRailBrownout rail b s = .next t) :
    FusesKept s t ∧ (b = false → t.otp.fuse = s.otp.fuse) := by
  have hcheck (d : BitVec 32) : (checkBrownout d s).otp.fuse = s.otp.fuse := by
    have hk : Only [.pwr, .standby, .clk, .boot, .test, .keys, .flt, .holds, .ldg, .status, .sens, .net, .time, .sv, .disc,
      .scene, .mem, .xb, .adm, .weft, .amb, .bri, .mark, .aud, .bob, .bea, .card, .dlg] s (checkBrownout d s) := by simp
    exact hk .fuse (by decide)
  unfold execRailBrownout at h
  split at h
  · cases h
    exact ⟨fusesKept_of_eq rfl, fun _ => rfl⟩
  · split at h <;> cases h
    · exact ⟨fusesKept_of_eq (hcheck _), fun _ => hcheck _⟩
    · exact ⟨brownout_fusesKept _ b s, fun hb => hb ▸ brownout_false_fuse _ s⟩

theorem execResetNAssert_fusesKept {s t : State} (h : execResetNAssert s = .next t) : FusesKept s t := by
  unfold execResetNAssert at h
  split at h <;> cases h
  · exact fusesKept_of_eq rfl
  · exact fusesKept_trans (completePair_fusesKept s) (fusesKept_of_eq rfl)

/-- A raise by the owning block programs no fuse, not even that of the brown-out. -/
theorem execFaultRaise_fuse {f : FaultName} {detail : BitVec 32} {s t : State} (h : execFaultRaise f detail s = .next t) :
    t.otp.fuse = s.otp.fuse := by
  have hraise (f : FaultName) : Only [.pwr, .clk, .boot, .test, .keys, .flt, .holds, .ldg, .status, .sens, .net, .time, .sv, .disc,
      .scene, .mem, .xb, .adm, .weft, .amb, .bri, .mark, .aud, .bob, .bea, .card, .dlg] s (raise f detail s) := by simp
  have hxtal : Only [.pwr, .clk, .boot, .test, .keys, .flt, .holds, .ldg, .status, .sens, .net, .time, .sv, .disc,
      .scene, .mem, .xb, .adm, .weft, .amb, .bri, .mark, .aud, .bob, .bea, .card, .dlg] s (xtalFault detail s) := by simp
  have hunlock : Only [.pwr, .clk, .boot, .test, .keys, .flt, .holds, .ldg, .status, .sens, .net, .time, .sv, .disc,
      .scene, .mem, .xb, .adm, .weft, .amb, .bri, .mark, .aud, .bob, .bea, .card, .dlg] s (unlockFault detail.toNat s) := by simp
  unfold execFaultRaise at h
  split at h
  · cases h
    rfl
  · split at h
    · cases h
      exact hxtal .fuse (by decide)
    · cases h
      exact hunlock .fuse (by decide)
    · split at h <;> cases h
      · exact hraise _ .fuse (by decide)
      · exact brownout_false_fuse detail s
    · cases h
      exact hraise _ .fuse (by decide)

/-- A command whose frame names parts, the OTP not among them, leaves the fuses. -/
theorem exec_fuse_of_framed {c : Instr} {l : List Safety.Part} {s t : State} (h : exec c s = .next t) (hl : touches c = some l)
    (hotp : Safety.Part.otp ∉ l) : t.otp.fuse = s.otp.fuse :=
  congrArg Otp.fuse (commandsKeepTheirFrame c s t h l hl .otp hotp)

/-- What may program a fuse: a pair that is done, a pulse that a brown-out cuts off after its first fuse, and the pair that
`RESET_N` lets end. -/
def mayProgram : Instr → Bool
  | .fusePairDone _ _ | .railBrownout _ true | .vinBrownout true | .resetNAssert => true
  | _ => false

/-- Every other command leaves the fuses: by its frame, or by its `_only` lemma where the table of `touches` names no parts. -/
theorem exec_fuse {c : Instr} {s t : State} (h : exec c s = .next t) (hc : mayProgram c = false) : t.otp.fuse = s.otp.fuse := by
  cases c with
  | fusePairDone => simp [mayProgram] at hc
  | resetNAssert => simp [mayProgram] at hc
  | vinBrownout b =>
    cases b
    · exact (execVinBrownout_fusesKept h).2 rfl
    · simp [mayProgram] at hc
  | railBrownout rail b =>
    cases b
    · exact (execRailBrownout_fusesKept h).2 rfl
    · simp [mayProgram] at hc
  | faultRaise => exact execFaultRaise_fuse h
  | aonOn => exact (execAonOn_only (h := h)) .fuse (by decide)
  | d1d2SwitchOn => exact (execD1d2SwitchOn_only (h := h)) .fuse (by decide)
  | brownoutRestart => exact (execBrownoutRestart_only (h := h)) .fuse (by decide)
  | standbyBrownout => exact (execStandbyBrownout_only (h := h)) .fuse (by decide)
  | aonOff => exact (execAonOff_only (h := h)) .fuse (by decide)
  | resetNRelease => exact (execResetNRelease_only (h := h)) .fuse (by decide)
  | bootCheckDone => exact (execBootCheckDone_only (h := h)) .fuse (by decide)
  | mdllLossOfLock => exact (execMdllLossOfLock_only (h := h)) .fuse (by decide)
  | mdllLockTimeout => exact (execMdllLockTimeout_only (h := h)) .fuse (by decide)
  | referenceEdgeMissing => exact (execReferenceEdgeMissing_only (h := h)) .fuse (by decide)
  | standbySlowCrystalStop => exact (execStandbySlowCrystalStop_only (h := h)) .fuse (by decide)
  | seqWatchdogExpiry => exact (execSeqWatchdogExpiry_only (h := h)) .fuse (by decide)
  | dramTrainingDone => exact (execDramTrainingDone_only (h := h)) .fuse (by decide)
  | livePinSample => exact (execLivePinSample_only (h := h)) .fuse (by decide)
  | romCrcCheck => exact (execRomCrcCheck_only (h := h)) .fuse (by decide)
  | standbyPowerDown => exact (execStandbyPowerDown_only (h := h)) .fuse (by decide)
  | timedWake => exact (execTimedWake_only (h := h)) .fuse (by decide)
  | wakeCheck => exact (execWakeCheck_only (h := h)) .fuse (by decide)
  | reedBeat => exact (execReedBeat_only (h := h)) .fuse (by decide)
  | memWritePartial => exact (execMemWritePartial_only (h := h)) .fuse (by decide)
  | scrubLine => exact (execScrubLine_only (h := h)) .fuse (by decide)
  | xbHang => exact (execXbHang_only (h := h)) .fuse (by decide)
  | handlerTimeout => exact (execHandlerTimeout_only (h := h)) .fuse (by decide)
  | s3HoldoffEnd => exact (execS3HoldoffEnd_only (h := h)) .fuse (by decide)
  | _ => exact exec_fuse_of_framed h rfl (by decide)

theorem exec_fusesKept {c : Instr} {s t : State} (h : exec c s = .next t) : FusesKept s t := by
  by_cases hc : mayProgram c = false
  · exact fusesKept_of_eq (exec_fuse h hc)
  · cases c with
    | fusePairDone => exact execFusePairDone_fusesKept h
    | resetNAssert => exact execResetNAssert_fusesKept h
    | vinBrownout => exact (execVinBrownout_fusesKept h).1
    | railBrownout => exact (execRailBrownout_fusesKept h).1
    | _ => exact absurd rfl hc

theorem tick_fusesKept (s : State) : FusesKept s (tick s) :=
  fusesKept_of_only (W := [.now, .sent, .straps, .live, .pwr, .clk, .test, .flt, .status, .net, .time, .sv, .disc, .xb, .weft, .aud, .bea])
    (by simp) (by decide)

/-- Settles O16: command by command, and so in every step. -/
theorem fusesAreNeverUndone : Obligations.FusesAreNeverUndone := by
  unfold Obligations.FusesAreNeverUndone
  refine ⟨fun c s t h => exec_fusesKept h, fun c s t h hpair hrail hvin hreset => exec_fuse h ?_, fun s t h => ?_⟩
  · unfold mayProgram
    split
    · exact absurd rfl (hpair _ _)
    · exact absurd rfl (hrail _)
    · exact absurd rfl hvin
    · exact absurd rfl hreset
    · rfl
  · cases hp : s.pending with
    | nil =>
      rw [step_of_nil hp] at h
      cases h
      exact tick_fusesKept s
    | cons c rest =>
      rw [step_of_cons hp] at h
      have hkept : FusesKept { s with pending := rest } t := exec_fusesKept h
      exact hkept

/-! ### The active site root (R827) -/

theorem mem_slotsIn {fuses : List Nat} {st : SlotState} {k : Nat} : k ∈ slotsIn fuses st ↔ k < 16 ∧ slotState fuses k = st := by
  simp [slotsIn]

/-- The slots of a state stand in rising order. -/
theorem slotsIn_sorted (fuses : List Nat) (st : SlotState) : (slotsIn fuses st).Pairwise (· < ·) :=
  List.pairwise_lt_range.filter _

/-- The last entry of a rising list is its greatest. -/
theorem getLast?_eq_some_iff_greatest {l : List Nat} (h : l.Pairwise (· < ·)) (k : Nat) :
    l.getLast? = some k ↔ k ∈ l ∧ ∀ j ∈ l, j ≤ k := by
  have hlast {k : Nat} (hk : l.getLast? = some k) : k ∈ l ∧ ∀ j ∈ l, j ≤ k := by
    obtain ⟨front, rfl⟩ := List.getLast?_eq_some_iff.1 hk
    refine ⟨by simp, fun j hj => ?_⟩
    rcases List.mem_append.1 hj with hj | hj
    · exact Nat.le_of_lt (List.pairwise_append.1 h |>.2.2 j hj k (by simp))
    · exact Nat.le_of_eq (List.mem_singleton.1 hj)
  refine ⟨hlast, fun ⟨hk, hmax⟩ => ?_⟩
  cases hl : l.getLast? with
  | none => simp [List.getLast?_eq_none_iff.1 hl] at hk
  | some m =>
    obtain ⟨hm, hmaxm⟩ := hlast hl
    exact congrArg some (Nat.le_antisymm (hmax m hm) (hmaxm k hk))

/-- Settles O17: the ACTIVE slots stand in rising order, and the last of them is the greatest. -/
theorem activeSiteRootIsTheHighestActiveSlot : Obligations.ActiveSiteRootIsTheHighestActiveSlot := by
  unfold Obligations.ActiveSiteRootIsTheHighestActiveSlot
  refine ⟨fun fuses k => ?_, fun fuses => ?_⟩
  · rw [activeSlot, getLast?_eq_some_iff_greatest (slotsIn_sorted fuses .active)]
    simp only [mem_slotsIn, and_imp, and_assoc]
  · simp only [activeSlot, List.getLast?_eq_none_iff, List.eq_nil_iff_forall_not_mem, mem_slotsIn, not_and]

/-! ### A pair that is done (R833, R944) -/

/-- The state after a pair: programmed, and what waited for its end in effect (05 R211). -/
def pairDone (p : Nat) (took : Bool) (s : State) : State := settleAfterPair (burnPair p took s)

theorem pairDone_keeps (p : Nat) (took : Bool) (s : State) :
    Only [.clk, .flt, .status, .net, .sv, .disc, .weft, .bea] (burnPair p took s) (pairDone p took s) := by
  simp [pairDone]

@[simp] theorem pairDone_otp (p : Nat) (s : State) : (pairDone p true s).otp =
    { fuse := programPair s.otp.fuse p, shadow := programPair s.otp.shadow p } := pairDone_keeps p true s .otp (by decide)
@[simp] theorem pairDone_keys (p : Nat) (took : Bool) (s : State) : (pairDone p took s).keys = s.keys :=
  pairDone_keeps p took s .keys (by decide)
@[simp] theorem pairDone_dlg (p : Nat) (took : Bool) (s : State) : (pairDone p took s).dlg = s.dlg :=
  pairDone_keeps p took s .dlg (by decide)

theorem pairDone_of_no_wait (p : Nat) (took : Bool) {s : State} (h : s.clk.slowDue = none) : pairDone p took s = burnPair p took s := by
  have hsettle : settleSlow (burnPair p took s) = burnPair p took s := by
    unfold settleSlow
    split
    case h_1 => rfl
    case h_2 hdue => simp [burnPair, h] at hdue
  simp only [pairDone, settleAfterPair, hsettle, ite_self]

theorem markHot_of_seq (tj : Int) {q : FuseSeq} {s : State} (h : s.keys.seq = some q) :
    markHot tj s = setSeq { q with hot := hotJunction tj && !q.todo.isEmpty } s := by
  simp [markHot, h]

theorem markHot_of_idle (tj : Int) {s : State} (h : s.keys.seq = none) : markHot tj s = s := by
  simp [markHot, h]

section Pair
variable {q : FuseSeq} {p : Nat} {s : State} (hseq : s.keys.seq = some q) (hcool : q.hot = false)
include hseq hcool

theorem execFusePairDone_more {p2 : Nat} {rest : List Nat} (took : Bool) (tj : Int) (htodo : q.todo = p :: p2 :: rest) :
    exec (.fusePairDone took tj) s = .next (setSeq { q with todo := p2 :: rest, hot := hotJunction tj } (pairDone p took s)) := by
  have hpair : execFusePairDone took tj s = .next (markHot tj (setSeq { q with todo := p2 :: rest } (pairDone p took s))) := by
    simp [execFusePairDone, hseq, htodo, hcool, pairDone]
  refine hpair.trans (congrArg Host.Outcome.next ((markHot_of_seq tj rfl).trans ?_))
  simp [setSeq, modKeys]

theorem execFusePairDone_last (took : Bool) (tj : Int) (htodo : q.todo = [p]) :
    exec (.fusePairDone took tj) s = .next (markHot tj (nextStage { q with todo := [] } (pairDone p took s))) := by
  show execFusePairDone took tj s = _
  simp only [execFusePairDone, hseq, htodo, hcool]
  rfl

end Pair

/-! ### From stage to stage (R831, R847) -/

/-- The intent of a record leads to the body of its transition. -/
theorem nextStage_intent {q : FuseSeq} {r : Nat} (s : State) (hrec : seqRecord q.kind = some r) (hstage : q.stage = .intent) :
    nextStage q s = setSeq { q with stage := .body, todo := bodyPairs s q.kind r } s := by
  obtain ⟨kind, stage, todo, image, hot⟩ := q
  cases hstage
  cases kind <;> simp_all [nextStage, seqRecord]

theorem bodyPairs_last (s : State) (k : SeqKind) (r : Nat) : (bodyPairs s k r).getLast? = some (recState r) := by
  simp [bodyPairs]

theorem bodyPairs_congr {s t : State} (h : t.otp.shadow = s.otp.shadow) (k : SeqKind) (r : Nat) : bodyPairs t k r = bodyPairs s k r := by
  simp only [bodyPairs, h]

theorem decideOutcome_frame (n : Nat) (s : State) : (decideOutcome n s).keys = s.keys ∧ (decideOutcome n s).otp = s.otp := by
  unfold decideOutcome
  split <;> exact ⟨rfl, rfl⟩

theorem carriedOut_spec (w : Swap) (s : State) : (carriedOut w s).keys = { s.keys with
      seq := none, phase := phaseOf s.otp.shadow, swapDue := some w } ∧ (carriedOut w s).otp = s.otp ∧
    (s.dlg.order.isSome = true → (carriedOut w s).dlg.outcome = some 0) := by
  obtain ⟨hkeys, hotp⟩ := decideOutcome_frame 0 (noSeq (modKeys (fun z => { z with phase := phaseOf s.otp.shadow, swapDue := some w }) s))
  refine ⟨hkeys, hotp, fun h => ?_⟩
  have hif : carriedOut w s = modDlg (fun z => { z with outcome := some 0 })
      (noSeq (modKeys (fun z => { z with phase := phaseOf s.otp.shadow, swapDue := some w }) s)) := if_pos h
  rw [hif]
  rfl

/-! ### The re-tag of a rotation (R847 step 3) -/

theorem retagLog_of_key {k : List Byte} {s : State} (h : keyValue s .faultLog = some k) : retagLog s = modLdg (fun z => { z with
    log := z.log.map (fun r => if r.keyed = z.logKey then { r with keyed := k } else r) }) s := by
  simp [retagLog, h]

theorem nextLedger_empty {s : State} (h : s.ldg.todo = []) : nextLedger s = modLdg (fun z => { z with busy := none }) s := by
  simp [nextLedger, h]

/-- A ledger that is idle lets a rotation go on from the re-tag to the destruction of its old slot. -/
theorem ledgerFreed_retag {slot old : Nat} {q : FuseSeq} {s : State} (hseq : s.keys.seq = some q) (hkind : q.kind = .rotate slot old)
    (hstage : q.stage = .retag) (hbusy : s.ldg.busy = none) (htodo : s.ldg.todo = []) :
    ledgerFreed s = markHot s.sens.tj (destroyOldSlot q old s) := by
  simp [ledgerFreed, hseq, hstage, hbusy, htodo, nextStage, hkind]

/-- Settles O15: a pair that is done leaves the rest of its list or leads to the next stage; each stage has its lemma. -/
theorem fuseSequencesRunInOrder : Obligations.FuseSequencesRunInOrder := by
  unfold Obligations.FuseSequencesRunInOrder
  refine ⟨?more, ?held, ?cooled, ?intent, ?body, ?armed, ?intended, ?retagged⟩
  case more =>
    intro tj q p p2 rest s hseq htodo hcool
    refine ⟨_, execFusePairDone_more hseq hcool true tj htodo, ?_⟩
    refine ⟨by simp [setSeq], by simp [setSeq], by simp [setSeq], by simp [setSeq], rfl, fun hdue => ?_⟩
    rw [pairDone_of_no_wait p true hdue]
    rfl
  case held =>
    intro took tj q s hseq hhot
    show execFusePairDone took tj s = .next s
    cases htodo : q.todo <;> simp [execFusePairDone, hseq, htodo, hhot]
  case cooled =>
    intro tj q s hseq hhot htj
    show execFuseSequenceTempWaitEnd tj s = _
    have hcool : hotJunction tj = false := decide_eq_false (Int.not_lt.2 htj)
    simp only [execFuseSequenceTempWaitEnd, hseq, hhot, hcool]
    rfl
  case intent =>
    intro tj e p q s hseq hkind hstage htodo hcool
    have hnext := nextStage_intent (q := { q with todo := [] }) (r := 2 * e) (pairDone p true s) (by simp [hkind, seqRecord]) hstage
    refine ⟨_, execFusePairDone_last hseq hcool true tj htodo, ?_⟩
    rw [hnext, markHot_of_seq tj rfl]
    refine ⟨_, rfl, rfl, hkind, ?_, ?_, by simp [setSeq]⟩
    · rw [← hkind]
      exact bodyPairs_congr rfl _ _
    · exact bodyPairs_last _ _ _
  case body =>
    intro tj p q s hseq hkind hstage htodo hcool
    have hnext : nextStage { q with todo := [] } (pairDone p true s) = carriedOut .transition (pairDone p true s) := by
      simp [nextStage, hkind, hstage]
    obtain ⟨hkeys, hotp, hout⟩ := carriedOut_spec .transition (pairDone p true s)
    refine ⟨_, execFusePairDone_last hseq hcool true tj htodo, ?_⟩
    rw [hnext, markHot_of_idle tj (by simp [hkeys])]
    exact ⟨by simp [hkeys], by simp [hkeys, hotp], by simp [hkeys], by simpa using hout⟩
  case armed =>
    intro q r s hrec harm
    simp [beginIntent, hrec, harm]
  case intended =>
    intro q r s hrec harm
    simp only [beginIntent, hrec, harm]
    rfl
  case retagged =>
    intro slot old q k s hbusy htodo hseq hkind hstage hkey
    have hexec : exec .ledgerRetagDone s = .next (ledgerFreed (nextLedger (retagLog s))) := if_pos hbusy
    rw [hexec, retagLog_of_key hkey, nextLedger_empty (by simpa using htodo),
      ledgerFreed_retag (q := q) (by simpa using hseq) hkind hstage rfl (by simpa using htodo), destroyOldSlot, markHot_of_seq _ rfl]
    exact ⟨_, rfl, rfl, rfl, _, rfl, rfl, rfl⟩

end Sys2Proof.Machine
end

section
/-!
PROOFS. The lengths of the parts of a status record and of its detail pages (19 R915 to R917, Tables 19.5 to 19.7).
-/
namespace Sys2Proof.Machine
open Sys2Proof

/-! ### Fields of a fixed length -/

@[simp] theorem satNat_length (n v : Nat) : (satNat n v).length = n := beBytes_length n _
@[simp] theorem satInt_length (n : Nat) (v : Int) : (satInt n v).length = n := beInt_length n _
@[simp] theorem zeros_length (n : Nat) : (zeros n).length = n := List.length_replicate
@[simp] theorem bits64_length (f : Nat → Bool) : (bits64 f).length = 8 := beBytes_length 8 _
@[simp] theorem bits256_length (l : List Byte) : (bits256 l).length = 32 := beBytes_length 32 _
@[simp] theorem activeBits_length (s : State) : (activeBits s).length = 8 := bits64_length _
@[simp] theorem lastEntry_length (e : RingEntry) : (lastEntry e).length = 6 := by simp [lastEntry]
@[simp] theorem groupEntry_length (s : State) (i : Nat) : (groupEntry s i).length = 2 := by simp [groupEntry]
@[simp] theorem ledgerCopies_length (s : State) : (ledgerCopies s).length = 2 := satNat_length 2 _

@[simp] theorem windowEntry_length (s : State) (i : Nat) : (windowEntry s i).length = 4 := by
  unfold windowEntry
  split <;> simp

@[simp] theorem lastResult_length (s : State) : (lastResult s).length = 6 := by
  unfold lastResult
  split <;> simp

@[simp] theorem flowEntry_length (s : State) (f : Nat) : (flowEntry s f).length = 12 := by
  unfold flowEntry
  split <;> simp

@[simp] theorem wallFaultEntry_length (s : State) (w : Option WallFault) : (wallFaultEntry s w).length = 6 := by
  unfold wallFaultEntry
  split <;> simp

/-- Pieces of one length, put together. -/
theorem length_flatMap_const {α : Type} {f : α → List Byte} {k : Nat} (hf : ∀ x, (f x).length = k) (l : List α) :
    (l.flatMap f).length = l.length * k := by
  simp [List.length_flatMap, hf]

/-! ### The record (Table 19.5) and its pages (Table 19.7) -/

theorem recIdentity_length (s : State) (kind : Nat) (n : BitVec 32) : (recIdentity s kind n).length = 60 := by
  unfold recIdentity
  simp only [List.length_append, beBytes_length]

theorem recNetwork_length (s : State) : (recNetwork s).length = 64 := by
  unfold recNetwork
  simp only [List.length_append, beBytes_length, satInt_length, length_flatMap_const (k := 1) fun _ => beBytes_length 1 _,
    List.length_range]
  split <;> simp [ports, dirs]

theorem recWindows_length (s : State) : (recWindows s).length = 64 := length_flatMap_const (windowEntry_length s) _

theorem recPanel_length (s : State) : (recPanel s).length = 80 := by
  have hgroups : ((List.range 8).flatMap (fun g =>
      let w := s.weft.group.getD g {}; beBytes 1 w.code ++ satNat 1 w.clips)).length = 16 :=
    length_flatMap_const (k := 2) (fun _ => by simp) _
  unfold recPanel
  simp only [List.length_append, beBytes_length, satNat_length, bits64_length, zeros_length, hgroups,
    length_flatMap_const (groupEntry_length s), List.length_range]
  split <;> simp

theorem recSound_length (s : State) : (recSound s).length = 68 := by
  unfold recSound
  simp only [List.length_append, beBytes_length, beInt_length, satNat_length, zeros_length, lastResult_length,
    length_flatMap_const (k := 1) fun _ => beBytes_length 1 _, length_flatMap_const (k := 1) fun _ => satNat_length 1 _,
    List.length_range]

theorem recFaults_length (s : State) : (recFaults s).length = 68 := by
  unfold recFaults
  simp only [List.length_append, beBytes_length, satNat_length, activeBits_length,
    length_flatMap_const (k := 2) fun _ => beBytes_length 2 _, List.length_range]
  rw [length_flatMap_const (k := 6)]
  · rfl
  · intro i
    split <;> simp

/-- Every detail page fills bytes 408 to 503. -/
theorem detailPage_length (s : State) (page : Nat) : (detailPage s page).length = 96 := by
  unfold detailPage
  split
  · have hwindows : ((List.range 16).flatMap (fun i =>
        if 9 ≤ i then zeros 3
        else
          let w := s.scene.win.getD i {}
          satNat 1 w.lateLines ++ satNat 1 w.heldBeats ++ satNat 1 w.rejects)).length = 48 :=
      length_flatMap_const (k := 3) (fun i => by split <;> simp) _
    rw [List.length_append, hwindows, length_flatMap_const (k := 1) fun _ => beBytes_length 1 _]
    rfl
  · rw [List.length_append, length_flatMap_const (k := 1) fun _ => beBytes_length 1 _, length_flatMap_const (flowEntry_length s)]
    rfl
  · rw [List.length_append, length_flatMap_const (k := 1) fun _ => beBytes_length 1 _,
      length_flatMap_const (k := 1) fun _ => beBytes_length 1 _]
    rfl
  · split <;> simp
  · exact length_flatMap_const (k := 6) (fun _ => wallFaultEntry_length s _) _

/-- Settles O30: the parts before the page are 408 bytes long, and the sequence number is the third field of the first. -/
theorem recordsCarryTheirDetailPage : Obligations.RecordsCarryTheirDetailPage := by
  unfold Obligations.RecordsCarryTheirDetailPage
  intro kind n s
  have hfront : (recIdentity s kind n ++ recNetwork s ++ recWindows s ++ recPanel s ++ recSound s ++ recFaults s ++
      beBytes 1 (n.toNat % 8) ++ zeros 3).length = 408 := by
    simp only [List.length_append, recIdentity_length, recNetwork_length, recWindows_length, recPanel_length, recSound_length,
      recFaults_length, beBytes_length, zeros_length]
  refine ⟨?_, ?_, List.drop_left' hfront⟩
  · unfold recordBody
    rw [List.length_append, hfront, detailPage_length]
  · show slice (recordBody s kind n) 2 4 = _
    unfold recordBody recIdentity
    simp only [List.append_assoc]
    rw [slice_beBytes_append_right (by decide), slice_beBytes_append_right (by decide)]
    exact slice_beBytes_append_self 4 _ _

end Sys2Proof.Machine
end

section
/-!
PROOFS. The operations of the ledger flash (19 R914, R920, R926): the end of one, the second failure that stops a region, and
what a mirror and a flush leave.
-/
namespace Sys2Proof.Machine
open Sys2Proof Sys2Proof.Safety

/-! ### The end of an operation (R926) -/

section Ends
variable {op : LedgerOp} {s : State} (hbusy : s.ldg.busy = some op) (hbank : bankUsable s .misc = true)
include hbusy hbank

theorem execLedgerProgramDone_well (hop : op ≠ .retag) :
    exec (.ledgerProgramDone true) s = .next (ledgerFreed (nextLedger (finishLedger op s))) := by
  show execLedgerProgramDone true s = _
  simp [execLedgerProgramDone, hbusy, hbank, hop]

theorem execLedgerProgramDone_first_failure (hfails : s.ldg.fails.any (fun f => decide (f.1 = op)) = false) :
    exec (.ledgerProgramDone false) s = .next (modLdg (fun z => { z with fails := (op, 1) :: z.fails }) s) := by
  show execLedgerProgramDone false s = _
  simp only [execLedgerProgramDone, hbusy, hbank, hfails]
  rfl

theorem execLedgerProgramDone_second_failure (hfails : s.ldg.fails.any (fun f => decide (f.1 = op)) = true) :
    exec (.ledgerProgramDone false) s = .next (ledgerFreed (abandonRegion op s)) := by
  show execLedgerProgramDone false s = _
  simp only [execLedgerProgramDone, hbusy, hbank, hfails]
  rfl

end Ends

theorem ledgerFreed_of_idle {s : State} (h : s.keys.seq = none) : ledgerFreed s = s := by
  simp [ledgerFreed, h]

@[simp] theorem nextLedger_stopped (s : State) : (nextLedger s).ldg.stopped = s.ldg.stopped := by
  unfold nextLedger
  split <;> rfl

/-- A region that is abandoned is stopped, and its fault stands. -/
theorem abandonRegion_spec (op : LedgerOp) (s : State) : op ∈ (abandonRegion op s).ldg.stopped ∧
    (abandonRegion op s).keys = s.keys ∧ Stands .ldgAccess 2 (abandonRegion op s) := by
  have h3 : sevOf .ldgAccess ≠ 3 := by decide
  have hkeys : Only [.flt, .ldg, .status, .net, .sv, .disc, .weft, .bea] s (abandonRegion op s) := by simp [abandonRegion, h3]
  refine ⟨?_, hkeys .keys (by decide), stands_raise_self _ _ _ (by decide) h3⟩
  simp [abandonRegion, h3, apply_ite State.ldg]

theorem mayWrite_of_stopped {op : LedgerOp} {s : State} (h : op ∈ s.ldg.stopped) : mayWrite s op = false := by
  simp [mayWrite, h]

/-! ### Mirrors (R914, Table 19.9) -/

theorem unmirrored_one {e : RingEntry} {s : State} (hring : s.flt.ring = [e]) (hnew : e.mirrored = false) : unmirrored s = [e] := by
  simp [unmirrored, hring, hnew]

theorem finishMirror_one {e : RingEntry} {s : State} (hring : s.flt.ring = [e]) (hnew : e.mirrored = false)
    (hone : s.ldg.mirroring = 1) (hroom : s.ldg.log.length < 16384) :
    (finishMirror s).ldg.log = s.ldg.log ++ [⟨{ e with mirrored := true }, s.ldg.nextSeq, s.ldg.logKey⟩] ∧
    (finishMirror s).ldg.nextSeq = s.ldg.nextSeq + 1 ∧ (finishMirror s).flt.ring = [{ e with mirrored := true }] := by
  have hover : s.ldg.log.length + 1 - 16384 = 0 := by omega
  refine ⟨?_, ?_, ?_⟩
  · simp [finishMirror, unmirrored_one hring hnew, hone, logRecords, hover]
  · simp [finishMirror, unmirrored_one hring hnew, hone]
  · simp [finishMirror, unmirrored_one hring hnew, hone, hring, markMirrored, hnew]

/-- The fault log is circular, of 16,384 records. -/
theorem finishMirror_log_length (s : State) : (finishMirror s).ldg.log.length ≤ 16384 := by
  simp only [finishMirror, List.length_drop]
  omega

/-! ### Wear copies (R920) -/

theorem finishFlush_ldg {c : WearCopy} {s : State} (h : s.ldg.copy = some c) : (finishFlush s).ldg = { s.ldg with
    copies := (c :: s.ldg.copies).take s.ldg.copyCount, copy := none, lastFlush := c.wall } := by
  simp [finishFlush, h]

/-- Settles O49: the three ends of an operation, and what a mirror and a flush leave in the ledger. -/
theorem ledgerProgramsCompleteOrStop : Obligations.LedgerProgramsCompleteOrStop := by
  unfold Obligations.LedgerProgramsCompleteOrStop
  refine ⟨fun op s hbusy hbank hop => execLedgerProgramDone_well hbusy hbank hop, fun op s hbusy hbank hfails => ?first,
    fun op n s hbusy hbank hfails hseq => ?second, fun e s hring hnew hone hroom => finishMirror_one hring hnew hone hroom,
    fun s _ => finishMirror_log_length s, fun c s hcopy hcount => ?flush⟩
  case first =>
    rw [execLedgerProgramDone_first_failure hbusy hbank (by simp [hfails])]
    simp [modLdg, hfails]
  case second =>
    obtain ⟨hstopped, hkeys, hstands⟩ := abandonRegion_spec op s
    refine ⟨_, execLedgerProgramDone_second_failure hbusy hbank (by simp [hfails]), ?_⟩
    rw [ledgerFreed_of_idle (by rw [hkeys, hseq])]
    exact ⟨hstopped, mayWrite_of_stopped hstopped, hstands⟩
  case flush =>
    obtain ⟨n, hn⟩ := Nat.exists_eq_succ_of_ne_zero (Nat.pos_iff_ne_zero.1 hcount)
    rw [finishFlush_ldg hcopy]
    exact ⟨by simp [hn], List.length_take_le _ _, rfl⟩

end Sys2Proof.Machine
end

section
/-!
PROOFS. The re-test of a tripped weft pin (13 R678, Table 13.10), and why the statement of the weft ports fails: a port with a
channel that status reads flagged short keeps `f:WEFT_SHORT` until the next bring-up, whatever the re-test of its pin says.
-/
namespace Sys2Proof.Machine
open Sys2Proof Sys2Proof.Safety

@[simp] theorem recensusFreed_shortSeen (pin : WeftPin) (s : State) : (recensusFreed pin s).weft.shortSeen = s.weft.shortSeen := by
  unfold recensusFreed
  dsimp only
  split <;> rfl

/-- A re-test of a short that passes clears no fault on a port with a channel flagged short. -/
theorem retestTrip_of_flagged {p : Fin 64} {at_ : Ticks} {s : State} (hdue : at_ + secT 60 ≤ s.now)
    (hflagged : s.weft.shortSeen.any (fun x => x.1 == p.val) = true) : (retestTrip (.port p) .short at_ true s).flt = s.flt := by
  have hfreed : (recensusFreed (.port p) (returnGroup (pinGroup (.port p)) (setTrip (.port p) none s))).weft.shortSeen =
      s.weft.shortSeen := by simp [returnGroup, setTrip]
  have hkeeps : Only [.weft] s (recensusFreed (.port p) (returnGroup (pinGroup (.port p)) (setTrip (.port p) none s))) := by simp
  have hlate : ¬ s.now < at_ + secT 60 := Nat.not_lt.2 hdue
  have hkept : retestTrip (.port p) .short at_ true s =
      recensusFreed (.port p) (returnGroup (pinGroup (.port p)) (setTrip (.port p) none s)) := by
    simp only [retestTrip, hlate, hfreed, hflagged, if_true, if_false, Bool.not_true, Bool.false_eq_true]
  rw [hkept]
  exact hkeeps .flt (by decide)

theorem execWeftRetest_tripped {pin : WeftPin} {cause : WBlank} {at_ : Ticks} {pass : Bool} {s : State} (hrun : runs s = true)
    (hbank : bankUsable s .weft = true) (hdom : (pinDom pin).all (domOn s) = true) (htrip : pinTripped s pin = some (cause, at_)) :
    exec (.weftRetest pin pass) s = .next (retestTrip pin cause at_ pass s) := by
  show execWeftRetest pin pass s = _
  unfold execWeftRetest
  rw [if_neg (by simp [hrun, hbank, hdom]), htrip]

/-- A tile whose port 0 tripped 60 s ago, a channel of its chain being flagged short. -/
def flaggedTile : State :=
  { now := secT 60
    pwr := { bankW := { level := .v33 }, dom := List.replicate 12 { phase := .on } }
    clk := { running := true }
    weft := { port := { hiZ := true, trip := some (.short, 0) } :: List.replicate 63 {}, shortSeen := [(0, 0, 0)] }
    flt := { active := [⟨.weftShort, 0, 0, 0⟩] } }

theorem flaggedTile_tripped : runs flaggedTile = true ∧ bankUsable flaggedTile .weft = true ∧
    (pinDom (.port 0)).all (domOn flaggedTile) = true ∧ pinTripped flaggedTile (.port 0) = some (.short, 0) := by decide

theorem flaggedTile_stands : Stands .weftShort (pinDetail (.port 0)) flaggedTile := by unfold Stands; decide

/-- Refutes O48: its clause of the re-test lets `f:WEFT_SHORT` end with every pass after 60 s. In `flaggedTile` the port has a channel
flagged short as well (Table 13.10), and the model keeps the fault. -/
theorem not_weftPortsAreGuarded : ¬ Obligations.WeftPortsAreGuarded := by
  unfold Obligations.WeftPortsAreGuarded
  rintro ⟨-, -, -, -, -, -, -, hretest, -⟩
  obtain ⟨hrun, hbank, hdom, htrip⟩ := flaggedTile_tripped
  have hdue : 0 + secT 60 ≤ flaggedTile.now := by decide
  obtain ⟨-, -, hpass⟩ := hretest (.port 0) 0 true flaggedTile hrun hbank hdom htrip
  obtain ⟨t, ht, -, hcleared⟩ := hpass hdue rfl
  obtain rfl := Host.Outcome.next.inj ((execWeftRetest_tripped hrun hbank hdom htrip).symm.trans ht)
  have hflt := retestTrip_of_flagged (p := 0) hdue (by decide)
  refine hcleared ?_
  unfold Stands activeKey
  rw [hflt]
  exact flaggedTile_stands

end Sys2Proof.Machine
end

section
/-!
PROOFS. The markers (14 R682, R685, R695 to R703, R714 to R718): the setting of a whole millisecond, VLED, the re-tests and
retries of a channel, and the reduction of one that dissipates too much.
-/
namespace Sys2Proof.Machine
open Sys2Proof Sys2Proof.Safety

/-! ### One channel -/

theorem updAt_updAt {α : Type} (l : List α) (i : Nat) (f g : α → α) : updAt (updAt l i f) i g = updAt l i (fun x => g (f x)) := by
  induction l generalizing i with
  | nil => rfl
  | cons x xs ih =>
    cases i with
    | zero => rfl
    | succ n => simp only [updAt, ih]

theorem modChan_modChan (nn : Nat) (f g : Chan → Chan) (s : State) : modChan nn g (modChan nn f s) = modChan nn (fun x => g (f x)) s := by
  simp only [modChan, modMark, updAt_updAt]

theorem chanAt_congr {s t : State} (h : t.mark.chan = s.mark.chan) (nn : Nat) : chanAt t nn = chanAt s nn := by
  simp only [chanAt, h]

theorem chanAt_modChan_self {nn : Nat} {s : State} (f : Chan → Chan) (h : nn < s.mark.chan.length) :
    chanAt (modChan nn f s) nn = f (chanAt s nn) := getD_updAt_self f {} h

/-! ### The setting of a whole millisecond (R682, R695 to R703) -/

theorem settingAt_dark {t nn : Nat} {s : State}
    (h : groupOfChan s nn = none ∨ marksDark s = true ∨ (chanAt s nn).dead = true ∨ (chanAt s nn).latched = true) : settingAt s t nn = 0 := by
  unfold settingAt
  split
  · rfl
  case h_2 g hg =>
    refine if_pos ?_
    rcases h with h | h | h | h
    · simp [h] at hg
    · simp [h]
    · simp [h]
    · simp [h]

theorem chanAt_setAllQ {nn : Nat} {s : State} (h : nn < s.mark.chan.length) :
    chanAt (setAllQ s) nn = { chanAt s nn with q := settingAt s (wallNs s / 1000000 * 1000000) nn } := by
  simp [chanAt, setAllQ, List.getD_eq_getElem?_getD, List.getElem?_mapIdx, List.getElem?_eq_getElem h]

/-- With every channel off, each is set to 0. -/
theorem setAllQ_dark {s : State} (h : marksDark s = true) : ∀ c ∈ (setAllQ s).mark.chan, c.q = 0 := by
  intro c hc
  simp only [setAllQ, modMark_mark, List.mem_mapIdx] at hc
  obtain ⟨i, _, rfl⟩ := hc
  exact settingAt_dark (.inr (.inl h))

/-- No other millisecond begins before the next one. -/
theorem markDue_of_next {s : State} (h : s.mark.nextMs = some (wallNs s / 1000000 + 1)) : markDue s = false := by
  simp [markDue, h]

/-! ### What keeps the instant of the next setting -/

section NextMs
variable (s : State)

@[simp] theorem modChan_nextMs (nn : Nat) (f : Chan → Chan) : (modChan nn f s).mark.nextMs = s.mark.nextMs := rfl
@[simp] theorem modMGroup_nextMs (g : Nat) (f : MGroup → MGroup) : (modMGroup g f s).mark.nextMs = s.mark.nextMs := rfl
@[simp] theorem trackVled_nextMs (v : Nat) : (trackVled v s).mark.nextMs = s.mark.nextMs := rfl
@[simp] theorem trackPower_nextMs (meas : List MarkMeas) : (trackPower meas s).mark.nextMs = s.mark.nextMs := rfl
@[simp] theorem noteMarker_nextMs : (noteMarker s).mark.nextMs = s.mark.nextMs := rfl
@[simp] theorem failChan_nextMs (nn : Nat) (f : Chan → Chan) : (failChan nn f s).mark.nextMs = s.mark.nextMs := rfl

/-- A fold of operations that each keep the instant keeps it. -/
theorem foldl_nextMs {α : Type} (f : State → α → State) (h : ∀ t a, (f t a).mark.nextMs = t.mark.nextMs) (l : List α) :
    (l.foldl f s).mark.nextMs = s.mark.nextMs :=
  foldl_holds (fun t => t.mark.nextMs = s.mark.nextMs) f (fun t a ht => (h t a).trans ht) l s rfl

@[simp] theorem checkOne_nextMs (nn : Nat) (m : MarkMeas) (v : Nat) : (checkOne nn m v s).mark.nextMs = s.mark.nextMs := by
  unfold checkOne
  split
  · rfl
  · split <;> rfl

@[simp] theorem groupOff_nextMs (g : Nat) : (groupOff g s).mark.nextMs = s.mark.nextMs := by
  unfold groupOff
  split
  · simp [show sevOf .mkGroupoff ≠ 3 by decide]
  · rfl

@[simp] theorem noteOpen_nextMs (nn g vs : Nat) : (noteOpen nn g vs s).mark.nextMs = s.mark.nextMs := by
  unfold noteOpen
  split
  · rfl
  · simp [show sevOf .mkOpen ≠ 3 by decide]

@[simp] theorem noteShort_nextMs (met : Bool) (nn g vs : Nat) : (noteShort met nn g vs s).mark.nextMs = s.mark.nextMs := by
  unfold noteShort
  split
  · rfl
  · simp [show sevOf .mkShort ≠ 3 by decide]

@[simp] theorem noteSupply_nextMs (nn g vs : Nat) : (noteSupply nn g vs s).mark.nextMs = s.mark.nextMs := by
  unfold noteSupply
  split
  · rfl
  · simp [latchOff, show sevOf .mkSupplyshort ≠ 3 by decide]

@[simp] theorem compareRefs_nextMs (old : State) (meas : List MarkMeas) (g : Nat) : (compareRefs old meas g s).mark.nextMs = s.mark.nextMs :=
  foldl_nextMs s _ (fun t k => foldl_nextMs t _ (fun u n => by simp) _) _

@[simp] theorem actOn_nextMs (meas : List MarkMeas) (nn : Nat) : (actOn meas nn s).mark.nextMs = s.mark.nextMs := by
  unfold actOn
  split <;> simp

@[simp] theorem endFaults_nextMs (nn : Nat) : (endFaults nn s).mark.nextMs = s.mark.nextMs := by
  unfold endFaults
  split
  · rfl
  · simp only [apply_ite State.mark, apply_ite Mk.nextMs, clearFault_frame, modChan_nextMs, ite_self]

@[simp] theorem checkAll_nextMs (meas : List MarkMeas) (v : Nat) : (checkAll meas v s).mark.nextMs = s.mark.nextMs := by
  unfold checkAll
  dsimp only
  rw [foldl_nextMs _ _ (fun t n => by simp), foldl_nextMs _ _ (fun t g => by simp), foldl_nextMs _ _ (fun t n => by simp)]

@[simp] theorem restoreGroup_nextMs (g : Nat) : (restoreGroup g s).mark.nextMs = s.mark.nextMs := by
  unfold restoreGroup
  split
  · rfl
  · dsimp only
    simp only [clearFault_frame]
    rw [foldl_nextMs _ _ (fun t n => by simp)]
    rfl

@[simp] theorem deadGroup_nextMs (g : Nat) : (deadGroup g s).mark.nextMs = s.mark.nextMs := by
  unfold deadGroup
  split <;> simp

end NextMs

/-! ### The command of the whole millisecond (R682, R685) -/

/-- The state in which a millisecond's settings are taken: measured and checked, with the next one noted. -/
def markMeasured (meas : List MarkMeas) (vled : Nat) (s : State) : State :=
  let s := trackVled vled (modMark (fun m => { m with nextMs := some (wallNs s / 1000000 + 1) }) s)
  let s := if marksDark s then s else trackPower meas (checkAll meas vled s)
  if marksDark s then s else (List.range (mkGroups s)).foldl (fun st g => restoreGroup g (deadGroup g st)) s

theorem execMarkerUpdate_due {meas : List MarkMeas} {vled : Nat} {s : State} (hrun : runs s = true) (hdom : domOn s 11 = true)
    (htime : s.time.running = true) (hdue : markDue s = true) :
    exec (.markerUpdate meas vled) s = .next (setAllQ (markMeasured meas vled s)) :=
  if_neg (by simp [hrun, hdom, htime, hdue])

theorem markMeasured_keeps (meas : List MarkMeas) (vled : Nat) (s : State) :
    Only [.test, .flt, .status, .net, .sv, .disc, .weft, .mark, .bea] s (markMeasured meas vled s) := by simp [markMeasured]

theorem markMeasured_nextMs (meas : List MarkMeas) (vled : Nat) (s : State) :
    (markMeasured meas vled s).mark.nextMs = some (wallNs s / 1000000 + 1) := by
  have hfold (t : State) : ((List.range (mkGroups t)).foldl (fun st g => restoreGroup g (deadGroup g st)) t).mark.nextMs =
      t.mark.nextMs := foldl_nextMs t _ (fun u g => by simp) _
  simp only [markMeasured, apply_ite State.mark, apply_ite Mk.nextMs, hfold, trackPower_nextMs, checkAll_nextMs, trackVled_nextMs, ite_self]
  rfl

/-- Before the first idle pattern a millisecond only takes the measure of VLED. -/
theorem markMeasured_off {meas : List MarkMeas} {vled : Nat} {s : State} (h : s.mark.on = false) : markMeasured meas vled s =
    trackVled vled (modMark (fun m => { m with nextMs := some (wallNs s / 1000000 + 1) }) s) := by
  have hdark : marksDark (trackVled vled (modMark (fun m => { m with nextMs := some (wallNs s / 1000000 + 1) }) s)) = true := by
    simp [marksDark, trackVled, h]
  simp only [markMeasured, hdark, if_true]

/-! ### VLED (R718, 04 Table 4.9) -/

theorem execVledOutOfRange_out {vled : Nat} {t0 : Ticks} {s : State} (hrun : runs s = true) (hdom : domOn s 11 = true)
    (hgroups : mkGroups s ≠ 0) (hin : s.mark.vledOut = false) (hbad : vledBad vled = true) (hsince : s.mark.vledBadSince = some t0)
    (hlong : t0 + msT 10 ≤ s.now) : exec (.vledOutOfRange vled) s = .next (raise .pwrVled (BitVec.ofNat 32 (vled / 100))
      (modMark (fun m => { m with vledOut := true, chan := m.chan.map (fun c => { c with q := 0 }) }) (trackVled vled s))) := by
  have hpassed : passed s.now (some t0) (msT 10) = true := decide_eq_true hlong
  have hgroups' : mkGroups (trackVled vled s) ≠ 0 := hgroups
  have hin' : (trackVled vled s).mark.vledOut = false := hin
  have hsince' : (trackVled vled s).mark.vledBadSince = some t0 := by simp [trackVled, hbad, hsince, holdSince]
  have hnow : (trackVled vled s).now = s.now := rfl
  show execVledOutOfRange vled s = _
  unfold execVledOutOfRange
  rw [if_neg (by simp [hrun, hdom])]
  refine if_neg ?_
  simp [hgroups', hin', hsince', hnow, hpassed]

theorem execVledRestore_back {vled : Nat} {t0 : Ticks} {s : State} (hrun : runs s = true) (hdom : domOn s 11 = true)
    (hout : s.mark.vledOut = true) (hgood : vledGood vled = true) (hsince : s.mark.vledGoodSince = some t0) (hlong : t0 + msT 100 ≤ s.now) :
    exec (.vledRestore vled) s = .next (clearFault .pwrVled 0 (modMark (fun m => { m with vledOut := false }) (trackVled vled s))) := by
  have hpassed : passed s.now (some t0) (msT 100) = true := decide_eq_true hlong
  show execVledRestore vled s = _
  unfold execVledRestore
  rw [if_neg (by simp [hrun, hdom])]
  refine if_pos ?_
  simp [trackVled, hout, hgood, hsince, holdSince, hpassed]

/-! ### Re-tests (R715) -/

/-- A clear of another fault brings none to stand. -/
theorem not_stands_clearFault {f g : FaultName} {d e : BitVec 32} {s : State} (h : ¬ Stands f d s) : ¬ Stands f d (clearFault g e s) := by
  unfold Stands activeKey at *
  rw [clearFault, clearKey_active]
  simp only [Bool.not_eq_true, List.any_eq_false] at *
  exact fun a ha => h a (List.mem_of_mem_filter ha)

theorem noteRestore_flt (g : Nat) (s : State) : (noteRestore g s).flt = s.flt := by
  unfold noteRestore
  split <;> rfl

theorem chanAt_noteRestore (g nn : Nat) (s : State) : chanAt (noteRestore g s) nn = chanAt s nn := by
  unfold noteRestore
  split <;> rfl

theorem chanAt_clearFault (f : FaultName) (d : BitVec 32) (nn : Nat) (s : State) : chanAt (clearFault f d s) nn = chanAt s nn :=
  chanAt_congr (by simp) nn

theorem chanAt_raise {f : FaultName} (h3 : sevOf f ≠ 3) (d : BitVec 32) (nn : Nat) (s : State) : chanAt (raise f d s) nn = chanAt s nn :=
  chanAt_congr (by simp [h3]) nn

/-- The channel's re-test is noted in its millisecond. -/
def retestNoted (nn : Nat) (s : State) : State := modChan nn (fun x => { x with retestMs := some (wallNs s / 1000000) }) s

section Retest
variable {ch : Fin 48} {first second : MarkMeas} {vled g : Nat} {s : State} (hg : groupOfChan s ch.val = some g)
  (hrun : marksRun s = true) (hreg : regulated s g = true) (hbad : (chanAt s ch.val).openF = true ∨ (chanAt s ch.val).shortF = true)
  (hlatch : (chanAt s ch.val).latched = false) (hdue : dueBy s.now (chanAt s ch.val).nextRetest = true)
include hg hrun hreg hbad hlatch hdue

theorem execMarkerRetest_due : execMarkerRetest ch first second vled s =
    if checkPasses (retestNoted ch.val s) g ch.val vled first && checkPasses (retestNoted ch.val s) g ch.val vled second then
      .next (noteRestore g (clearFault .mkShort (BitVec.ofNat 32 ch.val) (clearFault .mkOpen (BitVec.ofNat 32 ch.val)
        (modChan ch.val (fun x => { x with passes := x.passes + 1, nextRetest := some (s.now + secT 10) }) (retestNoted ch.val s)))))
    else .next (modChan ch.val (fun x => { x with passes := 0, nextRetest := some (s.now + secT 10) }) (retestNoted ch.val s)) := by
  have hgo : ¬ (!marksRun s || !regulated s g || !((chanAt s ch.val).openF || (chanAt s ch.val).shortF) ||
      (chanAt s ch.val).latched || !dueBy s.now (chanAt s ch.val).nextRetest) = true := by
    rcases hbad with h | h <;> simp [hrun, hreg, h, hlatch, hdue]
  unfold execMarkerRetest
  rw [hg]
  exact if_neg hgo

theorem execMarkerRetest_fails (hfail : checkPasses (retestNoted ch.val s) g ch.val vled first = false ∨
    checkPasses (retestNoted ch.val s) g ch.val vled second = false) :
    exec (.markerRetest ch first second vled) s = .next (modChan ch.val (fun x => { x with
      retestMs := some (wallNs s / 1000000), passes := 0, nextRetest := some (s.now + secT 10) }) s) := by
  refine (execMarkerRetest_due hg hrun hreg hbad hlatch hdue).trans ((if_neg ?_).trans (congrArg Host.Outcome.next (modChan_modChan _ _ _ _)))
  rcases hfail with h | h <;> simp [h]

theorem execMarkerRetest_passes (h1 : checkPasses (retestNoted ch.val s) g ch.val vled first = true)
    (h2 : checkPasses (retestNoted ch.val s) g ch.val vled second = true) :
    exec (.markerRetest ch first second vled) s = .next (noteRestore g (clearFault .mkShort (BitVec.ofNat 32 ch.val)
      (clearFault .mkOpen (BitVec.ofNat 32 ch.val) (modChan ch.val (fun x => { x with
        retestMs := some (wallNs s / 1000000), passes := x.passes + 1, nextRetest := some (s.now + secT 10) }) s)))) := by
  refine (execMarkerRetest_due hg hrun hreg hbad hlatch hdue).trans ((if_pos (by simp [h1, h2])).trans ?_)
  rw [retestNoted, modChan_modChan]

end Retest

/-! ### Retries (R714) -/

theorem execSupplyShortRetry_due {ch : Fin 48} {meas : List MarkMeas} {vled g : Nat} {s : State} (hg : groupOfChan s ch.val = some g)
    (hrun : marksRun s = true) (hlatch : (chanAt s ch.val).latched = true) (hdead : (chanAt s ch.val).dead = false)
    (hdue : dueBy s.now (chanAt s ch.val).nextRetry = true) : exec (.supplyShortRetry ch meas vled) s =
      if meas.any (supplyCond vled) then .next (retryFail ch.val s) else .next (retryPass ch.val g s) := by
  show execSupplyShortRetry ch meas vled s = _
  unfold execSupplyShortRetry
  rw [hg]
  exact if_neg (by simp [hrun, hlatch, hdead, hdue])

theorem chanAt_retryFail {nn : Nat} {s : State} (h : nn < s.mark.chan.length) : chanAt (retryFail nn s) nn =
    { chanAt s nn with
      retries := min 15 ((chanAt s nn).retries + 1), passes := 0, supplyOkSince := none, lastSupply := some s.now
      dead := decide (8 ≤ min 15 ((chanAt s nn).retries + 1))
      nextRetry := if 8 ≤ min 15 ((chanAt s nn).retries + 1) then none else some (s.now + secT 1) } := chanAt_modChan_self _ h

/-! ### Dissipation (R717) -/

theorem execMarkerThermalReduce_channel {c : Fin 48} {p : Nat} {s : State} (hrun : runs s = true) (hdom : domOn s 11 = true) :
    exec (.markerThermalReduce (.channel c p)) s = .next (reduceChan c.val (modChan c.val (trackChan s.now p) s)) :=
  if_neg (by simp [hrun, hdom])

theorem reduceChan_over {nn : Nat} {s : State} (hfull : (chanAt s nn).halved = false)
    (hover : passed s.now (chanAt s nn).overSince (msT 100) = true) :
    reduceChan nn s = raise .mkThermal (BitVec.ofNat 32 nn) (modChan nn (fun x => { x with halved := true }) s) :=
  if_pos (by simp [hfull, hover])

theorem reduceChan_within {nn : Nat} {s : State} (hfull : (chanAt s nn).halved = false) (hwithin : (chanAt s nn).overSince = none) :
    reduceChan nn s = s := by
  simp [reduceChan, hfull, hwithin, passed]

/-- Settles O50: a lemma for each command, and what each leaves of the channel. -/
theorem markersAreSetAndGuarded : Obligations.MarkersAreSetAndGuarded := by
  unfold Obligations.MarkersAreSetAndGuarded
  refine ⟨?off, ?early, ?update, fun ch s h => congrArg Chan.q (chanAt_setAllQ h), fun t nn s h => settingAt_dark h, ?vledOut, ?vledBack,
    ?fails, ?passes, ?retryFails, ?retryPasses, ?clear, ?exceeds, ?within, ?total⟩
  case off =>
    intro meas vled s hrun hdom htime hdue hoff
    refine ⟨_, execMarkerUpdate_due hrun hdom htime hdue, ?_⟩
    rw [markMeasured_off hoff]
    refine ⟨rfl, markDue_of_next rfl, setAllQ_dark ?_, rfl⟩
    simp [marksDark, trackVled, hoff]
  case early => exact fun meas vled s h => if_pos (by simp [h])
  case update =>
    intro meas vled s hrun hdom htime hdue
    exact ⟨_, execMarkerUpdate_due hrun hdom htime hdue, markMeasured_nextMs meas vled s, _, rfl,
      markMeasured_keeps meas vled s .time (by decide)⟩
  case vledOut =>
    intro vled t0 s hrun hdom hgroups hin hbad hsince hlong
    have h3 : sevOf .pwrVled ≠ 3 := by decide
    refine ⟨_, execVledOutOfRange_out hrun hdom hgroups hin (by simpa [vledBad] using hbad) hsince hlong, ?_, ?_,
      stands_raise_self _ _ _ (by decide) h3⟩
    · simp [h3]
    · simp only [raise_frame, ne_eq, h3, not_false_eq_true, modMark_mark, List.mem_map]
      rintro c ⟨x, -, rfl⟩
      rfl
  case vledBack =>
    intro vled t0 s hrun hdom hout hlow hhigh hsince hlong
    exact ⟨_, execVledRestore_back hrun hdom hout (by simp [vledGood, hlow, hhigh]) hsince hlong, by simp, not_stands_clearKey rfl _⟩
  case fails =>
    intro ch first second vled g s hg hrun hreg hbad hlatch hdue hfail
    exact execMarkerRetest_fails hg hrun hreg hbad hlatch hdue hfail
  case passes =>
    intro ch first second vled g s hg hrun hreg hbad hlatch hdue h1 h2 hlen
    refine ⟨_, execMarkerRetest_passes hg hrun hreg hbad hlatch hdue h1 h2, ?_, ?_, ?_⟩
    · rw [chanAt_noteRestore, chanAt_clearFault, chanAt_clearFault, chanAt_modChan_self _ hlen]
    · rw [chanAt_noteRestore, chanAt_clearFault, chanAt_clearFault, chanAt_modChan_self _ hlen]
    · unfold Stands activeKey
      rw [noteRestore_flt]
      exact not_stands_clearFault (not_stands_clearKey rfl _)
  case retryFails =>
    intro ch meas vled g s hg hrun hlatch hdead hdue hcond hlen
    refine ⟨_, (execSupplyShortRetry_due hg hrun hlatch hdead hdue).trans (if_pos hcond), ?_⟩
    simp only [chanAt_retryFail hlen]
    refine ⟨trivial, ?_, hlatch⟩
    simp only [decide_eq_true_eq]
    omega
  case retryPasses =>
    intro ch meas vled g s hg hrun hlatch hdead hdue hcond
    exact (execSupplyShortRetry_due hg hrun hlatch hdead hdue).trans (if_neg (by simp [hcond]))
  case clear => exact fun ch s hrun hdead hlong => if_pos (by simp [hrun, hdead, hlong])
  case exceeds =>
    intro c p t0 s hrun hdom hlen hfull hpow hsince hlong
    have h3 : sevOf .mkThermal ≠ 3 := by decide
    have htrack := chanAt_modChan_self (s := s) (trackChan s.now p) hlen
    have hstill : (trackChan s.now p (chanAt s c.val)).overSince = some t0 := by
      simp [trackChan, overFrom, channelLimit, hpow, hsince, holdSince]
    have hpassed : passed s.now (chanAt (modChan c.val (trackChan s.now p) s) c.val).overSince (msT 100) = true := by
      rw [htrack, hstill]
      exact decide_eq_true hlong
    refine ⟨_, execMarkerThermalReduce_channel hrun hdom, ?_⟩
    rw [reduceChan_over (by simp [htrack, trackChan, hfull]) hpassed, modChan_modChan]
    refine ⟨?_, stands_raise_self _ _ _ (by decide) h3⟩
    rw [chanAt_raise h3, chanAt_modChan_self _ hlen]
  case within =>
    intro c p s hrun hdom hlen hfull hpow
    have htrack := chanAt_modChan_self (s := s) (trackChan s.now p) hlen
    refine ⟨_, execMarkerThermalReduce_channel hrun hdom, ?_⟩
    rw [reduceChan_within (by simp [htrack, trackChan, hfull])
      (by simp [htrack, trackChan, overFrom, channelLimit, Nat.not_lt.2 hpow])]
    exact ⟨by simp [htrack, trackChan, hfull], rfl⟩
  case total => exact fun p s hrun hdom => if_neg (by simp [hrun, hdom])

end Sys2Proof.Machine
end

section
/-!
PROOFS. The audio sources (15 R723, R728, R743, R744, R749, Table 15.3): what each command does where its condition holds, and
what a fetch and the play-out leave.
-/
namespace Sys2Proof.Machine
open Sys2Proof Sys2Proof.Safety

/-! ### Senders and sources of a flow (R723, R749, Table 15.3) -/

section Flow
variable {flow : Fin 4} {f : AFlow} {s : State} (hflow : s.aud.flows[flow.val]? = some f)
include hflow

theorem execAudioSenderTimeout_silent {x : Sender} (hsender : f.sender = some x) (hsilent : x.heard + msT 100 ≤ s.now) :
    exec (.audioSenderTimeout flow) s = .next (setAFlow false flow.val { f with sender := none } s) := by
  show execAudioSenderTimeout flow s = _
  unfold execAudioSenderTimeout
  simp only [hflow, hsender]
  exact if_pos hsilent

theorem execNonAudioEnd_past {pair : Fin 8} {j t : Int} (hpre : lastPreamble f pair.val = some j) (htop : f.top = some t)
    (hin : pair.val ∈ f.nonAudio) (hpast : j + 8192 ≤ t) : exec (.nonAudioEnd flow pair) s = .next (setAFlow false flow.val { f with
      nonAudio := f.nonAudio.filter (· != pair.val), sincePre := f.sincePre.filter (fun e => e.1 != pair.val) } s) := by
  show execNonAudioEnd flow pair s = _
  unfold execNonAudioEnd
  simp only [hflow, hpre, htop]
  exact if_pos (by simp [hin, hpast])

theorem execAudNosourceTimeout_lacking (hrun : runs s = true) (hnew : f.noSource = false) (hlacks : lacksSource s f = true) :
    exec (.audNosourceTimeout flow) s = .next (raise .audNosource (BitVec.ofNat 32 flow.val)
      (setAFlow false flow.val { f with noSource := true, goodSince := none } s)) := by
  show execAudNosourceTimeout flow s = _
  unfold execAudNosourceTimeout
  simp only [hflow]
  exact if_pos (by simp [hrun, hnew, hlacks])

end Flow

/-! ### Fetching and playing (R728) -/

/-- With nothing fetched and no step, there is nothing to play. -/
theorem playDue_of_empty {s : State} (hstep : s.time.stepped = false) (hpipe : s.aud.pipe = []) : playDue s = s := by
  unfold playDue
  simp [hstep, hpipe, playAll]

/-- The faults of a fetch leave the audio path as it is. -/
theorem fetchFaults_aud (n : Nat) (e : FetchEvent) (s : State) : (fetchFaults n e s).aud = s.aud := by
  have h : Only [.flt, .status, .net, .sv, .disc, .weft, .bea] s (fetchFaults n e s) := by simp
  exact h .aud (by decide)

theorem foldl_fetchFaults_aud (l : List (Nat × FetchEvent)) (s : State) :
    (l.foldl (fun st e => fetchFaults e.1 e.2 st) s).aud = s.aud :=
  foldl_holds (fun t => t.aud = s.aud) _ (fun t e h => (fetchFaults_aud e.1 e.2 t).trans h) l s rfl

theorem fetchSample_m (m : Int) (s : State) : (fetchSample m s).aud.m = some (m + 1) :=
  congrArg Aud.m (foldl_fetchFaults_aud _ _)

theorem fetchSample_pipe_length (m : Int) (s : State) : (fetchSample m s).aud.pipe.length = s.aud.pipe.length + 1 :=
  (congrArg (fun a => a.pipe.length) (foldl_fetchFaults_aud _ _)).trans List.length_append

theorem execAudioFetch_due {s : State} (htdm : tdmRuns s = true) (haud : audioRuns s = true) (htime : s.time.running = true)
    (hdue : edgeTime (playDue s) (fetchIndex (playDue s)) - fetchLead ≤ counterOf (playDue s)) :
    exec .audioFetch s = .next (fetchSample (fetchIndex (playDue s)) (switchIfDue (fetchIndex (playDue s)) (playDue s))) :=
  (if_neg (by simp [htdm, haud, htime])).trans (if_pos hdue)

/-! ### Levels (R743 to R745) -/

theorem execLevelChangeApply_first {channel : Fin 32} {s : State} (htdm : tdmRuns s = true)
    (hready : levelReady s.now s.aud.outA channel.val (match s.aud.pipe with | x :: _ => channelValue x 0 channel.val | [] => 0) = true) :
    exec (.levelChangeApply 0 channel) s = .next { s with aud := { s.aud with outA := applyLevel channel.val s.aud.outA } } :=
  (if_neg (by simp [htdm])).trans ((if_pos rfl).trans (congrArg Host.Outcome.next (if_pos hready)))

theorem execLevelChangeApply_second {channel : Fin 32} {s : State} (htdm : tdmRuns s = true)
    (hready : levelReady s.now s.aud.outB channel.val
      (match s.aud.pipe with | x :: _ => channelValue x (tdmData s) channel.val | [] => 0) = true) :
    exec (.levelChangeApply 1 channel) s = .next { s with aud := { s.aud with outB := applyLevel channel.val s.aud.outB } } :=
  (if_neg (by simp [htdm])).trans ((if_neg (by decide)).trans (congrArg Host.Outcome.next (if_pos hready)))

/-- From the 20 ms point on a pending level is ready on every channel. -/
theorem levelReady_of_late {now t : Ticks} {q j : Nat} {v : Int} {o : AOut} (hpend : o.pendLevel = some (q, t, [])) (hlate : t ≤ now) :
    levelReady now o j v = true := by
  simp [levelReady, hpend, hlate]

theorem clipTo_bounds (w : Nat) (v : Int) : -(2 ^ (w - 1) : Int) ≤ clipTo w v ∧ clipTo w v ≤ 2 ^ (w - 1) - 1 := by
  have hpos : (0 : Int) < 2 ^ (w - 1) := by positivity
  unfold clipTo
  push_cast
  omega

/-- Settles O51: a lemma for each command, for the fetch and for the levels. -/
theorem audioFollowsItsSources : Obligations.AudioFollowsItsSources := by
  unfold Obligations.AudioFollowsItsSources
  refine ⟨fun flow f x s hflow => execAudioSenderTimeout_silent hflow, fun flow pair f j t s hflow => execNonAudioEnd_past hflow,
    fun s => execAudioFetch_due, fun s => playDue_of_empty, fun m s => ⟨fetchSample_m m s, fetchSample_pipe_length m s⟩,
    fun channel s htdm => ⟨execLevelChangeApply_first htdm, execLevelChangeApply_second htdm⟩,
    fun now t q j v o => levelReady_of_late, fun flow f s hflow => execAudNosourceTimeout_lacking hflow, fun w v _ => clipTo_bounds w v⟩

end Sys2Proof.Machine
end

section
/-!
PROOFS. The card port (16 R797, R800 to R805, Table 16.8, 18 R863, R892): activation, the characters read from the line, protocol
failures, and what ends a dialogue.
-/
namespace Sys2Proof.Machine
open Sys2Proof Sys2Proof.Safety

/-! ### The end of a dialogue and a protocol failure (R805, Table 16.8) -/

/-- A card that ends leaves the faults as they are. -/
theorem endCard_flt (s : State) : (endCard s).flt = s.flt := by
  have h : Only [.keys, .lifecycle, .card, .dlg] s (endCard s) := by simp
  exact h .flt (by decide)

/-- The identity source is destroyed at the end of a card. -/
theorem endCard_identity {s : State} : ∀ k ∈ (endCard s).keys.store, k.name ≠ .identity := by
  intro k hk
  simpa using (List.mem_filter.1 hk).2

theorem cardFail_stage (detail : BitVec 32) (s : State) : (cardFail detail s).card.stage = .ended := rfl

/-- The first protocol failure is followed by one more activation (Table 16.8). -/
theorem cardFail_retryAt {detail : BitVec 32} {s : State} (h : s.card.failed = false) :
    (cardFail detail s).card.retryAt = some (s.now + secT 1) := by
  have hend : Only [.keys, .lifecycle, .card, .dlg] (raise .cardProtocol detail s) (endCard (raise .cardProtocol detail s)) := by simp
  have hnow : (endCard (raise .cardProtocol detail s)).now = s.now := (hend .now (by decide)).trans (by simp)
  simp [cardFail, h, hnow]

theorem stands_cardFail (detail : BitVec 32) (s : State) : Stands .cardProtocol detail (cardFail detail s) := by
  have hraise : Stands .cardProtocol detail (raise .cardProtocol detail s) := stands_raise_self _ _ _ (by decide) (by decide)
  unfold Stands activeKey at hraise ⊢
  rw [show (cardFail detail s).flt = (raise .cardProtocol detail s).flt from endCard_flt _]
  exact hraise

/-! ### Activation and TS (R797, R800) -/

section Ts
variable {levels : List Bool} {s : State} (hrun : cardRuns s = true) (hstage : s.card.stage = .awaitTs)
  (hwhole : s.card.activated + usT 2350 + levels.length * cardClock ≤ s.now)
include hrun hstage hwhole

/-- Past TS's earliest end the command reads its pattern. -/
theorem execTs_whole : exec (.ts levels) s =
    if etuBits s.card 10 levels = tsDirect then .next (modCard (fun c => { c with stage := .awaitAtr, direct := true }) s)
    else if etuBits s.card 10 levels = tsInverse then .next (modCard (fun c => { c with stage := .awaitAtr, direct := false }) s)
    else .next (cardFail 0 s) :=
  if_neg (by simp [hrun, hstage, hwhole])

theorem execTs_direct (hbits : etuBits s.card 10 levels = tsDirect) :
    exec (.ts levels) s = .next { s with card := { s.card with stage := .awaitAtr, direct := true } } :=
  (execTs_whole hrun hstage hwhole).trans (if_pos hbits)

theorem execTs_inverse (hbits : etuBits s.card 10 levels = tsInverse) :
    exec (.ts levels) s = .next { s with card := { s.card with stage := .awaitAtr, direct := false } } :=
  (execTs_whole hrun hstage hwhole).trans ((if_neg (by rw [hbits]; decide)).trans (if_pos hbits))

theorem execTs_neither (hdirect : etuBits s.card 10 levels ≠ tsDirect) (hinverse : etuBits s.card 10 levels ≠ tsInverse) :
    exec (.ts levels) s = .next (cardFail 0 s) :=
  (execTs_whole hrun hstage hwhole).trans ((if_neg hdirect).trans (if_neg hinverse))

end Ts

/-! ### Characters, ATR and PPS (R799 to R803) -/

section Character
variable {direct : Bool} {ch : BitVec 9} (l : List (BitVec 9))

theorem takeChars_even (bad : Nat) (h : evenParity direct ch = true) : takeChars direct bad (ch :: l) =
    (takeChars direct 0 l).map (fun r => (charByte direct ch :: r.1, r.2)) := if_pos h

theorem takeChars_asked {bad : Nat} (h : evenParity direct ch = false) (hbad : bad < 4) : takeChars direct bad (ch :: l) =
    (takeChars direct (bad + 1) l).map (fun r => (r.1, r.2 + 1)) :=
  (if_neg (by simp [h])).trans (if_neg (Nat.not_le.2 hbad))

theorem takeChars_given_up {bad : Nat} (h : evenParity direct ch = false) (hbad : 4 ≤ bad) : takeChars direct bad (ch :: l) = none :=
  (if_neg (by simp [h])).trans (if_pos hbad)

end Character

theorem execAtrComplete_read {chars : List (BitVec 9)} {bytes : List Byte} {errors : Nat} {s : State} (hrun : cardRuns s = true)
    (hstage : s.card.stage = .awaitAtr) (hchars : takeChars s.card.direct 0 chars = some (bytes, errors)) :
    exec (.atrComplete chars) s = .next (takeAtr bytes (signalErrors errors s)) := by
  show execAtrComplete chars s = _
  unfold execAtrComplete
  simp [hrun, hstage, hchars]

theorem takeAtr_other_protocol {bytes : List Byte} {a : Atr} (hatr : parseAtr bytes = some a) (hproto : a.proto = some 1) (s : State) :
    takeAtr bytes s = cardFail 3 s := by
  simp [takeAtr, hatr, hproto]

/-- Without TC1 and TC2 the guard time is 0 and WI is 10. -/
theorem takeAtr_default {bytes : List Byte} {a : Atr} (hatr : parseAtr bytes = some a) (hproto : a.proto = none) (h1 : a.tc1 = none)
    (h2 : a.tc2 = none) (s : State) : takeAtr bytes s = chooseSpeed a { s with card := { s.card with guard := 0, wi := 10 } } := by
  simp [takeAtr, hatr, hproto, h1, h2, modCard]

theorem execPpsEcho_read {t : Byte} {chars : List (BitVec 9)} {bytes : List Byte} {errors : Nat} {s : State}
    (hstage : s.card.stage = .awaitPps t) (hrun : cardRuns s = true) (hchars : takeChars s.card.direct 0 chars = some (bytes, errors)) :
    exec (.ppsEcho chars) s = .next (takePps t bytes (signalErrors errors s)) := by
  show execPpsEcho chars s = _
  unfold execPpsEcho
  simp [hrun, hstage, hchars]

theorem takePps_echoed {t : Byte} {p : Nat × Nat} {bytes : List Byte} (hecho : bytes = ppsRequest t) (hspeed : supported t = some p)
    (s : State) : takePps t bytes s = beginDialogue { s with card := { s.card with fi := p.1, di := p.2 } } := by
  unfold takePps
  rw [if_pos hecho, hspeed]
  rfl

/-! ### What ends a card (R805, 18 R863, R892) -/

theorem execCardRemoval_busy {s : State} (h : cardBusy s = true) : exec .cardRemoval s = .next (clearAll .cardProtocol (endCard s)) :=
  if_pos h

theorem execCardAbsenceConfirmed_idle {s : State} (h : cardBusy s = false) : exec .cardAbsenceConfirmed s =
    .next (clearAll .cardProtocol { s with card := { ioLow := s.card.ioLow, endedAt := s.card.endedAt } }) :=
  if_neg (by simp [h])

theorem execCardDialogueStandbyLimit_past {e : Entry} {s : State} (hentry : s.standby.entry = some e) (hstage : e.stage = .waiting)
    (hbusy : cardBusy s = true) (hpast : passed s.now e.waitSince (secT 10) = true) :
    exec .cardDialogueStandbyLimit s = .next (endCard s) := by
  show execCardDialogueStandbyLimit s = _
  unfold execCardDialogueStandbyLimit
  rw [hentry]
  exact if_pos (by simp [hstage, hbusy, hpast])

/-- A retry counter that times out in the work waiting time of a ready card is a protocol failure (R803). -/
theorem execCardCharacterTimeout_ready {s : State} (hrun : cardRuns s = true) (hstage : s.card.stage = .ready) :
    exec (.cardCharacterTimeout .workWaiting) s = .next (cardFail 6 s) := by
  show execCardCharacterTimeout .workWaiting s = _
  unfold execCardCharacterTimeout
  simp [hrun, hstage]

/-- Settles O52: a lemma for each command and for the reading of characters. -/
theorem cardIsActivatedOnce : Obligations.CardIsActivatedOnce := by
  unfold Obligations.CardIsActivatedOnce
  refine ⟨fun s hrun hstage => if_pos (by simp [hrun, hstage]), fun s => ⟨rfl, rfl, rfl⟩,
    fun levels s hrun hstage hwhole =>
      ⟨execTs_direct hrun hstage hwhole, execTs_inverse hrun hstage hwhole, execTs_neither hrun hstage hwhole⟩,
    fun s hrun hstage hlong => if_pos (by simp [hrun, hstage, hlong]), fun s => execCardCharacterTimeout_ready,
    fun detail s _ hfirst => ⟨cardFail_stage detail s, cardFail_retryAt hfirst, stands_cardFail detail s⟩,
    fun s hrun hstage hdue => if_pos (by simp [hrun, hstage, hdue]), ?otherProtocol, ?accepted, ?pps,
    fun bad direct ch l => ⟨takeChars_even l bad, takeChars_asked l, takeChars_given_up l⟩, ?removal, ?absence,
    fun s hbusy hlong => if_pos (by simp [hbusy, hlong]), fun e s => execCardDialogueStandbyLimit_past⟩
  case otherProtocol =>
    intro chars bytes errors a s hrun hstage hchars hatr hproto
    rw [execAtrComplete_read hrun hstage hchars, takeAtr_other_protocol hatr hproto]
  case accepted =>
    intro chars bytes errors a s hrun hstage hchars hatr hproto h1 h2
    rw [execAtrComplete_read hrun hstage hchars, takeAtr_default hatr hproto h1 h2]
  case pps =>
    intro t p chars bytes errors s hstage hrun hchars
    rw [execPpsEcho_read hstage hrun hchars]
    exact ⟨fun hecho hspeed => congrArg Host.Outcome.next (takePps_echoed hecho hspeed _),
      fun hother => congrArg Host.Outcome.next (if_neg hother)⟩
  case removal =>
    intro s hbusy _
    refine ⟨_, execCardRemoval_busy hbusy, ?_, ?_, isActive_clearAll_self _ _, ?_⟩
    · simp [endCard_stage]
    · simp [endCard_dlg]
    · simpa using endCard_identity
  case absence =>
    intro s hidle
    exact ⟨_, execCardAbsenceConfirmed_idle hidle, by simp, isActive_clearAll_self _ _⟩

end Sys2Proof.Machine
end

section
/-!
PROOFS. The Bobbin bus: what is received (16 R771 to R776, R781 to R785): characters, escapes, the frames of a stretch and the checks
of one.
-/
namespace Sys2Proof.Machine
open Sys2Proof Sys2Proof.Safety

/-! ### Characters that reach the receiver (R763 to R765) -/

/-- The receiver itself marks no character as overrun. -/
theorem receive_overrun (tick : Nat) (r : Rx) (levels : List Bool) : ∀ c ∈ receive tick r levels, c.2.overrun = false := by
  induction levels generalizing tick r with
  | nil => simp [receive]
  | cons x l ih =>
    unfold receive
    split
    case h_1 => exact ih _ _
    case h_2 n _ =>
      dsimp only
      generalize (if (_ && _) = true then x :: r.got else r.got) = got
      split
      · exact ih _ _
      · split
        · exact List.forall_mem_cons.2 ⟨rfl, ih _ _⟩
        · exact ih _ _

/-- With no character lost, the FIFO hands over what the receiver saw. -/
theorem dropLost_none {l : List (Nat × RxChar)} (h : ∀ c ∈ l, c.2.overrun = false) (i : Nat) : dropLost [] i false l = l := by
  induction l generalizing i with
  | nil => rfl
  | cons c l ih =>
    obtain ⟨hc, hl⟩ := List.forall_mem_cons.1 h
    obtain ⟨t, c⟩ := c
    cases c
    subst hc
    simp [dropLost, ih hl]

theorem execBobbinFrame_received {levels : List Bool} {s : State} (hrun : bobRuns s = true) (hpartial : s.bob.partial_ = false)
    (hflow : strayFlow (receive 0 {} levels) = []) : exec (.bobbinFrame levels []) s =
      .next (busUsed (takeSegs levels.length (segsOf (dropLost [] 0 false (receive 0 {} levels))) s)) := by
  have hgot : dropLost [] 0 false (receive 0 {} levels) = receive 0 {} levels := dropLost_none (receive_overrun _ _ _) 0
  show execBobbinFrame levels [] s = _
  unfold execBobbinFrame
  rw [hgot]
  simp [hrun, hpartial, hflow, overran]

/-! ### Escapes (R773) -/

/-- An escaped byte comes back in front of what follows it. -/
theorem unescape_escapeBob (a : Byte) (l : List Byte) : unescape (escapeBob a ++ l) = (unescape l).map (fun r => a :: r) := by
  by_cases hplain : a = xonChar ∨ a = xoffChar ∨ a = escChar
  case pos =>
    rcases hplain with rfl | rfl | rfl <;> simp [escapeBob, unescape, xonChar, xoffChar, escChar]
  case neg =>
    simp only [not_or] at hplain
    obtain ⟨hxon, hxoff, hesc⟩ := hplain
    have hself : escapeBob a = [a] := if_neg (by simp [hxon, hxoff, hesc])
    rw [hself]
    cases l with
    | nil => simp [unescape, hesc]
    | cons b l => simp [unescape, hesc]

theorem unescape_flatMap_escapeBob (b : List Byte) : unescape (b.flatMap escapeBob) = some b := by
  induction b with
  | nil => rfl
  | cons a l ih => rw [List.flatMap_cons, unescape_escapeBob, ih, Option.map_some]

/-! ### One frame (R774, R775, R782, R783) -/

/-- A frame for another address only mutes the receiver. -/
theorem takeSeg_other {g : BSeg} {s : State} (haddr : takesAddr s g.dest.data = false)
    (hflow : (g.chars.map Prod.snd).filter isFlow = []) (hdest : badChars [g.dest] = 0) (last : Bool) (ended : Ticks) :
    takeSeg g last ended s = { s with bob := { s.bob with muted := true, partial_ := false } } := by
  simp [takeSeg, haddr, hflow, hdest, bobNoise, modBob]

theorem checkFrame_untagged {f : BFrame} {s : State} (h : tagOk s f = false) : ∃ u : State,
    checkFrame f s = discardFrame u ∧ u.bob = s.bob ∧ u.aud = s.aud ∧ u.standby = s.standby :=
  ⟨_, if_neg (by simp [h]), by simp, by simp, by simp⟩

/-- An order other than a level that is no later than the last from its source is acknowledged as out of order. -/
theorem takeOrderFrame_stale {f : BFrame} {s : State} (htype : f.type ≠ 0x22) (hstale : freshOrder s f = false) :
    takeOrderFrame f s = ack f 3 s :=
  (if_neg (by simp [htype])).trans (if_pos (by simp [hstale]))

theorem later32_self (a : BitVec 32) : later32 a a = false := by simp [later32, cmp32]

/-- Once noted, an order is not taken a second time. -/
theorem freshOrder_noteOrder (f : BFrame) (s : State) : freshOrder (noteOrder f s) f = false := by
  simp [freshOrder, noteOrder, later32_self]

end Sys2Proof.Machine
end

section
/-!
PROOFS. What the Bobbin bus and the beacon send (16 R776 to R781, R786, R787, R792 to R796, R807): flow control, answers, the
roll-call and the beacon's pages.
-/
namespace Sys2Proof.Machine
open Sys2Proof Sys2Proof.Safety

/-! ### Characters that leave (R779, R780) -/

/-- The transmitter and the count of what went wrong on the bus: what sending characters changes of it. -/
def LineOnly (b c : Bob) : Prop := ∃ tx lastChar noise collisions,
  c = { b with tx := tx, lastChar := lastChar, noise := noise, collisions := collisions }

theorem bobNoise_bob (n : Nat) (s : State) : ∃ noise, (bobNoise n s).bob = { s.bob with noise := noise } := by
  have hraise (detail : BitVec 32) (t : State) : (raiseLimited .bobNoise 0 (secT 60) detail t).bob = t.bob := by simp
  unfold bobNoise
  split
  · exact ⟨s.bob.noise, rfl⟩
  · dsimp only
    split
    · exact ⟨_, hraise _ _⟩
    · exact ⟨_, rfl⟩

theorem sendChars_echoed {l : List (Byte × Bool)} {echo : List RxChar} (h : echoed l echo = true) (s : State) :
    sendChars l echo s = startSending (leaving l echo) s := if_pos h

/-- A collision is counted. -/
theorem sendChars_collided {l : List (Byte × Bool)} {echo : List RxChar} (h : echoed l echo = false) (s : State) :
    (sendChars l echo s).bob.collisions = s.bob.collisions + 1 := by
  have hsend : sendChars l echo s = bobNoise 1 (modBob (fun b => { b with collisions := b.collisions + 1 })
      (startSending (leaving l echo) s)) := if_neg (by simp [h])
  obtain ⟨noise, hbob⟩ := bobNoise_bob 1 (modBob (fun b => { b with collisions := b.collisions + 1 }) (startSending (leaving l echo) s))
  rw [hsend, hbob]
  rfl

theorem sendChars_bob (l : List (Byte × Bool)) (echo : List RxChar) (s : State) : LineOnly s.bob (sendChars l echo s).bob := by
  unfold sendChars
  dsimp only
  split
  · exact ⟨_, _, _, _, rfl⟩
  · obtain ⟨noise, hbob⟩ := bobNoise_bob 1 (modBob (fun b => { b with collisions := b.collisions + 1 }) (startSending (leaving l echo) s))
    exact ⟨_, _, noise, _, hbob⟩

/-! ### A frame that is sent (R775 to R780) -/

section Frame
variable {dest : Byte} {type : Nat} {body : List Byte} {echo : List RxChar} {s : State}

/-- A frame uses up its number (log 57), and changes nothing else of the bus's state than its line. -/
theorem sendBob_bob : LineOnly { s.bob with seqOut := s.bob.seqOut + 1 } (sendBob dest type body echo s).bob := by
  unfold sendBob
  dsimp only
  split <;> exact sendChars_bob _ _ _

theorem sendBob_whole_sent (h : wholeEcho s dest type body echo = true) :
    (sendBob dest type body echo s).sent = .bobbin dest (sentChars s dest type body) :: s.sent := by
  have hsend : sendBob dest type body echo s = emit (startSending (leaving (ninthBits dest (sentChars s dest type body)) echo)
      (modBob (fun b => { b with seqOut := b.seqOut + 1 }) s)) (.bobbin dest (sentChars s dest type body)) :=
    (if_pos h).trans (congrArg (fun t => emit t _) (sendChars_echoed h _))
  rw [hsend]
  rfl

theorem sendBob_collided (h : wholeEcho s dest type body echo = false) :
    (sendBob dest type body echo s).bob.collisions = s.bob.collisions + 1 := by
  have hsend : sendBob dest type body echo s = sendChars (ninthBits dest (sentChars s dest type body)) echo
      (modBob (fun b => { b with seqOut := b.seqOut + 1 }) s) := if_neg (by simp [h])
  rw [hsend]
  exact sendChars_collided h _

end Frame

/-! ### Answers (R777, R807) -/

/-- With no frame waiting, the end of an answer leaves none to give. -/
theorem endAnswer_of_no_waiting {s : State} (h : s.bob.waiting = []) :
    endAnswer s = { s with bob := { s.bob with answer := none, waiting := [] } } := by
  simp [endAnswer, h, processWaiting, modBob]

section Answer
variable {echo : List RxChar} {a : Answer} {s : State} (hanswer : s.bob.answer = some a) (hrun : bobRuns s = true)
include hanswer hrun

theorem execAnswerSend_due (hsending : sendingNow s = false) (hheld : heldByXoff s = false) (htime : answerInTime s a = true)
    (hwaiting : s.bob.waiting = []) : ∃ tx lastChar noise collisions,
      exec (.answerSend echo) s = .next { sendBob a.dest a.type a.body echo s with bob := { s.bob with
        seqOut := s.bob.seqOut + 1, answer := none, waiting := []
        tx := tx, lastChar := lastChar, noise := noise, collisions := collisions } } ∧
      collisions = (sendBob a.dest a.type a.body echo s).bob.collisions := by
  obtain ⟨tx, lastChar, noise, collisions, hbob⟩ := sendBob_bob (dest := a.dest) (type := a.type) (body := a.body) (echo := echo) (s := s)
  have hexec : exec (.answerSend echo) s = .next (endAnswer (sendBob a.dest a.type a.body echo s)) := by
    show execAnswerSend echo s = _
    unfold execAnswerSend
    simp [hanswer, hrun, hsending, hheld, htime]
  refine ⟨tx, lastChar, noise, collisions, ?_, by rw [hbob]⟩
  rw [hexec, endAnswer_of_no_waiting (by rw [hbob]; exact hwaiting), hbob]

theorem execAnswerDrop_past (hpast : a.reqEnd + msT 100 ≤ s.now) : exec .answerDrop s = .next (endAnswer s) := by
  show execAnswerDrop s = _
  unfold execAnswerDrop
  rw [hanswer]
  exact if_pos (by simp [hrun, hpast])

end Answer

/-! ### Flow control (R776) -/

section Flow
variable {echo : List RxChar} {s : State} (hrun : bobRuns s = true) (hidle : busIdle s = true)
include hrun hidle

theorem execFlowControlSend_xoff (hwaiting : 4 ≤ s.bob.waiting.length) (hsent : s.bob.xoffSent = false) :
    exec (.flowControlSend echo) s = .next (sendFlow xoffChar echo
      (modBob (fun b => { b with xoffSent := true, xoffCount := b.xoffCount + 1 }) (emit s .xoff))) :=
  (if_neg (by simp [hrun, hidle])).trans (if_pos (by simp [hwaiting, hsent]))

theorem execFlowControlSend_xon (hwaiting : s.bob.waiting = []) (hsent : s.bob.xoffSent = true) :
    exec (.flowControlSend echo) s = .next (sendFlow xonChar echo (modBob (fun b => { b with xoffSent := false }) (emit s .xon))) :=
  (if_neg (by simp [hrun, hidle])).trans ((if_neg (by simp [hwaiting])).trans (if_pos (by simp [hwaiting, hsent])))

end Flow

theorem sendFlow_bob (c : Byte) (echo : List RxChar) (s : State) : LineOnly s.bob (sendFlow c echo s).bob := sendChars_bob _ _ _

/-- A flow-control character that is echoed does nothing but leave. -/
theorem sendFlow_echoed {c : Byte} {echo : List RxChar} (h : echoed [(c, false)] echo = true) (s : State) :
    (sendFlow c echo s).sent = s.sent ∧ (sendFlow c echo s).flt = s.flt := by
  rw [sendFlow, sendChars_echoed h]
  exact ⟨rfl, rfl⟩

/-! ### The roll-call (R786, R787) -/

/-- The tile's slot has come and has not passed. -/
theorem execRollcallSlot_in {echo : List RxChar} {r a z : Nat} {t : Ticks} {own : Byte} {s : State}
    (hwindow : s.bob.window = some (r, a, z, t)) (hown : ownAddress s = some own) (hrun : bobRuns s = true)
    (hlead : actingLead s = false) (hfirst : a ≤ own.toNat) (hlast : own.toNat ≤ z) (hheld : heldByXoff s = false)
    (hstart : t + (own.toNat - a) * 320 * bobChar s + 8 * bobChar s ≤ s.now)
    (hend : s.now < t + (own.toNat - a) * 320 * bobChar s + 320 * bobChar s) :
    exec (.rollcallSlot echo) s = .next (closeWindow (sendBob 0xFE 0x02 (statusSubset s) echo s)) := by
  have hcome : ¬ s.now + bobBit s < t + (own.toNat - a) * 320 * bobChar s + 8 * bobChar s :=
    Nat.not_lt.2 (hstart.trans (Nat.le_add_right _ _))
  show execRollcallSlot echo s = _
  unfold execRollcallSlot
  simp only [hwindow, hown]
  exact (if_neg (by simp [hrun, hlead, Nat.not_lt.2 hfirst, Nat.not_lt.2 hlast, hcome])).trans
    (if_neg (by simp [hheld, Nat.not_le.2 hend]))

section Rollcall
variable {echo : List RxChar} {s : State}

/-- A whole roll-call opens the window, and needs no second sending. -/
theorem sendRollcall_whole (h : wholeEcho s 0xFF 0x03 (rollcallBody s) echo = true) : ∃ window,
    sendRollcall echo s = modBob (fun b => { b with window := window, answered := [], flagged := [], resendAt := none })
      (sendBob 0xFF 0x03 (rollcallBody s) echo s) := ⟨_, if_pos h⟩

theorem sendRollcall_abandoned (h : wholeEcho s 0xFF 0x03 (rollcallBody s) echo = false) :
    sendRollcall echo s = sendBob 0xFF 0x03 (rollcallBody s) echo s := if_neg (ne_true_of_eq_false h)

theorem sendRollcall_bob :
    (sendRollcall echo s).bob.rollNo = s.bob.rollNo ∧ (sendRollcall echo s).bob.rollNext = s.bob.rollNext ∧
    (wholeEcho s 0xFF 0x03 (rollcallBody s) echo = true → (sendRollcall echo s).bob.resendAt = none ∧
      (sendRollcall echo s).bob.answered = [] ∧ (sendRollcall echo s).bob.flagged = []) ∧
    (wholeEcho s 0xFF 0x03 (rollcallBody s) echo = false → (sendRollcall echo s).bob.resendAt = s.bob.resendAt) := by
  obtain ⟨tx, lastChar, noise, collisions, hbob⟩ :=
    sendBob_bob (dest := 0xFF) (type := 0x03) (body := rollcallBody s) (echo := echo) (s := s)
  have hno := congrArg Bob.rollNo hbob
  have hnext := congrArg Bob.rollNext hbob
  have hresend := congrArg Bob.resendAt hbob
  cases h : wholeEcho s 0xFF 0x03 (rollcallBody s) echo with
  | true =>
    obtain ⟨window, hsend⟩ := sendRollcall_whole h
    rw [hsend]
    exact ⟨hno, hnext, fun _ => ⟨rfl, rfl, rfl⟩, nofun⟩
  | false =>
    rw [sendRollcall_abandoned h]
    exact ⟨hno, hnext, nofun, fun _ => hresend⟩

end Rollcall

/-! ### The beacon (R792 to R796) -/

/-- A handler of S0 writes its entry and does nothing else. -/
theorem handle_of_info {q : Queued} (h : sevOf q.f = 0) (s : State) : handle q s = writeQueued q s := by
  simp [handle, h]

/-- A raise of S0 sends nothing and no fault page. -/
theorem raise_of_info_only {f : FaultName} (h : sevOf f = 0) (detail : BitVec 32) (s : State) :
    Only [.flt, .holds, .weft] s (raise f detail s) := by
  have hq (t : State) : sevOf (arrival f (faultKey f detail) detail false t).f = 0 := h
  simp [raise, submit, handle_of_info (hq _), h]

/-- The judgement of a frame's echoes leaves the pages as they are. -/
theorem judgeEcho_pages (pulses heard : Nat) (s : State) : (judgeEcho pulses heard s).sent = s.sent ∧
    (judgeEcho pulses heard s).bea.lastEnd = s.bea.lastEnd ∧ (judgeEcho pulses heard s).bea.page = s.bea.page ∧
    (judgeEcho pulses heard s).bea.extra = s.bea.extra := by
  have hraise (t : State) : (raise .irEcho 0 t).sent = t.sent ∧ (raise .irEcho 0 t).bea = t.bea :=
    ⟨raise_of_info_only rfl 0 t .sent (by decide), raise_of_info_only rfl 0 t .bea (by decide)⟩
  unfold judgeEcho
  dsimp only
  split
  · split
    · rw [(hraise _).1, (hraise _).2]
      exact ⟨rfl, rfl, rfl, rfl⟩
    · exact ⟨rfl, rfl, rfl, rfl⟩
  · exact ⟨rfl, rfl, rfl, rfl⟩

/-- Half the pulses echoed, or more, raise nothing. -/
theorem judgeEcho_heard {pulses heard : Nat} (h : pulses ≤ 2 * heard) (s : State) : (judgeEcho pulses heard s).flt = s.flt := by
  unfold judgeEcho
  rw [if_neg (Nat.not_lt.2 h)]
  rfl

theorem nextPage_extra (b : Bea) : (nextPage b).extra = b.extra.tail := by
  unfold nextPage
  split
  case h_1 h => rw [h]; rfl
  case h_2 h => rw [apply_ite Bea.extra, ite_self, h]; rfl

/-- The beacon when a frame has left. -/
def beaconSent (s : State) : State :=
  modBea (fun b => { nextPage b with
    tx := some ⟨s.now, frameLevels (beaconFrame s)⟩, lastEnd := some (s.now + (beaconFrame s).length * beaconChar s) })
    (emit s (.beacon (beaconFrame s)))

theorem execBeaconFrame_due {lows : List (Ticks × Ticks)} {s : State} (hrun : beaconRuns s = true)
    (hgap : s.bea.lastEnd = none ∨ passed s.now s.bea.lastEnd (10 * beaconChar s) = true) : exec (.beaconFrame lows) s =
      .next (judgeEcho (pulsesOf (beaconFrame s)).length
        ((pulsesOf (beaconFrame s)).filter (pulseEchoed (beaconBit s) lows)).length (beaconSent s)) := by
  refine if_neg ?_
  rcases hgap with h | h <;> simp [hrun, h]

/-- Settles O54: a lemma for each command, for what a frame is, and for what leaves. -/
theorem bobbinFramesAndFlow : Obligations.BobbinFramesAndFlow := by
  unfold Obligations.BobbinFramesAndFlow
  refine ⟨?xoff, ?xon, fun s hrun hdue => if_pos (by simp [hrun, hdue]), fun s hrun hpartial hgap => if_pos (by simp [hrun, hpartial, hgap]),
    ?answered, ?collided, fun a s => execAnswerDrop_past, ?xoffSent, ?xonSent, fun levels s => execBobbinFrame_received,
    fun g last ended s haddr hflow hdest => takeSeg_other haddr hflow hdest last ended, unescape_flatMap_escapeBob,
    fun f s => checkFrame_untagged, fun f s => takeOrderFrame_stale, freshOrder_noteOrder, fun echo r a z t own s => execRollcallSlot_in,
    ?rollcall, ?resend, ?beacon⟩
  case xoff =>
    intro s hrun
    exact ⟨_, if_pos hrun, decide_eq_true (Nat.lt_add_of_pos_right (by decide)), rfl, rfl⟩
  case xon => exact fun s hrun => ⟨_, if_pos hrun, rfl, rfl⟩
  case answered =>
    intro echo a s hanswer hrun hsending hheld htime hwaiting hwhole
    obtain ⟨tx, lastChar, noise, collisions, hexec, -⟩ := execAnswerSend_due hanswer hrun hsending hheld htime hwaiting
    exact ⟨_, hexec, rfl, rfl, sendBob_whole_sent hwhole⟩
  case collided =>
    intro echo a s hanswer hrun hsending hheld htime hwaiting hwhole
    obtain ⟨tx, lastChar, noise, collisions, hexec, hcount⟩ := execAnswerSend_due hanswer hrun hsending hheld htime hwaiting
    exact ⟨_, hexec, rfl, rfl, hcount.trans (sendBob_collided hwhole)⟩
  case xoffSent =>
    intro echo s hrun hidle hwaiting hsent
    obtain ⟨tx, lastChar, noise, collisions, hbob⟩ := sendFlow_bob xoffChar echo
      (modBob (fun b => { b with xoffSent := true, xoffCount := b.xoffCount + 1 }) (emit s .xoff))
    exact ⟨_, execFlowControlSend_xoff hrun hidle hwaiting hsent, by rw [hbob]; rfl, by rw [hbob]; rfl, fun h => sendFlow_echoed h _⟩
  case xonSent =>
    intro echo s hrun hidle hwaiting hsent
    obtain ⟨tx, lastChar, noise, collisions, hbob⟩ := sendFlow_bob xonChar echo
      (modBob (fun b => { b with xoffSent := false }) (emit s .xon))
    exact ⟨_, execFlowControlSend_xon hrun hidle hwaiting hsent, by rw [hbob]; rfl, fun h => sendFlow_echoed h _⟩
  case rollcall =>
    intro echo u s hmay hdue hu
    obtain ⟨hno, hnext, hwhole, hpart⟩ := sendRollcall_bob (echo := echo) (s := modBob (fun b => { b with
      rollNo := b.rollNo + 1, rollNext := some (s.now + secT 60), resendAt := some (s.now + secT 1) }) s)
    subst hu
    exact ⟨_, if_pos (by simp [hmay, hdue]), hno, hnext, hwhole, hpart⟩
  case resend =>
    intro echo s hmay hdue
    obtain ⟨hno, hnext, hwhole, hpart⟩ := sendRollcall_bob (echo := echo) (s := modBob (fun b => { b with resendAt := none }) s)
    refine ⟨_, if_pos (by simp [hmay, hdue]), hno, ?_, hnext⟩
    cases h : wholeEcho (modBob (fun b => { b with resendAt := none }) s) 0xFF 0x03
      (rollcallBody (modBob (fun b => { b with resendAt := none }) s)) echo with
    | true => exact (hwhole h).1
    | false => exact hpart h
  case beacon =>
    intro lows s hrun hgap
    obtain ⟨hsent, hend, hpage, hextra⟩ := judgeEcho_pages (pulsesOf (beaconFrame s)).length
      ((pulsesOf (beaconFrame s)).filter (pulseEchoed (beaconBit s) lows)).length (beaconSent s)
    exact ⟨_, execBeaconFrame_due hrun hgap, hsent, hend, hpage, hextra.trans (nextPage_extra s.bea), fun h => judgeEcho_heard h _⟩

end Sys2Proof.Machine
end
